-- ==== Sys2Proof/Word.lean ====
section
/-! DEFINITION. The word types of the module and their plainest arithmetic. -/

namespace Sys2Proof

/-- One byte. -/
abbrev Byte := BitVec 8
/-- A 32-bit word: a vector register of one thread (R56), a lane mask, a 32-bit register. -/
abbrev Word := BitVec 32
/-- A 64-bit word: a uniform register, an instruction word. -/
abbrev DWord := BitVec 64

end Sys2Proof
end

