-- ==== Sys2Proof/Syntax.lean ====
section
/-! DEFINITION. The commands of the module, one constructor of Instr per row of the opcode table, and their operands. -/

namespace Sys2Proof

/-- The 16-bit status codes of R6. -/
inductive Status where
  | ok | busy | stale | notPermitted | contextLost | spanAborted | saggerClosed | epochStale | trackerLost
  | faultUnresolved | poisoned | fenceAbandoned | glazeTagMismatch | scopeMismatch | banked
  deriving DecidableEq, Repr

/-- The value of a status code (R6). -/
def Status.code : Status → Nat
  | .ok => 0x0000 | .busy => 0x0001 | .stale => 0x0002 | .notPermitted => 0x0010 | .contextLost => 0x0020
  | .spanAborted => 0x0021 | .saggerClosed => 0x0022 | .epochStale => 0x0030 | .trackerLost => 0x0031
  | .faultUnresolved => 0x0040 | .poisoned => 0x0050 | .fenceAbandoned => 0x0060
  | .glazeTagMismatch => 0x0070 | .scopeMismatch => 0x0080 | .banked => 0x00F0

/-- All status codes. -/
def Status.all : List Status :=
  [.ok, .busy, .stale, .notPermitted, .contextLost, .spanAborted, .saggerClosed, .epochStale, .trackerLost,
   .faultUnresolved, .poisoned, .fenceAbandoned, .glazeTagMismatch, .scopeMismatch, .banked]

/-- The status of a value; none for a value that R6 does not list. -/
def Status.ofCode (n : Nat) : Option Status := Status.all.find? (fun s => s.code == n)

/-- What the error correction of a core finds while an instruction issues (R65): nothing, an error that it corrects, or one
that it cannot, in the register of a lane or in the row of core store that holds an offset. -/
inductive CoreEcc where
  | clean
  | corrected
  | register (reg lane : Nat)
  | row (off : Nat)
  deriving DecidableEq, Repr

/-- A bundle: the model's number of its resident work group, its index in it, and what error correction finds while the
row's instruction issues. -/
structure BRef where
  wg : Nat
  idx : Nat
  ecc : CoreEcc := .clean
  deriving DecidableEq, Repr

/-- The fields of an instruction word below CLASS and FUNC (R78). -/
structure Fields where
  ge : Bool
  gn : Bool
  gp : BitVec 3
  dst : BitVec 7
  a : BitVec 7
  b : BitVec 7
  c : BitVec 7
  md : BitVec 19
  deriving DecidableEq, Repr

/-- A PCIe function: port 0 or 1; index 0 is the PF, 1 to 63 a VF (R337). -/
structure Fn where
  port : Nat
  idx : Nat
  deriving DecidableEq, Repr

/-- A queue: its context's number and its index in the context (R363). -/
structure QRef where
  ctx : Nat
  q : Nat
  deriving DecidableEq, Repr

/-- The release record of R239, also the position of a releasing agent. CORE 15 is an uncached agent or a host;
`modLevel` says that such an agent is placed in its module and not in a cluster (R222). -/
structure RelRec where
  scope : Nat
  module : Nat
  cluster : Nat
  core : Nat
  host : Bool
  modLevel : Bool
  deriving DecidableEq, Repr

/-- A message of the fabric: its header's fields (R252), its data, the poison mark the data carries (R191) and the
release record that a remote write carries in checked mode (R239). -/
structure Msg where
  op : Nat
  dest : Nat
  src : Nat
  span : Nat
  epoch : Nat
  hops : Nat
  ord : Bool
  tag : Nat
  data : List Byte
  poison : Bool
  rr : Option RelRec
  deriving DecidableEq, Repr

/-- What an error check of a unit read found (R189, R190). -/
inductive Ecc where
  | clean | corrected | uncorrectable
  deriving DecidableEq, Repr

/-- A DATA flit as a lane's receiver meets it: header bits (R250), 240 payload bytes, whether FEC left it good, and
what the messages that start in it carry beside their bytes. -/
structure Flit where
  hdr : BitVec 128
  payload : List Byte
  fec : Ecc
  poison : Bool
  rr : Option RelRec
  deriving DecidableEq, Repr

/-- The operations of the atomic table (R96), in FUNC order. -/
inductive AtomOp where
  | add | smin | smax | umin | umax | and | or | xor | exch | cas | fadd
  deriving DecidableEq, Repr

/-- What a forward asks of an owner (R209). -/
inductive FwdKind where
  | shared | own | uncached
  deriving DecidableEq, Repr

/-- An engine as error records and CONE_STALL name it: kind 0 core, by ISSUER number, 1 DMA engine, 2 lane, 3 other engine
of a cluster, by ISSUER number, 4 processor, by its number of R422 (R265, R435, R478). -/
structure EngineId where
  kind : Nat
  num : Nat
  deriving DecidableEq, Repr

/-- The slot of an abort wave (R471). -/
structure AbortSlot where
  time : Nat
  abort : Nat
  cause : Nat
  origin : Nat
  deriving DecidableEq, Repr

/-- A fence signal from another module: its sender, the sender's number for it, the handle, the value, its scope and
the signalling context of the sender (R380, R394, R396). With `answer`, it is what comes back on CTRL for a signal that this
module sent: the acknowledgement's status, or TRACKER_LOST when the request timer has elapsed without one. -/
structure FenceSignal where
  sender : Nat
  id : Nat
  handle : Nat
  value : BitVec 64
  scope : Nat
  checked : Bool
  ctx : Nat
  answer : Option Status
  deriving DecidableEq, Repr

/-- An end of a lane as training exchanges it (R275). -/
structure LaneEnd where
  module : Nat
  engine : Nat
  lane : Nat
  deriving DecidableEq, Repr

/-- What a zeroing engine has finished: a whole channel, or the granules of an extent table entry (R194, R195). -/
inductive ZeroJob where
  | channel (c : Nat)
  | extent (idx : Nat)
  deriving DecidableEq, Repr

/-- An ATS Invalidation Request: its port and tag, the function, a range with or without a PASID, or all (R358). -/
structure AtsInv where
  port : Nat
  itag : Nat
  fn : Fn
  pasid : Option Nat
  base : Nat
  len : Nat
  all : Bool
  deriving DecidableEq, Repr

/-- A Translation Completion: Unsupported Request or Completer Abort, or a page of a size with its permissions
(R352, R353, R355). -/
inductive TransComp where
  | rejected
  | page (size : Nat) (rd wr : Bool)
  deriving DecidableEq, Repr

/-- What an answer of the host's translation service is for: a DMA packet, or a record that the module writes, by its number (R353,
R373, R429). -/
inductive MoveRef where
  | packet (q : QRef) (pidx : Nat)
  | put (num : Nat)
  deriving DecidableEq, Repr

/-- A far end's request to spare a lane: abruptly, when it has withdrawn the lane already, or without a hit (R270-R273). -/
structure SpareAsk where
  lane : Nat
  abrupt : Bool
  deriving DecidableEq, Repr

/-- The codes of a PRG Response (R355, R356). -/
inductive PrgCode where
  | success | invalid | failure
  deriving DecidableEq, Repr

/-- What a host read completes with: data, a glazed unit's tag entry, whether a TLP carried poison; or Unsupported
Request or Completer Abort (R352, R502). -/
inductive ReadComp where
  | data (bytes : List Byte) (tag : BitVec 128) (ep : Bool)
  | rejected
  deriving DecidableEq, Repr

/-- A mailbox (R400). -/
inductive Mbx where
  | fn (f : Fn)
  | bmc
  deriving DecidableEq, Repr

/-- An ECS command as a row names it: its index in its ring or its MCTP tag; for the BMC, its 256 bytes; the input, none
when BUF_IN cannot be read; whether BUF_OUT can be written (R404, R406, R407). -/
structure Cmd where
  idx : Nat
  bytes : List Byte
  input : Option (List Byte)
  outOk : Bool
  deriving DecidableEq, Repr

/-- The registers that software writes and that have no row of their own, by block: a mailbox, an event queue, the
identity registers, the window segment table, an MSI-X vector's control, and the PCIe controls this spec names (R338, R340,
R344, R351, R354, R362, R401, R428). -/
inductive RegBlock where
  | mailbox (f : Fn)
  | eventQueue (f : Fn) (q : Nat)
  | identity (f : Fn)
  | segments (f : Fn)
  | msix (f : Fn) (vector : Nat)
  | command (f : Fn)
  | devControl (f : Fn)
  | atsControl (f : Fn)
  | sriov (port : Nat)
  | msixCap (f : Fn)
  | aer (f : Fn)
  | bar0 (f : Fn)
  deriving DecidableEq, Repr

/-- Where an MCTP message comes from (R407, R532): the SMBus address it was sent to, none for a PCIe VDM; its source endpoint and
message tag, and the instance ID of a PLDM message. -/
structure MctpFrom where
  smbus : Option Nat
  eid : Nat
  tag : Nat
  inst : Nat
  deriving DecidableEq, Repr

/-- A message over MCTP: where it comes from, and what it says (R407). -/
structure MctpMsg (α : Type) where
  from_ : MctpFrom
  body : α
  deriving DecidableEq, Repr

/-- The MCTP control messages (R407). -/
inductive MctpReq where
  | setEid (eid : Nat)
  | getVersion (type : Nat)
  | getTypes
  | other (code : Nat)
  deriving DecidableEq, Repr

/-- The PLDM Type 2 messages: a sensor read, naming the event receiver, and others (R408, R433, R525). -/
inductive PldmReq where
  | sensor (id : Nat)
  | receiver (on : Bool)
  | other (code : Nat)
  deriving DecidableEq, Repr

/-- The PLDM Type 5 messages: an image given to a component with its version, or its activation (R408, R487). -/
inductive PldmFw where
  | stage (component : Nat) (version : BitVec 32)
  | activate (component : Nat)
  deriving DecidableEq, Repr

/-- Where an SPDM request comes from (R507). -/
inductive SpdmPort where
  | doe (port : Nat)
  | mctp (from_ : MctpFrom)
  deriving DecidableEq, Repr

/-- The algorithms an SPDM requester offers that matter here (R507). -/
structure SpdmAlgs where
  p384 : Bool
  sha384 : Bool
  measSha384 : Bool
  deriving DecidableEq, Repr

/-- What a share of energy is used by: a packet of a queue, or a batch that another module's launch runs here (R387, R456). -/
inductive EnergyOf where
  | packet (q : QRef) (pidx : Nat)
  | batch (module batch : Nat)
  deriving DecidableEq, Repr

/-- What a context had of a grain's activity in 1 ms, as R456 counts it within a grain, core-busy cycles or bytes issued, and what each of
its packets had of that, cycles of work groups or bytes. -/
structure CtxUse where
  ctx : Nat
  weight : Nat
  works : List (EnergyOf × Nat)
  deriving DecidableEq, Repr

/-- What the activity counters of a rail counted in 1 ms for a grain (R456): the rail by its number of REGULATOR_ALERT, 0 to 4; the grain,
by its kind (0 core, 1 memory, 2 link) and its number; the count, and the contexts that shared it. -/
structure GrainUse where
  rail : Nat
  kind : Nat
  num : Nat
  count : Nat
  ctxs : List CtxUse
  deriving DecidableEq, Repr

/-- What the meters and the counters gave in 1 ms: the energy of each rail (CW, CE, NOC, MEM, OPT, SB) in mJ, and what was used (R455, R456). -/
structure EnergyUse where
  rails : List Nat
  uses : List GrainUse
  deriving DecidableEq, Repr

/-- What a start step found: wires to replace by Viaduct direction, crossings unusable after repair, tracker banks that pass, whether an
array is beyond its spares, cores that fail, physical channels that fail, the images that pass measurement as component and whether it is B
(R462, R463), whether saved parameters are valid (R464) and whether the standby checks of R465 hold. -/
structure StepReport where
  viaductBad : List Nat
  crossingsBad : List Nat
  banksGood : Nat
  arrayBad : Bool
  coresBad : List Nat
  physBad : List Nat
  images : List (Nat × Bool)
  savedValid : Bool
  deriving DecidableEq, Repr

/-- The fabric map that the fabric manager installs: this module's number, the root, lane groups as number, neighbour,
spares and lanes, routes as destination, SELF and next hops (R261, R262, R277). -/
structure FabricMap where
  module : Nat
  root : Nat
  groups : List (Nat × Nat × BitVec 16 × BitVec 128)
  routes : List (Nat × Bool × List (Nat × Nat))
  deriving DecidableEq, Repr

namespace Machine

/-! Bundles, work groups and save records: part of the state of the cores, and what piers hand one another of a launch. -/

/-- An entry of a bundle's mask stack (R91). -/
inductive MaskEntry where
  | ifE (saved other : Word) (inElse : Bool)
  | loopE (saved : Word)
  deriving DecidableEq, Repr

/-- The accumulation mode of a bank (R109). -/
inductive AccMode where
  | long | fp32 | windowed
  deriving DecidableEq, Repr

/-- An open accumulator bank: its shape, mode, anchor, flag word, values by row, and the per-tensor scales of the
operands that last updated it (R69, R110, R111). -/
structure Bank where
  m : Nat
  n : Nat
  mode : AccMode
  anchor : Int
  flags : Byte
  vals : List (BitVec 128)
  ptsA : Option Word
  ptsB : Option Word
  deriving DecidableEq, Repr

/-- What a bundle waits in: a barrier, a counter or a fence (R100, R102, R103), or what an instruction that has not
issued waits for. -/
inductive Wait where
  | barrier (id : Nat) (core : Bool)
  | counter (f : Fields) (deadline : Option Nat)
  | fence (f : Fields)
  | bank (f : Fields)
  | engine (sampler : Bool) (f : Fields)
  | transfers
  | tmma
  | acks
  | ordered
  | line
  deriving DecidableEq, Repr

/-- A TMMA that has issued and has not completed: its chain, where it stands, the bank's flag word after it, the flags it
changed from 0 to 1 (R118, R135), and the core-store ranges it reads and writes (R63). -/
structure MmaRun where
  chain : Nat
  pc : Nat
  word : DWord
  flags : Byte
  newFlags : Byte
  ranges : List (Nat × Nat)
  deriving DecidableEq, Repr

/-- A register of one lane that an operation in flight will write (R115): the lowest register, how many, the lane. -/
structure PendReg where
  reg : Nat
  n : Nat
  lane : Nat
  deriving DecidableEq, Repr

/-- One bundle (R56-R59, R90, R91): v and its poison by register × 32 + lane, p as lane masks; `l2Wait` the lines that
its cluster's L2 had queued at the bundle's last acquire (R225). -/
structure Bundle where
  idx : Nat
  pc : Nat
  live : Word
  mask : Word
  stack : List MaskEntry
  v : List Word
  poison : List (Nat × Status)
  p : List Word
  u : List DWord
  t : List (Option (BitVec 256))
  vflags : Byte
  chains : List (Option Bank)
  mma : List MmaRun
  waiting : Option Wait
  pend : List PendReg
  rstOut : Nat
  ordOut : Nat
  /-- The lanes whose ordered requests have left while the others wait for room among the 64 outstanding (R287). -/
  sent : Word
  relFence : Option Nat
  kept : List (Option RelRec)
  l2Wait : List Nat
  ended : Bool
  deriving DecidableEq, Repr

/-- What one storage line of a tile transfer moves: its span address, its length, the core-store offset of its 16-byte
chunk 0 and the chunk XOR of the swizzle (R105, R107); the bytes, once read. -/
structure XferLine where
  sa : Nat
  len : Nat
  cs : Nat
  swz : Nat
  data : Option (List Byte)
  deriving DecidableEq, Repr

/-- A tile transfer in flight (R74, R107). -/
structure Xfer where
  bundle : Nat
  store : Bool
  lines : List XferLine
  deriving DecidableEq, Repr

/-- Where a resident or saved work group stands (R127). -/
inductive WgState where
  | running | stopping | saving
  deriving DecidableEq, Repr

/-- A work group on a core of this module (R53, R61, R100); `reads` are the pages of its save record that have yet to come
over the fabric (R131). -/
structure WorkGroup where
  id : Nat
  launch : Nat
  lin : Nat
  core : Nat
  w : Nat
  base : Nat
  state : WgState
  cycle : Nat
  barriers : List (BitVec 64)
  bundles : List Bundle
  xfers : List Xfer
  reads : List Nat
  deriving DecidableEq, Repr

/-- A saved work group (R128): the work group, its core store with the poisoned rows, and the span addresses of the 4 KiB
pages of the save pool that its record lies in, in order (R129). -/
structure SaveRec where
  wg : WorkGroup
  store : List Byte
  storePoison : List Nat
  pages : List Nat
  deriving DecidableEq, Repr

/-- The classes of traps (R136). -/
inductive TrapClass where
  | il | ma | ox | pd | af | db | sm
  deriving DecidableEq, Repr

/-- The codes of R136. -/
def TrapClass.code : TrapClass → Nat
  | .il => 1 | .ma => 2 | .ox => 3 | .pd => 4 | .af => 5 | .db => 6 | .sm => 7

/-- A trap as its record tells it (R138). -/
structure TrapRec where
  cls : TrapClass
  cause : Status
  lane : Nat
  bundle : Nat
  pc : Nat
  wg : Nat
  word : DWord
  coreRank : Nat
  spanRank : Nat
  dbcode : Nat
  flags : Byte
  time : Nat
  deriving DecidableEq, Repr

/-- What the context, the packet and the kernel image fix for a launch (R119, R121, R122, R365). -/
structure LaunchSpec where
  seed : DWord
  checked : Bool
  debug : Bool
  reqId : Word
  trapEn : Byte
  rcvPd : Bool
  evtInexact : Bool
  record : Bool
  overlap : Bool
  isLocal : Bool
  cscope : Nat
  codeAddr : Nat
  codeLen : Nat
  entry : Nat
  constAddr : Nat
  argAddr : Nat
  args : List DWord
  regs : Nat
  bundles : Nat
  cstore : Nat
  gridX : Nat
  gridY : Nat
  gridZ : Nat
  deriving DecidableEq, Repr

end Machine

/-- A batch of a launch's work groups from its coordinator on another pier: that module, its number for the batch and for the
context, what the context, the packet and the image fix, saved work groups, the linear indices first, first + 1, …, and for how many of its
work groups the save pool keeps room (R124, R129, R131, R367). -/
structure WgBatch where
  module : Nat
  launch : Nat
  ctx : Nat
  span : Nat
  weight : Nat
  spec : Machine.LaunchSpec
  saved : List Machine.SaveRec
  first : Nat
  count : Nat
  room : Nat
  deriving DecidableEq, Repr

/-- How a batch ended on the pier it was handed to: the launch's flag word there, the first failure, the first trap and how
many came after it, whether one was not recoverable, the unstarted work groups it gives back, as first and end, and the energy
apportioned to it there (R124, R134, R137, R387). -/
structure WgReport where
  flags : Byte
  fail : Option Status
  trap : Option Machine.TrapRec
  more : Nat
  fatal : Bool
  back : List (Nat × Nat)
  energy : Nat
  deriving DecidableEq, Repr

/-- What queue processors tell each other about a batch, by the coordinator's number for it: the batch; that it is to stop;
a save record handed to the pending list; pages of a record that have been read; its end (R124, R127, R131, R136). -/
inductive WgMail where
  | work (b : WgBatch)
  | stop (module batch : Nat)
  | saved (batch : Nat) (r : Machine.SaveRec)
  | read (batch : Nat) (pages : List Nat)
  | report (batch : Nat) (r : WgReport)
  deriving DecidableEq, Repr

/-- Where the head of a launch's pending list goes: to a core of this module, or in a batch of some work groups to the pier
of a rank (R124). -/
inductive WorkPlace where
  | core (c : Nat)
  | pier (rank count : Nat)
  deriving DecidableEq, Repr

/-- The commands: one constructor per row of the opcode table, in its order. -/
inductive Instr where
  /-- IADD (R84). Integer add of A and B into v[DST], wrapping modulo 2^32. -/
  | iadd (b : BRef) (f : Fields)
  /-- ISUB (R84). Integer subtract B from A into v[DST]. -/
  | isub (b : BRef) (f : Fields)
  /-- IMUL (R84). Low 32 bits of A times B into v[DST]. -/
  | imul (b : BRef) (f : Fields)
  /-- IMULHS (R84). High 32 bits of the signed product into v[DST]. -/
  | imulhs (b : BRef) (f : Fields)
  /-- IMULHU (R84). High 32 bits of the unsigned product into v[DST]. -/
  | imulhu (b : BRef) (f : Fields)
  /-- IMAC (R84). Low 32 bits of A times B plus v[SRCC] into v[DST]. -/
  | imac (b : BRef) (f : Fields)
  /-- AND (R84). Bitwise AND of A and B into v[DST]. -/
  | andv (b : BRef) (f : Fields)
  /-- OR (R84). Bitwise OR of A and B into v[DST]. -/
  | orv (b : BRef) (f : Fields)
  /-- XOR (R84). Bitwise XOR of A and B into v[DST]. -/
  | xorv (b : BRef) (f : Fields)
  /-- SHL (R84). A shifted left by B[4:0] into v[DST]. -/
  | shl (b : BRef) (f : Fields)
  /-- SHR (R84). A shifted right with zero fill into v[DST]. -/
  | shr (b : BRef) (f : Fields)
  /-- SAR (R84). A shifted right with sign fill into v[DST]. -/
  | sar (b : BRef) (f : Fields)
  /-- IMINS (R84). Signed minimum of A and B into v[DST]. -/
  | imins (b : BRef) (f : Fields)
  /-- IMAXS (R84). Signed maximum of A and B into v[DST]. -/
  | imaxs (b : BRef) (f : Fields)
  /-- IMINU (R84). Unsigned minimum of A and B into v[DST]. -/
  | iminu (b : BRef) (f : Fields)
  /-- IMAXU (R84). Unsigned maximum of A and B into v[DST]. -/
  | imaxu (b : BRef) (f : Fields)
  /-- ICMP (R83). Integer comparison of A and B by code into p[DST]. -/
  | icmp (b : BRef) (f : Fields)
  /-- PICK (R84). Selects A or B by a predicate into v[DST]. -/
  | pick (b : BRef) (f : Fields)
  /-- BITCNT (R84). Counts the 1 bits of A into v[DST]. -/
  | bitcnt (b : BRef) (f : Fields)
  /-- CLZ (R84). Counts leading zero bits of A into v[DST]. -/
  | clz (b : BRef) (f : Fields)
  /-- MOV (R84). Copies A into v[DST]. -/
  | movv (b : BRef) (f : Fields)
  /-- XLANE (R84). Reads v[SRCA] of lane B[4:0] into v[DST]. -/
  | xlane (b : BRef) (f : Fields)
  /-- FADD (R85). FP32 addition under IEEE 754 with flags. -/
  | fadd (b : BRef) (f : Fields)
  /-- FSUB (R85). FP32 subtraction under IEEE 754 with flags. -/
  | fsub (b : BRef) (f : Fields)
  /-- FMUL (R85). FP32 multiplication under IEEE 754 with flags. -/
  | fmul (b : BRef) (f : Fields)
  /-- FMAC (R85). FP32 fused multiply-add with one rounding. -/
  | fmac (b : BRef) (f : Fields)
  /-- FDIV (R85). FP32 division at the divide rate. -/
  | fdiv (b : BRef) (f : Fields)
  /-- FSQRT (R85). FP32 square root of A. -/
  | fsqrt (b : BRef) (f : Fields)
  /-- FMIN (R85). IEEE 754-2019 minimum of A and B. -/
  | fmin (b : BRef) (f : Fields)
  /-- FMAX (R85). IEEE 754-2019 maximum of A and B. -/
  | fmax (b : BRef) (f : Fields)
  /-- FCMP (R83). FP32 comparison of A and B by code into p[DST]. -/
  | fcmp (b : BRef) (f : Fields)
  /-- FPOW2 (R86). Computes 2^A within 1 ulp. -/
  | fpow2 (b : BRef) (f : Fields)
  /-- FLOG2 (R86). Computes log2 A within 1 ulp. -/
  | flog2 (b : BRef) (f : Fields)
  /-- CVT (R88). Converts one element slot of v[SRCA] into a slot of v[DST]. -/
  | cvt (b : BRef) (f : Fields)
  /-- I2F (R87). Converts a signed or unsigned integer to FP32. -/
  | i2f (b : BRef) (f : Fields)
  /-- F2I (R87). Converts FP32 to INT32 with range limiting. -/
  | f2i (b : BRef) (f : Fields)
  /-- PAND (R87). Predicate AND. -/
  | pand (b : BRef) (f : Fields)
  /-- POR (R87). Predicate OR. -/
  | por (b : BRef) (f : Fields)
  /-- PXOR (R87). Predicate XOR. -/
  | pxor (b : BRef) (f : Fields)
  /-- PNOT (R87). Predicate NOT. -/
  | pnot (b : BRef) (f : Fields)
  /-- PSET (R87). Sets a predicate to MOD[0]. -/
  | pset (b : BRef) (f : Fields)
  /-- UADD (R89). Uniform 64-bit addition. -/
  | uadd (b : BRef) (f : Fields)
  /-- USUB (R89). Uniform 64-bit subtraction. -/
  | usub (b : BRef) (f : Fields)
  /-- UMUL (R89). Uniform 64-bit multiplication, low bits. -/
  | umul (b : BRef) (f : Fields)
  /-- UAND (R89). Uniform bitwise AND. -/
  | uand (b : BRef) (f : Fields)
  /-- UOR (R89). Uniform bitwise OR. -/
  | uor (b : BRef) (f : Fields)
  /-- UXOR (R89). Uniform bitwise XOR. -/
  | uxor (b : BRef) (f : Fields)
  /-- USHL (R89). Uniform shift left. -/
  | ushl (b : BRef) (f : Fields)
  /-- USHR (R89). Uniform logical shift right. -/
  | ushr (b : BRef) (f : Fields)
  /-- USAR (R89). Uniform arithmetic shift right. -/
  | usar (b : BRef) (f : Fields)
  /-- UMOV (R89). Copies a uniform register. -/
  | umov (b : BRef) (f : Fields)
  /-- ULDI (R89). Loads a sign-extended 40-bit immediate into a uniform register. -/
  | uldi (b : BRef) (f : Fields)
  /-- ULDHI (R89). Loads bits [63:40] of a uniform register from an immediate. -/
  | uldhi (b : BRef) (f : Fields)
  /-- UCMP (R89). Uniform comparison giving 1 or 0. -/
  | ucmp (b : BRef) (f : Fields)
  /-- UADDI (R89). Adds a sign-extended immediate to a uniform register. -/
  | uaddi (b : BRef) (f : Fields)
  /-- ULANE (R89). Reads one lane of a vector register into a uniform register. -/
  | ulane (b : BRef) (f : Fields)
  /-- UVOTE (R89). Forms a mask of active threads whose predicate is 1. -/
  | uvote (b : BRef) (f : Fields)
  /-- BRA (R90). Branches by OFFSET. -/
  | bra (b : BRef) (f : Fields)
  /-- BRU (R90). Branches by OFFSET on a uniform register being nonzero or zero. -/
  | bru (b : BRef) (f : Fields)
  /-- CALL (R90). Saves the return offset and branches. -/
  | call (b : BRef) (f : Fields)
  /-- RET (R90). Sets the program counter from a uniform register. -/
  | ret (b : BRef) (f : Fields)
  /-- IF (R91). Pushes an IF entry and narrows or branches the active mask. -/
  | ifd (b : BRef) (f : Fields)
  /-- ELSE (R91). Switches to the other mask of the top IF entry. -/
  | elsed (b : BRef) (f : Fields)
  /-- ENDIF (R91). Pops the IF entry and restores its saved mask. -/
  | endif (b : BRef) (f : Fields)
  /-- LOOP (R91). Pushes a LOOP entry. -/
  | loop (b : BRef) (f : Fields)
  /-- BRK (R91). Removes breaking threads from the mask and enclosed IF masks. -/
  | brk (b : BRef) (f : Fields)
  /-- ENDLOOP (R91). Branches back while the mask is nonzero, else pops the LOOP entry. -/
  | endloop (b : BRef) (f : Fields)
  /-- EXIT (R91). Ends the active threads, ending the bundle and work group when none remain. -/
  | exit (b : BRef) (f : Fields)
  /-- CSLD (R93). Loads from the work group's core-store allocation. -/
  | csld (b : BRef) (f : Fields)
  /-- CSST (R93). Stores to the work group's core-store allocation. -/
  | csst (b : BRef) (f : Fields)
  /-- LD (R94). Loads span memory through L1 with optional acquire. -/
  | ld (b : BRef) (f : Fields)
  /-- ST (R94). Stores span memory through L1 with optional release. -/
  | st (b : BRef) (f : Fields)
  /-- PREF (R94). Brings a line into L1 with read permission. -/
  | pref (b : BRef) (f : Fields)
  /-- ATOMIC_ADD (R96). Atomic add at the line's home. -/
  | atomicAdd (b : BRef) (f : Fields)
  /-- ATOMIC_SMIN (R96). Atomic signed minimum at the home. -/
  | atomicSmin (b : BRef) (f : Fields)
  /-- ATOMIC_SMAX (R96). Atomic signed maximum at the home. -/
  | atomicSmax (b : BRef) (f : Fields)
  /-- ATOMIC_UMIN (R96). Atomic unsigned minimum at the home. -/
  | atomicUmin (b : BRef) (f : Fields)
  /-- ATOMIC_UMAX (R96). Atomic unsigned maximum at the home. -/
  | atomicUmax (b : BRef) (f : Fields)
  /-- ATOMIC_AND (R96). Atomic bitwise AND at the home. -/
  | atomicAnd (b : BRef) (f : Fields)
  /-- ATOMIC_OR (R96). Atomic bitwise OR at the home. -/
  | atomicOr (b : BRef) (f : Fields)
  /-- ATOMIC_XOR (R96). Atomic bitwise XOR at the home. -/
  | atomicXor (b : BRef) (f : Fields)
  /-- ATOMIC_EXCH (R96). Atomic exchange at the home. -/
  | atomicExch (b : BRef) (f : Fields)
  /-- ATOMIC_CAS (R96). Atomic compare-and-swap at the home. -/
  | atomicCas (b : BRef) (f : Fields)
  /-- ATOMIC_FADD (R96). Atomic FP32 add with RNE at the home. -/
  | atomicFadd (b : BRef) (f : Fields)
  /-- RLD (R97). Issues a remote load to a pier of the span. -/
  | rld (b : BRef) (f : Fields)
  /-- RST (R97). Issues a remote store counted at the target's landing counter. -/
  | rst (b : BRef) (f : Fields)
  /-- RATOM_ADD (R97). Issues a remote atomic add. -/
  | ratomAdd (b : BRef) (f : Fields)
  /-- RATOM_SMIN (R97). Issues a remote atomic signed minimum. -/
  | ratomSmin (b : BRef) (f : Fields)
  /-- RATOM_SMAX (R97). Issues a remote atomic signed maximum. -/
  | ratomSmax (b : BRef) (f : Fields)
  /-- RATOM_UMIN (R97). Issues a remote atomic unsigned minimum. -/
  | ratomUmin (b : BRef) (f : Fields)
  /-- RATOM_UMAX (R97). Issues a remote atomic unsigned maximum. -/
  | ratomUmax (b : BRef) (f : Fields)
  /-- RATOM_AND (R97). Issues a remote atomic AND. -/
  | ratomAnd (b : BRef) (f : Fields)
  /-- RATOM_OR (R97). Issues a remote atomic OR. -/
  | ratomOr (b : BRef) (f : Fields)
  /-- RATOM_XOR (R97). Issues a remote atomic XOR. -/
  | ratomXor (b : BRef) (f : Fields)
  /-- RATOM_EXCH (R97). Issues a remote atomic exchange. -/
  | ratomExch (b : BRef) (f : Fields)
  /-- RATOM_CAS (R97). Issues a remote atomic compare-and-swap. -/
  | ratomCas (b : BRef) (f : Fields)
  /-- RATOM_FADD (R97). Issues a remote atomic FP32 add. -/
  | ratomFadd (b : BRef) (f : Fields)
  /-- BARB (R100). Arrives at a bundle barrier id and waits for the work group. -/
  | barb (b : BRef) (f : Fields)
  /-- BARC (R100). Core barrier with tile-transfer drain, release and acquire at core scope. -/
  | barc (b : BRef) (f : Fields)
  /-- FENCE (R101). Release, acquire or acquire-release fence at a scope. -/
  | fence (b : BRef) (f : Fields)
  /-- LCWAIT (R102). Waits for a landing counter to reach an expected value. -/
  | lcwait (b : BRef) (f : Fields)
  /-- LCWAIT_SATISFIED (R102). Counter reaches the expected value; p set to 1 and acquire performed. -/
  | lcwaitSatisfied (b : BRef)
  /-- LCWAIT_TIMEOUT (R102). LCWAIT timeout elapses; p set to 0 with no acquire. -/
  | lcwaitTimeout (b : BRef)
  /-- FWAIT (R103). Waits for a fence object to reach a target value. -/
  | fwait (b : BRef) (f : Fields)
  /-- TDSET (R106). Loads and checks a tile descriptor from four uniform registers. -/
  | tdset (b : BRef) (f : Fields)
  /-- TDGET (R104). Reads a tile descriptor into four uniform registers. -/
  | tdget (b : BRef) (f : Fields)
  /-- TLOAD (R107). Starts a tile transfer from span memory into core store. -/
  | tload (b : BRef) (f : Fields)
  /-- TSTORE (R107). Starts a tile or bank-mode transfer to span memory. -/
  | tstore (b : BRef) (f : Fields)
  /-- TILE_TRANSFER_COMPLETE (R75). All lines of a tile transfer complete for the issuing bundle. -/
  | tileTransferComplete (b : BRef) (n : Nat)
  /-- TMMA (R110). Tile multiply-accumulate that opens, continues or closes a bank chain. -/
  | tmma (b : BRef) (f : Fields)
  /-- TMMA_BANK_FREE (R69). A bank closes and a TMMA waiting for a bank proceeds. -/
  | tmmaBankFree (b : BRef)
  /-- TMMA_COMPLETE (R118). A TMMA update completes and its flags are checked for traps. -/
  | tmmaComplete (b : BRef) (chain : Nat)
  /-- TREDUCE (R113). Element-wise exact or standard combination of two tiles. -/
  | treduce (b : BRef) (f : Fields)
  /-- TCONV (R112). Element-wise conversion of one tile into another. -/
  | tconv (b : BRef) (f : Fields)
  /-- TFILL (R104). Fills every element of a tile with a uniform value. -/
  | tfill (b : BRef) (f : Fields)
  /-- GISSUE (R114). Hands a descriptor in core store to a gather engine. -/
  | gissue (b : BRef) (f : Fields)
  /-- SISSUE (R114). Hands a descriptor to the cluster's token sampler. -/
  | sissue (b : BRef) (f : Fields)
  /-- ENGINE_QUEUE_SPACE (R114). Space frees in a full engine queue and a waiting issue completes. -/
  | engineQueueSpace (b : BRef)
  /-- NOP (R116). No effect. -/
  | nop (b : BRef) (f : Fields)
  /-- SRD (R116). Reads a special register. -/
  | srd (b : BRef) (f : Fields)
  /-- FLAGRD (R116). Reads the vector or tile flag word. -/
  | flagrd (b : BRef) (f : Fields)
  /-- FLAGCLR (R116). Clears bits of the vector or tile flag word. -/
  | flagclr (b : BRef) (f : Fields)
  /-- TRAP (R116). Raises the debug trap with a code. -/
  | trap (b : BRef) (f : Fields)
  /-- BKPT (R116). Raises the debug trap when debugging is enabled. -/
  | bkpt (b : BRef) (f : Fields)
  /-- DOORBELL_WRITE (R343). A DB write is checked and makes packets available to the queue processor. -/
  | doorbellWrite (fn : Fn) (page : Nat) (off : Nat) (bytes : List Byte)
  /-- LAUNCH (R120). A launch packet starts: image and arguments checked, save pool reserved, work groups pending. -/
  | launch (q : QRef) (pkt : List Byte)
  /-- DMA (R377). A DMA packet starts on a host mover. -/
  | dma (q : QRef) (pkt : List Byte) (engine : Nat)
  /-- COLLECTIVE (R298). A collective packet starts and joins the span-wide collective. -/
  | collective (q : QRef) (pkt : List Byte)
  /-- FENCE_SIGNAL_PACKET (R380). Signals a fence on this or another module after a release. -/
  | fenceSignalPacket (q : QRef) (pkt : List Byte)
  /-- FENCE_WAIT_PACKET (R381). Waits for a fence on this module to reach a target. -/
  | fenceWaitPacket (q : QRef) (pkt : List Byte)
  /-- COUNTER_WAIT (R382). Waits for a landing counter to reach a value. -/
  | counterWait (q : QRef) (pkt : List Byte)
  /-- BARRIER (R383). Waits for earlier packets of its queue and named queues. -/
  | barrier (q : QRef) (pkt : List Byte)
  /-- HINT (R384). Passes a heavy-phase hint to the Kiln controller. -/
  | hint (q : QRef) (pkt : List Byte)
  /-- MARKER (R385). Completes after earlier packets and writes a record with its tag. -/
  | marker (q : QRef) (pkt : List Byte)
  /-- WORK_GROUP_ADMIT (R77). A core admits a pending or saved work group when room appears. -/
  | workGroupAdmit (launch : Nat) (place : WorkPlace)
  /-- PREEMPT (R127). A work group is stopped at an instruction boundary for saving. -/
  | preempt (wg : Nat)
  /-- SAVE_RECORD_WRITTEN (R127). The save record is written and the work group's resources are freed. -/
  | saveRecordWritten (wg : Nat)
  /-- LAUNCH_COMPLETE (R126). All work groups and writes done; release at CSCOPE and completion record written. -/
  | launchComplete (launch : Nat)
  /-- DMA_COMPLETE (R378). Every byte of a DMA packet is written; release and fence signal follow. -/
  | dmaComplete (q : QRef) (pidx : Nat)
  /-- COLLECTIVE_COMPLETE (R379). A collective completes on a pier: release, counter advance, fence signal. -/
  | collectiveComplete (q : QRef) (pidx : Nat)
  /-- GATHER_DESCRIPTOR (R145). A gather engine takes a gather descriptor, checks it and issues row fetches. -/
  | gatherDescriptor (engine : Nat)
  /-- SAMPLER_DESCRIPTOR (R159). The token sampler computes a drawn token from logits. -/
  | samplerDescriptor (engine : Nat)
  /-- STREAM_DESCRIPTOR (R295). A gather engine runs a windowed stream GET or PUT. -/
  | streamDescriptor (engine : Nat)
  /-- DESCRIPTOR_END (R140). An engine writes outputs and record, then increments the landing counter. -/
  | descriptorEnd (engine : Nat)
  /-- RD (R284). A remote read request message is served at the target. -/
  | rd (g : Msg)
  /-- BULKRD (R284). A bulk read request is served at the target. -/
  | bulkrd (g : Msg)
  /-- ATOM (R284). A remote atomic request is performed at the target's home. -/
  | atom (g : Msg)
  /-- WR (R284). A remote write lands, advances its counter and is acknowledged. -/
  | wr (g : Msg)
  /-- BULKWR (R284). A stream PUT write lands, advances its counter and is acknowledged. -/
  | bulkwr (g : Msg)
  /-- RDATA (R285). Read data answer completes an RLD or fetch. -/
  | rdata (g : Msg)
  /-- ADATA (R285). Atomic result answer completes a RATOM. -/
  | adata (g : Msg)
  /-- WACK (R285). Write acknowledgement frees the tracker entry of an RST or BULKWR. -/
  | wack (g : Msg)
  /-- MOVE (R323). Move notice causes a reissue or an EPOCH_STALE end. -/
  | moveMsg (g : Msg)
  /-- ERR (R285). Error response ends a request with its status. -/
  | errMsg (g : Msg)
  /-- BDATA (R296). Bulk data answer is written locally for a stream or fetch. -/
  | bdata (g : Msg)
  /-- CDATA (R303). A collective stage message is combined by a collective engine. -/
  | cdata (g : Msg)
  /-- CFAIL (R304). A collective failure message completes the collective with its status. -/
  | cfail (g : Msg)
  /-- SAG_NOTICE (R335). A SAG or RECOVERED notice from a peer acts as a pace token. -/
  | sagNotice (sender : Nat) (detected : Nat) (recovered : Bool)
  /-- PACE_TOKEN (R452). A peer's pace token with its local limit is received. -/
  | paceToken (sender : Nat) (tk : Nat) (limit : Nat)
  /-- ABORT (R472). An abort wave message is tested and may fence the span's sagger. -/
  | abort (span : Nat) (slot : BitVec 128)
  /-- REMOTE_FENCE_SIGNAL (R380). A fence signal arrives from another pier on CTRL. -/
  | remoteFenceSignal (sig : FenceSignal)
  /-- PIER_RECEIPT (R505). A pier reports its fence complete during a slot revocation. -/
  | pierReceipt (module : Nat) (slot : Nat)
  /-- BANKING_NOTICE (R485). A neighbour's banking notice takes its groups out of service. -/
  | bankingNotice (module : Nat)
  /-- SPARE_REQUEST (R270). A far-end request over MGMT to spare a lane is granted. -/
  | spareRequest (ask : SpareAsk)
  /-- IDENTITY_EXCHANGE (R275). Training exchange decides ACTIVE or MISWIRED for a lane. -/
  | identityExchange (lane : Nat) (tx : LaneEnd) (rx : LaneEnd) (roundTrip : Nat)
  /-- TIME_EXCHANGE (R277). A two-way time exchange steers fabric time. -/
  | timeExchange (neighbour : Nat) (offset : Int) (inBound : Bool)
  /-- DATA_FLIT (R254). A DATA flit is accepted in order or discarded with NAK. -/
  | dataFlit (lane phys : Nat) (fl : Flit)
  /-- NAK (R254). A NAK flit makes the transmitter resend from the first unacknowledged flit. -/
  | nak (lane : Nat) (hdr : BitVec 128)
  /-- CREDIT (R257). A CREDIT flit returns buffer credits. -/
  | credit (lane : Nat) (hdr : BitVec 128)
  /-- IDLE (R276). An IDLE flit advances the lane cone. -/
  | idle (lane : Nat) (hdr : BitVec 128) (crcGood : Bool)
  /-- LANE_ACK_TIMEOUT (R255). No acknowledgement for 100 µs or 8 resends fails the lane. -/
  | laneAckTimeout (lane : Nat)
  /-- LANE_SIGNAL_LOSS (R271). A lane receiver loses signal. -/
  | laneSignalLoss (lane : Nat)
  /-- BER_WINDOW (R270). End of a 100 ms pre-FEC error window judges a lane degrading. -/
  | berWindow (lane : Nat) (ber : BitVec 32)
  /-- HITLESS_SPARE (R270). A degrading lane is switched to its engine's spare at a named LSEQ. -/
  | hitlessSpare (lane : Nat)
  /-- SPARE_TRAINED (R270). Both spares are trained and the switch proceeds. -/
  | spareTrained (lane named : Nat)
  /-- LANE_RETRAIN (R274). Retraining of an engine's lanes completes. -/
  | laneRetrain (engine : Nat)
  /-- CONNECTOR_LATCH_OPEN (R247). An array connector opens; modulators blank and the laser source switches off. -/
  | connectorLatchOpen (engine : Nat)
  /-- CONNECTOR_LATCH_CLOSE (R247). An array connector contact closes. -/
  | connectorLatchClose (engine : Nat)
  /-- LASER_RELIGHT (R247). After 1 s closed, the engine's laser is relit and lanes retrain. -/
  | laserRelight (engine : Nat)
  /-- LASER_SOURCE_FAILURE (R248). A laser source fails; the redundant source takes over or lanes are lost. -/
  | laserSourceFailure (engine : Nat)
  /-- LASER_TAKEOVER_DONE (R248). The redundant source takeover ends and lanes resume with replay. -/
  | laserTakeoverDone (engine : Nat)
  /-- HOLDOVER (R278). No timing neighbour for 10 ms; time free-runs. -/
  | holdover
  /-- FTIME_SYNC (R279). A rising edge on FTIME_SYNC steers fabric time. -/
  | ftimeSync (offset : Int) (spaced : Bool)
  /-- FTIME_SYNC_LOSS (R279). 3 s without an edge returns time to link exchanges. -/
  | ftimeSyncLoss
  /-- REQUEST_TIMER_EXPIRY (R269). A tracker entry's timer expires and the request ends TRACKER_LOST. -/
  | requestTimerExpiry (bank : Nat) (entry : Nat)
  /-- TRACKER_ENTRY_FREE (R267). A free tracker entry lets a waiting request be tagged and issued. -/
  | trackerEntryFree
  /-- COLLECTIVE_TIMER_EXPIRY (R304). A stage message missing beyond the collective timer ends it TRACKER_LOST. -/
  | collectiveTimerExpiry (span : Nat) (collId : Nat)
  /-- READ_SHARED (R209). RD request at a home: data served and directory updated. -/
  | readShared (agent : Nat) (line : Nat) (ecc : Ecc) (ctx : Option Nat)
  /-- RDX (R209). Read for ownership at a home with invalidations and forwards. -/
  | rdx (agent : Nat) (line : Nat) (ecc : Ecc)
  /-- DIRTY_NOTICE (R211). DN moves an entry from OWNED_CLEAN to OWNED_DIRTY. -/
  | dirtyNotice (agent : Nat) (line : Nat)
  /-- WRITE_BACK (R209). WB writes memory and frees the entry. -/
  | writeBack (agent : Nat) (line : Nat)
  /-- EVICTION_NOTICE (R211). EN removes the sender from the entry. -/
  | evictionNotice (agent : Nat) (line : Nat)
  /-- UNCACHED_READ (R212). UR by an uncached agent served at the home. -/
  | uncachedRead (line : Nat) (ecc : Ecc)
  /-- IWF (R209). Whole-line invalidating write clears poison and frees the entry. -/
  | iwf (line : Nat) (bytes : List Byte)
  /-- IWP (R209). Partial-line invalidating write merges bytes and keeps poison. -/
  | iwp (line : Nat) (off : Nat) (bytes : List Byte)
  /-- HOME_ATOMIC (R209). AT request places the line in the atomic buffer and performs the operation. -/
  | homeAtomic (lpa : Nat) (op : AtomOp) (size : Nat) (x : BitVec 64) (new : BitVec 64)
  /-- INVALIDATION (R210). An invalidation is queued at a sharer and acknowledged. -/
  | invalidation (agent : Nat) (line : Nat)
  /-- FORWARD (R209). An owner answers a forward with data or a clean notice. -/
  | forward (line : Nat) (kind : FwdKind)
  /-- RANGE_RECALL (R213). Caching agents walk tags and drop copies in a granule range. -/
  | rangeRecall (channel : Nat) (first : Nat) (count : Nat)
  /-- RANGE_RECALL_COMPLETE (R213). Every agent finishes the walk and the recall completes. -/
  | rangeRecallComplete (channel : Nat) (first : Nat) (count : Nat)
  /-- AGENT_DEATH (R214). A caching agent dies and reclaim of its lines begins. -/
  | agentDeath (agent : Nat)
  /-- RECLAIM_COMPLETE (R215). The reclaim walk ends and waiting requests proceed. -/
  | reclaimComplete
  /-- DIRECTORY_ENTRY_ERROR (R217). An uncorrectable directory entry error recalls both candidate sets. -/
  | directoryEntryError (home : Nat) (line : Nat) (corrected : Bool)
  /-- PATROL_SCRUB (R193). Periodic patrol read of allocated granules corrects or poisons lines. -/
  | patrolScrub (channel : Nat) (found : List (Nat × Ecc))
  /-- ZEROING_COMPLETE (R194). The zeroing engine finishes its granules or channel. -/
  | zeroingComplete (z : ZeroJob)
  /-- RETIREMENT_REQUIRED (R197). Error thresholds or failure require a channel's retirement. -/
  | retirementRequired (channel : Nat)
  /-- EVACUATION_COPY_DONE (R199). The copy ends; requests are held and the channel map swaps. -/
  | evacuationCopyDone (channel : Nat) (found : List (Nat × Ecc))
  /-- CHANNEL_MAP_SWAP (R199). Accepted requests drain and the logical number moves to the replacement. -/
  | channelMapSwap (channel : Nat)
  /-- CHANNEL_FAILURE (R200). A channel fails and every allocated line is poisoned. -/
  | channelFailure (channel : Nat)
  /-- WINDOW_READ (R346). A BAR2 read is translated and served as UR. -/
  | windowRead (fn : Fn) (off : Nat) (len : Nat) (atomic : Bool)
  /-- WINDOW_WRITE (R346). A BAR2 write is translated and performed as IWF or IWP. -/
  | windowWrite (fn : Fn) (off : Nat) (bytes : List Byte) (poisoned : Bool)
  /-- ATS_INVALIDATION_REQUEST (R358). An ATS invalidation removes cached translations and collects engine acks. -/
  | atsInvalidationRequest (inv : AtsInv)
  /-- INVALIDATION_COMPLETION (R358). The last engine acknowledges and the Invalidation Completion is sent. -/
  | invalidationCompletion (port : Nat) (itag : Nat)
  /-- INVALIDATION_ACK_TIMEOUT (R360). An engine without an ack in 10 ms is reset. -/
  | invalidationAckTimeout (engine : Nat)
  /-- TRANSLATION_COMPLETION (R355). An ATS Translation Completion fills caches or starts a page fault. -/
  | translationCompletion (x : MoveRef) (tc : TransComp)
  /-- PRG_RESPONSE (R355). A PRG Response resumes or fails a stalled stream. -/
  | prgResponse (x : MoveRef) (code : PrgCode)
  /-- FAULT_TIMEOUT (R356). No PRG Response within the fault timeout; packet ends FAULT_UNRESOLVED. -/
  | faultTimeout (x : MoveRef)
  /-- HOST_READ_COMPLETION (R352). A host read completion arrives for a DMA transfer. -/
  | hostReadCompletion (q : QRef) (pidx off : Nat) (rc : ReadComp)
  /-- COMPLETION_TIMEOUT (R352). A PCIe completion timeout ends the packet FAULT_UNRESOLVED: of its read at `off`, or of its Translation
  Request. -/
  | completionTimeout (x : MoveRef) (read : Bool) (off : Nat)
  /-- FLR (R362). Function Level Reset tears down the function's contexts and objects. -/
  | flr (fn : Fn)
  /-- PERST (R362). PERST# or link down resets the port's PF and VFs. -/
  | perst (port : Nat)
  /-- BAR2_RESIZE (R344). A BAR2 resize invalidates segments beyond the new size. -/
  | bar2Resize (fn : Fn) (size : Nat)
  /-- MB_CTL_EN_SET (R402). Setting EN starts the mailbox reading its ring. -/
  | mbCtlEnSet (fn : Fn)
  /-- MB_CTL_EN_CLEAR (R402). Clearing EN stops ring reads; OFF once in-flight commands end. -/
  | mbCtlEnClear (fn : Fn)
  /-- MB_PIDX (R403). A producer-index write is accepted or sets OVERRUN. -/
  | mbPidx (fn : Fn) (w : BitVec 32)
  /-- MB_ERR_CLEAR (R402). W1C write clears mailbox error bits. -/
  | mbErrClear (fn : Fn) (w : BitVec 32)
  /-- MAILBOX_SLOT_READ (R403). The mailbox reads a command slot and queues the command. -/
  | mailboxSlotRead (fn : Fn) (slot : List Byte) (ok : Bool)
  /-- MAILBOX_RESPONSE (R405). A response is written and MSI-X sent. -/
  | mailboxResponse (mb : Mbx) (ok : Bool)
  /-- REGISTER_WRITE (R3). A write to a register without a row of its own sets its RW fields. -/
  | registerWrite (blk : RegBlock) (off : Nat) (size : Nat) (value : BitVec 64)
  /-- MCTP_CONTROL (R407). An MCTP control message is answered. -/
  | mctpControl (msg : MctpMsg MctpReq)
  /-- PLDM_BASE (R408). A PLDM Type 0 message is served. -/
  | pldmBase (msg : MctpMsg (List Byte))
  /-- PLDM_PLATFORM (R408). A PLDM Type 2 sensor or event message is served. -/
  | pldmPlatform (msg : MctpMsg PldmReq)
  /-- PLDM_FIRMWARE_UPDATE (R408). A PLDM Type 5 message stages firmware. -/
  | pldmFirmwareUpdate (from_ : MctpFrom) (req : PldmFw) (image : List Byte)
  /-- IDENTIFY (R413). Returns part, serial, versions and core counts. -/
  | identify (mb : Mbx) (c : Cmd)
  /-- MODULE_STATUS (R413). Returns status, time state and fabric time. -/
  | moduleStatus (mb : Mbx) (c : Cmd)
  /-- TELEMETRY_READ (R524). Returns a run of telemetry counters. -/
  | telemetryRead (mb : Mbx) (c : Cmd)
  /-- FABRIC_QUERY (R544). Returns entries of a fabric table. -/
  | fabricQuery (mb : Mbx) (c : Cmd)
  /-- SET_PARAM (R414). Sets a module parameter. -/
  | setParam (mb : Mbx) (c : Cmd)
  /-- GET_PARAM (R414). Returns a module parameter. -/
  | getParam (mb : Mbx) (c : Cmd)
  /-- FN_BIND (R413). Binds or unbinds a span to a VF. -/
  | fnBind (mb : Mbx) (c : Cmd)
  /-- SPAN_CREATE (R314). Creates a STABLE composition record from idle grains. -/
  | spanCreate (mb : Mbx) (c : Cmd)
  /-- SPAN_DESTROY (R314). Releases the span's grains with zeroing and frees the record. -/
  | spanDestroy (mb : Mbx) (c : Cmd)
  /-- COMPOSE_PREPARE (R315). Checks and installs the SHADOW; the record enters PREPARE. -/
  | composePrepare (mb : Mbx) (c : Cmd)
  /-- COMPOSE_COMMIT (R316). Arms the switch at SWITCH_T or switches at once as LATE. -/
  | composeCommit (mb : Mbx) (c : Cmd)
  /-- COMPOSE_ABORT (R317). Discards a prepared transition. -/
  | composeAbort (mb : Mbx) (c : Cmd)
  /-- SPAN_QUERY (R314). Returns the record, pier tables and handover progress. -/
  | spanQuery (mb : Mbx) (c : Cmd)
  /-- SPAN_LIST (R314). Returns the module's span records and phases. -/
  | spanList (mb : Mbx) (c : Cmd)
  /-- SWITCH (R319). At SWITCH_T the record enters DRAIN, tags move to E+1 and handovers begin. -/
  | switch (span : Nat)
  /-- MEMORY_GRAIN_HANDOVER (R328). Extents on a passed channel become ACTIVE for the receiving span after recall. -/
  | memoryGrainHandover (span : Nat) (channel : Nat)
  /-- CLOSE (R325). At CLOSE_T and handovers complete the transition closes at E+1. -/
  | close (span : Nat)
  /-- LEAVING_RECORD_FREE (R321). A leaving pier frees its record at CLOSE_T + 10 µs. -/
  | leavingRecordFree (span : Nat)
  /-- HANDOVER_ESCALATION (R331). A handover running 50 ms past CLOSE_T escalates to the giving span's sagger. -/
  | handoverEscalation (span : Nat)
  /-- CTX_CREATE (R365). Creates a context with fixed attributes. -/
  | ctxCreate (mb : Mbx) (c : Cmd)
  /-- CTX_DESTROY (R390). Tears a context down in seven steps and answers at the end. -/
  | ctxDestroy (mb : Mbx) (c : Cmd)
  /-- CTX_QUERY (R388). Returns a context's state, utilisation and energy. -/
  | ctxQuery (mb : Mbx) (c : Cmd)
  /-- CTX_EVICT (R369). Makes a resident context give up its slots. -/
  | ctxEvict (mb : Mbx) (c : Cmd)
  /-- SLOT_SCHEDULE (R368). The slot scheduler evicts a context and grants the slot to the longest waiter. -/
  | slotSchedule
  /-- QUEUE_CREATE (R371). Creates a queue and binds a doorbell page. -/
  | queueCreate (mb : Mbx) (c : Cmd)
  /-- QUEUE_DESTROY (R364). Discards unstarted packets, waits for running ones, frees the doorbell. -/
  | queueDestroy (mb : Mbx) (c : Cmd)
  /-- QUEUE_QUERY (R364). Returns a queue's state and indices. -/
  | queueQuery (mb : Mbx) (c : Cmd)
  /-- FENCE_CREATE (R392). Creates a LIVE fence object. -/
  | fenceCreate (mb : Mbx) (c : Cmd)
  /-- FENCE_DESTROY (R399). Owner abandons and frees a fence, or a grantee drops its grant. -/
  | fenceDestroy (mb : Mbx) (c : Cmd)
  /-- FENCE_GRANT (R394). Adds or removes a grant on a fence. -/
  | fenceGrant (mb : Mbx) (c : Cmd)
  /-- FENCE_SIGNAL (R396). Signals a fence from the host at system scope. -/
  | fenceSignal (mb : Mbx) (c : Cmd)
  /-- FENCE_QUERY (R364). Returns a fence's value, state, mirror and regress count. -/
  | fenceQuery (mb : Mbx) (c : Cmd)
  /-- CTX_L2PART (R173). Sets a context's L2 way partitions. -/
  | ctxL2part (mb : Mbx) (c : Cmd)
  /-- LC_ALLOC (R289). Allocates landing counters set to 0. -/
  | lcAlloc (mb : Mbx) (c : Cmd)
  /-- LC_SET (R292). Sets a landing counter to a value. -/
  | lcSet (mb : Mbx) (c : Cmd)
  /-- LC_FREE (R292). Frees landing counters, ending waits on them. -/
  | lcFree (mb : Mbx) (c : Cmd)
  /-- EXT_CREATE (R188). Creates an extent in ZEROING and answers once it is ACTIVE. -/
  | extCreate (mb : Mbx) (c : Cmd)
  /-- EXT_DESTROY (R188). Destroys an extent after recall. -/
  | extDestroy (mb : Mbx) (c : Cmd)
  /-- EXT_QUERY (R196). Returns extent entries and channel states. -/
  | extQuery (mb : Mbx) (c : Cmd)
  /-- CH_RETIRE (R199). Begins retirement of a named channel. -/
  | chRetire (mb : Mbx) (c : Cmd)
  /-- WIN_MAP (R345). Creates a window segment. -/
  | winMap (mb : Mbx) (c : Cmd)
  /-- WIN_UNMAP (R348). Removes a window segment. -/
  | winUnmap (mb : Mbx) (c : Cmd)
  /-- REGION_REGISTER (R496). Registers a host region, optionally glazed. -/
  | regionRegister (mb : Mbx) (c : Cmd)
  /-- REGION_RELEASE (R412). Releases a host region. -/
  | regionRelease (mb : Mbx) (c : Cmd)
  /-- POWER_CAP_SET (R449). Sets the power cap. -/
  | powerCapSet (mb : Mbx) (c : Cmd)
  /-- POWER_EMERGENCY (R457). Holds or releases a commanded pace limit. -/
  | powerEmergency (mb : Mbx) (c : Cmd)
  /-- FIXED_FREQ (R451). Turns fixed-frequency mode on or off. -/
  | fixedFreq (mb : Mbx) (c : Cmd)
  /-- POWER_QUERY (R459). Returns power, limiters, temperatures and the supply log. -/
  | powerQuery (mb : Mbx) (c : Cmd)
  /-- LASER_SHUTDOWN (R544). Holds off or releases named engines' lasers. -/
  | laserShutdown (mb : Mbx) (c : Cmd)
  /-- ERR_READ (R488). Returns error records and start counters. -/
  | errRead (mb : Mbx) (c : Cmd)
  /-- ERR_ACK (R488). Frees closed error records. -/
  | errAck (mb : Mbx) (c : Cmd)
  /-- SAGGER_RESET (R468). Fences, resets and reopens a sagger, optionally scrubbing. -/
  | saggerReset (mb : Mbx) (c : Cmd)
  /-- DEVICE_RESET (R464). Begins a warm or cold start, optionally preserving spans. -/
  | deviceReset (mb : Mbx) (c : Cmd)
  /-- CORE_SPARE_SWAP (R486). Swaps a cluster's spare core in for a failed core. -/
  | coreSpareSwap (mb : Mbx) (c : Cmd)
  /-- ENTER_BANKED (R485). Puts the module into the banked state. -/
  | enterBanked (mb : Mbx) (c : Cmd)
  /-- DEBUG_READ (R544). Returns save records of a lost debug context or tracker entries. -/
  | debugRead (mb : Mbx) (c : Cmd)
  /-- SEC_QUERY (R514). Returns debug state, slot table and signed report. -/
  | secQuery (mb : Mbx) (c : Cmd)
  /-- SLOT_ASSIGN (R495). Binds a FREE glaze slot to a tenant. -/
  | slotAssign (mb : Mbx) (c : Cmd)
  /-- SLOT_REVOKE (R505). Drains a slot, optionally fences spans, and raises its generation. -/
  | slotRevoke (mb : Mbx) (c : Cmd)
  /-- DEBUG_UNLOCK (R512). Verifies a debug token, blocks glaze and opens the test port. -/
  | debugUnlock (mb : Mbx) (c : Cmd)
  /-- FW_STAGE (R487). Stages and checks a firmware image. -/
  | fwStage (mb : Mbx) (c : Cmd)
  /-- FW_ACTIVATE (R487). Activates a staged firmware component. -/
  | fwActivate (mb : Mbx) (c : Cmd)
  /-- FW_QUERY (R488). Returns firmware components and versions. -/
  | fwQuery (mb : Mbx) (c : Cmd)
  /-- DRILL_ARM (R516). Arms a fault-injection drill on lanes of a drill span. -/
  | drillArm (mb : Mbx) (c : Cmd)
  /-- DRILL_DISARM (R520). Stops injection and frees drills. -/
  | drillDisarm (mb : Mbx) (c : Cmd)
  /-- LOOPBACK_SET (R522). Sets an engine's loopback mode. -/
  | loopbackSet (mb : Mbx) (c : Cmd)
  /-- DRILL_QUERY (R520). Returns a drill's state and counts. -/
  | drillQuery (mb : Mbx) (c : Cmd)
  /-- SPDM_GET_VERSION (R507). SPDM GET_VERSION answered with 1.3. -/
  | spdmGetVersion (p : SpdmPort)
  /-- SPDM_GET_CAPABILITIES (R507). SPDM capabilities answered. -/
  | spdmGetCapabilities (p : SpdmPort)
  /-- SPDM_NEGOTIATE_ALGORITHMS (R507). SPDM algorithms negotiated. -/
  | spdmNegotiateAlgorithms (p : SpdmPort) (algs : SpdmAlgs)
  /-- SPDM_GET_DIGESTS (R507). Returns certificate chain digests. -/
  | spdmGetDigests (p : SpdmPort)
  /-- SPDM_GET_CERTIFICATE (R493). Returns the certificate chain of slot 0. -/
  | spdmGetCertificate (p : SpdmPort) (slot : Nat) (off : Nat) (len : Nat)
  /-- SPDM_CHALLENGE (R507). Signs a challenge with the identity key. -/
  | spdmChallenge (p : SpdmPort) (slot : Nat) (nonce : List Byte)
  /-- SPDM_GET_MEASUREMENTS (R508). Returns measurement blocks. -/
  | spdmGetMeasurements (p : SpdmPort) (index : Nat) (raw : Bool) (sign : Bool) (nonce : List Byte)
  /-- EG_PEND_SET (R427). W1S write sets pending bits of a bank. -/
  | egPendSet (cpu : Nat) (bank : Nat) (w : BitVec 64)
  /-- EG_PEND_CLR (R427). W1C write clears pending bits of a bank. -/
  | egPendClr (cpu : Nat) (bank : Nat) (w : BitVec 64)
  /-- EG_MASK_SET (R427). W1S write masks sources. -/
  | egMaskSet (cpu : Nat) (bank : Nat) (w : BitVec 64)
  /-- EG_MASK_CLR (R427). W1C write unmasks sources, releasing waiting deliveries. -/
  | egMaskClr (cpu : Nat) (bank : Nat) (w : BitVec 64)
  /-- EG_DONE (R426). Ends handling of a source and resamples level sources. -/
  | egDone (cpu : Nat) (bank : Nat) (w : BitVec 64)
  /-- EG_ROUTE (R427). Sets the NORMAL and STATIC targets of a shared source. -/
  | egRoute (cpu : Nat) (source : Nat) (w : BitVec 32)
  /-- EG_MODE (R425). Switches shared sources between NORMAL and STATIC routing. -/
  | egMode (cpu : Nat) (w : BitVec 32)
  /-- SOURCE_ASSERT (R426). A source asserts and sets its pending bit. -/
  | sourceAssert (source : Nat) (level : Bool)
  /-- EQ_CTL_EN_SET (R429). Setting EN starts an event queue in RUN. -/
  | eqCtlEnSet (fn : Fn) (q : Nat)
  /-- EQ_CTL_EN_CLEAR (R429). Clearing EN stops record writes. -/
  | eqCtlEnClear (fn : Fn) (q : Nat)
  /-- EQ_HEAD (R431). A HEAD write frees slots, re-arms and may send MSI-X. -/
  | eqHead (fn : Fn) (q : Nat) (w : BitVec 32)
  /-- EQ_ERR_CLEAR (R429). W1C clears WRITE_FAULT. -/
  | eqErrClear (fn : Fn) (q : Nat) (w : BitVec 32)
  /-- SAG (R439). Input below 44 V for 20 µs forces the floor state. -/
  | sag (mv : Nat)
  /-- SAG_END (R439). Input at or above 45 V for 100 µs ends the sag. -/
  | sagEnd (mv : Nat)
  /-- SURGE (R436). Input above 59.5 V within limits is logged; again in a surge when the input has risen or has crossed 72 V. -/
  | surge (mv : Nat)
  /-- OVERVOLTAGE_SWITCH_OPEN (R436). Excessive input opens the input switch; all power is lost. -/
  | overvoltageSwitchOpen
  /-- UNDERVOLTAGE_BANK (R440). Bulk voltage reaches 41 V during a sag and the module banks. -/
  | undervoltageBank (bulk : Nat)
  /-- STANDBY_LOSS (R436). Input below 20 V removes standby power. -/
  | standbyLoss
  /-- STANDBY_POWER_APPLIED (R462). Standby power arrives and a cold start begins. -/
  | standbyPowerApplied
  /-- PWRBRAKE_ASSERT (R445). PWRBRAKE# forces code 16. -/
  | pwrbrakeAssert
  /-- PWRBRAKE_RELEASE (R445). 100 µs after deassertion the brake limiter releases. -/
  | pwrbrakeRelease
  /-- REGULATOR_ALERT (R445). A regulator alert forces code 16. -/
  | regulatorAlert (rail : Nat)
  /-- REGULATOR_ALERT_RELEASE (R445). 100 µs after the alert clears the limiter releases. -/
  | regulatorAlertRelease
  /-- BUS_WARN_ASSERT (R445). BUS_WARN# limits the pace to 32. -/
  | busWarnAssert
  /-- BUS_WARN_RELEASE (R445). 100 µs after deassertion the BUS_WARN# limiter releases. -/
  | busWarnRelease
  /-- DROOP (R447). A cluster droop halves its passing cycles until recovery. -/
  | droop (cluster : Nat) (recovered : Bool)
  /-- THERMAL_STEP (R448). Every 100 µs the thermal limiter moves by one code. -/
  | thermalStep (hottest : Nat)
  /-- THERMAL_105 (R448). A sensor at 105 °C sets the thermal limit to 16. -/
  | thermal105 (hottest : Nat)
  /-- THERMTRIP (R448). At 115 °C THERMTRIP# drives low and the module banks. -/
  | thermtrip (hottest : Nat)
  /-- KILN_LOOP (R449). The 10 µs loop updates the cap limiter and raises L by at most one code. -/
  | kilnLoop (watts : Nat) (mv : Nat)
  /-- PACE_ROUND (R452). At each 100 µs boundary pace tokens are sent to span peers. -/
  | paceRound
  /-- PACE_APPLY (R453). At t_k + 50 µs the span pace is set from tokens and L. -/
  | paceApply
  /-- HINT_PHASE_START (R454). Regulator phases come online at the hint's lead time. -/
  | hintPhaseStart (ctx : Nat)
  /-- HINT_PHASE_END (R454). A hint's duration elapses and its phases go offline. -/
  | hintPhaseEnd (ctx : Nat)
  /-- ENERGY_METER (R455, R456). Each 1 ms energy is measured and apportioned: the input's in mJ, the rails' and what the activity counters
  counted. -/
  | energyMeter (inputMj : Nat) (shares : EnergyUse)
  /-- MOD_RESET (R533). MOD_RESET# held 10 ms switches off rails and holds processors in reset. -/
  | modReset
  /-- MOD_RESET_RELEASE (R533). Release of MOD_RESET# begins a cold start. -/
  | modResetRelease
  /-- THERMTRIP_HOLD_END (R534). Sensors reach 95 °C and a held cold start proceeds. -/
  | thermtripHoldEnd
  /-- COLD_START (R462). Runs cold start steps 1 to 9. -/
  | coldStart
  /-- WARM_START (R464). Runs warm start steps W1 to W7. -/
  | warmStart
  /-- START_STEP_DONE (R462). A start step finishes and the next begins. -/
  | startStepDone (rep : StepReport)
  /-- START_STEP_TIMEOUT (R466). A step passes its limit and the start fails. -/
  | startStepTimeout
  /-- CONE_STALL (R475). An engine's cone does not move within its window. -/
  | coneStall (e : EngineId)
  /-- ENGINE_RESET_DONE (R480). An engine reset completes. -/
  | engineResetDone (e : EngineId) (flushed : Bool) (bistOk : Bool)
  /-- ENGINE_RESET_ESCALATION (R481). An engine reset unfinished after 1 ms escalates to SAGGER. -/
  | engineResetEscalation (e : EngineId)
  /-- SAGGER_FENCE_COMPLETE (R468). No tracker entry or busy member remains; the reset step runs. -/
  | saggerFenceComplete (span : Nat) (dead : List Nat)
  /-- SAGGER_REOPEN (R470). The sagger's reset ends and it reopens. -/
  | saggerReopen (span : Nat) (bad : List Nat)
  /-- SAGGER_ESCALATION (R481). A sagger not reopened in 50 ms escalates to DEVICE. -/
  | saggerEscalation (span : Nat)
  /-- MODULE_QUIESCE (R474). The module's sagger is fenced, reset and reopened. -/
  | moduleQuiesce
  /-- DEVICE_RESET_ESCALATION (R481). Fence and W1 unfinished in 2 s; the module banks. -/
  | deviceResetEscalation
  /-- ELBOR_CORE3_STALL (R476). The Kiln resets Elbor core 3 on a first stall. -/
  | elborCore3Stall
  /-- TRACKER_BANK_ERROR (R483). An uncorrectable tracker bank error ends its entries and retires the bank. -/
  | trackerBankError (bank : Nat)
  /-- VIADUCT_WIRE_ERROR (R10). An uncorrectable Viaduct wire escalates to the module's sagger. -/
  | viaductWireError (dir : Nat) (wire : Nat)
  /-- CONTROL_CROSSING_FAILURE (R168). A control-network crossing fails and the ring becomes a line. -/
  | controlCrossingFailure (crossing : Nat)
  /-- BANKED (R485). The module enters the banked state. -/
  | banked (cause : Nat)
  /-- ELBOR_SERVICE_PAUSE_END (R487). Firmware activation pause ends and waiting commands proceed. -/
  | elborServicePauseEnd
  /-- FIRMWARE_HEARTBEAT_FAIL (R487). A switched image fails its first heartbeat and reverts. -/
  | firmwareHeartbeatFail (component : Nat)
  /-- STALE_SNAPSHOT (R417). A query waiting 100 ms is answered from a snapshot. -/
  | staleSnapshot (mb : Mbx) (seq : BitVec 32) (outOk : Bool)
  /-- TAP_BYPASS (R526). Boundary-scan BYPASS instruction. -/
  | tapBypass
  /-- TAP_IDCODE (R526). Boundary-scan IDCODE instruction. -/
  | tapIdcode
  /-- TAP_SAMPLE_PRELOAD (R526). Boundary-scan SAMPLE/PRELOAD instruction. -/
  | tapSamplePreload
  /-- TAP_EXTEST (R527). EXTEST after unlock takes the pins from logic. -/
  | tapExtest
  /-- TAP_CLAMP (R527). CLAMP after unlock. -/
  | tapClamp
  /-- TAP_HIGHZ (R527). HIGHZ after unlock. -/
  | tapHighz
  /-- TRST (R527). TRST# locks the test port again. -/
  | trst
  /-- ILLEGAL_INSTRUCTION (R79). A word with a reserved CLASS or FUNC, the all-zero word included, raises the illegal-instruction trap. -/
  | illegalInstruction (b : BRef) (word : BitVec 64)
  /-- RESERVED_PACKET (R375). A packet whose TYPE is 0x00 or 0x0A-0xFF completes NOT_PERMITTED with no effect when it reaches the head of
  its queue. -/
  | reservedPacket (q : QRef) (pkt : List Byte)
  /-- RESERVED_COMMAND (R412). An ECS command with an unlisted opcode is answered NOT_PERMITTED with no effect. -/
  | reservedCommand (mb : Mbx) (c : Cmd)
  /-- RESERVED_MESSAGE (R253). A message with a reserved OP or field, an oversized LEN or a bad HOPS is discarded and counted, and a request
  or landing is answered ERR NOT_PERMITTED. -/
  | reservedMessage (g : Msg)
  /-- RESERVED_DESCRIPTOR (R141). An engine descriptor whose OP is not gather, sample or stream writes only its record with NOT_PERMITTED
  and signals its counter. -/
  | reservedDescriptor (engine : Nat)
  /-- RX_POWER_ALARM (R270). A lane's received optical power falls below the receiver alarm level and the lane becomes degrading. -/
  | rxPowerAlarm (lane : Nat) (microwatts : Nat)
  /-- SHORT_EXCURSION (R441). The input goes below 44.0 V or above 59.5 V for at least 1 µs, too briefly to force the floor, and a supply
  log entry is made. -/
  | shortExcursion (mv : Nat) (durationUs : Nat)
  /-- SURGE_END (R441). The input returns to 59.5 V or below and the surge's log entry receives its duration. -/
  | surgeEnd
  /-- ATOMIC_BUFFER_ERROR (R217). An uncorrectable error in an atomic buffer line poisons that line in memory. -/
  | atomicBufferError (home : Nat) (line : Nat)
  /-- SEAL_PROCESSOR_FAULT (R479). A fault of the Seal processor is recorded at DEVICE severity with cause 0x44. -/
  | sealProcessorFault
  /-- SPARE_SWAP_COMPLETE (R486). The spare core passes BIST, takes the failed core's rank, and the cluster resumes. -/
  | spareSwapComplete (cluster : Nat)
  /-- SWAP_ESCALATION (R486). A spare-core swap not finished within 50 ms escalates as an error of the cluster's sagger. -/
  | swapEscalation (cluster : Nat)
  /-- FIRMWARE_ACTIVATION_DONE (R487). A live switch of Kiln, queue-processor or fabric-processor firmware ends, and the Kiln loop or the
  next processor's switch resumes. -/
  | firmwareActivationDone (component : Nat)
  /-- PERST_RELEASE (R536). PERST# is deasserted and the port trains and loads its configuration space once the main rails are up. -/
  | perstRelease (port : Nat)
  /-- VF_ENABLE_CLEAR (R362). Clearing VF Enable of a PF applies the VF reset to every VF of that PF. -/
  | vfEnableClear (port : Nat)
  /-- PRI_ENABLE (R356). Clearing and setting a function's PRI Enable bit again ends the block on page requests that followed a Response
  Failure. -/
  | priEnable (fn : Fn)
  /-- MSIX_UNMASK (R431). Unmasking an MSI-X vector whose pending bit is set sends the held message. -/
  | msixUnmask (fn : Fn) (vector : Nat)
  /-- DOE_DISCOVERY (R338). A DOE Discovery request on a PF's DOE mailbox is answered. -/
  | doeDiscovery (port : Nat) (index : Nat)
  /-- FABRIC_MAP_WRITE (R22). The external fabric manager installs the lane group table, route table and time root at domain bring-up. -/
  | fabricMapWrite (fm : FabricMap)
  /-- FTIME_SYNC_ENABLE (R279). The fabric manager enables or disables FTIME_SYNC as the module's time source. -/
  | ftimeSyncEnable (on : Bool)
  /-- WORK_GROUP_BATCH (R124). A batch of a launch's work groups arrives at another pier's queue processor, which requests a resident slot
  there. -/
  | workGroupBatch (mail : WgMail)
  /-- ENGINE_RECEIPT_TIMEOUT (R505). A host mover with no receipt within 10 ms of a revocation or unlock is reset, and its receipt counts
  from the reset. -/
  | engineReceiptTimeout (engine : Nat)
  /-- PIER_RECEIPT_TIMEOUT (R505). After 50 ms without every pier receipt, the revocation proceeds to raise the generation and lists the
  piers that did not answer. -/
  | pierReceiptTimeout (slot : Nat)
  deriving DecidableEq, Repr

end Sys2Proof
end

