-- ==== Sys2Proof/Config.lean ====
section
/-! DEFINITION. What one module of the part has fixed that the spec does not state, and the values the spec leaves
open. Each is an opaque constant without a body: nothing can be proved about which value it has. -/

namespace Sys2Proof

/-- The values the spec leaves open: the n-th one drawn (assumption log 1). -/
opaque Config.freeNat : Nat → Nat

/-- Which of the results that R86 allows FPOW2 returns for an operand (assumption log 2). -/
opaque Config.pow2Choice : Word → Nat

/-- Which of the results that R86 allows FLOG2 returns for an operand (assumption log 2). -/
opaque Config.log2Choice : Word → Nat

/-- The logical rank of the first core of a pier's part of a span, by span, epoch and the pier's rank: R11 numbers the
cores of a span and does not say how (assumption log 4). -/
opaque Config.coreRankBase : Nat → Nat → Nat → Nat

/-- EG_LEVEL of each bank: which sources are level inputs, fixed by the module's design (R422, R423). -/
opaque Config.egLevel : Nat → BitVec 64

/-- The cores of the other piers of a span in an epoch: a pier's record does not hold their number (assumption log 5). -/
opaque Config.otherCores : Nat → Nat → Nat

/-- The serial number of the module, 16 characters (R413). -/
opaque Config.serial : List (BitVec 8)

/-- The device root key, 256 bits, which no interface returns (R491; assumption log 7). -/
opaque Config.rootKey : BitVec 256

/-- The secret number of an ECDSA signature, by the bytes signed (R492, R510; assumption log 12). -/
opaque Config.signSecret : List (BitVec 8) → Nat

/-- The debug authority's public key, which the Seal image carries (R511; assumption log 12). -/
opaque Config.debugKey : Nat × Nat

/-- Plynrath's root certificate, the intermediate one, and the device certificate of a public key, a part number and a serial number
(R493; assumption log 12). -/
opaque Config.rootCert : List (BitVec 8)

opaque Config.middleCert : List (BitVec 8)

opaque Config.deviceCert : List (BitVec 8) → List (BitVec 8) → List (BitVec 8) → List (BitVec 8)

/-- Whether the part's lifecycle is RETURNED (R508; assumption log 12). -/
opaque Config.returned : Bool

/-- The image that a component holds at the end of manufacture: component, slot (R487, R508; assumption log 12). -/
opaque Config.factoryImage : Nat → Bool → List (BitVec 8)

/-- Whether an image's signature holds for a component, its version and its rollback counter (R487; assumption log 12). -/
opaque Config.imageGood : Nat → List (BitVec 8) → Bool

opaque Config.imageVersion : List (BitVec 8) → Nat

opaque Config.imageRollback : List (BitVec 8) → Nat

/-- The check bits of a directory entry, of its TAG, STATE, FMT, SHARERS, OWNER and BUSY (R206; assumption log 79). -/
opaque Config.dirCheck : Nat → Nat → Nat → Nat → Nat → Nat → BitVec 8

/-- What EXT_MISS counts for an ID, by the free values drawn so far and the time (R187, R524; assumption log 99). -/
opaque Config.extMisses : Nat → Nat → Nat → Nat

/-- The OP, above 0x60, and the data slot of a message of CTRL, ABORT or MGMT: its kind, and what it says (R252, R282; assumption
log 33). -/
opaque Config.ctrlOp : Nat → Nat

opaque Config.ctrlSlot : Nat → List Nat → Nat

/-- The MCTP endpoint ID of the BMC (R407; assumption log 13). -/
opaque Config.bmcEid : Nat

/-- Plynrath's PCI Vendor ID (R339, R407). -/
opaque Config.vendorId : Nat

/-- The Revision ID of the functions (PCIe). -/
opaque Config.revision : Nat

end Sys2Proof
end

