-- ==== Sys2Proof/Machine/Float.lean ====
section
/-! DEFINITION. Number formats (R24-R29), rounding (R46, R47), FP32 arithmetic (R43, R44, R86) and Philox (R48). -/

namespace Sys2Proof.Machine

/-! ### The arithmetic flag word (R44) -/

/-- INEXACT, bit 0 of the flag word (R44). -/
def fINEXACT : Byte := 1
/-- SATURATED, bit 1 (R44). -/
def fSATURATED : Byte := 2
/-- INVALID, bit 2 (R44). -/
def fINVALID : Byte := 4
/-- SCALE_NAN, bit 3 (R44). -/
def fSCALENAN : Byte := 8
/-- OVERFLOW, bit 4 (R44). -/
def fOVERFLOW : Byte := 16
/-- UNDERFLOW, bit 5 (R44). -/
def fUNDERFLOW : Byte := 32

/-- A flag when a condition holds. -/
def flagIf (c : Bool) (f : Byte) : Byte := if c then f else 0

/-! ### Exact numbers -/

/-- What an element or an operation's exact result is: NaN, an infinity, or (-1)^neg × mag × 2^exp. A zero keeps its
sign (R29). -/
inductive Num where
  | nan
  | inf (neg : Bool)
  | fin (neg : Bool) (mag : Nat) (exp : Int)
  deriving DecidableEq, Repr

namespace Num

/-- +0, the exact zero of anything without a sign of its own. -/
def zero : Num := .fin false 0 0

/-- The value of an integer. -/
def ofInt (n : Int) : Num := .fin (n < 0) n.natAbs 0

def isNaN : Num → Bool
  | .nan => true
  | _ => false

def isInf : Num → Bool
  | .inf _ => true
  | _ => false

def isZero : Num → Bool
  | .fin _ m _ => m == 0
  | _ => false

/-- The sign; a NaN has none. -/
def sign : Num → Bool
  | .nan => false
  | .inf n => n
  | .fin n _ _ => n

def neg : Num → Num
  | .nan => .nan
  | .inf n => .inf (!n)
  | .fin n m e => .fin (!n) m e

def abs : Num → Num
  | .nan => .nan
  | .inf _ => .inf false
  | .fin _ m e => .fin false m e

/-- The integer mag × 2^(exp - q), signed, for an exponent q at most exp. -/
def scaledInt (neg : Bool) (m : Nat) (e q : Int) : Int :=
  let k : Int := (m <<< (e - q).toNat : Nat)
  if neg then -k else k

/-- The exact sum of two finite numbers; `negZero` is the sign of an exact zero that two nonzero or unlike operands
leave. -/
def addFin (n1 : Bool) (m1 : Nat) (e1 : Int) (n2 : Bool) (m2 : Nat) (e2 : Int) (negZero : Bool) : Num :=
  let q := if e1 ≤ e2 then e1 else e2
  let s := scaledInt n1 m1 e1 q + scaledInt n2 m2 e2 q
  if s = 0 then
    .fin (if m1 = 0 ∧ m2 = 0 ∧ n1 = n2 then n1 else negZero) 0 0
  else .fin (s < 0) s.natAbs q

/-- The exact sum. Opposite infinities give NaN. -/
def add (a b : Num) (negZero : Bool := false) : Num :=
  match a, b with
  | .nan, _ => .nan
  | _, .nan => .nan
  | .inf x, .inf y => if x = y then .inf x else .nan
  | .inf x, .fin _ _ _ => .inf x
  | .fin _ _ _, .inf y => .inf y
  | .fin n1 m1 e1, .fin n2 m2 e2 => addFin n1 m1 e1 n2 m2 e2 negZero

/-- The exact product. Zero times an infinity gives NaN. -/
def mul (a b : Num) : Num :=
  match a, b with
  | .nan, _ => .nan
  | _, .nan => .nan
  | .inf x, .inf y => .inf (x != y)
  | .inf x, .fin n m _ => if m = 0 then .nan else .inf (x != n)
  | .fin n m _, .inf y => if m = 0 then .nan else .inf (n != y)
  | .fin n1 m1 e1, .fin n2 m2 e2 => .fin (n1 != n2) (m1 * m2) (e1 + e2)

/-- The order of two numbers that are no NaN: -0 equals +0. -/
def cmp (a b : Num) : Ordering :=
  match a, b with
  | .inf x, .inf y => if x = y then .eq else if x then .lt else .gt
  | .inf x, _ => if x then .lt else .gt
  | _, .inf y => if y then .gt else .lt
  | .fin n1 m1 e1, .fin n2 m2 e2 =>
    let q := if e1 ≤ e2 then e1 else e2
    compare (scaledInt n1 m1 e1 q) (scaledInt n2 m2 e2 q)
  | _, _ => .eq

/-- a < b for numbers that are no NaN. -/
def lt (a b : Num) : Bool := (cmp a b) == .lt

/-- The number scaled by 2^k. -/
def shift (a : Num) (k : Int) : Num :=
  match a with
  | .fin n m e => .fin n m (e + k)
  | x => x

end Num

/-! ### Formats (R24, R105) -/

/-- The element types of R105, by ETYPE code. -/
inductive Elem where
  | fp4 | e2m3 | e3m2 | e4m3 | e5m2 | int8 | int4 | bf16 | fp16 | fp32 | acc128
  deriving DecidableEq, Repr

/-- ETYPE codes 0x0 to 0xA (R105). -/
def Elem.ofCode : Nat → Option Elem
  | 0 => some .fp4 | 1 => some .e2m3 | 2 => some .e3m2 | 3 => some .e4m3 | 4 => some .e5m2
  | 5 => some .int8 | 6 => some .int4 | 7 => some .bf16 | 8 => some .fp16 | 9 => some .fp32
  | 10 => some .acc128 | _ => none

/-- Bits of one element as it is packed in a tile (R105). -/
def Elem.bits : Elem → Nat
  | .fp4 => 4 | .e2m3 => 6 | .e3m2 => 6 | .e4m3 => 8 | .e5m2 => 8 | .int8 => 8 | .int4 => 4
  | .bf16 => 16 | .fp16 => 16 | .fp32 => 32 | .acc128 => 128

/-- What the all-ones exponent of a format encodes (R24). -/
inductive Special where
  /-- Infinities and NaNs, as IEEE 754 has them. -/
  | ieee
  /-- One NaN pair, all ones, and no infinity (E4M3). -/
  | nanOnly
  /-- Finite numbers only. -/
  | none
  deriving DecidableEq, Repr

/-- The parameters of a floating-point format (R24). -/
structure Fmt where
  ebits : Nat
  mbits : Nat
  bias : Nat
  special : Special
  deriving DecidableEq, Repr

def fmtFP4 : Fmt := ⟨2, 1, 1, .none⟩
def fmtE2M3 : Fmt := ⟨2, 3, 1, .none⟩
def fmtE3M2 : Fmt := ⟨3, 2, 3, .none⟩
def fmtE4M3 : Fmt := ⟨4, 3, 7, .nanOnly⟩
def fmtE5M2 : Fmt := ⟨5, 2, 15, .ieee⟩
def fmtFP16 : Fmt := ⟨5, 10, 15, .ieee⟩
def fmtBF16 : Fmt := ⟨8, 7, 127, .ieee⟩
def fmtFP32 : Fmt := ⟨8, 23, 127, .ieee⟩

/-- The floating-point format of an element type; none for the integers and ACC128. -/
def Elem.fmt : Elem → Option Fmt
  | .fp4 => some fmtFP4 | .e2m3 => some fmtE2M3 | .e3m2 => some fmtE3M2 | .e4m3 => some fmtE4M3
  | .e5m2 => some fmtE5M2 | .bf16 => some fmtBF16 | .fp16 => some fmtFP16 | .fp32 => some fmtFP32
  | .int8 => none | .int4 => none | .acc128 => none

namespace Fmt

/-- Bits of the format without its sign. -/
def magBits (f : Fmt) : Nat := f.ebits + f.mbits

/-- The code, without sign, of the largest finite value (R24). -/
def maxCode (f : Fmt) : Nat :=
  match f.special with
  | .ieee => (2 ^ f.ebits - 1) * 2 ^ f.mbits - 1
  | .nanOnly => 2 ^ f.magBits - 2
  | .none => 2 ^ f.magBits - 1

/-- The code, without sign, of infinity. -/
def infCode (f : Fmt) : Nat := (2 ^ f.ebits - 1) * 2 ^ f.mbits

/-- The canonical NaN (R27). -/
def nanCode (f : Fmt) : Nat :=
  match f.special with
  | .ieee => f.infCode + 2 ^ (f.mbits - 1)
  | _ => 2 ^ f.magBits - 1

/-- The exponent of the smallest subnormal. -/
def qmin (f : Fmt) : Int := 1 - (f.bias : Int) - f.mbits

/-- A code with its sign. -/
def withSign (f : Fmt) (neg : Bool) (c : Nat) : Nat := if neg then 2 ^ f.magBits + c else c

/-- The value of a finite code without its sign (R24). -/
def finValue (f : Fmt) (neg : Bool) (c : Nat) : Num :=
  let e := c / 2 ^ f.mbits
  let m := c % 2 ^ f.mbits
  if e = 0 then .fin neg m f.qmin else .fin neg (2 ^ f.mbits + m) (f.qmin + e - 1)

/-- What a code encodes (R24). -/
def decode (f : Fmt) (code : Nat) : Num :=
  let neg := code / 2 ^ f.magBits % 2 == 1
  let c := code % 2 ^ f.magBits
  match f.special with
  | .none => f.finValue neg c
  | .nanOnly => if c = 2 ^ f.magBits - 1 then .nan else f.finValue neg c
  | .ieee =>
    if c = f.infCode then .inf neg
    else if f.infCode < c then .nan
    else f.finValue neg c

end Fmt

/-! ### Rounding (R46, R47) -/

/-- Rounding modes (R46). -/
inductive RMode where
  | rne | rtz | rup | rdn | sto
  deriving DecidableEq, Repr

/-- The codes of R46; 5 to 7 are reserved. -/
def RMode.ofCode : Nat → Option RMode
  | 0 => some .rne | 1 => some .rtz | 2 => some .rup | 3 => some .rdn | 4 => some .sto | _ => none

/-- m ÷ 2^s to an integer by a mode; `u` is the draw word of stochastic rounding (R46, R47). -/
def roundShift (mode : RMode) (u : Nat) (neg : Bool) (m s : Nat) : Nat :=
  let q := m >>> s
  let r := m % 2 ^ s
  let up := match mode with
    | .rne => decide (2 ^ s < 2 * r) || (2 * r == 2 ^ s && q % 2 == 1 && s != 0)
    | .rtz => false
    | .rup => !neg && r != 0
    | .rdn => neg && r != 0
    | .sto => decide (u < r * 2 ^ 32 / 2 ^ s)
  if up then q + 1 else q

/-- A magnitude m × 2^e to a whole multiple of 2^q. -/
def roundTo (mode : RMode) (u : Nat) (neg : Bool) (m : Nat) (e q : Int) : Nat :=
  if q ≤ e then m <<< (e - q).toNat else roundShift mode u neg m (q - e).toNat

/-- The number of bits of a natural number. -/
def bitLen (n : Nat) : Nat := if n = 0 then 0 else Nat.log2 n + 1

/-- Whether an overflow gives the largest finite value under IEEE 754 for the rounding mode (R28). -/
def overflowToMax (mode : RMode) (neg : Bool) : Bool :=
  match mode with
  | .rtz => true
  | .rup => neg
  | .rdn => !neg
  | .rne => false
  | .sto => false

namespace Fmt

/-- The code of an overflow (R28). -/
def overflowCode (f : Fmt) (mode : RMode) (ieee neg : Bool) : Nat :=
  if !ieee then f.withSign neg f.maxCode
  else match f.special with
    | .none => f.withSign neg f.maxCode
    | .nanOnly => f.nanCode
    | .ieee => if overflowToMax mode neg then f.withSign neg f.maxCode else f.withSign neg f.infCode

/-- A nonzero finite value into a format: the code and the flags OVERFLOW and UNDERFLOW (R28, R29). -/
def convertFin (f : Fmt) (mode : RMode) (ieee : Bool) (u : Nat) (neg : Bool) (m : Nat) (e : Int) : Nat × Byte :=
  let top : Int := (bitLen m : Int) - 1 + e
  let q : Int := max (top - f.mbits) f.qmin
  let i := roundTo mode u neg m e q
  let code : Nat := (q - f.qmin).toNat * 2 ^ f.mbits + i
  let big : Bool := match mode with
    | .sto => (Num.cmp (.fin false m e) (f.finValue false f.maxCode)) == .gt
    | _ => decide (f.maxCode < code)
  if big then (f.overflowCode mode ieee neg, fOVERFLOW)
  else (f.withSign neg code, flagIf (decide (code < 2 ^ f.mbits)) fUNDERFLOW)

/-- Conversion into a floating-point format (R28, R29): the element's code and the flags set. -/
def convert (f : Fmt) (mode : RMode) (ieee : Bool) (u : Nat) (x : Num) : Nat × Byte :=
  match x with
  | .nan =>
    match f.special with
    | .none => (0, fINVALID)
    | _ => (f.nanCode, 0)
  | .inf neg =>
    match f.special with
    | .none => (f.withSign neg f.maxCode, fOVERFLOW)
    | .nanOnly => (if ieee then f.nanCode else f.withSign neg f.maxCode, fOVERFLOW)
    | .ieee => (f.withSign neg f.infCode, 0)
  | .fin neg m e =>
    if m = 0 then (f.withSign neg 0, 0) else f.convertFin mode ieee u neg m e

end Fmt

/-- Conversion into an integer of a range (R28 for INT8 and INT4, R87 for F2I): the integer and the flags set. -/
def convertInt (lo hi : Int) (mode : RMode) (u : Nat) (x : Num) : Int × Byte :=
  match x with
  | .nan => (0, fINVALID)
  | .inf neg => (if neg then lo else hi, fOVERFLOW)
  | .fin neg m e =>
    let k : Int := (roundTo mode u neg m e 0 : Nat)
    let r := if neg then -k else k
    let out : Bool := match mode with
      | .sto => (Num.cmp x (Num.ofInt hi)) == .gt || (Num.cmp x (Num.ofInt lo)) == .lt
      | _ => decide (hi < r) || decide (r < lo)
    if out then (if neg then lo else hi, fOVERFLOW) else (r, 0)

/-- The value of an element's code, unscaled (R24, R25). ACC128 has no value here. -/
def Elem.value (t : Elem) (code : Nat) : Num :=
  match t with
  | .int8 => Num.ofInt ((BitVec.ofNat 8 code).toInt)
  | .int4 => Num.ofInt ((BitVec.ofNat 4 code).toInt)
  | _ => match t.fmt with
    | some f => f.decode code
    | none => .zero

/-- Conversion of a value into an element of a type: its code and the flags (R28, R29). -/
def Elem.convert (t : Elem) (mode : RMode) (ieee : Bool) (u : Nat) (x : Num) : Nat × Byte :=
  match t with
  | .int8 => let r := convertInt (-128) 127 mode u x; ((BitVec.ofInt 8 r.1).toNat, r.2)
  | .int4 => let r := convertInt (-8) 7 mode u x; ((BitVec.ofInt 4 r.1).toNat, r.2)
  | _ => match t.fmt with
    | some f => f.convert mode ieee u x
    | none => (0, 0)

/-! ### FP32 arithmetic (R43, R44, R45) -/

/-- A result and the flags its operation set. -/
abbrev FRes := Word × Byte

/-- The value of an FP32 word. -/
def f32 (w : Word) : Num := fmtFP32.decode w.toNat

/-- An exact FP32 result rounded once, with OVERFLOW and UNDERFLOW from the rounded result (R44). -/
def roundF32 (mode : RMode) (x : Num) : FRes :=
  let r := fmtFP32.convert mode true 0 x
  (BitVec.ofNat 32 r.1, r.2)

/-- INVALID when a NaN came of operands that are none (R44). -/
def newNaN (ops : List Num) (r : Num) : Byte := flagIf (r.isNaN && ops.all (fun x => !x.isNaN)) fINVALID

/-- An operation with exact result r on operands, rounded once. -/
def finishF32 (mode : RMode) (ops : List Num) (r : Num) : FRes :=
  let w := roundF32 mode r
  (w.1, w.2 ||| newNaN ops r)

/-- The sign of an exact zero sum (IEEE 754): minus only when rounding toward minus infinity. -/
def negZeroSum (mode : RMode) : Bool := mode == .rdn

def fAdd (mode : RMode) (a b : Num) : FRes := finishF32 mode [a, b] (a.add b (negZeroSum mode))
def fMul (mode : RMode) (a b : Num) : FRes := finishF32 mode [a, b] (a.mul b)

/-- Fused multiply-add, one rounding (R43). -/
def fFma (mode : RMode) (a b c : Num) : FRes := finishF32 mode [a, b, c] ((a.mul b).add c (negZeroSum mode))

/-- The exact quotient, with enough bits and a sticky last bit that every rounding of it is right. -/
def quotient (a b : Num) : Num :=
  match a, b with
  | .nan, _ => .nan
  | _, .nan => .nan
  | .inf x, .inf _ => let _ := x; .nan
  | .inf x, .fin n _ _ => .inf (x != n)
  | .fin n _ _, .inf y => .fin (n != y) 0 0
  | .fin n1 m1 e1, .fin n2 m2 e2 =>
    if m2 = 0 then (if m1 = 0 then .nan else .inf (n1 != n2))
    else
      let k := 200 + bitLen m2
      let q := (m1 <<< k) / m2
      let r := (m1 <<< k) % m2
      .fin (n1 != n2) (2 * q + (if r = 0 then 0 else 1)) (e1 - e2 - k - 1)

def fDiv (mode : RMode) (a b : Num) : FRes := finishF32 mode [a, b] (quotient a b)

/-- The integer square root, one result bit per step, the highest first. -/
def isqrtGo (n : Nat) : Nat → Nat → Nat
  | 0, r => r
  | k + 1, r =>
    let t := r + 2 ^ k
    isqrtGo n k (if t * t ≤ n then t else r)

def isqrt (n : Nat) : Nat := isqrtGo n (bitLen n / 2 + 1) 0

/-- The exact square root, with a sticky last bit. -/
def sqrtNum (a : Num) : Num :=
  match a with
  | .nan => .nan
  | .inf neg => if neg then .nan else .inf false
  | .fin neg m e =>
    if m = 0 then .fin neg 0 0
    else if neg then .nan
    else
      let k : Nat := if (e - 80) % 2 = 0 then 80 else 81
      let n := m <<< k
      let r := isqrt n
      .fin false (2 * r + (if r * r = n then 0 else 1)) ((e - k) / 2 - 1)

def fSqrt (mode : RMode) (a : Num) : FRes := finishF32 mode [a] (sqrtNum a)

/-- IEEE 754-2019 minimum and maximum (R43): a NaN operand gives NaN, and -0 is below +0. -/
def numMin (a b : Num) : Num :=
  if a.isNaN || b.isNaN then .nan
  else match Num.cmp a b with
    | .lt => a
    | .gt => b
    | .eq => if a.sign then a else b

def numMax (a b : Num) : Num :=
  if a.isNaN || b.isNaN then .nan
  else match Num.cmp a b with
    | .lt => b
    | .gt => a
    | .eq => if a.sign then b else a

def fMin (a b : Num) : FRes := finishF32 .rne [a, b] (numMin a b)
def fMax (a b : Num) : FRes := finishF32 .rne [a, b] (numMax a b)

/-! ### FPOW2 and FLOG2 (R86) -/

/-- ln 2 × 2^256, rounded down. -/
def ln2Scaled : Nat := 80260960185991308862233904206310070533990667611589946606122867505419956976171

/-- Σ t^k ÷ k! in units of 2^-256, each term rounded down: `term` is the k-th one. -/
def expGo (t : Nat) : Nat → Nat → Nat → Nat
  | 0, _, _ => 0
  | fuel + 1, k, term => term + expGo t fuel (k + 1) (term * t / 2 ^ 256 / (k + 1))

/-- 2^f × 2^256 rounded down, for f × 2^256 below 2^256. -/
def pow2Frac (f : Nat) : Nat := expGo (f * ln2Scaled / 2 ^ 256) 70 0 (2 ^ 256)

/-- A positive FP32 code with the flags of a nonzero exact result that was rounded to it (R44). -/
def roundedCode (c : Nat) : FRes :=
  (BitVec.ofNat 32 c, flagIf (decide (0x7F800000 ≤ c)) fOVERFLOW ||| flagIf (decide (c < 2 ^ 23)) fUNDERFLOW)

/-- FPOW2 (R86): exact for an integer whose power is representable; otherwise one of the two FP32 values beside the
exact one, subnormal ones included (R26), as Config chooses (assumption log 2). -/
def fPow2 (w : Word) : FRes :=
  match f32 w with
  | .nan => (0x7FC00000#32, 0)
  | .inf neg => (if neg then 0#32 else 0x7F800000#32, 0)
  | .fin neg m e =>
    let s : Int := Num.scaledInt neg m e (-256)
    let n : Int := s / 2 ^ 256
    let f : Nat := (s % 2 ^ 256).toNat
    let up := Config.pow2Choice w % 2
    if 128 ≤ n then (0x7F800000#32, fOVERFLOW)
    else if n < -149 then roundedCode up
    else if f = 0 then roundF32 .rne (.fin false 1 n)
    else roundedCode ((roundF32 .rtz (.fin false (pow2Frac f) (n - 256))).1.toNat + up)

/-- The binary digits of log2 of y × 2^-200, y in [2^200, 2^201), by squaring. -/
def log2Go : Nat → Nat → Nat → Nat
  | 0, _, acc => acc
  | n + 1, y, acc =>
    let y2 := y * y / 2 ^ 200
    if 2 ^ 201 ≤ y2 then log2Go n (y2 / 2) (2 * acc + 1) else log2Go n y2 (2 * acc)

/-- FLOG2 (R86): one of the FP32 values within one unit in the last place of the exact one, as Config chooses; the
exact 0 of FLOG2 1.0, which lies below the normal range of R86, is returned as it is (assumption log 2). -/
def fLog2 (w : Word) : FRes :=
  match f32 w with
  | .nan => (0x7FC00000#32, 0)
  | .inf neg => if neg then (0x7FC00000#32, fINVALID) else (0x7F800000#32, 0)
  | .fin neg m e =>
    if m = 0 then (0xFF800000#32, 0)
    else if neg then (0x7FC00000#32, fINVALID)
    else
      let top : Int := (bitLen m : Int) - 1 + e
      let y := (m <<< 200) >>> (bitLen m - 1)
      if y = 2 ^ 200 then
        if top = 0 then (0#32, 0)
        else
          let c := roundF32 .rne (Num.ofInt top)
          (c.1 - 1 + BitVec.ofNat 32 (Config.log2Choice w % 3), 0)
      else
        let l : Int := top * 2 ^ 80 + (log2Go 80 y 0 : Nat)
        let mag : Nat := if l < 0 then l.natAbs - 1 else l.toNat
        let y0 := roundF32 .rtz (.fin (l < 0) mag (-80))
        (y0.1 + BitVec.ofNat 32 (Config.log2Choice w % 2), 0)

/-! ### Comparison codes (R83) -/

/-- FCMP's codes; none for a reserved one. -/
def fcmpCode (code : Nat) (a b : Num) : Option Bool :=
  let un := a.isNaN || b.isNaN
  let o := Num.cmp a b
  match code with
  | 0 => some (!un && o == .eq)
  | 1 => some (un || o != .eq)
  | 2 => some (!un && o == .lt)
  | 3 => some (!un && o != .gt)
  | 4 => some (!un && o == .gt)
  | 5 => some (!un && o != .lt)
  | 6 => some (!un)
  | 7 => some un
  | _ => none

/-- ICMP's and UCMP's codes; none for a reserved one. -/
def icmpCode {w : Nat} (code : Nat) (a b : BitVec w) : Option Bool :=
  match code with
  | 0 => some (a == b)
  | 1 => some (a != b)
  | 2 => some (a.slt b)
  | 3 => some (a.sle b)
  | 4 => some (b.slt a)
  | 5 => some (b.sle a)
  | 6 => some (a.ult b)
  | 7 => some (a.ule b)
  | 8 => some (b.ult a)
  | 9 => some (b.ule a)
  | _ => none

/-! ### Philox-4×32-10 (R48) -/

/-- One Philox evaluation's four words. -/
structure Philox where
  x0 : Word
  x1 : Word
  x2 : Word
  x3 : Word
  deriving DecidableEq, Repr

/-- One round of the published generator. -/
def Philox.round (c : Philox) (k0 k1 : Word) : Philox :=
  let p0 : DWord := (0xD2511F53#64) * c.x0.setWidth 64
  let p1 : DWord := (0xCD9E8D57#64) * c.x2.setWidth 64
  { x0 := p1.extractLsb' 32 32 ^^^ c.x1 ^^^ k0
    x1 := p1.setWidth 32
    x2 := p0.extractLsb' 32 32 ^^^ c.x3 ^^^ k1
    x3 := p0.setWidth 32 }

/-- The rounds, the keys bumped between them. -/
def Philox.rounds : Nat → Philox → Word → Word → Philox
  | 0, c, _, _ => c
  | n + 1, c, k0, k1 => Philox.rounds n (c.round k0 k1) (k0 + 0x9E3779B9#32) (k1 + 0xBB67AE85#32)

/-- Philox-4×32 with 10 rounds, by a 64-bit key and a counter (c3, c2, c1, c0) (R48). -/
def philox (key : DWord) (c3 c2 c1 c0 : Word) : Philox :=
  Philox.rounds 10 ⟨c0, c1, c2, c3⟩ (key.setWidth 32) (key.extractLsb' 32 32)

/-- Word i of an evaluation. -/
def Philox.word (p : Philox) (i : Nat) : Word :=
  match i % 4 with
  | 0 => p.x0
  | 1 => p.x1
  | 2 => p.x2
  | _ => p.x3

/-- The draw word of an element under stochastic rounding (R48). -/
def stochasticWord (seed : DWord) (reqId : Word) (inst row col : Nat) : Nat :=
  let c2 : Word := 0x10000000#32 ||| (BitVec.ofNat 28 inst).setWidth 32
  ((philox seed reqId c2 (BitVec.ofNat 32 row) (BitVec.ofNat 32 (col / 4))).word (col % 4)).toNat

end Sys2Proof.Machine
end

