-- ==== Sys2Proof/Machine/Accum.lean ====
section
/-! DEFINITION. The long accumulator (R36-R40) and the FP32 tree (R41). -/

namespace Sys2Proof.Machine

/-- A long accumulator's class and, when finite, its integer N (R36). -/
inductive Acc where
  | nan
  | clash
  | inf (neg : Bool)
  | fin (n : Int)
  deriving DecidableEq, Repr

namespace Acc

/-- The largest finite N (R36). -/
def maxN : Int := 2 ^ 127 - 1
/-- The smallest finite N (R36). -/
def minN : Int := -2 ^ 127 + 4

/-- The 128-bit pattern of an accumulator (R36). -/
def toBits : Acc → BitVec 128
  | .nan => BitVec.ofNat 128 (2 ^ 127)
  | .inf neg => BitVec.ofNat 128 (2 ^ 127 + (if neg then 2 else 1))
  | .clash => BitVec.ofNat 128 (2 ^ 127 + 3)
  | .fin n => BitVec.ofInt 128 n

/-- What a 128-bit pattern stands for (R36). -/
def ofBits (w : BitVec 128) : Acc :=
  if w = BitVec.ofNat 128 (2 ^ 127) then .nan
  else if w = BitVec.ofNat 128 (2 ^ 127 + 1) then .inf false
  else if w = BitVec.ofNat 128 (2 ^ 127 + 2) then .inf true
  else if w = BitVec.ofNat 128 (2 ^ 127 + 3) then .clash
  else .fin w.toInt

/-- A finite sum held in N's range; SATURATED when it was clamped (R38). -/
def clamp (n : Int) : Acc × Byte :=
  if maxN < n then (.fin maxN, fSATURATED)
  else if n < minN then (.fin minN, fSATURATED)
  else (.fin n, 0)

/-- The sum of two accumulators, one anchor (R38, R39). -/
def add (a b : Acc) : Acc × Byte :=
  match a, b with
  | .nan, _ => (.nan, 0)
  | _, .nan => (.nan, 0)
  | .clash, _ => (.clash, 0)
  | _, .clash => (.clash, 0)
  | .inf x, .inf y => (if x = y then .inf x else .clash, 0)
  | .inf x, .fin _ => (.inf x, 0)
  | .fin _, .inf y => (.inf y, 0)
  | .fin x, .fin y => clamp (x + y)

/-- A finite value rounded to the nearest multiple of 2^A, ties to the even one; INEXACT when it was not one (R38). -/
def toMultiple (anchor : Int) (neg : Bool) (m : Nat) (e : Int) : Int × Byte :=
  let k : Int := (roundTo .rne 0 neg m e anchor : Nat)
  let exact : Bool := decide (anchor ≤ e) || m % 2 ^ (anchor - e).toNat == 0
  (if neg then -k else k, flagIf (!exact) fINEXACT)

/-- A product or term as it enters at an anchor, before it is summed (R38, R39). -/
def ofNum (anchor : Int) (x : Num) : Acc × Byte :=
  match x with
  | .nan => (.nan, 0)
  | .inf neg => (.inf neg, 0)
  | .fin neg m e => let r := toMultiple anchor neg m e; (.fin r.1, r.2)

/-- The terms' magnitudes, added up: no order of the sum leaves the range when this stays inside it. -/
def absSum : List Acc → Nat
  | [] => 0
  | .fin n :: r => n.natAbs + absSum r
  | _ :: r => absSum r

/-- The sum in list order, each step by R38 and R39. -/
def sumList (init : Acc) : List Acc → Acc × Byte
  | [] => (init, 0)
  | x :: r =>
    let s := init.add x
    let t := sumList s.1 r
    (t.1, s.2 ||| t.2)

/-- The terms with one inserted at a place. -/
def insertAt (x : Acc) : Nat → List Acc → List Acc
  | 0, l => x :: l
  | _ + 1, [] => [x]
  | n + 1, y :: l => y :: insertAt x n l

/-- The terms in an order that nothing states: the n-th is put at a place drawn for it (assumption log 1). -/
def freeOrder (key : Nat) : List Acc → List Acc
  | [] => []
  | x :: r => insertAt x (Config.freeNat (key + r.length) % (r.length + 1)) (freeOrder key r)

/-- The sum of terms. It is the same in every order unless one may clamp; then the order is open (R38). -/
def sum (key : Nat) (init : Acc) (terms : List Acc) : Acc × Byte :=
  if absSum (init :: terms) ≤ 2 ^ 127 - 4 then sumList init terms
  else sumList init (freeOrder key terms)

/-- The value of an accumulator as conversion out of it reads it, with INVALID for a clash NaN (R40). -/
def value (a : Acc) (anchor : Int) : Num × Byte :=
  match a with
  | .nan => (.nan, 0)
  | .clash => (.nan, fINVALID)
  | .inf neg => (.inf neg, 0)
  | .fin n => (.fin (n < 0) n.natAbs anchor, 0)

end Acc

/-- The product of per-tensor scales, an absent one counting as 1.0 (R40). -/
def scaleProduct : List (Option Word) → Num
  | [] => .fin false 1 0
  | none :: r => scaleProduct r
  | some w :: r => (f32 w).mul (scaleProduct r)

/-- v × s as a conversion reads it, with INVALID where a NaN comes of it (R40): of the exact zeros only that of a source
element or register that holds -0 is -0 (R29); `signed` says that the source has one. -/
def scaledBy (v s : Num) (signed : Bool) : Num × Byte :=
  if s.isNaN then (.nan, fINVALID)
  else
    let p := v.mul s
    (if p.isZero then .fin (signed && v.isZero && v.sign) 0 0 else p, newNaN [v, s] p)

/-- Conversion of a long accumulator out of it, one rounding (R40). -/
def convertAcc (t : Elem) (mode : RMode) (ieee : Bool) (u : Nat) (a : Acc) (anchor : Int) (s : Num) : Nat × Byte :=
  let v := a.value anchor
  let p := scaledBy v.1 s false
  let r := t.convert mode ieee u p.1
  (r.1, r.2 ||| v.2 ||| p.2)

/-! ### The FP32 tree T of R41 -/

/-- The largest power of two below n, for n of at least 2 (R41). -/
def powerBelow (n : Nat) : Nat := 2 ^ Nat.log2 (n - 1)

/-- T over a list of FP32 leaves, with a depth bound; the flags of its additions are ORed (R41, R44). -/
def treeSum : Nat → List Word → FRes
  | 0, _ => (0, 0)
  | _ + 1, [] => (0, 0)
  | _ + 1, [x] => (x, 0)
  | d + 1, l =>
    let h := powerBelow l.length
    let a := treeSum d (l.take h)
    let b := treeSum d (l.drop h)
    let r := fAdd .rne (f32 a.1) (f32 b.1)
    (r.1, a.2 ||| b.2 ||| r.2)

/-- T over all its leaves (R41). -/
def tree (l : List Word) : FRes := treeSum (l.length + 1) l

/-! ### Anchors (R36) -/

/-- L of a format: its smallest positive value is 2^L; none where AUTO is not given. -/
def Elem.lowExp : Elem → Option Int
  | .fp4 => some (-1) | .e2m3 => some (-3) | .e3m2 => some (-4) | .e4m3 => some (-9) | .e5m2 => some (-16)
  | .int8 => some 0 | .int4 => some 0 | .fp16 => some (-24)
  | .bf16 => none | .fp32 => none | .acc128 => none

/-- The natural anchor of an operand pair, what AUTO selects (R36). -/
def naturalAnchor (a b : Elem) : Option Int :=
  match a.lowExp, b.lowExp with
  | some x, some y => some (x + y)
  | _, _ => none

end Sys2Proof.Machine
end

