-- ==== Sys2Proof/Machine/CoreState.lean ====
section
/-! DEFINITION. The state of the Bamuz cores and of launches: bundles, work groups, banks, tile transfers (R52-R77,
R90-R138). -/

namespace Sys2Proof.Machine

/-- Who coordinates a launch: a queue of this module with its packet's index, or another module (R124). -/
inductive Coord where
  | queue (q : QRef) (pidx : Nat)
  | remote (module : Nat) (handle : Nat)
  deriving DecidableEq, Repr

/-- A batch that this coordinator has handed to another pier and that has not ended there (R124): its number, the module, whether it
has been told to stop, the pages of the save pool from which records are read there, and for how many work groups the
save pool keeps room there (R129). -/
structure Away where
  batch : Nat
  module : Nat
  told : Bool
  pages : List Nat
  room : Nat
  deriving DecidableEq, Repr

/-- A launch with work on this module (R123-R137). Its pending list is `saved`, then the unstarted work groups of `todo`, as
first and end, ascending; `reading` are the records of work groups placed here that are being read over the fabric; `away` are
its batches on other piers; `ended` counts the work groups ended here; `room` is for how many work groups of another pier's batch the
coordinator keeps a place in the save pool (R129). -/
structure Launch where
  id : Nat
  coord : Coord
  ctx : Nat
  span : Nat
  spec : LaunchSpec
  todo : List (Nat × Nat)
  saved : List SaveRec
  reading : List (Nat × SaveRec)
  away : List Away
  ended : Nat
  flags : Byte
  trap : Option TrapRec
  moreTraps : Nat
  fatal : Bool
  firstFail : Option Status
  engines : Nat
  rsts : Nat
  reserve : Nat
  room : Nat
  killed : Option Status
  tstart : Nat
  energy : Nat
  deriving DecidableEq, Repr

/-- One physical core (R11-R13, R53, R62): whether it works, whether it is in service, the place it stands at in its
cluster, the counter w of R53, and the span that last had work on it (R62). -/
structure CoreUnit where
  good : Bool
  inService : Bool
  pos : Nat
  w : Nat
  lastSpan : Nat
  deriving DecidableEq, Repr

/-- The stay of a context's work group on a core, from its admission until it leaves (R388). -/
structure Stay where
  wg : Nat
  ctx : Nat
  core : Nat
  start : Nat
  stop : Option Nat
  deriving DecidableEq, Repr

/-- The cores and launches of the module. Core c is 9 × k + i. Core-store cells are keyed by core × 2^21 + offset and
unlisted bytes are 0; poisoned rows by core × 2^15 + row (R65); `corrected` counts the errors that core store and register
files corrected (R65, R479). Code lines are keyed by core, span and line (R67). `stays` are the stays of the last 100 ms, from which
CTX_QUERY's utilisation is measured (R388). -/
structure Cores where
  units : List CoreUnit
  corrected : Nat
  store : List Host.Cell
  rowPoison : List Nat
  icache : List (Nat × Nat × Nat)
  wgs : List WorkGroup
  nextWg : Nat
  stays : List Stay
  launches : List Launch
  nextLaunch : Nat
  deriving DecidableEq, Repr

/-- The cores at the end of manufacture and at each start: cores 0 to 7 of every cluster in service, core 8 spare
(R12, R13). -/
def Cores.reset : Cores :=
  { units := (List.range 288).map (fun c =>
      { good := true, inService := c % 9 != 8, pos := c % 9, w := 0, lastSpan := 0 })
    corrected := 0, store := [], rowPoison := [], icache := [], wgs := [], nextWg := 1, stays := [], launches := [], nextLaunch := 1 }

end Sys2Proof.Machine
end

