-- ==== Sys2Proof/Machine/MemState.lean ====
section
/-! DEFINITION. The state of memory, extents, channels, caches and directory (R178-R218), and of the L2 partitions
(R172). -/

namespace Sys2Proof.Machine

/-- The states of an extent (R186). -/
inductive ExtState where
  | zeroing | active | moving
  deriving DecidableEq, Repr

/-- A valid extent table entry (R185). -/
structure Extent where
  idx : Nat
  state : ExtState
  span : Nat
  base : Nat
  choff : Nat
  len : Nat
  mask : BitVec 192
  deriving DecidableEq, Repr

/-- The states of a channel (R196). -/
inductive ChState where
  | idle | bound | zeroing | evacuating | degraded | retired
  deriving DecidableEq, Repr

/-- Their values in EXT_QUERY (R196). -/
def ChState.code : ChState → Nat
  | .idle => 0 | .bound => 1 | .zeroing => 2 | .evacuating => 3 | .degraded => 4 | .retired => 5

/-- A logical channel: its state, the physical channel that serves it (stack × 16 + channel; R179), the errors of the
rolling 24 hours by fabric time (R197), whether it failed (R200), whether its retirement is required and has not begun
(R198, R202), the replacement of a retirement in progress, and whether its copy has ended (R199). -/
structure Channel where
  state : ChState
  phys : Option Nat
  corrected : List Nat
  uncorrectable : List Nat
  failed : Bool
  due : Bool
  repl : Option Nat
  copied : Bool
  deriving DecidableEq, Repr

/-- What a zeroing engine has been told to do (R194, R195, R188); a channel never passes between tenants without becoming
IDLE (R329). -/
inductive ZeroFor where
  /-- A whole channel, on its way to IDLE. -/
  | release
  /-- The granules of a new extent. -/
  | extent (idx : Nat)
  deriving DecidableEq, Repr

/-- In-package memory. Cells are keyed by LPA and unlisted bytes are 0; poisoned lines by LPA ÷ 128. -/
structure Memory where
  cells : List Host.Cell
  poison : List Nat
  channels : List Channel
  extents : List Extent
  zeroing : List (Nat × ZeroFor)
  retired : Nat
  deriving DecidableEq, Repr

/-- Memory after a cold start: every channel zeroed, IDLE and served by its own physical channel (R179, R195). -/
def Memory.reset : Memory :=
  { cells := [], poison := []
    channels := (List.range 192).map (fun c =>
      { state := .idle, phys := some c, corrected := [], uncorrectable := [], failed := false, due := false, repl := none,
        copied := false })
    extents := [], zeroing := [], retired := 0 }

/-- The state of a cached copy (R205). -/
inductive CopyState where
  | s | e | m
  deriving DecidableEq, Repr

/-- A copy of a line in an agent's cache: the way it lies in, its bytes, poison mark, which bytes the agent wrote while it held the line
(R191) and the release record that came with it (R209). -/
structure Copy where
  agent : Nat
  line : Nat
  way : Nat
  st : CopyState
  data : List Byte
  poison : Bool
  written : List Nat
  rr : Option RelRec
  deriving DecidableEq, Repr

/-- The states of a directory entry (R209). -/
inductive DirState where
  | shared | ownedClean | ownedDirty | home
  deriving DecidableEq, Repr

/-- Who may hold a line: up to four agent numbers, or clusters (R206). -/
inductive Sharers where
  | agents (l : List Nat)
  | clusters (v : BitVec 32)
  deriving DecidableEq, Repr

/-- A directory entry (R206). `set` is the set it lies in; entries are kept in order of allocation. `busy`: a transaction on the
line is in progress, its requests waiting at the home. -/
structure DirEntry where
  line : Nat
  set : Nat
  st : DirState
  sharers : Sharers
  owner : Nat
  busy : Bool
  deriving DecidableEq, Repr

/-- A line of a home's atomic buffer with its release record (R209, R239), and whether one write has covered it wholly, which clears
its mark (R191); a home's lines are kept least recently used first. -/
structure BufLine where
  line : Nat
  data : List Byte
  poison : Bool
  whole : Bool
  rr : Option RelRec
  deriving DecidableEq, Repr

/-- Who keeps a place among the requests that wait for a line, to be executed when its turn has come (R208): a bundle with the
instruction it stands at, a request from the fabric, a read through a window. -/
inductive TurnOf where
  | bundle (wg idx : Nat)
  | message (g : Msg)
  | window (fn : Fn) (off len : Nat)
  deriving DecidableEq, Repr

/-- A request at a home (R208, R209): RD and RDX of an agent, UR, IWF or IWP of an uncached agent with its poison, AT; with what the
check bits say where memory is read; or a place kept. -/
inductive HomeReq where
  | rd (agent line : Nat) (ecc : Ecc) (ctx : Option Nat)
  | rdx (agent line : Nat) (ecc : Ecc)
  | ur (line : Nat) (ecc : Ecc)
  | iw (line off : Nat) (data : List Byte) (poison : Bool)
  | turn (who : TurnOf) (line : Nat)
  | atom (lpa : Nat) (op : AtomOp) (size : Nat) (x new : BitVec 64)
  deriving DecidableEq, Repr

/-- The line that a request is for. -/
def HomeReq.line : HomeReq → Nat
  | .rd _ l _ _ => l
  | .rdx _ l _ => l
  | .ur l _ => l
  | .iw l _ _ _ => l
  | .turn _ l => l
  | .atom a _ _ _ _ => a / 128

/-- Who keeps the place that a request is. -/
def HomeReq.turnOf : HomeReq → Option TurnOf
  | .turn w _ => some w
  | _ => none

/-- Coherence state (R203-R217): copies (those of an L2 set with the one used last at the end), directory, atomic buffers, each agent's
queued invalidations in order, dead agents whose reclaim waits or runs, range recalls in progress by channel, first granule and
count, and the requests that wait at the homes in the order in which they came (R208). -/
structure Coh where
  copies : List Copy
  dir : List DirEntry
  bufs : List BufLine
  invq : List (Nat × Nat)
  dead : List Nat
  reclaim : List Nat
  walks : List (Nat × Nat × Nat)
  waiting : List HomeReq
  deriving DecidableEq, Repr

def Coh.reset : Coh :=
  { copies := [], dir := [], bufs := [], invq := [], dead := [], reclaim := [], walks := [], waiting := [] }

/-- The L2 partition registers of a cluster (R172). -/
structure L2Part where
  ctl : Word
  shared : Word
  ctx : List DWord
  deriving DecidableEq, Repr

def L2Part.reset : L2Part := { ctl := 0, shared := 0xFFF, ctx := [0, 0, 0, 0] }

end Sys2Proof.Machine
end

