-- ==== Sys2Proof/Machine/ObjState.lean ====
section
/-! DEFINITION. The state of contexts, slots, queues, fences, host regions and landing counters (R289, R363-R399). -/

namespace Sys2Proof.Machine

/-- The states of a context (R366). -/
inductive CtxState where
  | idle | waiting | resident | lost | teardown
  deriving DecidableEq, Repr

/-- Their values in CTX_QUERY (R366). -/
def CtxState.code : CtxState → Nat
  | .idle => 0 | .waiting => 1 | .resident => 2 | .lost => 3 | .teardown => 4

/-- A context (R365, R366, R368, R388). `pool` are the first granules of its save-pool extents; `kept` the save records
that a LOST debug context keeps (R544). -/
structure Context where
  num : Nat
  span : Nat
  fn : Fn
  pasid : Nat
  seed : DWord
  weight : Nat
  checked : Bool
  debug : Bool
  pool : List Nat
  evq : Nat
  state : CtxState
  credit : Nat
  creditZero : Option Nat
  waitFrom : Option Nat
  jobs : Nat
  energy : Nat
  kept : List SaveRec
  deriving DecidableEq, Repr

/-- Where a ring, record or mirror lies: a host region with an offset, or a span address (R371). -/
inductive Loc where
  | region (handle : Nat) (off : Nat)
  | span (addr : Nat)
  deriving DecidableEq, Repr

/-- A packet that has started and not completed; `waiting` says that it waits for a fence, a counter, other packets or
an acknowledgement; `after` the packets, by queue index and packet index, that a barrier or a marker waits for. -/
structure Packet where
  pidx : Nat
  bytes : List Byte
  tstart : Nat
  energy : Nat
  waiting : Bool
  /-- When a signal to another module is lost (R380). -/
  due : Nat
  after : List (Nat × Nat)
  deriving DecidableEq, Repr

/-- A queue (R343, R370-R373). `avail` is A, the packets made available; `ridx` the packets read; `doneOut` the
packets completed out of order; `held` the waits that the loss of the slot has stopped (R369); `lastLaunch` the packet index of its
latest launch (R125). -/
structure Queue where
  ctx : Nat
  idx : Nat
  fn : Fn
  page : Nat
  ring : Loc
  slots : Nat
  cring : Loc
  status : Loc
  traprec : Loc
  cevt : Bool
  proc : Nat
  avail : Word
  ridx : Word
  done : Word
  doneOut : List Nat
  halted : Bool
  destroying : Bool
  running : List Packet
  held : List Packet
  lastLaunch : Option Nat
  deriving DecidableEq, Repr

/-- A grant on a fence (R394). -/
structure Grant where
  module : Nat
  ctx : Nat
  wait : Bool
  signal : Bool
  deriving DecidableEq, Repr

/-- The owner of a fence whose owner is gone: no context has this number (R394). -/
def noCtx : Nat := 2 ^ 16

/-- A fence object (R392). -/
structure Fence where
  gen : Nat
  index : Nat
  owner : Nat
  value : DWord
  live : Bool
  grants : List Grant
  regress : Nat
  rr : Option RelRec
  mirror : Option Loc
  mirrorOn : Bool
  deriving DecidableEq, Repr

/-- The 32-bit handle (R393). -/
def Fence.handle (f : Fence) : Nat := f.gen * 2 ^ 18 + f.index

/-- A host region (R363, R377, R412). -/
structure Region where
  handle : Nat
  ctx : Nat
  iova : Nat
  len : Nat
  read : Bool
  write : Bool
  glaze : Option Nat
  deriving DecidableEq, Repr

/-- An allocated landing counter: its value and who released the latest increment (R240, R289). -/
structure Counter where
  idx : Nat
  ctx : Nat
  value : DWord
  last : Option RelRec
  deriving DecidableEq, Repr

/-- A resident slot in use (R367, R369): the context, and whether it is being given up. -/
structure Slot where
  ctx : Nat
  home : Bool
  closing : Bool
  deriving DecidableEq, Repr

/-- The objects of the command stream. -/
structure Objs where
  ctxs : List Context
  slots : List (Option Slot)
  queues : List Queue
  fences : List Fence
  fenceGens : List (Nat × Nat)
  regions : List Region
  counters : List Counter
  nextRegion : Nat
  deriving DecidableEq, Repr

def Objs.reset : Objs :=
  { ctxs := [], slots := List.replicate 48 none, queues := [], fences := [], fenceGens := [], regions := [],
    counters := [], nextRegion := 1 }

end Sys2Proof.Machine
end

