-- ==== Sys2Proof/Machine/FabState.lean ====
section
/-! DEFINITION. The state of composition (R306-R336) and of the fabric: engines, lanes, groups, routes, tracker and
fabric time (R243-R279). -/

namespace Sys2Proof.Machine

/-! ### Composition -/

/-- A grain set of a composition record (R309). -/
structure GrainSet where
  valid : Bool
  epoch : Nat
  rank : Nat
  piersM1 : Nat
  cores : BitVec 32
  mem : BitVec 192
  links : BitVec 128
  deriving DecidableEq, Repr

/-- The set that names nothing. -/
def GrainSet.none : GrainSet :=
  { valid := false, epoch := 0, rank := 0, piersM1 := 0, cores := 0, mem := 0, links := 0 }

/-- The phases of a record (R310). -/
inductive Phase where
  | stable | prepare | drain
  deriving DecidableEq, Repr

/-- Their values (R310). -/
def Phase.code : Phase → Nat
  | .stable => 0 | .prepare => 1 | .drain => 2

/-- The three kinds of grain (01 Grains). -/
inductive GrainKind where
  | core | memory | link
  deriving DecidableEq, Repr

/-- The handover of one grain at a transition (R327-R331). -/
structure Handover where
  kind : GrainKind
  num : Nat
  leave : Bool
  complete : Bool
  deriving DecidableEq, Repr

/-- A composition record with its pier tables and the progress of its transition (R307, R309-R325). `gone` are the ranges,
first granule and length, of the extents that have left it in this transition; `waiting` the requests that wait for a grain
that arrives (R321). -/
structure SpanRec where
  id : Nat
  tenant : Word
  phase : Phase
  switchT : Nat
  closeT : Nat
  drainUs : Nat
  late : Bool
  drill : Bool
  committed : Bool
  current : GrainSet
  shadow : GrainSet
  piers : List Nat
  nextPiers : List Nat
  reloc : List Nat
  handovers : List Handover
  gone : List (Nat × Nat)
  waiting : List Msg
  deriving DecidableEq, Repr

/-- Who holds a grain (R14). -/
inductive Owner where
  | idle
  | held
  | span (id : Nat)
  deriving DecidableEq, Repr

/-- The composition of the module. -/
structure Comp where
  recs : List SpanRec
  coreOwner : List Owner
  memOwner : List Owner
  linkOwner : List Owner
  deriving DecidableEq, Repr

/-- No span; every grain idle (R14). -/
def Comp.reset : Comp :=
  { recs := [], coreOwner := List.replicate 32 .idle, memOwner := List.replicate 192 .idle,
    linkOwner := List.replicate 128 .idle }

/-! ### The fabric -/

/-- The states of a lane (R274). -/
inductive LaneState where
  | off | calibrating | training | active | standby | miswired | failed
  deriving DecidableEq, Repr

/-- A message being received on a channel of a lane, slot by slot (R251): its header and the data that came. -/
structure Partial where
  vc : Nat
  hdr : BitVec 128
  data : List Byte
  poison : Bool
  rr : Option RelRec
  deriving DecidableEq, Repr

/-- A DATA flit that a transmitter holds, with the span of its message and the class of reserved slots that it may use (R257). -/
structure OutFlit where
  flit : Flit
  span : Nat
  hops : Nat
  deriving DecidableEq, Repr

/-- One logical lane (R243): the physical lane of its engine that serves it, its state, the far end its training found (R275), its round
trip; the transmitter's next LSEQ, unacknowledged DATA flits, resends of the first of them, shared credits and reserved ones by channel × 3
+ class (R254, R257); the receiver's next LSEQ, whether it has sent NAK, and its incomplete messages; the credits it owes by channel.
`txPhys` is the physical lane its flits leave on; `txq` the messages that wait for its transmitter, by channel, with the flits of each that
have left; `resend` the flits of a withdrawn lane that go first (R271); `held` the flits that a drill holds, each message's with the flit
times left (R518); `last` the DATA flit that left last, as it left; `turn` and `left` whose turn it is among the weighted channels and for
how many flits (R259); `waitAt` since when nothing has come back while flits are unacknowledged (R255). -/
structure Lane where
  phys : Nat
  st : LaneState
  farModule : Nat
  farEngine : Nat
  farLane : Nat
  roundTrip : Nat
  txSeq : Nat
  replay : List OutFlit
  resends : Nat
  shared : Nat
  reserved : List Nat
  rxSeq : Nat
  rxAny : Bool
  nakSent : Bool
  incoming : List Partial
  owed : List Nat
  coneAt : Nat
  txPhys : Nat
  txq : List (Nat × Msg × Nat)
  resend : List OutFlit
  held : List (Nat × List OutFlit)
  last : Option Flit
  turn : Nat
  left : Nat
  waitAt : Nat
  deriving DecidableEq, Repr

/-- A lane at cold start, served by physical lane j (R243), with the far end's buffer empty (R257). -/
def Lane.reset (j : Nat) : Lane :=
  { phys := j, st := .off, farModule := 0, farEngine := 0, farLane := 0, roundTrip := 0, txSeq := 0, replay := [],
    resends := 0, shared := 488, reserved := List.replicate 24 1, rxSeq := 0, rxAny := false, nakSent := false,
    incoming := [], owed := List.replicate 8 0, coneAt := 0, txPhys := j, txq := [], resend := [], held := [], last := none, turn := 0,
    left := 0, waitAt := 0 }

/-- A spare in progress (R270, R271): the logical lane, whether the old lane still carries traffic, whether the spare's identity
exchange has passed (R275) and whether it has trained, the LSEQ named for what is sent here and that named by the far end. -/
structure Sparing where
  lane : Nat
  hitless : Bool
  known : Bool
  trained : Bool
  lseq : Option Nat
  cut : Option Nat
  deriving DecidableEq, Repr

/-- One optical engine (R245-R248): its laser source and latch, its spare lane with the far end it is known to be wired to and the round
trip measured to it, and its loopback with its pattern (R522). -/
structure OptEngine where
  laserOn : Bool
  sourceFailed : Bool
  onRedundant : Bool
  takeover : Bool
  latchClosed : Bool
  closedAt : Nat
  shutdown : Bool
  spare : LaneState
  spareUsed : Option Nat
  spareFar : Option LaneEnd
  spareTrip : Nat
  sparing : Option Sparing
  loopback : Nat
  pattern : Nat
  deriving DecidableEq, Repr

def OptEngine.reset : OptEngine :=
  { laserOn := false, sourceFailed := false, onRedundant := false, takeover := false, latchClosed := true,
    closedAt := 0, shutdown := false, spare := .off, spareUsed := none, spareFar := none, spareTrip := 0, sparing := none, loopback := 0, pattern := 0 }

/-- A VALID lane group entry (R261). -/
structure Group where
  num : Nat
  neighbour : Nat
  spares : BitVec 16
  lanes : BitVec 128
  deriving DecidableEq, Repr

/-- A VALID route entry (R262): its next hops as group and hops, NH0 first; SELF has none. -/
structure Route where
  dest : Nat
  self : Bool
  hops : List (Nat × Nat)
  deriving DecidableEq, Repr

/-- Who waits for a tracked request's answer. -/
inductive Requester where
  | rld (b : BRef) (reg n lane : Nat)
  | ratom (b : BRef) (launch : Nat) (reg : Option Nat) (n lane : Nat)
  | rst (b : BRef) (launch : Nat)
  | gather (engine row : Nat)
  | stream (engine req : Nat)
  | save (wg page : Nat)
  | nobody
  deriving DecidableEq, Repr

/-- A VALID tracker entry (R268), with the message it stands for, so that a reissue sends it again (R323). -/
structure TrackEntry where
  bank : Nat
  entry : Nat
  gen : Nat
  reissued : Bool
  retry : Nat
  dest : Nat
  span : Nat
  epoch : Nat
  issuer : Nat
  slot : Nat
  op : Nat
  len : Nat
  addr : Nat
  deadline : Nat
  lc : Nat
  ord : Bool
  rank : Nat
  data : List Byte
  poison : Bool
  rr : Option RelRec
  who : Requester
  deriving DecidableEq, Repr

/-- The state of a tracker bank (R267, R483). -/
inductive BankState where
  | active | spare | retired
  deriving DecidableEq, Repr

/-- A request that has not yet taken an entry: it waits for one, or is held back (R267, R320, R324). -/
structure WaitReq where
  issuer : Nat
  slot : Nat
  span : Nat
  rank : Nat
  op : Nat
  addr : Nat
  len : Nat
  data : List Byte
  poison : Bool
  ord : Bool
  lc : Nat
  rr : Option RelRec
  who : Requester
  deriving DecidableEq, Repr

/-- A message of the channels CTRL, ABORT and MGMT, whose encodings the spec does not give (R252, R282): what it says,
and to whom. -/
inductive CtrlMsg where
  | fenceSignal (dest id handle : Nat) (value : BitVec 64) (scope : Nat) (checked : Bool) (ctx : Nat)
  | fenceAck (dest id : Nat) (status : Status)
  | sagNotice (dest detected : Nat) (recovered : Bool)
  | paceToken (dest tk limit : Nat)
  | abort (dest span : Nat) (slot : BitVec 128)
  | pierReceipt (dest span : Nat)
  | bankingNotice (lane dest : Nat)
  | spareRequest (lane : Nat) (abrupt : Bool)
  | spareGrant (lane : Nat)
  | timeReply (neighbour : Nat)
  | identity (lane : Nat)
  | accepted (lane lseq : Nat)
  | named (lane lseq : Nat)
  | work (dest : Nat) (mail : WgMail)
  deriving DecidableEq, Repr

/-- The time states of R278. -/
inductive TimeState where
  | unlocked | locked | holdover
  deriving DecidableEq, Repr

/-- The fabric side of the module. `outbox` are the messages that wait at the forwarding stage for a candidate, each with its channel and
the half on which it waits when it is in transit (R263, R474). -/
structure Fab where
  module : Nat
  mapped : Bool
  root : Nat
  lanes : List Lane
  engines : List OptEngine
  groups : List Group
  routes : List Route
  outbox : List (Nat × Option Nat × Msg)
  ctrlOut : List CtrlMsg
  /-- What a fabric processor that is out of use has to send, with its number (R480). -/
  ctrlHeld : List (Nat × CtrlMsg)
  arrived : List Msg
  banks : List BankState
  entries : List TrackEntry
  gens : List (Nat × Nat)
  nextBank : Nat
  waitReqs : List WaitReq
  timeState : TimeState
  syncOn : Bool
  syncLost : Bool
  lastSync : Nat
  lastHeard : Nat
  deriving DecidableEq, Repr

/-- The fabric after a cold start, before the fabric manager has written its map. -/
def Fab.reset : Fab :=
  { module := 0, mapped := false, root := 0
    lanes := (List.range 128).map (fun i => Lane.reset (i % 8))
    engines := List.replicate 16 OptEngine.reset
    groups := [], routes := [], outbox := [], ctrlOut := [], ctrlHeld := [], arrived := []
    banks := (List.range 18).map (fun b => if b < 16 then .active else .spare)
    entries := [], gens := [], nextBank := 0, waitReqs := []
    timeState := .unlocked, syncOn := false, syncLost := false, lastSync := 0, lastHeard := 0 }

end Sys2Proof.Machine
end

