-- ==== Sys2Proof/Machine/EngState.lean ====
section
/-! DEFINITION. The state of gather engines and token samplers (R139-R162, R293-R297). -/

namespace Sys2Proof.Machine

/-- A descriptor an engine has copied, with the work group that issued it (R114, R139). -/
structure EngDesc where
  bytes : List Byte
  core : Nat
  launch : Nat
  wg : Nat
  ctx : Nat
  span : Nat
  base : Nat
  seed : DWord
  checked : Bool
  deriving DecidableEq, Repr

/-- What has become of one index of a gather's list (R148, R149, R153). A row to be fetched names its pier, none for the issuing pier
whatever its rank is (R144); of one that has been asked for, `got` are the bytes that have come. -/
inductive RowRes where
  | padding
  | skipped
  | todo (rank : Option Nat) (addr : Nat)
  | asked (rank addr size : Nat) (got : List Byte)
  | data (bytes : List Byte)
  | failed (s : Status)
  deriving DecidableEq, Repr

/-- A gather in progress: what each index gave, and the weights, none where poisoned (R148-R153). -/
structure GatherRun where
  rows : List RowRes
  weights : List (Option Word)
  deriving DecidableEq, Repr

/-- Where one request of a stream stands (R295-R297). -/
inductive ReqSt where
  | unissued | outstanding | done | failed (s : Status) | never
  deriving DecidableEq, Repr

/-- One request of a stream: its offset in the stream, its remote address, its length and its local address (R295). -/
structure StreamReq where
  off : Nat
  remote : Nat
  len : Nat
  loc : Nat
  st : ReqSt
  deriving DecidableEq, Repr

/-- A stream in progress: its requests, and the increments LC has had (R295). -/
structure StreamRun where
  reqs : List StreamReq
  chunks : Nat
  deriving DecidableEq, Repr

/-- What a sampler has computed (R159, R161). -/
structure SampleRun where
  status : Status
  flags : Byte
  token : Word
  logp : Word
  kept : Nat
  deriving DecidableEq, Repr

/-- What an engine is running. -/
inductive EngRun where
  | gather (r : GatherRun)
  | stream (r : StreamRun)
  | sample (r : SampleRun)
  | refused
  deriving DecidableEq, Repr

/-- An engine: its queue, the head of which it runs once it has begun. Engines 0 to 63 are gather engines 2 × k + e;
64 to 95 are samplers 64 + k. -/
structure Engine where
  queue : List EngDesc
  run : Option EngRun
  deriving DecidableEq, Repr

def Engine.reset : Engine := { queue := [], run := none }

/-- What a pier of a collective has sent here: its stage, 0 partials, 1 results, 2 that its results are complete or, with first element
1, that the collective has completed there, 3 its parameters; the sender's rank, the first element, the bytes and whether they are
poisoned (R298-R304; assumption log 9). -/
structure CollPart where
  stage : Nat
  rank : Nat
  first : Nat
  data : List Byte
  bad : Bool
  deriving DecidableEq, Repr

/-- A collective running on this pier (R298-R305): its packet, its span, identity, epoch and ranks, the parts that have
come, its flag word, when the timer of its next stage message expires, and how it ended when it failed. -/
structure CollRun where
  q : QRef
  pidx : Nat
  span : Nat
  collId : Nat
  epoch : Nat
  rank : Nat
  piers : List Nat
  packet : List Byte
  parts : List CollPart
  results : Bool
  flags : Byte
  poisoned : Bool
  due : Nat
  ended : Option Status
  deriving DecidableEq, Repr

/-- A COLL_ID of a span that has completed here and not yet on some other modules, which may not be reused (R298). -/
structure CollUse where
  span : Nat
  id : Nat
  left : List Nat
  deriving DecidableEq, Repr

end Sys2Proof.Machine
end

