-- ==== Sys2Proof/Machine/HostState.lean ====
section
/-! DEFINITION. The state of the host interface and the event queues (R337-R362, R428-R435). -/

namespace Sys2Proof.Machine

/-- The states of an event queue (R428). -/
inductive EqState where
  | off | run | error
  deriving DecidableEq, Repr

/-- Their values (R428). -/
def EqState.code : EqState → Nat
  | .off => 0 | .run => 1 | .error => 2

/-- An event queue's registers (R428), and the events lost while it was full since its last EVQ_OVERFLOW record
(R432). -/
structure EvQ where
  en : Bool
  state : EqState
  armed : Bool
  base : DWord
  log2n : Nat
  vec : Word
  head : Word
  tail : Word
  cls : Byte
  lost : Nat
  err : Bool
  lostFull : Nat
  lostSince : Nat
  deriving DecidableEq, Repr

def EvQ.reset : EvQ :=
  { en := false, state := .off, armed := false, base := 0, log2n := 6, vec := 0, head := 0, tail := 0, cls := 0,
    lost := 0, err := false, lostFull := 0, lostSince := 0 }

/-- A valid window segment (R345). -/
structure Segment where
  idx : Nat
  wr : Bool
  span : Nat
  wbase : Nat
  sbase : Nat
  len : Nat
  deriving DecidableEq, Repr

/-- An MSI-X table entry: Message Address and Message Data (R340, PCIe). -/
structure VecEntry where
  addr : DWord
  data : Word
  deriving DecidableEq, Repr

/-- An MSI-X message that was sent: the vector, and what its entry said. -/
structure MsixMsg where
  fn : Fn
  vector : Nat
  entry : VecEntry
  deriving DecidableEq, Repr

/-- What AER logs (R347, R352). -/
inductive AerKind where
  | unsupported | aborted | timeout | poisoned
  deriving DecidableEq, Repr

/-- Its bit of the uncorrectable error registers (PCIe). -/
def AerKind.bit : AerKind → Nat
  | .poisoned => 12 | .timeout => 14 | .aborted => 15 | .unsupported => 20

/-- How severe an error is signalled (R338). -/
inductive AerSev where
  | correctable | nonFatal | fatal
  deriving DecidableEq, Repr

/-- An error that AER has logged: the function, the address of the access, its severity and the header log. -/
structure AerRec where
  kind : AerKind
  fn : Fn
  addr : Nat
  sev : AerSev
  header : List Byte
  deriving DecidableEq, Repr

/-- The AER registers of a function (R338, PCIe): Uncorrectable Error Status, Mask and Severity, Correctable Error Status and Mask, the
First Error Pointer and the Header Log. -/
structure AerRegs where
  status : Word
  mask : Word
  sev : Word
  corStatus : Word
  corMask : Word
  first : Nat
  header : List Byte
  deriving DecidableEq, Repr

/-- After reset (PCIe). -/
def AerRegs.reset : AerRegs :=
  { status := 0, mask := 0, sev := 0x00462030, corStatus := 0, corMask := 0x2000, first := 0, header := List.replicate 16 0 }

/-- A PCIe function (R337-R345, R355, R356): `payload`, `readReq` and `timeout` are the codes of Max Payload Size, Max Read Request Size
and Completion Timeout Value (R338); `fnMask` is Function Mask of MSI-X (R431); `inFlr` while its reset waits for its contexts (R362). -/
structure FnRec where
  fn : Fn
  present : Bool
  memEnable : Bool
  bar2 : Nat
  ats : Bool
  pri : Bool
  priStopped : Bool
  relaxed : Bool
  payload : Nat
  readReq : Nat
  timeout : Nat
  inFlr : Bool
  pageReqs : Nat
  segs : List Segment
  vecs : List VecEntry
  masked : List Nat
  pendVec : List Nat
  fnMask : Bool
  aer : AerRegs
  eqs : List EvQ
  deriving DecidableEq, Repr

/-- A function after reset: window of the smallest BAR2 size, every vector masked, payloads of 128 B and read requests of 512 B
(PCIe). -/
def FnRec.reset (fn : Fn) : FnRec :=
  { fn := fn, present := fn.idx == 0, memEnable := false, bar2 := 2 ^ 30, ats := false, pri := false,
    priStopped := false, relaxed := false, payload := 0, readReq := 2, timeout := 0, inFlr := false, pageReqs := 0, segs := [],
    vecs := List.replicate (if fn.idx = 0 then 128 else 16) { addr := 0, data := 0 }
    masked := List.range (if fn.idx = 0 then 128 else 16), pendVec := [], fnMask := false, aer := AerRegs.reset,
    eqs := List.replicate (if fn.idx = 0 then 64 else 8) EvQ.reset }

/-- A translation a port's cache holds (R353): its function, PASID, page and permissions. -/
structure AtcEntry where
  fn : Fn
  pasid : Nat
  page : Nat
  size : Nat
  rd : Bool
  wr : Bool
  deriving DecidableEq, Repr

/-- A PCIe port (R337, R353, R362): link, PERST#, its NumVFs, its translation cache. -/
structure Port where
  linkUp : Bool
  perst : Bool
  numVfs : Nat
  cache : List AtcEntry
  deriving DecidableEq, Repr

/-- Where a DMA packet in progress stands (R352-R356). -/
inductive DmaSt where
  /-- Its next transfer has not been tried, or nothing is left to move. -/
  | ready
  /-- Its next transfer needs the translation of an address, which has been asked for; its completion times out at a time. -/
  | translating (due addr : Nat)
  /-- Stalled on a page fault that is unresolved at a time; whether its page request has been sent (R355, R356). -/
  | faulted (due : Nat) (requested : Bool)
  /-- The access cannot be made (R402, R406). -/
  | unresolved
  deriving DecidableEq, Repr

/-- A read of the host in flight (R349): the bytes of the packet it fetches, since when, the translations it uses, the tags of the
invalidations whose acknowledgement it delays (R358), and whether its data are of no use any more (R356). -/
structure ReadOut where
  off : Nat
  len : Nat
  since : Nat
  used : List (Nat × Nat)
  inv : List Nat
  drop : Bool
  deriving DecidableEq, Repr

/-- A DMA packet in progress on a host mover (R349): its packet, the engine, the next byte whose transfer has not begun, its state, its
reads in flight, whether a transfer met poison, how many tags failed, how it ended when it failed, the invalidations received since
the translation in flight was asked for (R361), whether it has faulted on its page before (R356), and the first write version it has
reserved (R500). -/
structure DmaRun where
  q : QRef
  pidx : Nat
  fn : Fn
  engine : Nat
  next : Nat
  st : DmaSt
  reads : List ReadOut
  poisoned : Bool
  tagBad : Nat
  failed : Option Status
  late : List AtsInv
  retried : Bool
  ver : Nat
  deriving DecidableEq, Repr

/-- An ATS invalidation being processed (R358): its tag, range, and the engines that have not acknowledged. -/
structure InvRun where
  port : Nat
  itag : Nat
  fn : Fn
  pasid : Option Nat
  base : Nat
  len : Nat
  all : Bool
  engines : List Nat
  since : Nat
  deriving DecidableEq, Repr

/-- An event as it is raised (R434). -/
structure Event where
  type : Nat
  cls : Nat
  subject : Nat
  status : Status
  detail : Nat
  time : Nat
  deriving DecidableEq, Repr

/-- For whom the module accesses the host: a queue's record, status word or trap record, a fence's mirror, an event queue, a mailbox's
response (R373, R397, R405, R429); a mailbox's next slot, a queue's next packet, a buffer of a command, of which only the page is
waited for (R371, R402, R406). -/
inductive PutOwner where
  | queue (q : QRef)
  | mirror (handle : Nat)
  | event (q : Nat) (e : Event)
  | response (idx : Nat)
  | slot
  | ring (q : QRef)
  | buffer (idx : Nat) (write : Bool)
  deriving DecidableEq, Repr

/-- Whether an access only waits for its page. -/
def PutOwner.pageOnly : PutOwner → Bool
  | .slot => true
  | .ring _ => true
  | .buffer _ _ => true
  | _ => false

/-- Whether an access needs the permission to write. -/
def PutOwner.writes : PutOwner → Bool
  | .slot => false
  | .ring _ => false
  | .buffer _ w => w
  | _ => true

/-- An access of that kind that waits for the translation of its address, or behind another of its owner (R353). -/
structure HostPut where
  num : Nat
  fn : Fn
  pasid : Nat
  addr : Nat
  data : List Byte
  owner : PutOwner
  st : DmaSt
  retried : Bool
  late : List AtsInv
  deriving DecidableEq, Repr

/-- The outcomes of a window access (R347). -/
inductive WinSt where
  | ok | unsupported | aborted
  deriving DecidableEq, Repr

/-- A completion of a window read (R346, R347): its data and whether they carry EP. -/
structure WinRead where
  fn : Fn
  off : Nat
  st : WinSt
  data : List Byte
  ep : Bool
  deriving DecidableEq, Repr

/-- A window read that waits for a line at its home (R208, R346). -/
structure WinWait where
  fn : Fn
  off : Nat
  len : Nat
  deriving DecidableEq, Repr

/-- The host interface. `cells` are the bytes the module has written to host memory, keyed by function, PASID and
address; `ep` the bytes written with EP, `ro` those whose write carried Relaxed Ordering (R351); `msix` the interrupts sent; `puts` the
accesses that wait for a translation; `winReads` the completions of window reads, `winWaits` those that wait; `doe` the responses of each port's DOE mailbox; `aer`
what AER has logged. -/
structure HostSt where
  fns : List FnRec
  ports : List Port
  cells : List Host.Cell
  ep : List Nat
  ro : List Nat
  puts : List HostPut
  nextPut : Nat
  msix : List MsixMsg
  dmas : List DmaRun
  invs : List InvRun
  micro : List (Nat × AtcEntry)
  completed : List (Nat × Nat)
  winReads : List WinRead
  winWaits : List WinWait
  doe : List (Nat × List Byte)
  aer : List AerRec
  deriving DecidableEq, Repr

/-- Function number port × 64 + index. -/
def fnNum (f : Fn) : Nat := f.port * 64 + f.idx

def HostSt.reset : HostSt :=
  { fns := (List.range 128).map (fun i => FnRec.reset ⟨i / 64, i % 64⟩)
    ports := [⟨false, false, 0, []⟩, ⟨false, false, 0, []⟩]
    cells := [], ep := [], ro := [], puts := [], nextPut := 0, msix := [], dmas := [], invs := [], micro := [], completed := [], winReads := [], winWaits := [], doe := [],
    aer := [] }

end Sys2Proof.Machine
end

