-- ==== Sys2Proof/Machine/RecState.lean ====
section
/-! DEFINITION. The state of start-up, saggers and error records (R462-R488), of the Elbor mailboxes (R400-R421), of the
Seal processor and firmware (R487-R515), of drills (R516-R521) and of telemetry (R524). -/

namespace Sys2Proof.Machine

/-! ### Errors, saggers, starts -/

/-- The severities (R477). -/
inductive Sev where
  | corrected | engine | sagger | device | banked
  deriving DecidableEq, Repr

/-- Their values (R477). -/
def Sev.code : Sev → Nat
  | .corrected => 0 | .engine => 1 | .sagger => 2 | .device => 3 | .banked => 4

/-- The states of a record that is not FREE (R478). -/
inductive ErrSt where
  | queued | handling | done | joined | escalated
  deriving DecidableEq, Repr

/-- Their values (R478). -/
def ErrSt.code : ErrSt → Nat
  | .queued => 1 | .handling => 2 | .done => 3 | .joined => 4 | .escalated => 5

/-- An error record (R478). `source` is its kind and index. -/
structure ErrRec where
  id : Nat
  sev : Sev
  st : ErrSt
  cause : Nat
  poison : Bool
  status : Status
  abort : Nat
  sagger : Nat
  time : Nat
  tend : Nat
  source : EngineId
  parent : Option Nat
  detail : Nat
  deriving DecidableEq, Repr

/-- An error as it is raised: the record it will have; `raised` is its time where it is handled later than that. -/
structure ErrNew where
  sev : Sev
  cause : Nat
  sagger : Nat := 0
  source : EngineId := ⟨4, 3⟩
  parent : Option Nat := none
  detail : Nat := 0
  poison : Bool := false
  status : Status := .ok
  abort : Nat := 0
  raised : Option Nat := none
  deriving DecidableEq, Repr

/-- What handles an error (R477): a record alone, an engine reset, a sagger's handling with whether memory is scrubbed and the
number of the wave that raised it, a device reset with whether a cold start follows. -/
inductive ErrHow where
  | note
  | engine
  | sagger (scrub : Bool) (wave : Option Nat)
  | device (cold : Bool)
  deriving DecidableEq, Repr

/-- An error that waits until Elbor core 3 runs (R476, R487). -/
structure Raised where
  how : ErrHow
  err : ErrNew
  deriving DecidableEq, Repr

/-- The steps of a sagger's handling (R468, R474, R482): waiting its turn, fencing, resetting. -/
inductive HStep where
  | waiting | fence | reset
  deriving DecidableEq, Repr

/-- The handling of a sagger, 0 for the module's: its record, when the sagger was fenced, since when it is handled, its step, whether
memory is scrubbed. -/
structure Handling where
  sagger : Nat
  recId : Nat
  fenced : Nat
  since : Nat
  step : HStep
  scrub : Bool
  deriving DecidableEq, Repr

/-- An engine reset in progress (R480, R481). -/
structure EngReset where
  eng : EngineId
  recId : Nat
  since : Nat
  deriving DecidableEq, Repr

/-- What a DEVICE_RESET with PRESERVE asked for: the glaze slot, its generation and the spans (R465). -/
structure Preserve where
  slot : Nat
  gen : Nat
  spans : List Nat
  deriving DecidableEq, Repr

/-- A spare-core swap in progress (R486): the cluster, the core it replaces, since when, and whether that core failed its
BIST. -/
structure Swap where
  cluster : Nat
  core : Nat
  since : Nat
  bad : Bool
  deriving DecidableEq, Repr

/-- Where the module stands: without power, held by MOD_RESET#, in a step of a cold or a warm start, running, or banked
(R462, R464, R485, R533). -/
inductive RunPhase where
  | off
  | held
  | cold (step : Nat)
  | warm (step : Nat)
  | running
  | banked
  deriving DecidableEq, Repr

/-- A device reset under way (R481): its record and since when; ended when W1 ends. -/
structure DevReset where
  recId : Option Nat
  since : Nat
  cold : Bool
  deriving DecidableEq, Repr

/-- What the module logs beside its error records: a corrected error of a channel with the physical channel and the offset
(R189), of a core store or register file (R65), of a directory entry (R217), a request whose epoch is ahead (R312), a replay
that succeeded (R255) and a hitless spare (R270). -/
inductive LogWhat where
  | memory (channel phys offset : Nat)
  | core (core : Nat)
  | directory (line : Nat)
  | epoch (module span epoch : Nat)
  | replay (lane : Nat)
  | spare (lane : Nat)
  deriving DecidableEq, Repr

/-- An entry of the module's log: the fabric time and what happened. -/
structure LogRec where
  time : Nat
  what : LogWhat
  deriving DecidableEq, Repr

/-- Recovery. `overdue` says that an error met 256 open records where its escalation (R478) is taken at the next tick
(assumption log 3); `aborts` holds the last abort number by span (R471), `born` the time each record was created (R473), `banking`
the cause of an entry to the banked state whose last step has not run (R485). `badWires` are the failing Viaduct wires that stay in service,
by direction and number, `spareWires` the spares in use by direction (R10), `crossBad` the crossings that no repair made usable
(R168), `log` the module's log (DESIGN CHOICE, assumption log 78). -/
structure Rcv where
  log : List LogRec
  phase : RunPhase
  stepAt : Nat
  joining : Bool
  warmFail : Nat
  coldFail : Nat
  savedValid : Bool
  thermtrip : Bool
  tripHold : Bool
  preserve : Option Preserve
  dev : Option DevReset
  errs : List ErrRec
  nextErr : Nat
  overflow : Nat
  overdue : Bool
  handlings : List Handling
  resets : List EngReset
  swaps : List Swap
  aborts : List (Nat × Nat)
  born : List (Nat × Nat)
  lastCore3 : Option Nat
  stallMark : Option Nat
  crossings : List Bool
  crossBad : List Nat
  badWires : List (Nat × Nat)
  spareWires : List Nat
  dirErrs : List (Nat × Nat)
  mainRails : Bool
  /-- STBY_OK (R535). -/
  stbyOk : Bool
  banking : Option Nat
  /-- The copy of the error records in flash (R478). -/
  flashErrs : List ErrRec
  /-- Errors raised while Elbor core 3 does not run, in arrival order (R476, R487). -/
  raised : List Raised
  deriving DecidableEq, Repr

/-- Standby power has just been applied and a cold start is in its first step (R462). -/
def Rcv.reset : Rcv :=
  { log := [], phase := .cold 1, stepAt := 0, joining := false, warmFail := 0, coldFail := 0, savedValid := false,
    thermtrip := false, tripHold := false, preserve := none, dev := none, errs := [], nextErr := 0,
    overflow := 0, overdue := false, handlings := [], resets := [], swaps := [], aborts := [], born := [],
    lastCore3 := none, stallMark := none, crossings := [true, true], crossBad := [], badWires := [], spareWires := [0, 0], dirErrs := [],
    mainRails := false, stbyOk := false, banking := none, flashErrs := [], raised := [] }

/-! ### Mailboxes -/

/-- A command that has been read and not answered: its index, its bytes, since when it waits, whether it is to be answered
from a snapshot (R404, R410, R417). -/
structure MbCmd where
  idx : Nat
  bytes : List Byte
  since : Nat
  stale : Bool
  input : Option (List Byte) := none
  deriving DecidableEq, Repr

/-- A command whose function has been reset since: its response is discarded (R362). Its index is one that no ring gives. -/
def MbCmd.orphan (c : MbCmd) : Bool := decide (2 ^ 32 ≤ c.idx)

def MbCmd.disown (c : MbCmd) : MbCmd := { c with idx := c.idx + 2 ^ 32 }

/-- A response that waits to be written (R405): the index and the 256 bytes; for the BMC, what follows them. -/
structure Resp where
  idx : Nat
  bytes : List Byte
  out : List Byte
  deriving DecidableEq, Repr

/-- What a command that has begun waits for before it is answered. -/
inductive HeldFor where
  | reopen (sagger : Nat)
  | teardown (ctx : Nat)
  | queue (q : QRef)
  | swap (cluster : Nat)
  | extent (idx : Nat)
  | retire (channel : Nat)
  | revoke (slot : Nat)
  | unlock
  | activate (component : Nat)
  | zeroed (span : Nat)
  /-- Another command on the same object: its own row is taken again (R410). -/
  | again
  deriving DecidableEq, Repr

/-- A command that has begun and is answered later. -/
structure Held where
  cmd : MbCmd
  why : HeldFor
  deriving DecidableEq, Repr

/-- The states of a mailbox (R401). -/
inductive MbState where
  | off | run | error
  deriving DecidableEq, Repr

/-- Their values (R401). -/
def MbState.code : MbState → Nat
  | .off => 0 | .run => 1 | .error => 2

/-- A mailbox: its registers (R401), the commands that wait, those begun, and the responses ready
(R403). The BMC mailbox has no ring and uses none of the registers. -/
structure Mailbox where
  mb : Mbx
  en : Bool
  state : MbState
  base : DWord
  pidx : Word
  cidx : Word
  vec : Word
  err : Nat
  inflight : Nat
  waiting : List MbCmd
  held : List Held
  ready : List Resp
  deriving DecidableEq, Repr

def Mailbox.reset (mb : Mbx) : Mailbox :=
  { mb := mb, en := false, state := .off, base := 0, pidx := 0, cidx := 0, vec := 0, err := 0, inflight := 0,
    waiting := [], held := [], ready := [] }

/-- A mailbox as the reset of its function leaves it: the commands in progress complete, and no response of them is written (R362). -/
def Mailbox.flr (b : Mailbox) : Mailbox :=
  { Mailbox.reset b.mb with
    waiting := b.waiting.map MbCmd.disown, held := b.held.map (fun h => { h with cmd := h.cmd.disown }) }

/-- Elbor: its mailboxes, whether it is saturated, the times of its last completions (R416), the spans bound to each VF
(R409) and since when a firmware activation pauses its cores (R487). -/
structure Elbor where
  boxes : List Mailbox
  saturated : Bool
  finished : List Nat
  bound : List (Fn × Nat)
  paused : Option Nat
  deriving DecidableEq, Repr

def Elbor.reset : Elbor :=
  { boxes := ((List.range 128).map (fun i => Mailbox.reset (.fn ⟨i / 64, i % 64⟩))) ++ [Mailbox.reset .bmc],
    saturated := false, finished := [], bound := [], paused := none }

/-! ### The Seal processor and firmware -/

/-- The states of a glaze slot (R494). -/
inductive SlotSt where
  | free | assigned | draining | retired
  deriving DecidableEq, Repr

/-- Their values (R514). -/
def SlotSt.code : SlotSt → Nat
  | .free => 0 | .assigned => 1 | .draining => 2 | .retired => 3

/-- A glaze slot (R494); `spent` says that its writes are refused until its generation is raised (R500). -/
structure GSlot where
  st : SlotSt
  tenant : Nat
  gen : Nat
  ctr : Nat
  spent : Bool
  deriving DecidableEq, Repr

/-- A revocation in progress (R505): the slot, whether it is released, the movers whose receipt is missing, the piers that
have not answered, those that had not when their time was over, and when it began. -/
structure Revoke where
  slot : Nat
  release : Bool
  engines : List Nat
  piers : List Nat
  silent : List Nat
  since : Nat
  deriving DecidableEq, Repr

/-- A firmware component (R487): whether image B runs, the versions of A and B, the images staged into them, whether the
other image has been staged, whether it takes effect at the next start, and the rollback counter. -/
structure FwComp where
  onB : Bool
  verA : Nat
  verB : Nat
  imgA : Option (List Byte)
  imgB : Option (List Byte)
  staged : Bool
  pending : Bool
  rollback : Nat
  deriving DecidableEq, Repr

def FwComp.reset : FwComp :=
  { onB := false, verA := 0, verB := 0, imgA := none, imgB := none, staged := false, pending := false, rollback := 0 }

/-- How far an SPDM requester has negotiated (R507). -/
inductive SpdmSt where
  | start | version | caps | algs
  deriving DecidableEq, Repr

/-- The Seal processor: the slot table, the debug state (R508), the challenge (R511), revocations, an unlock waiting for
receipts with the time it began (R512), the last time of a SECURITY event by cause and slot (R515), firmware with the component
being switched and how many of its processors have been (R487), pier receipts owed as span and origin (R505), and SPDM. -/
structure Sec where
  slots : List GSlot
  unlocked : Bool
  sinceCold : Bool
  blocked : Bool
  unlocks : Nat
  lastUnlock : Nat
  challenge : Nat
  revokes : List Revoke
  unlocking : Option (Nat × List Nat)
  posted : List (Nat × Nat × Nat)
  fw : List FwComp
  switching : Option (Nat × Nat)
  owed : List (Nat × Nat)
  spdm : List SpdmSt
  deriving DecidableEq, Repr

/-- Slots FREE at generation 0, debug locked, image A of every component running. -/
def Sec.reset : Sec :=
  { slots := List.replicate 256 { st := .free, tenant := 0, gen := 0, ctr := 0, spent := false }, unlocked := false, sinceCold := false,
    blocked := false, unlocks := 0, lastUnlock := 0, challenge := 0, revokes := [], unlocking := none, posted := [],
    fw := List.replicate 6 FwComp.reset, switching := none, owed := [],
    spdm := List.replicate 3 .start }

/-! ### Hints -/

/-- A heavy-phase hint as the Kiln holds it (R384, R454): its context and kind, when its phases come online and go
offline, and whether they are online. -/
structure Hint where
  ctx : Nat
  kind : Nat
  start : Nat
  stop : Nat
  online : Bool
  deriving DecidableEq, Repr

/-! ### Drills -/

/-- The states of a drill (R520). -/
inductive DrillSt where
  | free | armed | done | ended
  deriving DecidableEq, Repr

/-- Their values (R520). -/
def DrillSt.code : DrillSt → Nat
  | .free => 0 | .armed => 1 | .done => 2 | .ended => 3

/-- A drill (R516-R520). -/
structure Drill where
  st : DrillSt
  span : Nat
  action : Nat
  mode : Nat
  hold : Nat
  vcMask : Nat
  destEn : Bool
  dest : Nat
  limit : Nat
  thresh : Nat
  start : Nat
  period : Nat
  seed : DWord
  links : BitVec 128
  passed : Nat
  injected : Nat
  deriving DecidableEq, Repr

def Drill.reset : Drill :=
  { st := .free, span := 0, action := 0, mode := 0, hold := 0, vcMask := 0, destEn := false, dest := 0, limit := 0,
    thresh := 0, start := 0, period := 0, seed := 0, links := 0, passed := 0, injected := 0 }

end Sys2Proof.Machine
end

