-- ==== Sys2Proof/Machine/PowState.lean ====
section
/-! DEFINITION. The state of the supply, the Kiln and the limiters (R436-R461), of the Event Gatherer (R422-R427) and of
the test port (R526, R527). -/

namespace Sys2Proof.Machine

/-! ### Power -/

/-- A supply log entry (R441). DURATION is none while the condition is in progress. -/
structure LogEntry where
  start : Nat
  duration : Option Nat
  extreme : Nat
  kind : Nat
  banked : Bool
  notices : Bool
  floor : Bool
  deriving DecidableEq, Repr

/-- The last pace token of a peer (R452, R453), and the SAG notice that overrides it, with the time from which it counts
(R335). -/
structure PaceTok where
  module : Nat
  limit : Nat
  sagAt : Option Nat
  deriving DecidableEq, Repr

/-- The supply, the Kiln controller and what it measures. The limits of engaged limiters are `thermal` and `capLim`, 64
when not engaged, and those of the flags (R445). `history` holds the time and the input power of each 10 µs loop of the
last 100 ms, newest first (R449, R459); `atRound` and `roundAt` L at
the last pace round and its time, `applied` the round applied last, `paces` S by span (R452, R453); `posted` the last time of
a POWER event by cause (R460). -/
structure Power where
  cap : Nat
  fixed : Bool
  hold : Option Nat
  sag : Bool
  brake : Bool
  alerts : List Nat
  busWarn : Bool
  thermal : Nat
  thermalAt : Nat
  capLim : Nat
  capRaised : Nat
  loc : Nat
  stopped : Bool
  inputMv : Nat
  /-- Since when the input has lain above 72 V in a surge (R436). -/
  above : Option Nat
  hottest : Nat
  energy : Nat
  history : List (Nat × Nat)
  /-- The energy of each rail in the last interval, in mJ, in the order of REGULATOR_ALERT's numbers (R455). -/
  railMj : List Nat
  /-- What R456 has apportioned to each span's grains since `spanFrom`, and in the 100 ms before, in nJ (R459, R513). -/
  spanAcc : List (Nat × Nat)
  spanFrom : Nat
  spanMean : List (Nat × Nat)
  log : List LogEntry
  overwrites : Nat
  tokens : List PaceTok
  atRound : Nat
  roundAt : Nat
  applied : Nat
  paces : List (Nat × Nat)
  drooping : List Nat
  posted : List (Nat × Nat)
  /-- The modules that a SAG notice has reached and no RECOVERED one yet (R334). -/
  told : List Nat
  /-- The end of the last interval of energy metering (R455). -/
  metered : Nat
  /-- The copy of the supply log in flash (R441). -/
  flashLog : List LogEntry
  deriving DecidableEq, Repr

/-- The lowest limit that an engaged limiter imposes (R445). -/
def Power.limit (p : Power) : Nat :=
  min (min (if p.sag || p.brake || !p.alerts.isEmpty then 16 else 64) (p.hold.getD 64))
    (min (if p.busWarn then 32 else 64) (min p.thermal (min p.capLim (if p.fixed then 56 else 64))))

/-- The power side at its first start: default cap (R449), no limiter engaged, input in range. -/
def Power.reset : Power :=
  { cap := 3200, fixed := false, hold := none, sag := false, brake := false, alerts := [], busWarn := false
    thermal := 64, thermalAt := 0, capLim := 64, capRaised := 0, loc := 64, stopped := false, inputMv := 54000, above := none
    hottest := 0, energy := 0, history := [], railMj := List.replicate 6 0, spanAcc := [], spanFrom := 0, spanMean := [], log := [], overwrites := 0
    tokens := [], atRound := 64, roundAt := 0, applied := 0
    paces := [], drooping := [], posted := [], told := [], metered := 0, flashLog := [] }

/-! ### The Event Gatherer -/

/-- One bank of 64 sources (R423, R426): pending, masked and in-service bits, the inputs as they stand, and the bit and the
processor of each source in service. Banks 0 to 11 are private, 12 to 15 the shared groups. -/
structure EgBank where
  pend : BitVec 64
  mask : BitVec 64
  serv : BitVec 64
  input : BitVec 64
  owner : List (Nat × Nat)
  deriving DecidableEq, Repr

/-- The Event Gatherer: its banks, the routes of sources 768 on, its mode (R423). -/
structure Gatherer where
  banks : List EgBank
  route : List Word
  mode : Word
  deriving DecidableEq, Repr

/-- Its registers at reset (R423). -/
def Gatherer.reset : Gatherer :=
  { banks := List.replicate 16 { pend := 0, mask := BitVec.allOnes 64, serv := 0, input := 0, owner := [] }
    route := List.replicate 256 0x303, mode := 1 }

/-! ### The test port -/

/-- The test port: the instruction in its register and what its data register has captured, whether a debug unlock has opened
it, whether EXTEST, CLAMP or HIGHZ has taken the pins, and whether a cold start is needed before service (R526, R527). -/
structure Tap where
  ir : Nat
  dr : Word
  opened : Bool
  pins : Bool
  needCold : Bool
  deriving DecidableEq, Repr

/-- Locked; BYPASS or IDCODE after reset is open, and IEEE 1149.1 selects IDCODE. -/
def Tap.reset : Tap := { ir := 0x01, dr := 0x10C90A9D, opened := false, pins := false, needCold := false }

end Sys2Proof.Machine
end

