-- ==== Sys2Proof/Machine/State.lean ====
section
/-! DEFINITION. The state of the block, its faults and refusals, and its reset. -/

namespace Sys2Proof.Machine

/-- Everything but the queue of waiting commands, the power side and the test port. `early` holds
stage messages of collectives not yet started here; `tele` the counters of R524 by their IDs, 0 where unlisted. -/
structure Main where
  time : Nat
  free : Nat
  params : List Nat
  cores : Cores
  mem : Memory
  coh : Coh
  l2 : List L2Part
  objs : Objs
  comp : Comp
  fab : Fab
  eng : List Engine
  colls : List CollRun
  collIds : List CollUse
  early : List Msg
  host : HostSt
  elbor : Elbor
  rcv : Rcv
  sec : Sec
  drills : List Drill
  hints : List Hint
  tele : List (Nat × Nat)
  eg : Gatherer
  bmcOut : List (List Byte)
  bmcReceiver : Bool
  bmcEid : Nat
  bmcTid : Nat
  deriving DecidableEq, Repr

/-- The snapshot from which queries are answered in saturation (R417): what they can ask about, at its time. -/
structure Snapshot where
  main : Main
  power : Power
  deriving DecidableEq, Repr

/-- The state of the block: the commands that wait, first in, first out, and the rest. -/
structure State where
  pending : List Instr
  main : Main
  power : Power
  tap : Tap
  snap : Option Snapshot
  deriving DecidableEq, Repr

/-- The machine stops with a fault: never on this hardware. The spec names no condition in which the block stops. -/
inductive Fault where
  /-- Raised by no command. Safe: it never occurs. -/
  | none
  deriving DecidableEq, Repr

/-- Why a command has no next state. -/
inductive Refusal where
  /-- An arm of exec that has no meaning yet. Safe: nothing is claimed of it. -/
  | notModelled (mnemonic : String)
  /-- The command names something that is not there: no such bundle, queue, message or lane. Safe: the step does not
  occur. -/
  | noSubject (what : String)
  /-- The step cannot occur in this state: an engine not ready, a timer not due. Safe: the step does not occur. -/
  | notReady (what : String)
  deriving DecidableEq, Repr

/-- The outcome of a command on the block without its queue. -/
abbrev Out := Host.Outcome Main Fault Refusal

/-- The outcome of a command on the whole state. -/
abbrev Outcome := Host.Outcome State Fault Refusal

/-- The module parameters 1 to 8 at their defaults (R414). -/
def paramDefaults : List Nat := [24, 1024, 16, 2000, 0x38D1B717, 50, 100, 256]

/-- The challenge of the first start is drawn, as at every start (R511). -/
def Main.reset : Main :=
  { time := 0, free := 1, params := paramDefaults, cores := Cores.reset, mem := Memory.reset, coh := Coh.reset,
    l2 := List.replicate 32 L2Part.reset, objs := Objs.reset, comp := Comp.reset, fab := Fab.reset,
    eng := List.replicate 96 Engine.reset, colls := [], collIds := [], early := [], host := HostSt.reset, elbor := Elbor.reset,
    rcv := Rcv.reset, sec := { Sec.reset with challenge := Config.freeNat 0 % 2 ^ 256 }, drills := List.replicate 16 Drill.reset
    hints := [], tele := [], eg := Gatherer.reset, bmcOut := []
    bmcReceiver := false, bmcEid := 0, bmcTid := 0 }

/-- The block right after standby power is applied. -/
def State.reset : State :=
  { pending := [], main := Main.reset, power := Power.reset, tap := Tap.reset, snap := none }

/-- A meaning on Main, as a meaning on the state: the queue stays as it is. -/
def onMain (f : Main → Out) (s : State) : Outcome :=
  match f s.main with
  | .next m => .next { s with main := m }
  | .fault r => .fault r
  | .refused r => .refused r

end Sys2Proof.Machine
end

