-- ==== Sys2Proof/Machine/Util.lean ====
section
/-! DEFINITION. Helpers over lists, bytes and the free values. -/

namespace Sys2Proof.Machine

/-- The element at a place, or a default. -/
def nth {α : Type} (l : List α) (i : Nat) (d : α) : α := (l[i]?).getD d

/-- The list with one place changed by a function. -/
def modNth {α : Type} (l : List α) (i : Nat) (f : α → α) : List α :=
  match l, i with
  | [], _ => []
  | x :: r, 0 => f x :: r
  | x :: r, n + 1 => x :: modNth r n f

/-- Every element that meets a test changed by a function. -/
def modWhere {α : Type} (l : List α) (p : α → Bool) (f : α → α) : List α :=
  l.map (fun x => if p x then f x else x)

/-- The numbers a, a + 1, … of which there are n. -/
def rangeFrom (a n : Nat) : List Nat := (List.range n).map (· + a)

/-- n bytes of a number, little-endian (R2). -/
def toBytes (n v : Nat) : List Byte := (List.range n).map (fun i => BitVec.ofNat 8 (v >>> (8 * i)))

/-- The first n bytes, zeros after what there is. -/
def padTo (n : Nat) (l : List Byte) : List Byte := (l ++ List.replicate (n - l.length) 0).take n

/-- The number that bytes spell, little-endian (R2). -/
def ofBytes : List Byte → Nat
  | [] => 0
  | b :: r => b.toNat + 256 * ofBytes r

/-- The field of len bytes at an offset of a block. -/
def fieldAt (l : List Byte) (off len : Nat) : Nat := ofBytes ((l.drop off).take len)

/-- Bits [hi:lo] of a number. -/
def bits (v hi lo : Nat) : Nat := v / 2 ^ lo % 2 ^ (hi + 1 - lo)

/-- One bit of a number. -/
def bit (v i : Nat) : Bool := v / 2 ^ i % 2 == 1

/-- A bit as a number. -/
def b2n (b : Bool) : Nat := if b then 1 else 0

/-- Whether every byte of a range of a block is zero. -/
def zeroAt (l : List Byte) (off len : Nat) : Bool := ((l.drop off).take len).all (· == 0)

/-- Bytes put into a block at an offset. -/
def putAt (l : List Byte) (off : Nat) (new : List Byte) : List Byte :=
  l.take off ++ new ++ l.drop (off + new.length)

/-- An n-bit two's-complement reading of a number. -/
def signed (n v : Nat) : Int := (BitVec.ofNat n v).toInt

/-- The numbers of the bits set in a mask of n bits, ascending. -/
def bitsSet (n : Nat) (v : Nat) : List Nat := (List.range n).filter (fun i => v.testBit i)

/-- ceil(a ÷ b). -/
def ceilDiv (a b : Nat) : Nat := (a + b - 1) / b

/-- a rounded up to a multiple of b. -/
def roundUp (a b : Nat) : Nat := ceilDiv a b * b

/-- The least number not in a list, below a bound. -/
def lowestFree (used : List Nat) (bound : Nat) : Option Nat :=
  (List.range (min bound (used.length + 1))).find? (fun i => !used.contains i)

/-- A value the spec leaves open, and the state after it is drawn (assumption log 1). -/
def Main.draw (m : Main) : Nat × Main := (Config.freeNat m.free, { m with free := m.free + 1 })

/-- n open values. -/
def Main.drawList (m : Main) (n : Nat) : List Nat × Main :=
  ((rangeFrom m.free n).map Config.freeNat, { m with free := m.free + n })

/-- A module parameter by its number (R414). -/
def Main.param (m : Main) (id : Nat) : Nat := nth m.params (id - 1) 0

/-- A telemetry counter by its ID advanced, modulo 2^64 (R524). -/
def teleAdd (id n : Nat) : List (Nat × Nat) → List (Nat × Nat)
  | [] => [(id, n)]
  | x :: r => if x.1 = id then (id, (x.2 + n) % 2 ^ 64) :: r else x :: teleAdd id n r

/-- The ID of a counter (R524). -/
def teleId (group counter inst : Nat) : Nat := group * 2 ^ 24 + counter * 2 ^ 16 + inst

/-- A telemetry counter advanced by n. -/
def Main.bump (m : Main) (group counter inst n : Nat) : Main :=
  { m with tele := teleAdd (teleId group counter inst) n m.tele }

/-- The clock moved on to a due time, when it has not reached it (assumption log 6). -/
def Main.until (m : Main) (t : Nat) : Main := { m with time := max m.time t }

/-- A list with one element put at a place. -/
def insertNth {α : Type} (x : α) : Nat → List α → List α
  | 0, l => x :: l
  | _ + 1, [] => [x]
  | n + 1, y :: l => y :: insertNth x n l

/-- A list in an order that nothing states, drawn from a key. -/
def freePerm {α : Type} (key : Nat) : List α → List α
  | [] => []
  | x :: r => insertNth x (Config.freeNat (key + r.length) % (r.length + 1)) (freePerm key r)

/-! ### CRC-32C (R250) -/

/-- One bit of the reflected CRC-32C register. -/
def crcBit (c : Word) : Word := if c.getLsbD 0 then (c >>> 1) ^^^ 0x82F63B78#32 else c >>> 1

/-- One byte. -/
def crcByte (c : Word) (b : Byte) : Word :=
  crcBit (crcBit (crcBit (crcBit (crcBit (crcBit (crcBit (crcBit (c ^^^ b.setWidth 32))))))))

/-- CRC-32C of bytes in ascending order. -/
def crc32c (l : List Byte) : Word := (l.foldl crcByte 0xFFFFFFFF#32) ^^^ 0xFFFFFFFF#32

end Sys2Proof.Machine
end

