-- ==== Sys2Proof/Machine/Crypto.lean ====
section
/-! DEFINITION. The functions of outside standards that R492, R498, R499 and R507 name: SHA-384 (FIPS 180-4), HMAC, AES-256
(FIPS 197), XTS (IEEE 1619), GMAC (SP 800-38D), ECDSA over P-384 (FIPS 186-5). PRESUMED, assumption log 7. -/

namespace Sys2Proof.Machine

/-! ### Bytes -/

/-- A number in n bytes, most significant first. -/
def bigBytes (n v : Nat) : List Byte := (toBytes n v).reverse

/-- The number that bytes spell, most significant first. -/
def ofBig (l : List Byte) : Nat := ofBytes l.reverse

/-- Two byte strings combined by exclusive or. -/
def xorBytes (a b : List Byte) : List Byte := List.zipWith (· ^^^ ·) a b

/-- The n-th piece of k bytes. -/
def piece (k : Nat) (l : List Byte) (n : Nat) : List Byte := (l.drop (k * n)).take k

/-- The pieces of k bytes. -/
def pieces (k : Nat) (l : List Byte) : List (List Byte) := (List.range (ceilDiv l.length k)).map (piece k l)

/-! ### SHA-384 -/

/-- The constants of the 80 rounds: fractions of the cube roots of the first 80 primes. -/
def shaK : List DWord :=
  [0x428A2F98D728AE22, 0x7137449123EF65CD, 0xB5C0FBCFEC4D3B2F, 0xE9B5DBA58189DBBC,
   0x3956C25BF348B538, 0x59F111F1B605D019, 0x923F82A4AF194F9B, 0xAB1C5ED5DA6D8118,
   0xD807AA98A3030242, 0x12835B0145706FBE, 0x243185BE4EE4B28C, 0x550C7DC3D5FFB4E2,
   0x72BE5D74F27B896F, 0x80DEB1FE3B1696B1, 0x9BDC06A725C71235, 0xC19BF174CF692694] ++
  [0xE49B69C19EF14AD2, 0xEFBE4786384F25E3, 0x0FC19DC68B8CD5B5, 0x240CA1CC77AC9C65,
   0x2DE92C6F592B0275, 0x4A7484AA6EA6E483, 0x5CB0A9DCBD41FBD4, 0x76F988DA831153B5,
   0x983E5152EE66DFAB, 0xA831C66D2DB43210, 0xB00327C898FB213F, 0xBF597FC7BEEF0EE4,
   0xC6E00BF33DA88FC2, 0xD5A79147930AA725, 0x06CA6351E003826F, 0x142929670A0E6E70] ++
  [0x27B70A8546D22FFC, 0x2E1B21385C26C926, 0x4D2C6DFC5AC42AED, 0x53380D139D95B3DF,
   0x650A73548BAF63DE, 0x766A0ABB3C77B2A8, 0x81C2C92E47EDAEE6, 0x92722C851482353B,
   0xA2BFE8A14CF10364, 0xA81A664BBC423001, 0xC24B8B70D0F89791, 0xC76C51A30654BE30,
   0xD192E819D6EF5218, 0xD69906245565A910, 0xF40E35855771202A, 0x106AA07032BBD1B8] ++
  [0x19A4C116B8D2D0C8, 0x1E376C085141AB53, 0x2748774CDF8EEB99, 0x34B0BCB5E19B48A8,
   0x391C0CB3C5C95A63, 0x4ED8AA4AE3418ACB, 0x5B9CCA4F7763E373, 0x682E6FF3D6B2B8A3,
   0x748F82EE5DEFB2FC, 0x78A5636F43172F60, 0x84C87814A1F0AB72, 0x8CC702081A6439EC,
   0x90BEFFFA23631E28, 0xA4506CEBDE82BDE9, 0xBEF9A3F7B2C67915, 0xC67178F2E372532B] ++
  [0xCA273ECEEA26619C, 0xD186B8C721C0C207, 0xEADA7DD6CDE0EB1E, 0xF57D4F7FEE6ED178,
   0x06F067AA72176FBA, 0x0A637DC5A2C898A6, 0x113F9804BEF90DAE, 0x1B710B35131C471B,
   0x28DB77F523047D84, 0x32CAAB7B40C72493, 0x3C9EBE0A15C9BEBC, 0x431D67C49C100D4C,
   0x4CC5D4BECB3E42B6, 0x597F299CFC657E2A, 0x5FCB6FAB3AD6FAEC, 0x6C44198C4A475817]

/-- The initial hash value: fractions of the square roots of the 9th to the 16th prime. -/
def shaInit : List DWord :=
  [0xCBBB9D5DC1059ED8, 0x629A292A367CD507, 0x9159015A3070DD17, 0x152FECD8F70E5939,
   0x67332667FFC00B31, 0x8EB44A8768581511, 0xDB0C2E0D64F98FA7, 0x47B5481DBEFA4FA4]

/-- The small sigmas and the big ones: two rotations, and a shift or a third rotation. -/
def shaSmall (x : DWord) (a b c : Nat) : DWord := x.rotateRight a ^^^ x.rotateRight b ^^^ (x >>> c)
def shaBig (x : DWord) (a b c : Nat) : DWord := x.rotateRight a ^^^ x.rotateRight b ^^^ x.rotateRight c

/-- One round on the eight working variables, and the next word of the schedule. -/
def shaRound (st : List DWord × List DWord) (k : DWord) : List DWord × List DWord :=
  let v (i : Nat) : DWord := nth st.1 i 0
  let w (i : Nat) : DWord := nth st.2 i 0
  let t1 := v 7 + shaBig (v 4) 14 18 41 + ((v 4 &&& v 5) ^^^ (~~~(v 4) &&& v 6)) + k + w 0
  let t2 := shaBig (v 0) 28 34 39 + ((v 0 &&& v 1) ^^^ (v 0 &&& v 2) ^^^ (v 1 &&& v 2))
  ([t1 + t2, v 0, v 1, v 2, v 3 + t1, v 4, v 5, v 6],
    st.2.drop 1 ++ [shaSmall (w 14) 19 61 6 + w 9 + shaSmall (w 1) 1 8 7 + w 0])

/-- One block of 128 bytes. -/
def shaBlock (h : List DWord) (block : List Byte) : List DWord :=
  let words := (pieces 8 block).map (fun x => BitVec.ofNat 64 (ofBig x))
  List.zipWith (· + ·) h (shaK.foldl shaRound (h, words)).1

/-- A message with its padding: a one bit, zeros, its length in bits in 16 bytes. -/
def shaPad (l : List Byte) : List Byte :=
  l ++ [0x80] ++ List.replicate ((111 + 128 - l.length % 128) % 128) 0 ++ bigBytes 16 (8 * l.length)

/-- SHA-384: 48 bytes. -/
def sha384 (l : List Byte) : List Byte :=
  (((pieces 128 (shaPad l)).foldl shaBlock shaInit).take 6).flatMap (fun w => bigBytes 8 w.toNat)

/-- HMAC-SHA-384, whose block is 128 bytes, under a key of at most that. -/
def hmac384 (key msg : List Byte) : List Byte :=
  let k := padTo 128 key
  sha384 (xorBytes k (List.replicate 128 0x5C) ++ sha384 (xorBytes k (List.replicate 128 0x36) ++ msg))

/-! ### AES-256 -/

/-- Multiplication by x in the field of AES. -/
def gfTimes2 (a : Byte) : Byte := (a <<< 1) ^^^ (if a.getLsbD 7 then 0x1B else 0)

/-- Multiplication in that field, by the bits of the second factor from the lowest on. -/
def gfMulBits (a : Byte) : List Bool → Byte
  | [] => 0
  | b :: r => (if b then a else 0) ^^^ gfMulBits (gfTimes2 a) r

def gfMul (a b : Byte) : Byte := gfMulBits a ((List.range 8).map b.getLsbD)

/-- The inverse, the 254th power; of zero, zero. -/
def gfInv (a : Byte) : Byte :=
  let a2 := gfMul a a
  let a3 := gfMul a2 a
  let a12 := gfMul (gfMul a3 a3) (gfMul a3 a3)
  let a15 := gfMul a12 a3
  let sq (x : Byte) : Byte := gfMul x x
  gfMul (gfMul (sq (sq (sq (sq a15)))) a12) a2

/-- The S-box and its inverse. -/
def aesSub (a : Byte) : Byte :=
  let x := gfInv a
  x ^^^ x.rotateLeft 1 ^^^ x.rotateLeft 2 ^^^ x.rotateLeft 3 ^^^ x.rotateLeft 4 ^^^ 0x63

def aesSubBack (a : Byte) : Byte := gfInv (a.rotateLeft 1 ^^^ a.rotateLeft 3 ^^^ a.rotateLeft 6 ^^^ 0x05)

/-- Word i of the expanded key after the words before it. -/
def aesKeyWord (key : List Byte) (l : List (List Byte)) (i : Nat) : List (List Byte) :=
  let prev := nth l (i - 1) []
  let rcon : Byte := 1#8 <<< (i / 8 - 1)
  let t := if i % 8 = 0 then xorBytes ((prev.drop 1 ++ prev.take 1).map aesSub) [rcon, 0, 0, 0]
    else if i % 8 = 4 then prev.map aesSub else prev
  l ++ [if i < 8 then piece 4 key i else xorBytes (nth l (i - 8) []) t]

/-- The 15 round keys. -/
def aesKeys (key : List Byte) : List (List Byte) :=
  pieces 16 (((List.range 60).foldl (aesKeyWord key) []).flatten)

/-- The rows shifted by a step for each row: column by column, byte r of column c comes from column c + step * r. -/
def aesRows (step : Nat) (s : List Byte) : List Byte :=
  (List.range 16).map (fun i => nth s ((i / 4 + step * (i % 4)) % 4 * 4 + i % 4) 0)

/-- The columns multiplied by a circulant matrix. -/
def aesCols (c : List Byte) (s : List Byte) : List Byte :=
  (List.range 16).map (fun i => (List.range 4).foldl (fun a j =>
    a ^^^ gfMul (nth s (i / 4 * 4 + j) 0) (nth c ((j + 4 - i % 4) % 4) 0)) 0)

/-- AES-256 of one block under round keys. -/
def aesWith (ks : List (List Byte)) (x : List Byte) : List Byte :=
  let round (s : List Byte) (k : List Byte) : List Byte :=
    xorBytes (aesCols [2, 3, 1, 1] (aesRows 1 (s.map aesSub))) k
  let s := ((ks.drop 1).take 13).foldl round (xorBytes x (nth ks 0 []))
  xorBytes (aesRows 1 (s.map aesSub)) (nth ks 14 [])

/-- Its inverse. -/
def aesBackWith (ks : List (List Byte)) (x : List Byte) : List Byte :=
  let round (s : List Byte) (k : List Byte) : List Byte :=
    aesCols [14, 11, 13, 9] (xorBytes ((aesRows 3 s).map aesSubBack) k)
  let s := ((ks.drop 1).take 13).reverse.foldl round (xorBytes x (nth ks 14 []))
  xorBytes ((aesRows 3 s).map aesSubBack) (nth ks 0 [])

def aes256 (key x : List Byte) : List Byte := aesWith (aesKeys key) x

/-! ### XTS and GMAC -/

/-- Multiplication by the primitive element of XTS. -/
def xtsNext (t : Nat) : Nat := (2 * t) % 2 ^ 128 ^^^ (if t.testBit 127 then 0x87 else 0)

/-- The blocks of a data unit under one cipher, from a masked tweak on. -/
def xtsBlocks (f : List Byte → List Byte) : Nat → List (List Byte) → List Byte
  | _, [] => []
  | t, x :: r => xorBytes (f (xorBytes x (toBytes 16 t))) (toBytes 16 t) ++ xtsBlocks f (xtsNext t) r

/-- AES-256-XTS of a data unit of whole blocks, and its inverse: data key, tweak key, tweak, text. -/
def aesXts (k1 k2 tweak text : List Byte) : List Byte :=
  let ks := aesKeys k1
  xtsBlocks (aesWith ks) (ofBytes (aes256 k2 tweak)) (pieces 16 text)

def aesXtsBack (k1 k2 tweak text : List Byte) : List Byte :=
  let ks := aesKeys k1
  xtsBlocks (aesBackWith ks) (ofBytes (aes256 k2 tweak)) (pieces 16 text)

/-- One bit of a product in the field of GCM: the product so far, and the second factor shifted. -/
def ghashBit (x : Nat) (zv : Nat × Nat) (i : Nat) : Nat × Nat :=
  (if x.testBit (127 - i) then zv.1 ^^^ zv.2 else zv.1,
    zv.2 / 2 ^^^ (if zv.2.testBit 0 then 0xE1 * 2 ^ 120 else 0))

def ghashMul (x h : Nat) : Nat := ((List.range 128).foldl (ghashBit x) (0, h)).1

/-- AES-256-GMAC: key, IV of 12 bytes, authenticated data. -/
def aesGmac (key iv data : List Byte) : List Byte :=
  let ks := aesKeys key
  let h := ofBig (aesWith ks (List.replicate 16 0))
  let blocks := (pieces 16 data).map (padTo 16) ++ [bigBytes 8 (8 * data.length) ++ List.replicate 8 0]
  let y := blocks.foldl (fun y b => ghashMul (y ^^^ ofBig b) h) 0
  xorBytes (bigBytes 16 y) (aesWith ks (iv ++ [0, 0, 0, 1]))

/-! ### ECDSA over P-384 -/

/-- The bits of a number of 384 bits, lowest first. -/
def bits384 (v : Nat) : List Bool := (List.range 384).map v.testBit

/-- A power modulo p, by the bits of the exponent. -/
def powMod (p : Nat) : Nat → List Bool → Nat
  | _, [] => 1
  | a, b :: r => (if b then a else 1) * powMod p (a * a % p) r % p

/-- The inverse modulo a prime. -/
def invMod (p a : Nat) : Nat := powMod p (a % p) (bits384 (p - 2))

def primeP384 : Nat := 2 ^ 384 - 2 ^ 128 - 2 ^ 96 + 2 ^ 32 - 1

/-- The order n of P-384. -/
def orderP384 : Nat :=
  0xFFFFFFFFFFFFFFFFFFFFFFFFFFFFFFFFFFFFFFFFFFFFFFFFC7634D81F4372DDF581A0DB248B0A77AECEC196ACCC52973

/-- The base point. -/
def baseP384 : Nat × Nat :=
  (0xAA87CA22BE8B05378EB1C71EF320AD746E1D3B628BA79B9859F741E082542A385502F25DBF55296C3A545E3872760AB7,
   0x3617DE4A96262C6F5D9E98BF9292DC29F8F41DBD289A147CE9DA3113B5F0B8C00A60B1CE1D7E819D7A431D7C90EA0E5F)

/-- The sum of two points; none is the point at infinity. -/
def ecAdd (a b : Option (Nat × Nat)) : Option (Nat × Nat) :=
  match a, b with
  | none, q => q
  | p, none => p
  | some (x1, y1), some (x2, y2) =>
    let p := primeP384
    let at_ (slope : Nat) : Option (Nat × Nat) :=
      let x := (slope * slope + 2 * p - x1 - x2) % p
      some (x, (slope * (x1 + p - x) + p - y1) % p)
    if x1 = x2 then
      if (y1 + y2) % p = 0 then none else at_ ((3 * x1 * x1 + p - 3) * invMod p (2 * y1) % p)
    else at_ ((y2 + p - y1) * invMod p (x2 + p - x1) % p)

/-- A multiple of a point, by the bits of the factor. -/
def ecMul : Option (Nat × Nat) → List Bool → Option (Nat × Nat)
  | _, [] => none
  | q, b :: r => if b then ecAdd q (ecMul (ecAdd q q) r) else ecMul (ecAdd q q) r

/-- The public key of a private key. -/
def publicKey (d : Nat) : Nat × Nat := (ecMul (some baseP384) (bits384 d)).getD (0, 0)

/-- The 96 bytes of a public key, x then y. -/
def keyBytes (q : Nat × Nat) : List Byte := bigBytes 48 q.1 ++ bigBytes 48 q.2

/-- The signature of a digest under a private key and a per-message secret number: r and s, 48 bytes each. -/
def ecdsaSign (d k : Nat) (digest : List Byte) : List Byte :=
  let n := orderP384
  let r := (publicKey k).1 % n
  bigBytes 48 r ++ bigBytes 48 (invMod n k * ((ofBig digest + r * d) % n) % n)

/-- Whether a signature of a digest holds under a public key. -/
def ecdsaHolds (q : Nat × Nat) (digest sig : List Byte) : Bool :=
  let n := orderP384
  let r := ofBig (piece 48 sig 0)
  let s := ofBig (piece 48 sig 1)
  let w := invMod n s
  let x := ecAdd (ecMul (some baseP384) (bits384 (ofBig digest * w % n))) (ecMul (some q) (bits384 (r * w % n)))
  decide (0 < r) && decide (r < n) && decide (0 < s) && decide (s < n) && (match x with | some y => y.1 % n == r | none => false)

end Sys2Proof.Machine
end

