-- ==== Sys2Proof/Machine/Keys.lean ====
section
/-! DEFINITION. The keys that the Seal processor derives, and what glaze computes under them (R491, R492, R498, R499). -/

namespace Sys2Proof.Machine

/-! ### The key derivation (R492) -/

/-- The KDF in counter mode over the root key: the counter and L are 32 bits, most significant byte first, and L counts bits. -/
def deriveKey (label context : List Byte) (len : Nat) : List Byte :=
  let block (i : Nat) : List Byte := hmac384 (bigBytes 32 Config.rootKey.toNat) (bigBytes 4 i ++ label ++ [0] ++ context ++ bigBytes 4 len)
  (((rangeFrom 1 (ceilDiv len 384)).map block).flatten).take (len / 8)

/-- "CX9 GLAZE XTS" before its digit. -/
def labelXts : List Byte := [0x43, 0x58, 0x39, 0x20, 0x47, 0x4C, 0x41, 0x5A, 0x45, 0x20, 0x58, 0x54, 0x53]
/-- "CX9 GLAZE TAG". -/
def labelTag : List Byte := [0x43, 0x58, 0x39, 0x20, 0x47, 0x4C, 0x41, 0x5A, 0x45, 0x20, 0x54, 0x41, 0x47]
/-- "CX9 IDENTITY". -/
def labelIdentity : List Byte := [0x43, 0x58, 0x39, 0x20, 0x49, 0x44, 0x45, 0x4E, 0x54, 0x49, 0x54, 0x59]

/-- K1(s). -/
def keyXts1 (slot : Nat) : List Byte := deriveKey (labelXts ++ [0x31]) (toBytes 2 slot) 256
/-- K2(s). -/
def keyXts2 (slot : Nat) : List Byte := deriveKey (labelXts ++ [0x32]) (toBytes 2 slot) 256
/-- KT(s, g). -/
def keyTag (slot gen : Nat) : List Byte := deriveKey labelTag (toBytes 2 slot ++ toBytes 4 gen) 256

/-- The identity key d = (c mod (n - 1)) + 1, c the derived bits, most significant first. -/
def identityKey : Nat := ofBig (deriveKey labelIdentity [] 448) % (orderP384 - 1) + 1

/-- The identity key's signature over some bytes: r and s, 96 bytes (R507, R510). -/
def signIdentity (l : List Byte) : List Byte :=
  ecdsaSign identityKey (Config.signSecret l % (orderP384 - 1) + 1) (sha384 l)

/-! ### Glazed units (R498, R499) -/

/-- The tweak of a unit. -/
def unitTweak (slot gen iova : Nat) : List Byte := toBytes 16 (gen * 2 ^ 96 + slot * 2 ^ 64 + bits iova 63 9)

/-- The ciphertext of a unit. -/
def sealBytes (slot gen iova : Nat) (data : List Byte) : List Byte :=
  aesXts (keyXts1 slot) (keyXts2 slot) (unitTweak slot gen iova) data

/-- The plaintext of a unit. -/
def openBytes (slot gen iova : Nat) (data : List Byte) : List Byte :=
  aesXtsBack (keyXts1 slot) (keyXts2 slot) (unitTweak slot gen iova) data

/-- TAG of a unit: the first 64 bits of the GMAC output. -/
def unitTag (slot gen iova ver : Nat) (poison : Bool) (cipher : List Byte) : BitVec 64 :=
  BitVec.ofNat 64 (ofBytes ((aesGmac (keyTag slot gen) (toBytes 8 (bits iova 63 9) ++ toBytes 4 ver)
    (toBytes 8 iova ++ toBytes 2 slot ++ toBytes 4 gen ++ toBytes 4 ver ++ [if poison then 1 else 0] ++ cipher)).take 8))

end Sys2Proof.Machine
end

