-- ==== Sys2Proof/Machine/Mem.lean ====
section
/-! DEFINITION. Cells in canonical form, memory by line, poison, extents and their translation (R178-R195). -/

namespace Sys2Proof.Machine

/-! ### Cells -/

/-- What an address reads as: 0 where nothing is listed. -/
def Cells.get (c : List Host.Cell) (a : Nat) : Byte :=
  match c with
  | [] => 0
  | (k, b) :: r => if k = a then b else if a < k then 0 else Cells.get r a

/-- Writes one byte and keeps the form: rising addresses, no byte that an unlisted address reads as. -/
def Cells.set (c : List Host.Cell) (a : Nat) (v : Byte) : List Host.Cell :=
  match c with
  | [] => if v = 0 then [] else [(a, v)]
  | (k, b) :: r =>
    if k = a then (if v = 0 then r else (a, v) :: r)
    else if a < k then (if v = 0 then (k, b) :: r else (a, v) :: (k, b) :: r)
    else (k, b) :: Cells.set r a v

/-- The canonical form: addresses strictly rising, no entry equal to what an unlisted address reads as. -/
def Cells.wf : List Host.Cell → Bool
  | [] => true
  | [(_, b)] => b != 0
  | (a, b) :: (a2, b2) :: r => b != 0 && decide (a < a2) && Cells.wf ((a2, b2) :: r)

/-- n bytes from an address. -/
def Cells.read (c : List Host.Cell) (a n : Nat) : List Byte := (rangeFrom a n).map (Cells.get c)

/-- Bytes written from an address on. -/
def Cells.write (c : List Host.Cell) (a : Nat) : List Byte → List Host.Cell
  | [] => c
  | b :: r => Cells.write (Cells.set c a b) (a + 1) r

/-- n zero bytes from an address on. -/
def Cells.clear (c : List Host.Cell) (a n : Nat) : List Host.Cell := c.filter (fun x => x.1 < a || a + n ≤ x.1)

/-- A sorted list of numbers with one added. -/
def insertSorted (x : Nat) : List Nat → List Nat
  | [] => [x]
  | y :: r => if x = y then y :: r else if x < y then x :: y :: r else y :: insertSorted x r

/-- The canonical form of memory (R181 cells and lines). -/
def Memory.wf (m : Memory) : Bool := Cells.wf m.cells

/-! ### Lines and poison (R190, R191) -/

/-- The bytes of a line of 128. -/
def Memory.line (m : Memory) (l : Nat) : List Byte := Cells.read m.cells (l * 128) 128

/-- Whether a line carries a poison mark. -/
def Memory.bad (m : Memory) (l : Nat) : Bool := m.poison.contains l

/-- A line's bytes and mark written. -/
def Memory.setLine (m : Memory) (l : Nat) (data : List Byte) (poison : Bool) : Memory :=
  { m with
    cells := Cells.write m.cells (l * 128) data
    poison := if poison then insertSorted l m.poison else m.poison.filter (· != l) }

/-- A line marked poisoned; its bytes stay (R190). -/
def Memory.poisonLine (m : Memory) (l : Nat) : Memory := { m with poison := insertSorted l m.poison }

/-! ### Extents (R182-R187) -/

/-- NCH: the channels of an extent's set. -/
def Extent.nch (e : Extent) : Nat := (bitsSet 192 e.mask.toNat).length

/-- Whether the span holds the extent's addresses (R186). -/
def Extent.held (e : Extent) : Bool := e.state != .zeroing

/-- Whether a span address lies in the extent's range (R187). -/
def Extent.covers (e : Extent) (sa : Nat) : Bool :=
  decide (e.base * 0x200000 ≤ sa) && decide (sa < (e.base + e.len) * 0x200000)

/-- The LPA of a span address in the extent (R187). -/
def Extent.lpa (e : Extent) (sa : Nat) : Nat :=
  let off := sa - e.base * 0x200000
  let page := off / 4096
  let n := e.nch
  let ch := nth (bitsSet 192 e.mask.toNat) (page % n) 0
  ch * 2 ^ 32 + e.choff * 0x200000 + page / n * 4096 + off % 4096

/-- The extent of a span that holds a span address (R187). -/
def Memory.extentOf (m : Memory) (span sa : Nat) : Option Extent :=
  m.extents.find? (fun e => e.span == span && e.held && e.covers sa)

/-- Translation of a span address; none when it is out of extent (R95, R187). -/
def Memory.translate (m : Memory) (span sa : Nat) : Option Nat :=
  if 2 ^ 52 ≤ sa then none else (m.extentOf span sa).map (·.lpa sa)

/-- Whether every byte of a range of span addresses is held; a range is contiguous within each 4 KiB page. -/
def Memory.holdsRange (m : Memory) (span sa len : Nat) : Bool :=
  len == 0 || ((rangeFrom (sa / 4096) ((sa + len - 1) / 4096 - sa / 4096 + 1)).all
    (fun p => (m.translate span (p * 4096)).isSome))

/-- The physical backing of an LPA: an offset inside the 3 GiB of a logical channel that is not RETIRED (R181). -/
def Memory.backed (m : Memory) (lpa : Nat) : Bool :=
  decide (lpa % 2 ^ 32 < 0xC0000000) &&
    (match m.channels[lpa / 2 ^ 32]? with
     | some c => c.state != .retired
     | none => false)

/-- The home index of a line (R203). -/
def homeOf (line : Nat) : Nat :=
  ((bits line 4 0 ^^^ bits line 9 5) ^^^ (bits line 14 10 ^^^ bits line 19 15))
    ^^^ ((bits line 24 20 ^^^ bits line 29 25) ^^^ bits line 32 30)

/-- The lines that the granules of an extent lie on, as ranges: channel, first offset, bytes (R182). -/
def Extent.ranges (e : Extent) : List (Nat × Nat × Nat) :=
  (bitsSet 192 e.mask.toNat).map (fun c => (c, e.choff * 0x200000, e.len / e.nch * 0x200000))

/-- Whether a line lies in a byte range of a channel. -/
def inRange (line : Nat) (r : Nat × Nat × Nat) : Bool :=
  line * 128 / 2 ^ 32 == r.1 && decide (r.2.1 ≤ line * 128 % 2 ^ 32) && decide (line * 128 % 2 ^ 32 < r.2.1 + r.2.2)

/-- Zeroes a byte range of a channel and clears its poison (R194). -/
def Memory.zeroRange (m : Memory) (r : Nat × Nat × Nat) : Memory :=
  { m with
    cells := Cells.clear m.cells (r.1 * 2 ^ 32 + r.2.1) r.2.2
    poison := m.poison.filter (fun l => !inRange l r) }

end Sys2Proof.Machine
end

