-- ==== Sys2Proof/Machine/Replies.lean ====
section
/-! DEFINITION. The classes of ECS commands, and their answers (R405, R410, R412, R415, R416). -/

namespace Sys2Proof.Machine

/-! ### Commands and classes (R412, R415) -/

/-- The classes (R415). -/
inductive EcsClass where
  | query | control | compose | recovery | safety
  deriving DecidableEq, Repr

/-- Their order, lowest first. -/
def EcsClass.rank : EcsClass → Nat
  | .query => 0 | .control => 1 | .compose => 2 | .recovery => 3 | .safety => 4

/-- Whether Elbor core 3 serves a class. -/
def EcsClass.core3 (c : EcsClass) : Bool := decide (3 ≤ c.rank)

/-- The opcodes of each class (R412, R314, R364). -/
def classOf (op : Nat) : Option EcsClass :=
  if [0x401, 0x404, 0x505, 0x801].contains op then some .safety
  else if [0x303, 0x500, 0x501, 0x502, 0x503, 0x504].contains op then some .recovery
  else if [0x100, 0x101, 0x102, 0x103, 0x104].contains op then some .compose
  else if [0x000, 0x001, 0x002, 0x003, 0x005, 0x105, 0x106, 0x202, 0x212, 0x224, 0x302, 0x403, 0x506, 0x600, 0x702,
           0x803].contains op then some .query
  else if [0x004, 0x006, 0x200, 0x201, 0x203, 0x210, 0x211, 0x220, 0x221, 0x222, 0x223, 0x230, 0x240, 0x241, 0x242, 0x300,
           0x301, 0x310, 0x311, 0x320, 0x321, 0x400, 0x402, 0x601, 0x602, 0x603, 0x700, 0x701, 0x800, 0x802].contains op then
    some .control
  else none

/-- What a response says beside what it echoes (R405): its status, AUX, ARGOFF and BUF_OFF, the result from offset 0x20,
and what goes to BUF_OUT. -/
structure Reply where
  status : Status
  aux : Nat := 0
  argOff : Nat := 0
  bufOff : Nat := 0
  result : List Byte := []
  out : List Byte := []
  deriving DecidableEq, Repr

/-- A command performed in full, with its result. -/
def Reply.good (result : List Byte) : Reply := { status := .ok, result := result }

/-- A command answered NOT_PERMITTED with ARGOFF (R405). -/
def Reply.refuse (argOff : Nat) : Reply := { status := .notPermitted, argOff := argOff }

/-- The 256 bytes of a response (R405). -/
def Reply.bytes (r : Reply) (opcode seq : Nat) : List Byte :=
  toBytes 2 r.status.code ++ toBytes 2 opcode ++ toBytes 4 seq ++ toBytes 4 r.aux ++ toBytes 4 r.out.length ++
    toBytes 2 r.argOff ++ toBytes 2 0 ++ toBytes 4 r.bufOff ++ toBytes 8 0 ++
    (r.result ++ List.replicate (224 - r.result.length) 0).take 224

/-- The opcode field and SEQ of a command (R404). -/
def MbCmd.opcode (c : MbCmd) : Nat := fieldAt c.bytes 0 2
def MbCmd.seq (c : MbCmd) : Nat := fieldAt c.bytes 4 4
/-- The opcode of a command without its reserved bits. -/
def MbCmd.op (c : MbCmd) : Nat := c.opcode % 4096
def MbCmd.cls (c : MbCmd) : Option EcsClass := classOf c.op

/-- Whether a command is one of those that a backlog holds back: of cores 0 and 1 (R415). -/
def MbCmd.backlogged (c : MbCmd) : Bool := match c.cls with | some k => !k.core3 | none => false

/-- A mailbox's record. -/
def Main.boxOf (m : Main) (mb : Mbx) : Option Mailbox := m.elbor.boxes.find? (fun b => b.mb == mb)

def Main.modBox (m : Main) (mb : Mbx) (f : Mailbox → Mailbox) : Main :=
  { m with elbor := { m.elbor with boxes := modWhere m.elbor.boxes (fun b => b.mb == mb) f } }

/-- A response made ready: the command neither waits nor is held any more. The rate of R416 counts the commands of the backlog
that complete, not those answered BUSY. -/
def Main.reply (m : Main) (mb : Mbx) (c : MbCmd) (r : Reply) : Main :=
  let resp : Resp := { idx := c.idx, bytes := r.bytes c.opcode c.seq, out := r.out }
  let m1 := m.modBox mb (fun b =>
    { b with waiting := b.waiting.filter (fun x => x.idx != c.idx), held := b.held.filter (fun x => x.cmd.idx != c.idx),
             ready := if c.orphan then b.ready else b.ready ++ [resp] })
  if c.backlogged && r.status != .busy then
    { m1 with elbor :=
      { m1.elbor with finished := m1.time :: m1.elbor.finished.filter (fun t => decide (m1.time < t + 10000000)) } }
  else m1

/-- A command that has begun and is answered later: it gives up its Elbor core (R415). -/
def Main.hold (m : Main) (mb : Mbx) (c : MbCmd) (why : HeldFor) : Main :=
  m.modBox mb (fun b =>
    { b with waiting := b.waiting.filter (fun x => x.idx != c.idx)
             held := b.held.filter (fun x => x.cmd.idx != c.idx) ++ [{ cmd := c, why := why }] })

/-- The commands held for a reason, with their mailboxes. -/
def Main.heldFor (m : Main) (why : HeldFor) : List (Mbx × MbCmd) :=
  m.elbor.boxes.flatMap (fun b => (b.held.filter (fun h => h.why == why)).map (fun h => (b.mb, h.cmd)))

/-- Every command held for a reason answered. -/
def Main.answerHeld (m : Main) (why : HeldFor) (r : Reply) : Main :=
  (m.heldFor why).foldl (fun m x => m.reply x.1 x.2 r) m

end Sys2Proof.Machine
end

