-- ==== Sys2Proof/Machine/Events.lean ====
section
/-! DEFINITION. Host memory writes, MSI-X and event records (R351, R429-R435). -/

namespace Sys2Proof.Machine

/-! ### Host memory -/

/-- The key of a host address of a function and PASID (0: none). -/
def hostKey (fn : Fn) (pasid addr : Nat) : Nat := (fnNum fn * 2 ^ 20 + pasid) * 2 ^ 64 + addr % 2 ^ 64

/-- Bytes the module writes to host memory; `ep` marks them poisoned. -/
def Main.hostWrite (m : Main) (fn : Fn) (pasid addr : Nat) (data : List Byte) (ep : Bool) : Main :=
  let k := hostKey fn pasid addr
  let marks := rangeFrom k data.length
  { m with host := { m.host with
      cells := Cells.write m.host.cells k data
      ep := if ep then marks.foldl (fun l x => insertSorted x l) m.host.ep
            else m.host.ep.filter (fun x => !(decide (k ≤ x) && decide (x < k + data.length)))
      ro := m.host.ro.filter (fun x => !(decide (k ≤ x) && decide (x < k + data.length))) } }

/-- A data write of a DMA packet, with Relaxed Ordering when its function has it enabled (R351). -/
def Main.dataWrite (m : Main) (ro : Bool) (fn : Fn) (pasid addr : Nat) (data : List Byte) (ep : Bool) : Main :=
  let m1 := m.hostWrite fn pasid addr data ep
  if ro then
    { m1 with host := { m1.host with
        ro := (rangeFrom (hostKey fn pasid addr) data.length).foldl (fun l x => insertSorted x l) m1.host.ro } }
  else m1

/-- A function's record. -/
def Main.fnOf (m : Main) (fn : Fn) : Option FnRec := m.host.fns.find? (fun r => r.fn == fn)

def Main.modFn (m : Main) (fn : Fn) (f : FnRec → FnRec) : Main :=
  { m with host := { m.host with fns := modWhere m.host.fns (fun r => r.fn == fn) f } }

/-- An error in the registers: its bit, and the header of the first error that is not masked (PCIe). -/
def AerRegs.note (r : AerRegs) (k : AerKind) (header : List Byte) : AerRegs :=
  let st := r.status ||| BitVec.ofNat 32 (2 ^ k.bit)
  if r.mask.getLsbD k.bit || r.status &&& ~~~r.mask != 0 then { r with status := st }
  else { r with status := st, first := k.bit, header := header }

/-- An error logged under AER (R338). No command brings the header of the TLP: the header log is a free value. -/
def Main.aerLog (m : Main) (kind : AerKind) (fn : Fn) (addr : Nat) : Main :=
  let header := (List.range 16).map (fun i => BitVec.ofNat 8 (Config.freeNat (m.free + i)))
  let sev : AerSev := match m.fnOf fn with
    | some r => if r.aer.sev.getLsbD kind.bit then .fatal else .nonFatal
    | none => .nonFatal
  let m1 := m.modFn fn (fun r => { r with aer := r.aer.note kind header })
  { m1 with
    free := m.free + 16
    host := { m1.host with aer := m1.host.aer ++ [{ kind := kind, fn := fn, addr := addr, sev := sev, header := header }] } }

/-- Whether accesses of a function can be sent: it exists and its port's link is up (R362). -/
def Main.fnReach (m : Main) (fn : Fn) : Bool :=
  (match m.fnOf fn with | some r => r.present && !r.inFlr | none => false) &&
    (match m.host.ports[fn.port]? with | some p => p.linkUp && !p.perst | none => false)

/-- The MSI-X message of a vector, or its pending bit when it is masked (R431). -/
def Main.sendMsix (m : Main) (fn : Fn) (v : Nat) : Main :=
  match m.fnOf fn with
  | none => m
  | some r =>
    if r.fnMask || r.masked.contains v then m.modFn fn (fun r => { r with pendVec := insertSorted v r.pendVec })
    else { m with host := { m.host with msix := m.host.msix ++ [{ fn := fn, vector := v, entry := nth r.vecs v { addr := 0, data := 0 } }] } }

/-! ### Event records -/

/-- Fabric time as a function sees it: a VF's is rounded down to 1 µs (R387, R434). -/
def seenTime (fn : Fn) (t : Nat) : Nat := if fn.idx = 0 then t else t / 1000 * 1000

/-- The 32 bytes of a record (R434). -/
def Event.bytes (e : Event) (fn : Fn) (i : Word) (log2n : Nat) : List Byte :=
  toBytes 2 e.type ++ toBytes 1 (if i.toNat / 2 ^ log2n % 2 = 0 then 1 else 0) ++ toBytes 1 e.cls ++
    toBytes 4 i.toNat ++ toBytes 8 (seenTime fn e.time) ++ toBytes 4 e.subject ++ toBytes 2 e.status.code ++
    toBytes 2 0 ++ toBytes 8 e.detail

namespace EvQ

/-- N records fill the ring (R430). -/
def full (q : EvQ) : Bool := (q.tail - q.head).toNat == 2 ^ q.log2n

def empty (q : EvQ) : Bool := q.tail == q.head

/-- An event not written (R429). -/
def lose (q : EvQ) : EvQ := { q with lost := min (q.lost + 1) 0xFFFFFFFF, lostSince := q.lostSince + 1 }

end EvQ

def Main.modEq (m : Main) (fn : Fn) (i : Nat) (f : EvQ → EvQ) : Main :=
  m.modFn fn (fun r => { r with eqs := modNth r.eqs i f })

def Main.eqOf (m : Main) (fn : Fn) (i : Nat) : Option EvQ := (m.fnOf fn).bind (fun r => r.eqs[i]?)

/-- MSI-X after a record or a HEAD write, when armed and not empty (R431). -/
def Main.eqNotify (m : Main) (fn : Fn) (i : Nat) : Main :=
  match m.eqOf fn i with
  | none => m
  | some q =>
    if q.armed && !q.empty then
      let m1 := m.modEq fn i (fun q => { q with armed := false })
      if q.vec.getLsbD 31 then m1.sendMsix fn (q.vec.toNat % 128) else m1
    else m

/-! ### Records on their way to the host (R353, R373, R397, R402, R429) -/

/-- Whether an entry grants an access to an address. -/
def AtcEntry.grants (e : AtcEntry) (fn : Fn) (pasid a : Nat) (write : Bool) : Bool :=
  e.fn == fn && e.pasid == pasid && decide (e.page ≤ a) && decide (a < e.page + e.size) && (if write then e.wr else e.rd)

/-- Whether two entries are of one function, PASID and page. -/
def AtcEntry.same (x y : AtcEntry) : Bool := x.fn == y.fn && x.pasid == y.pasid && x.page == y.page

/-- An entry put in a cache of a size as the one used last; the one used least recently leaves a full cache. -/
def cachePut {α : Type} (n : Nat) (l : List α) (same : α → Bool) (x : α) : List α :=
  let l1 := l.filter (fun y => !same y)
  (if n ≤ l1.length then l1.drop 1 else l1) ++ [x]

/-- An entry put into the cache of a port. -/
def Main.atcPut (m : Main) (port : Nat) (e : AtcEntry) : Main :=
  { m with host := { m.host with ports := modNth m.host.ports port (fun p =>
      { p with cache := cachePut 65536 p.cache e.same e }) } }

/-- The block with the page of an access looked up: its function has ATS disabled, or its port's cache holds the translation. -/
def Main.pageOf (m : Main) (fn : Fn) (pasid a : Nat) (write : Bool) : Option Main :=
  match m.fnOf fn with
  | some r =>
    if !r.ats then some m
    else ((m.host.ports[fn.port]?).bind (fun p => p.cache.find? (fun e => e.grants fn pasid a write))).map (m.atcPut fn.port)
  | none => none

/-- A Completion Timeout Value in ns: the default, or the least of its range (R338; PRESUMED, assumption log 41). -/
def timeoutOf (code : Nat) : Nat :=
  match code with
  | 1 => 50000 | 2 => 1000000 | 5 => 16000000 | 6 => 65000000 | 9 => 260000000 | 10 => 1000000000 | 13 => 4000000000
  | 14 => 17000000000 | _ => 50000000

/-- A Translation Request for an address sent now: its completion times out after the function's Completion Timeout (R352). -/
def Main.asks (m : Main) (fn : Fn) (a : Nat) : DmaSt :=
  .translating (m.time + timeoutOf (match m.fnOf fn with | some f => f.timeout | none => 0)) a

/-- A fault from now on, unresolved after the fault timeout (R356). -/
def Main.faultsNow (m : Main) (asked : Bool) : DmaSt := .faulted (m.time + m.param 7 * 1000000) asked

/-- Whether two accesses are of one stream, whose accesses keep their order: a mailbox's ring reads and responses are one (R402). -/
def PutOwner.same : PutOwner → PutOwner → Bool
  | .queue a, .queue b => a == b
  | .mirror a, .mirror b => a == b
  | .event a _, .event b _ => a == b
  | .response _, .response _ => true
  | .response _, .slot => true
  | .slot, .response _ => true
  | .slot, .slot => true
  | .ring a, .ring b => a == b
  | .buffer a _, .buffer b _ => a == b
  | _, _ => false

/-- The accesses of an owner of a function that wait. -/
def Main.putsOf (m : Main) (fn : Fn) (o : PutOwner) : List HostPut :=
  m.host.puts.filter (fun p => p.fn == fn && p.owner.same o)

/-- Whether a waiting write is of a context's records, status words or mirrors. -/
def Main.putConcerns (m : Main) (ctx : Nat) (p : HostPut) : Bool :=
  match p.owner with
  | .queue q => q.ctx == ctx
  | .mirror h => (match m.objs.fences.find? (fun f => f.handle == h) with | some f => f.owner == ctx | none => false)
  | _ => false

/-- Whether the data that an event reports waits before it: a CONTEXT event is written after its context's data (R432). -/
def Main.dataWaits (m : Main) (fn : Fn) (o : PutOwner) (before : HostPut → Bool) : Bool :=
  match o with
  | .event _ e => e.cls == 0 && m.host.puts.any (fun p => p.fn == fn && before p && m.putConcerns e.subject p)
  | _ => false

/-- An access put behind those that wait; the first of its stream asks for its translation. -/
def Main.addPut (m : Main) (fn : Fn) (pasid addr : Nat) (data : List Byte) (o : PutOwner) (place : Nat) : Main :=
  { m with host := { m.host with
      nextPut := m.host.nextPut + 1
      puts := m.host.puts ++ [{ num := m.host.nextPut, fn := fn, pasid := pasid, addr := addr, data := data, owner := o
                                st := if (m.putsOf fn o).isEmpty && !m.dataWaits fn o (fun _ => true) then m.asks fn place else .ready
                                retried := false, late := [] }] } }

/-- The page that a read or a buffer needs: the block goes on, or waits for it; none when it has turned out that it cannot be had. -/
inductive PageRes where
  | have (m : Main)
  | wait (m : Main)
  | lost (m : Main)
  deriving DecidableEq, Repr

/-- The access of a stream to an address: its page is there, is waited for, or cannot be had, which ends the wait (R353, R356, R402). -/
def Main.needPage (m : Main) (fn : Fn) (pasid a : Nat) (o : PutOwner) : PageRes :=
  match (m.putsOf fn o).find? (fun p => p.st == .unresolved) with
  | some p => .lost { m with host := { m.host with puts := m.host.puts.erase p } }
  | none =>
    match m.pageOf fn pasid a o.writes with
    | some m1 => .have m1
    | none => .wait (if (m.putsOf fn o).any (fun p => p.owner == o) then m else m.addPut fn pasid a [] o a)

/-- A record written to the host, or kept until it can be. -/
def Main.putHost (m : Main) (fn : Fn) (pasid addr : Nat) (data : List Byte) (o : PutOwner) : Main :=
  match (if (m.putsOf fn o).isEmpty then m.pageOf fn pasid addr true else none) with
  | some m1 => m1.hostWrite fn pasid addr data false
  | none => m.addPut fn pasid addr data o addr

/-- Where the next record of a queue goes (R430). -/
def EvQ.place (q : EvQ) : Nat := q.base.toNat / 4096 * 4096 + 32 * (q.tail.toNat % 2 ^ q.log2n)

/-- A record whose bytes from 8 on are written first, and bytes 0 to 7 after them (R405, R430). -/
def Main.writeLate (m : Main) (fn : Fn) (a : Nat) (d : List Byte) : Main :=
  (m.hostWrite fn 0 (a + 8) (d.drop 8) false).hostWrite fn 0 a (d.take 8) false

/-- A record written at the tail of a queue, which then moves on (R430). -/
def Main.eqWrite (m : Main) (fn : Fn) (i : Nat) (q : EvQ) (e : Event) : Main :=
  let m1 := m.writeLate fn q.place (e.bytes fn q.tail q.log2n)
  (m1.modEq fn i (fun q => { q with tail := q.tail + 1 })).eqNotify fn i

/-- WRITE_FAULT (R429): the records that wait are lost too. -/
def Main.eqFault (m : Main) (fn : Fn) (i : Nat) : Main :=
  let mine (p : HostPut) : Bool := p.fn == fn && (match p.owner with | .event k _ => k == i | _ => false)
  let n := (m.host.puts.filter mine).length
  let m1 : Main := { m with host := { m.host with puts := m.host.puts.filter (fun p => !mine p) } }
  m1.modEq fn i (fun q => { (List.range n).foldl (fun q _ => q.lose) q with
    state := if q.en then .error else .off, err := true })

/-- A record given to a running queue that has room: written, or kept until its address is translated and its data are written. A write
that cannot be sent is a WRITE_FAULT (R429, R430, R432). -/
def Main.eqPut (m : Main) (fn : Fn) (i : Nat) (q : EvQ) (e : Event) : Main :=
  let o : PutOwner := .event i e
  if !m.fnReach fn then (m.modEq fn i EvQ.lose).eqFault fn i
  else
    match (if (m.putsOf fn o).isEmpty && !m.dataWaits fn o (fun _ => true) then m.pageOf fn 0 q.place true else none) with
    | some m1 => m1.eqWrite fn i q e
    | none => m.addPut fn 0 0 [] o q.place

/-- Whether the records written and those that wait fill a queue. -/
def Main.eqFull (m : Main) (fn : Fn) (i : Nat) (q : EvQ) (e : Event) : Bool :=
  (q.tail - q.head).toNat + (m.putsOf fn (.event i e)).length == 2 ^ q.log2n

/-- An event given to one queue (R429, R432). -/
def Main.eqPost (m : Main) (fn : Fn) (i : Nat) (e : Event) : Main :=
  match m.eqOf fn i with
  | none => m
  | some q =>
    match q.state with
    | .run =>
      if !q.en then m.modEq fn i EvQ.lose
      else if m.eqFull fn i q e then m.modEq fn i (fun q => { q.lose with lostFull := q.lostFull + 1 }) else m.eqPut fn i q e
    | _ => m.modEq fn i (fun q => q.lose)

/-- The address a waiting access goes to. -/
def Main.putPlace (m : Main) (p : HostPut) : Nat :=
  match p.owner with
  | .event i _ => (match m.eqOf p.fn i with | some q => q.place | none => 0)
  | _ => p.addr

/-- STATE becomes OFF when EN is clear and nothing is in flight. -/
def Mailbox.settle (b : Mailbox) : Mailbox := if !b.en && b.inflight == 0 then { b with state := .off } else b

/-- A response that has been written, or cannot be: the command is in flight no more (R401, R402). -/
def Main.responseOver (m : Main) (fn : Fn) : Main :=
  m.modBox (.fn fn) (fun x => ({ x with inflight := x.inflight - 1 } : Mailbox).settle)

/-- A response written, then MSI-X (R405). -/
def Main.responseWrite (m : Main) (fn : Fn) (a : Nat) (d : List Byte) : Main :=
  let m1 := m.writeLate fn a d
  (match m.boxOf (.fn fn) with
    | some b => if b.vec.getLsbD 31 then m1.sendMsix fn (b.vec.toNat % 128) else m1
    | none => m1).responseOver fn

/-- A waiting access performed; a queue whose EN was cleared meanwhile is then off (R429). -/
def Main.putDone (m : Main) (p : HostPut) : Main :=
  match p.owner with
  | .event i e =>
    match m.eqOf p.fn i with
    | some q =>
      let m1 := m.eqWrite p.fn i q e
      if q.en then m1 else m1.modEq p.fn i (fun q => { q with state := .off })
    | none => m
  | .response _ => m.responseWrite p.fn p.addr p.data
  | o => if o.pageOnly then m else m.hostWrite p.fn p.pasid p.addr p.data false

/-- Whether an access may go: nothing of its stream waits before it, nor the data it reports. -/
def Main.putFirst (m : Main) (p : HostPut) : Bool :=
  p.st == .ready && ((m.putsOf p.fn p.owner).head?.map (·.num)) == some p.num &&
    !m.dataWaits p.fn p.owner (fun x => decide (x.num < p.num))

/-- Accesses that wait behind none any more, one after the other: performed, or their translation is asked for. -/
def Main.settlePuts : Nat → Main → Main
  | 0, m => m
  | f + 1, m =>
    match m.host.puts.find? m.putFirst with
    | none => m
    | some p =>
      let a := m.putPlace p
      let m1 : Main :=
        match m.pageOf p.fn p.pasid a p.owner.writes with
        | some m1 => ({ m1 with host := { m1.host with puts := m1.host.puts.erase p } } : Main).putDone p
        | none => { m with host := { m.host with puts := modWhere m.host.puts (fun x => x.num == p.num) (fun x => { x with st := m.asks p.fn a }) } }
      Main.settlePuts f m1

def Main.putsGo (m : Main) : Main := Main.settlePuts m.host.puts.length m

/-! ### Page requests (R355) -/

def Main.modDma (m : Main) (i : Nat) (f : DmaRun → DmaRun) : Main :=
  { m with host := { m.host with dmas := modNth m.host.dmas i f } }

def Main.modPut (m : Main) (n : Nat) (f : HostPut → HostPut) : Main :=
  { m with host := { m.host with puts := modWhere m.host.puts (fun p => p.num == n) f } }

/-- A stalled state that waits for a place in the allocation of page requests. -/
def DmaSt.unasked : DmaSt → Bool
  | .faulted _ b => !b
  | _ => false

/-- A stalled state whose page request has been sent. -/
def DmaSt.asked : DmaSt → Bool
  | .faulted _ b => b
  | _ => false

def DmaSt.ask : DmaSt → DmaSt
  | .faulted t _ => .faulted t true
  | s => s

/-- A stalled run or write of a function that waits for a place in its allocation takes one (R355). -/
def Main.askWaiting (m : Main) (fn : Fn) : Main :=
  match m.fnOf fn with
  | some f =>
    if f.pri && !f.priStopped && decide (f.pageReqs < 512) then
      let m1 := m.modFn fn (fun f => { f with pageReqs := f.pageReqs + 1 })
      match m.host.dmas.findIdx? (fun d => d.fn == fn && d.st.unasked), m.host.puts.find? (fun p => p.fn == fn && p.st.unasked) with
      | some i, _ => m1.modDma i (fun d => { d with st := d.st.ask })
      | none, some p => m1.modPut p.num (fun p => { p with st := p.st.ask })
      | none, none => m
    else m
  | none => m

/-- A place in the allocation of page requests given back. -/
def Main.pageEnd (m : Main) (fn : Fn) : Main := (m.modFn fn (fun f => { f with pageReqs := f.pageReqs - 1 })).askWaiting fn

/-- Waiting accesses given up: what their page requests hold is free again, and what waited behind them goes on. -/
def Main.cutPuts (m : Main) (gone : HostPut → Bool) : Main :=
  let m1 : Main := { m with host := { m.host with puts := m.host.puts.filter (fun p => !gone p) } }
  ((m.host.puts.filter (fun p => gone p && p.st.asked)).foldl (fun m p => m.pageEnd p.fn) m1).putsGo

/-! ### MCTP messages (R407, R408, R433) -/

/-- A message cut into packets of the baseline transmission unit, 64 bytes: `eid` and `from_` are the endpoints, `flags` the Tag Owner bit
and the tag (DSP0236; assumption log 13). -/
def mctpPackets (eid from_ flags : Nat) (msg : List Byte) : List (List Byte) :=
  let n := max 1 (ceilDiv msg.length 64)
  (List.range n).map (fun k =>
    [0x01] ++ toBytes 1 eid ++ toBytes 1 from_ ++ toBytes 1 (b2n (k == 0) * 128 + b2n (k + 1 == n) * 64 + k % 4 * 16 + flags) ++
      (msg.drop (64 * k)).take 64)

/-- A message sent to an endpoint with a tag, as its owner or in answer to it. -/
def Main.mctpSend (m : Main) (eid tag : Nat) (own : Bool) (msg : List Byte) : Main :=
  { m with bmcOut := m.bmcOut ++ mctpPackets eid m.bmcEid (b2n own * 8 + tag % 8) msg }

/-- An event sent to the BMC as a PLDM PlatformEventMessage, whose data is the record (R433). Its tag, instance and event class are open
(DSP0240, DSP0248; assumption log 13). -/
def Main.bmcEvent (m : Main) (record : List Byte) : Main :=
  let (v, m1) := m.draw
  m1.mctpSend Config.bmcEid v true ([0x01] ++ toBytes 1 (0x80 + v / 8 % 32) ++ [0x02, 0x0A, 0x01] ++ toBytes 1 m.bmcTid ++
    toBytes 1 (0xF0 + v / 256 % 15) ++ record)

/-- An event to every queue of a function whose class bit is set (R433). -/
def Main.postFn (m : Main) (fn : Fn) (e : Event) : Main :=
  match m.fnOf fn with
  | none => m
  | some r =>
    (List.range r.eqs.length).foldl (fun m i =>
      if (nth r.eqs i EvQ.reset).cls.getLsbD e.cls then m.eqPost fn i e else m) m

/-- An event of classes 2 to 7: to the queues of both PFs, and to the BMC as R433 has it. -/
def Main.post (m : Main) (type cls subject : Nat) (status : Status) (detail : Nat) : Main :=
  let e : Event := { type := type, cls := cls, subject := subject, status := status, detail := detail, time := m.time }
  let m1 := (m.postFn ⟨0, 0⟩ e).postFn ⟨1, 0⟩ e
  if m1.bmcReceiver && cls != 4 then m1.bmcEvent (e.bytes ⟨0, 0⟩ 0 6) else m1

/-- A CONTEXT event, to the EVQ of its context (R433). -/
def Main.postCtx (m : Main) (ctx type : Nat) (status : Status) (detail : Nat) : Main :=
  match m.objs.ctxs.find? (fun c => c.num == ctx) with
  | none => m
  | some c =>
    m.eqPost c.fn c.evq { type := type, cls := 0, subject := ctx, status := status, detail := detail, time := m.time }

/-- A FUNCTION event (R433). -/
def Main.postFunction (m : Main) (fn : Fn) (type subject : Nat) (detail : Nat) : Main :=
  m.postFn fn { type := type, cls := 1, subject := subject, status := .ok, detail := detail, time := m.time }

/-- SUBJECT of an event about a function (R435). -/
def fnSubject (fn : Fn) : Nat := fn.port * 256 + fn.idx

/-- A bit set in MB_ERR: STATE becomes ERROR and the event is posted (R402). -/
def Main.mbError (m : Main) (fn : Fn) (b : Nat) : Main :=
  let m1 := m.modBox (.fn fn) (fun x => { x with err := x.err ||| 2 ^ b, state := .error })
  match m1.boxOf (.fn fn) with
  | some x => m1.postFunction fn 0x10 (fnSubject fn) x.err
  | none => m1

/-- Q in [63:56] and PIDX in [31:0] (R435). -/
def qDetail (q pidx : Nat) : Nat := q % 256 * 2 ^ 56 + pidx % 2 ^ 32

/-- An entry added to the module's log (R65, R189, R217, R312). -/
def Main.log (m : Main) (what : LogWhat) : Main :=
  { m with rcv := { m.rcv with log := m.rcv.log ++ [{ time := m.time, what := what }] } }

/-- A memory error event (R435). -/
def Main.postMemory (m : Main) (channel cause lpa : Nat) : Main :=
  m.post 0x20 2 channel (if cause ≤ 2 then .poisoned else .ok) (cause * 2 ^ 56 + lpa)

/-- A fabric event (R435). -/
def Main.postFabric (m : Main) (subject cause neighbour : Nat) : Main :=
  m.post 0x30 3 subject .ok (cause * 2 ^ 56 + neighbour * 2 ^ 16)

end Sys2Proof.Machine
end

