-- ==== Sys2Proof/Machine/Errors.lean ====
section
/-! DEFINITION. Processors out of use (R474, R480, R487), error records (R477-R479), and the errors of core store and register
files (R65). -/

namespace Sys2Proof.Machine

/-! ### Processors and the module's sagger (R474, R480, R487) -/

/-- Whether the module's sagger is being handled (R474). -/
def Main.quiesced (m : Main) : Bool := m.rcv.handlings.any (fun h => h.sagger == 0 && h.step != .waiting)

/-- Whether an internal processor is out of use: reset, or switching its image. The Elbor cores switch together, the queue and the
fabric processors one at a time (R480, R487). -/
def Main.procOut (m : Main) (p : Nat) : Bool :=
  m.rcv.resets.any (fun r => r.eng == ⟨4, p⟩) ||
    (match m.sec.switching with
      | some (0, _) => decide (p < 4)
      | some (1, _) => p == 4
      | some (3, k) => p == 6 + k
      | some (4, k) => p == 10 + k
      | _ => false)

/-- Whether a fabric processor is out of use: collective sequencing and counter allocation wait (R480). -/
def Main.fabricOut (m : Main) : Bool := m.procOut 10 || m.procOut 11

/-! ### Error records (R477-R479) -/

/-- The ERROR event of a record (R478). -/
def Main.postErr (m : Main) (r : ErrRec) : Main :=
  m.post 0x60 6 r.id r.status (r.cause * 2 ^ 56 + r.sev.code * 2 ^ 48 + r.st.code * 2 ^ 40 + r.sagger % 2 ^ 20)

/-- Whether a record is open. -/
def ErrRec.isOpen (r : ErrRec) : Bool := r.st == .queued || r.st == .handling

/-- A record written in a state: the closed record that is oldest makes room for it. -/
def Main.putErr (m : Main) (e : ErrNew) (st : ErrSt) : ErrRec × Main :=
  let r : ErrRec :=
    { id := m.rcv.nextErr, sev := e.sev, st := st, cause := e.cause, poison := e.poison, status := e.status,
      abort := e.abort, sagger := e.sagger, time := e.raised.getD m.time, tend := if st = .queued ∨ st = .handling then 0 else m.time,
      source := e.source, parent := e.parent, detail := e.detail }
  let old := if m.rcv.errs.length < 256 then m.rcv.errs
    else match m.rcv.errs.findIdx? (fun x => !x.isOpen) with
      | some i => m.rcv.errs.eraseIdx i
      | none => m.rcv.errs.drop 1
  (r, { m with rcv := { m.rcv with errs := old ++ [r], nextErr := (m.rcv.nextErr + 1) % 2 ^ 32 } })

/-- A record opened in a state, its event posted. -/
def Main.openErr (m : Main) (e : ErrNew) (st : ErrSt) : Nat × Main :=
  let (r, m1) := m.putErr e st
  (r.id, m1.postErr r)

def Main.modErr (m : Main) (id : Nat) (f : ErrRec → ErrRec) : Main :=
  { m with rcv := { m.rcv with errs := modWhere m.rcv.errs (fun r => r.id == id) f } }

/-- A record closed: its outcome, its end time, and its event unless the entry to the banked state leaves it out (R485). -/
def Main.endErr (m : Main) (tell : Bool) (id : Nat) (st : ErrSt) (s : Status) : Main :=
  match m.rcv.errs.find? (fun r => r.id == id) with
  | none => m
  | some r =>
    let r1 := { r with st := st, status := s, tend := m.time }
    let m1 := m.modErr id (fun _ => r1)
    if tell then m1.postErr r1 else m1

/-- A record closed, with its event (R478). -/
def Main.closeErr (m : Main) (id : Nat) (st : ErrSt) (s : Status) : Main := m.endErr true id st s

/-- The open records but one join it (R482). -/
def Main.joinOthers (m : Main) (tell : Bool) (parent : Nat) : Main :=
  (m.rcv.errs.filter (fun r => r.isOpen && r.id != parent)).foldl (fun m r =>
    (m.modErr r.id (fun r => { r with parent := some parent })).endErr tell r.id .joined r.status) m

/-- Whether errors wait: Elbor core 3 is reset (R476), or a firmware activation pauses Elbor (R487). -/
def Main.errorsWait (m : Main) : Bool := m.rcv.stallMark.isSome || m.elbor.paused.isSome

/-- An error that waits. -/
def Main.putOff (m : Main) (how : ErrHow) (e : ErrNew) : Main :=
  { m with rcv := { m.rcv with raised := m.rcv.raised ++ [{ how := how, err := { e with raised := some m.time } }] } }

/-- Whether 256 records are open (R478). -/
def Main.errsFull (m : Main) : Bool := decide (256 ≤ m.rcv.errs.length) && m.rcv.errs.all (·.isOpen)

/-- A CORRECTED error with POISON met where no escalation can be taken: its record is opened and closed at once; with 256
open records it is counted, and the tick that follows escalates (R478). -/
def Main.noteAside (m : Main) (e : ErrNew) : Main :=
  if m.errorsWait then m.putOff .note e
  else if m.errsFull then
    { m with rcv := { m.rcv with overflow := m.rcv.overflow + 1, overdue := true } }
  else
    let (id, m1) := m.openErr e .handling
    m1.closeErr id .done e.status

/-- The record of an error that a core's error correction cannot mend (R65, R479). -/
def Main.noteCore (m : Main) (core detail : Nat) : Main :=
  m.noteAside { sev := .corrected, cause := 0x04, poison := true, status := .poisoned, source := ⟨0, core⟩, detail := detail }

end Sys2Proof.Machine
end

