-- ==== Sys2Proof/Machine/Coherence.lean ====
section
/-! DEFINITION. The homes: directory, atomic buffers, copies, and the requests of R209 (R203-R213). -/

namespace Sys2Proof.Machine

/-! ### Agents (R205) -/

/-- The L1 agent of core 9 × k + i. -/
def l1Agent (core : Nat) : Nat := core / 9 * 10 + core % 9
/-- The L2 agent of a cluster. -/
def l2Agent (k : Nat) : Nat := 10 * k + 9
/-- The cluster of an agent. -/
def agentCluster (a : Nat) : Nat := a / 10
/-- Whether an agent is an L2. -/
def isL2 (a : Nat) : Bool := a % 10 == 9

namespace Coh

/-- The copy an agent holds of a line. -/
def copyOf (c : Coh) (agent line : Nat) : Option Copy := c.copies.find? (fun x => x.agent == agent && x.line == line)

/-- The directory entry of a line (R206). -/
def entryOf (c : Coh) (line : Nat) : Option DirEntry := c.dir.find? (fun e => e.line == line)

/-- The atomic buffer's line (R209). -/
def bufOf (c : Coh) (line : Nat) : Option BufLine := c.bufs.find? (fun b => b.line == line)

def dropCopy (c : Coh) (agent line : Nat) : Coh :=
  { c with copies := c.copies.filter (fun x => !(x.agent == agent && x.line == line)) }

def modCopy (c : Coh) (agent line : Nat) (f : Copy → Copy) : Coh :=
  { c with copies := modWhere c.copies (fun x => x.agent == agent && x.line == line) f }

def dropEntry (c : Coh) (line : Nat) : Coh := { c with dir := c.dir.filter (fun e => e.line != line) }

def modEntry (c : Coh) (line : Nat) (f : DirEntry → DirEntry) : Coh :=
  { c with dir := modWhere c.dir (fun e => e.line == line) f }

def dropBuf (c : Coh) (line : Nat) : Coh := { c with bufs := c.bufs.filter (fun b => b.line != line) }

/-- Marks a buffered line as used last (R209). -/
def touchBuf (c : Coh) (line : Nat) : Coh :=
  match c.bufOf line with
  | some b => { c with bufs := c.bufs.filter (fun x => x.line != line) ++ [b] }
  | none => c

/-- No queued invalidation of a line at an agent. -/
def unqueue (c : Coh) (agent line : Nat) : Coh :=
  { c with invq := c.invq.filter (fun q => !(q.1 == agent && q.2 == line)) }

end Coh

/-- A copy used: it is the one used last of its set (R173). -/
def Coh.touchCopy (c : Coh) (agent line : Nat) : Coh :=
  match c.copyOf agent line with
  | some x => { c with copies := (c.dropCopy agent line).copies ++ [x] }
  | none => c

/-- TAG (R206). -/
def DirEntry.tag (e : DirEntry) : BitVec 28 := BitVec.ofNat 28 (bits e.line 32 5)

/-- FMT: 1 in cluster-vector form (R206). -/
def DirEntry.fmt (e : DirEntry) : Bool := match e.sharers with | .agents _ => false | .clusters _ => true

/-- STATE: the numbers of the states are open (R206; assumption log 79). -/
def DirState.code : DirState → Nat
  | .shared => 1 | .ownedClean => 2 | .ownedDirty => 3 | .home => 4

/-- SHARERS: four agent numbers of 9 bits, 0x1FF where none stands, or 32 clusters (R206; assumption log 79). -/
def Sharers.field : Sharers → Nat
  | .agents l => ((List.range 4).map (fun i => nth l i 0x1FF * 2 ^ (9 * i))).sum
  | .clusters v => v.toNat

/-- The check bits of an entry. The code is open: it is only said to correct one bit and to detect two (R206). -/
def DirEntry.check (e : DirEntry) : BitVec 8 :=
  Config.dirCheck e.tag.toNat e.st.code (b2n e.fmt) e.sharers.field e.owner (b2n e.busy)

/-- The two sets a line's entry may occupy (R206). -/
def dirSets (line : Nat) : Nat × Nat :=
  let s0 := bits line 16 5
  (s0, (s0 ^^^ bits line 28 17) ^^^ (bits line 32 29 * 256))

/-- The entries of a set of a home's slice, the one allocated longest ago first. -/
def Coh.setOf (c : Coh) (home set : Nat) : List DirEntry := c.dir.filter (fun e => homeOf e.line == home && e.set == set)

/-- Whether a set of a home's slice holds 32 entries. -/
def Coh.setFull (c : Coh) (home set : Nat) : Bool := decide (32 ≤ (c.setOf home set).length)

/-- How many entries of a set are BUSY (R207). -/
def Coh.busyIn (c : Coh) (home set : Nat) : Nat := ((c.setOf home set).filter (·.busy)).length

/-- Whether an agent may hold the line by the entry (R206). -/
def Sharers.has (s : Sharers) (agent : Nat) : Bool :=
  match s with
  | .agents l => l.contains agent
  | .clusters v => v.getLsbD (agentCluster agent)

/-- No sharer, in the form that the entry has: it returns to pointer form only when it is freed (R206). -/
def Sharers.clear : Sharers → Sharers
  | .agents _ => .agents []
  | .clusters _ => .clusters 0

/-- A sharer added; a fifth turns the entry into cluster-vector form (R206). -/
def Sharers.add (s : Sharers) (agent : Nat) : Sharers :=
  match s with
  | .agents l =>
    if l.contains agent then .agents l
    else if l.length < 4 then .agents (l ++ [agent])
    else .clusters (((l ++ [agent]).map (fun a => (1#32) <<< agentCluster a)).foldl (· ||| ·) 0)
  | .clusters v => .clusters (v ||| ((1#32) <<< agentCluster agent))

/-- A sharer removed. A cluster's bit stays while another agent of the cluster has a copy. -/
def Coh.removeSharer (c : Coh) (s : Sharers) (agent line : Nat) : Sharers :=
  match s with
  | .agents l => .agents (l.filter (· != agent))
  | .clusters v =>
    if c.copies.any (fun x => x.line == line && x.agent != agent && agentCluster x.agent == agentCluster agent)
    then .clusters v
    else .clusters (v &&& ~~~ ((1#32) <<< agentCluster agent))

def Sharers.isEmpty : Sharers → Bool
  | .agents l => l.isEmpty
  | .clusters v => v == 0

/-! ### Memory updates at a home -/

/-- The current value of a line when no cache owns it: the atomic buffer's or memory's. -/
def Main.homeLine (m : Main) (line : Nat) : List Byte × Bool :=
  match m.coh.bufOf line with
  | some b => (b.data, b.poison)
  | none => (m.mem.line line, m.mem.bad line)

/-- A line written to memory, and to the replacement's channel as well during a retirement, which serves the same
logical number afterwards (R199). -/
def Main.memWrite (m : Main) (line : Nat) (data : List Byte) (poison : Bool) : Main :=
  ({ m with mem := m.mem.setLine line data poison } : Main).bump 2 1 (line * 128 / 2 ^ 32) 128

/-- A request served at a home: counted, with the bytes it reads from a channel (R524). -/
def Main.countServe (m : Main) (line : Nat) : Main :=
  let m1 := m.bump 1 4 (homeOf line) 1
  match m.coh.bufOf line with
  | some _ => m1
  | none => m1.bump 2 0 (line * 128 / 2 ^ 32) 128

/-- The buffered line written to memory and released; its record is discarded (R209, R239). A mark that memory has stays unless a write
has covered the line (R191). -/
def Main.releaseBuf (m : Main) (line : Nat) : Main :=
  match m.coh.bufOf line with
  | some b => { (m.memWrite line b.data (b.poison || (m.mem.bad line && !b.whole))) with coh := m.coh.dropBuf line }
  | none => m

/-- The mark of a copy written back: cleared when the agent wrote every byte of the line while it held it (R191). -/
def Copy.backMark (c : Copy) : Bool := c.poison && !((List.range 128).all (fun i => c.written.contains i))

/-- An owner in M writes its line back to memory (R209); a mark that memory has stays unless the agent wrote every byte. -/
def Main.writeBackCopy (m : Main) (agent line : Nat) : Main :=
  match m.coh.copyOf agent line with
  | some c => if c.st = .m then m.memWrite line c.data ({ c with poison := c.poison || m.mem.bad line } : Copy).backMark else m
  | none => m

/-- Invalidations to every sharer but one: each acknowledges as the entry enters its queue (R210). -/
def Main.invalidateSharers (m : Main) (line : Nat) (except : Option Nat) : Main :=
  match m.coh.entryOf line with
  | some e =>
    let targets := ((m.coh.copies.filter (fun x => x.line == line && x.st == .s && some x.agent != except
      && e.sharers.has x.agent)).map (·.agent)).filter (fun a => !m.coh.invq.contains (a, line))
    { m with coh := { m.coh with invq := m.coh.invq ++ targets.map (fun a => (a, line)) } }
  | none => m

/-- A dead agent's modified line is lost: poisoned in memory, recorded and posted (R215). -/
def Main.loseLine (m : Main) (line : Nat) : Main :=
  let m1 : Main := { m with mem := m.mem.poisonLine line }
  (m1.postMemory (line * 128 / 2 ^ 32) 2 (line * 128)).noteAside
    { sev := .corrected, cause := 0x02, poison := true, status := .poisoned, source := ⟨5, line * 128 / 2 ^ 32⟩,
      detail := line * 128 }

/-- An owner that writes back when in M and gives its copy up (R210); what a dead one had modified is lost (R215). -/
def Main.takeFromOwner (m : Main) (e : DirEntry) : Main :=
  if m.coh.dead.contains e.owner then (if e.st = .ownedDirty then m.loseLine e.line else m)
  else
    let m1 := m.writeBackCopy e.owner e.line
    { m1 with coh := m1.coh.dropCopy e.owner e.line }

/-- Every copy of a line taken from the agents; a buffered line goes to memory. -/
def Main.takeCopies (m : Main) (line : Nat) : Main :=
  match m.coh.entryOf line with
  | none => m
  | some e =>
    match e.st with
    | .shared => m.invalidateSharers line none
    | .home => m.releaseBuf line
    | _ => m.takeFromOwner e

/-- Every copy of a line recalled and its entry freed (R207). -/
def Main.recallLine (m : Main) (line : Nat) : Main :=
  let m1 := m.takeCopies line
  { m1 with coh := m1.coh.dropEntry line }

/-- A new entry for a line, in the set that has room, s0 when both have; when neither has, the entry allocated longest ago that is not BUSY,
in the set with fewer BUSY entries, is recalled first (a request waits while all are BUSY, `dirFull`). Which set that is where both have as
many is open (R206, R207; assumption log 79). -/
def Main.allocEntry (m : Main) (line : Nat) (st : DirState) (sharers : Sharers) (owner : Nat) : Main :=
  let h := homeOf line
  let (s0, s1) := dirSets line
  let add (m : Main) (s : Nat) : Main :=
    { m with coh := { m.coh with dir := m.coh.dir ++ [{ line := line, set := s, st := st, sharers := sharers,
                                                        owner := owner, busy := false }] } }
  if !m.coh.setFull h s0 then add m s0
  else if !m.coh.setFull h s1 then add m s1
  else
    let (r, m1) := m.draw
    let b0 := m.coh.busyIn h s0
    let b1 := m.coh.busyIn h s1
    let s := if b0 < b1 ∨ (b0 = b1 ∧ r % 2 = 0) then s0 else s1
    let set := m1.coh.setOf h s
    match (set.find? (fun e => !e.busy)).orElse (fun _ => set.head?) with
    | some v =>
      let m2 := m1.recallLine v.line
      add (m2.bump 1 5 h 1) s
    | none => add m1 s

/-- Whether requests to a line are held while its channel's map is about to swap (R199). -/
def Main.channelHeld (m : Main) (line : Nat) : Bool :=
  match m.mem.channels[line * 128 / 2 ^ 32]? with
  | some c => c.copied
  | none => false

/-- Whether a set of a home's slice holds 32 entries that are all BUSY. -/
def Coh.setBusy (c : Coh) (home set : Nat) : Bool := c.setFull home set && (c.setOf home set).all (·.busy)

/-- Whether no entry can be had for a line that has none: every entry of both sets is BUSY (R206, R207). -/
def Coh.dirFull (c : Coh) (line : Nat) : Bool :=
  c.setBusy (homeOf line) (dirSets line).1 && c.setBusy (homeOf line) (dirSets line).2

/-- Whether a request to a line waits: for the reclaim of a dead owner (R215, R216), for a directory entry (R207), or for the channel
map (R199). -/
def Main.lineBlocked (m : Main) (line : Nat) : Bool :=
  m.channelHeld line ||
  match m.coh.entryOf line with
  | some e => (e.st == .ownedClean || e.st == .ownedDirty) && m.coh.dead.contains e.owner
  | none => m.coh.dirFull line

/-- Whether a request waits at its home: the line is held back, or an earlier request for it waits, other than a place that its own
sender keeps (R208). -/
def Main.lineHeldFor (m : Main) (who : Option TurnOf) (line : Nat) : Bool :=
  m.lineBlocked line || (match m.coh.waiting.find? (fun r => r.line == line) with
    | some r => who.isNone || r.turnOf != who
    | none => false)

/-- Whether a request of no place waits at its home. -/
def Main.mustWait (m : Main) (line : Nat) : Bool := m.lineHeldFor none line

/-- A request put last among those that wait; its line's entry is BUSY (R206, R208). -/
def Main.waitHome (m : Main) (r : HomeReq) : Main :=
  { m with coh := { m.coh.modEntry r.line (fun e => { e with busy := true }) with waiting := m.coh.waiting ++ [r] } }

/-- A line's entry is BUSY while a request for it waits. -/
def Main.settleBusy (m : Main) (line : Nat) : Main :=
  { m with coh := m.coh.modEntry line (fun e => { e with busy := m.coh.waiting.any (fun r => r.line == line) }) }

/-- The places that a sender keeps on some lines given up. -/
def Main.leaveTurns (m : Main) (who : TurnOf) (hit : Nat → Bool) : Main :=
  let mine (r : HomeReq) : Bool := r.turnOf == some who && hit r.line
  ((m.coh.waiting.filter mine).map (·.line)).foldl Main.settleBusy
    { m with coh := { m.coh with waiting := m.coh.waiting.filter (fun r => !mine r) } }

/-- A sender keeps its place on some lines, and on no others: all of them are asked for together (R208; DESIGN CHOICE, assumption log
98). -/
def Main.takeTurns (m : Main) (who : TurnOf) (lines : List Nat) : Main :=
  lines.foldl (fun m l => if m.coh.waiting.any (fun r => r.turnOf == some who && r.line == l) then m else m.waitHome (.turn who l))
    (m.leaveTurns who (fun l => !lines.contains l))

/-- Whether the mesh port of a core's L1, or of its cluster's L2, is closed because the agent has died (R215). -/
def Main.portClosed (m : Main) (core : Nat) : Bool :=
  m.coh.dead.contains (l1Agent core) || m.coh.dead.contains (l2Agent (core / 9))

/-- Whether nothing holds requests to lines back. -/
def Main.linesFree (m : Main) : Bool :=
  m.coh.dead.isEmpty && m.coh.waiting.isEmpty && m.mem.channels.all (fun c => !c.copied)

/-- The lines of a range of span addresses that lie on this pier. -/
def Main.spanLines (m : Main) (span sa n : Nat) : List Nat :=
  (rangeFrom (sa / 128) ((sa + n + 127) / 128 - sa / 128)).filterMap (fun l => (m.mem.translate span (l * 128)).map (· / 128))

/-- Whether a line of a range of span addresses waits at its home, with a place kept or without (R199, R208, R215). -/
def Main.spanHeld (m : Main) (who : Option TurnOf) (span sa n : Nat) : Bool :=
  !m.linesFree && (m.spanLines span sa n).any (m.lineHeldFor who)

/-- Whether a line of a range of span addresses waits at its home (R199, R208, R215). -/
def Main.spanBlocked (m : Main) (span sa n : Nat) : Bool := m.spanHeld none span sa n

/-! ### Caches -/

/-- The L2 ways a fill for a context may take (R173). -/
def L2Part.ways (p : L2Part) (ctx : Option Nat) : List Nat :=
  if p.ctl.getLsbD 0 then
    match p.ctx.find? (fun w => w.getLsbD 63 && some (w.toNat / 2 ^ 32 % 2 ^ 16) == ctx) with
    | some w => bitsSet 12 (w.toNat % 2 ^ 12)
    | none => bitsSet 12 (p.shared.toNat % 2 ^ 12)
  else List.range 12

/-- The ways of a cache that a fill may take, and the set it falls in. -/
def Main.cacheSet (m : Main) (agent line : Nat) (ctx : Option Nat) : Nat × List Nat :=
  if isL2 agent then (line % 8192, (nth m.l2 (agentCluster agent) L2Part.reset).ways ctx)
  else (line % 128, List.range 8)

/-- An eviction: a write-back of a line in M, a notice otherwise (R209, R211). -/
def Main.evict (m : Main) (agent line : Nat) : Main :=
  match m.coh.copyOf agent line with
  | none => m
  | some c =>
    let m1 := m.writeBackCopy agent line
    let m2 : Main := { m1 with coh := m1.coh.dropCopy agent line }
    match m2.coh.entryOf line with
    | none => m2
    | some e =>
      if c.st = .s then
        if e.sharers.has agent && e.st == .shared then
          let sh := m2.coh.removeSharer e.sharers agent line
          if sh.isEmpty then { m2 with coh := m2.coh.dropEntry line }
          else { m2 with coh := m2.coh.modEntry line (fun e => { e with sharers := sh }) }
        else m2
      else if e.owner = agent && e.st != .shared && e.st != .home then { m2 with coh := m2.coh.dropEntry line }
      else m2

/-- A copy put into a cache, in the lowest empty way that it may take (DESIGN CHOICE, assumption log 80), or after a victim has left when
the allowed ways are full. Which line leaves is open, but an L2 keeps
the line of its set that was used last (R66, R173; assumption log 80). -/
def Main.fill (m : Main) (c : Copy) (ctx : Option Nat) : Main :=
  let m0 : Main := { m with coh := (m.coh.dropCopy c.agent c.line) }
  let (set, ways) := m0.cacheSet c.agent c.line ctx
  let size := if isL2 c.agent then 8192 else 128
  let here := m0.coh.copies.filter (fun x => x.agent == c.agent && x.line % size == set)
  match ways.find? (fun w => !here.any (fun x => x.way == w)) with
  | some w => { m0 with coh := { m0.coh with copies := m0.coh.copies ++ [{ c with way := w }] } }
  | none =>
    let (r, m1) := m0.draw
    let last := if isL2 c.agent then (here.getLast?).map (·.way) else none
    let older := ways.filter (fun w => some w != last)
    let open_ := if older.isEmpty then ways else older
    let w := nth open_ (r % open_.length) 0
    match here.find? (fun x => x.way == w) with
    | some v =>
      let m2 := m1.evict v.agent v.line
      { m2 with coh := { m2.coh with copies := m2.coh.copies ++ [{ c with way := w }] } }
    | none => { m1 with coh := { m1.coh with copies := m1.coh.copies ++ [{ c with way := w }] } }

/-- A walk of every agent's tags over some lines: lines in M are written back, every other copy goes with its notice; what
a home's buffer holds of them goes to memory (R213). -/
def Main.walkLines (m : Main) (hit : Nat → Bool) : Main :=
  let m1 := (m.coh.copies.filter (fun c => hit c.line)).foldl (fun m c => m.evict c.agent c.line) m
  ((m1.coh.dir.filter (fun e => hit e.line)).map (·.line)).foldl Main.recallLine m1

/-! ### Requests (R209) -/

/-- What a home serves: a line's bytes, its poison mark and the release record that came with it. -/
structure Served where
  data : List Byte
  poison : Bool
  rr : Option RelRec
  deriving DecidableEq, Repr

/-- RD: the state granted and what is served. The requester holds no copy that the directory lists. -/
def Main.homeRD (m0 : Main) (agent line : Nat) : CopyState × Served × Main :=
  let m := m0.countServe line
  match m.coh.entryOf line with
  | none =>
    let d := m.homeLine line
    if isL2 agent then (.s, ⟨d.1, d.2, none⟩, m.allocEntry line .shared (.agents [agent]) 0)
    else (.e, ⟨d.1, d.2, none⟩, m.allocEntry line .ownedClean (.agents []) agent)
  | some e =>
    match e.st with
    | .shared =>
      let d := m.homeLine line
      (.s, ⟨d.1, d.2, none⟩,
        { m with coh := m.coh.modEntry line (fun e => { e with sharers := e.sharers.add agent }) })
    | .home =>
      let d := m.homeLine line
      let rr := (m.coh.bufOf line).bind (·.rr)
      let m1 := m.releaseBuf line
      (.s, ⟨d.1, d.2, rr⟩,
        { m1 with coh := m1.coh.modEntry line (fun e => { e with st := .shared, sharers := e.sharers.clear.add agent }) })
    | _ =>
      let m1 := m.writeBackCopy e.owner line
      let c1 := m1.coh.modCopy e.owner line (fun c => { c with st := .s, poison := c.backMark, written := [] })
      let c2 := c1.modEntry line (fun x => { x with st := .shared, sharers := (x.sharers.clear.add e.owner).add agent })
      let m2 : Main := { m1 with coh := c2 }
      let d := m2.homeLine line
      (.s, ⟨d.1, d.2, none⟩, m2)

/-- The copy that a sharer upgrades: its data does not come from memory (R209). An agent that has an invalidation of the line queued
holds a copy that is no longer listed (R210). -/
def Coh.upgrades (c : Coh) (agent line : Nat) : Option Copy :=
  match c.entryOf line with
  | some e =>
    if e.st = .shared ∧ e.sharers.has agent = true ∧ c.invq.contains (agent, line) = false then c.copyOf agent line else none
  | none => none

/-- RDX: ownership. Sharers but the requester are invalidated; another owner gives its copy up. -/
def Main.homeRDX (m0 : Main) (agent line : Nat) : Served × Main :=
  let m := if (m0.coh.upgrades agent line).isSome then m0.bump 1 4 (homeOf line) 1 else m0.countServe line
  match m.coh.entryOf line with
  | none =>
    let d := m.homeLine line
    (⟨d.1, d.2, none⟩, m.allocEntry line .ownedDirty (.agents []) agent)
  | some e =>
    let toOwner (x : DirEntry) : DirEntry := { x with st := .ownedDirty, sharers := x.sharers.clear, owner := agent }
    let own (m : Main) : Main := { m with coh := m.coh.modEntry line toOwner }
    match e.st with
    | .shared =>
      let s : Served := match m.coh.upgrades agent line with
        | some c => ⟨c.data, c.backMark, c.rr⟩
        | none => let d := m.homeLine line; ⟨d.1, d.2, none⟩
      (s, own (m.invalidateSharers line (some agent)))
    | .home =>
      let d := m.homeLine line
      let rr := (m.coh.bufOf line).bind (·.rr)
      (⟨d.1, d.2, rr⟩, own (m.releaseBuf line))
    | _ =>
      let m1 := if e.owner = agent then m else m.takeFromOwner e
      let d := m1.homeLine line
      (⟨d.1, d.2, none⟩, own m1)

/-- DN (R211). -/
def Main.homeDN (m : Main) (agent line : Nat) : Main :=
  let c1 := m.coh.modEntry line (fun e =>
    if e.st = .ownedClean ∧ e.owner = agent then { e with st := .ownedDirty } else e)
  { m with coh := c1.modCopy agent line (fun c => if c.st = .e then { c with st := .m } else c) }

/-- UR: an uncached read; a dirty owner writes back and keeps the line in E. A dead owner's entry is its reclaim's (R215). -/
def Main.homeUR (m0 : Main) (line : Nat) : Served × Main :=
  let m := m0.countServe line
  match m.coh.entryOf line with
  | some e =>
    if e.st = .ownedDirty ∧ m.coh.dead.contains e.owner = false then
      let m1 := m.writeBackCopy e.owner line
      let c1 := m1.coh.modCopy e.owner line (fun c => { c with st := .e, poison := c.backMark, written := [] })
      let m2 : Main := { m1 with coh := c1.modEntry line (fun x => { x with st := .ownedClean }) }
      let d := m2.homeLine line
      (⟨d.1, d.2, none⟩, m2)
    else
      let d := m.homeLine line
      (⟨d.1, d.2, (m.coh.bufOf line).bind (·.rr)⟩, { m with coh := m.coh.touchBuf line })
  | none =>
    let d := m.homeLine line
    (⟨d.1, d.2, none⟩, m)

/-- Copies of a line removed before a write at its home: sharers are invalidated, an owner gives its copy up, a
buffered line goes to memory (R209). -/
def Main.clearLine (m : Main) (line : Nat) : Main := m.recallLine line

/-- Copies of a line removed and what they hold discarded (R209). -/
def Main.discardLine (m : Main) (line : Nat) : Main :=
  match m.coh.entryOf line with
  | none => m
  | some e =>
    let m1 := match e.st with
      | .shared => m.invalidateSharers line none
      | .home => { m with coh := m.coh.dropBuf line }
      | _ => { m with coh := m.coh.dropCopy e.owner line }
    { m1 with coh := m1.coh.dropEntry line }

/-- IWF: a whole line written to memory, its mark cleared unless the data carries one. -/
def Main.homeIWF (m : Main) (line : Nat) (data : List Byte) (poison : Bool) : Main :=
  (m.discardLine line).memWrite line data poison

/-- IWP: part of a line written; the mark is kept, and data that carries one marks the line. -/
def Main.homeIWP (m : Main) (line off : Nat) (data : List Byte) (poison : Bool) : Main :=
  let m1 := m.clearLine line
  m1.memWrite line (putAt (m1.mem.line line) off data) (m1.mem.bad line || poison)

/-- A write of an uncached agent to part of a line or all of it (R212). -/
def Main.homeWrite (m : Main) (line off : Nat) (data : List Byte) (poison : Bool) : Main :=
  let m1 := m.bump 1 4 (homeOf line) 1
  if off = 0 ∧ data.length = 128 then m1.homeIWF line data poison else m1.homeIWP line off data poison

/-- The line placed in its home's atomic buffer, every copy recalled, in the entry it has or a new one; the line used least recently
leaves a full buffer (R209). -/
def Main.placeHome (m : Main) (line : Nat) : Main :=
  match m.coh.bufOf line with
  | some _ => { m with coh := m.coh.touchBuf line }
  | none =>
    let m1 := m.takeCopies line
    let mine := m1.coh.bufs.filter (fun b => homeOf b.line == homeOf line)
    let m2 := if 64 ≤ mine.length then
        match mine.head? with
        | some v => let x := m1.releaseBuf v.line; { x with coh := x.coh.dropEntry v.line }
        | none => m1
      else m1
    let m3 : Main := match m2.coh.entryOf line with
      | some _ => { m2 with coh := m2.coh.modEntry line (fun e => { e with st := .home, sharers := e.sharers.clear, owner := 0 }) }
      | none => m2.allocEntry line .home (.agents []) 0
    { m3 with coh := { m3.coh with bufs := m3.coh.bufs ++ [{ line := line, data := m3.mem.line line,
                                                              poison := m3.mem.bad line, whole := false, rr := none }] } }

/-- Bytes written to the buffered line, with the mark and the record the write leaves (R191, R239). -/
def Main.bufWrite (m : Main) (line off : Nat) (data : List Byte) (poison : Bool) (rr : Option RelRec) : Main :=
  let upd (b : BufLine) : BufLine :=
    let whole := off == 0 && data.length == 128
    { b with data := putAt b.data off data, rr := rr, whole := b.whole || whole, poison := poison || (b.poison && !whole) }
  { m with coh := { m.coh with bufs := modWhere m.coh.bufs (fun b => b.line == line) upd } }

/-! ### Invalidation queues (R210, R225) -/

/-- An agent applies the first queued entry it has for a line: a shared copy goes, with a notice when the directory
lists it (R210, R211). -/
def Main.applyInv (m : Main) (agent line : Nat) : Main :=
  let q := m.coh.invq.erase (agent, line)
  let m1 : Main := { m with coh := { m.coh with invq := q } }
  match m1.coh.copyOf agent line with
  | some c => if c.st = .s then m1.evict agent line else m1
  | none => m1

/-- Every entry of an agent's queue applied, in order. -/
def Main.drain (m : Main) (agent : Nat) : Main :=
  (m.coh.invq.filter (fun q => q.1 == agent)).foldl (fun m q => m.applyInv q.1 q.2) m

/-- How many entries an agent's queue holds. -/
def Main.queued (m : Main) (agent : Nat) : Nat := (m.coh.invq.filter (fun q => q.1 == agent)).length

/-- An agent applies what it has queued for a line, if anything. -/
def Main.applyFor (m : Main) (agent line : Nat) : Main :=
  if m.coh.invq.contains (agent, line) then m.applyInv agent line else m

/-- The L1 of a core and the L2 of its cluster give up a copy that the core's own access has replaced: no later load of
the core may return the older value (R219). -/
def Main.applyOwn (m : Main) (core line : Nat) : Main :=
  (m.applyFor (l1Agent core) line).applyFor (l2Agent (core / 9)) line

/-! ### The L1 (R66, R209-R211, R225) -/

/-- The state, bytes and mark of a copy as its agent serves it. -/
def Copy.served (c : Copy) : Served := ⟨c.data, c.backMark, c.rr⟩

/-- A new copy of what a home served. -/
def newCopy (agent line : Nat) (st : CopyState) (s : Served) : Copy :=
  { agent := agent, line := line, way := 0, st := st, data := s.data, poison := s.poison, written := [], rr := s.rr }

/-- The L1 made a sharer of a line that its cluster's L2 serves, while the home lists the line as shared and the L2 has no invalidation of
it queued. -/
def Main.fillFromL2 (m : Main) (core line : Nat) (ctx : Option Nat) (s : Served) : Main :=
  match m.coh.entryOf line with
  | some e =>
    if e.st = .shared ∧ e.sharers.has (l2Agent (core / 9)) ∧ m.coh.invq.contains (l2Agent (core / 9), line) = false then
      let m1 : Main := { m with coh := m.coh.modEntry line (fun e =>
        { e with sharers := e.sharers.add (l1Agent core) }) }
      m1.fill (newCopy (l1Agent core) line .s s) ctx
    else m
  | none => m

/-- A read of a line by a core: its L1's copy, its cluster's near copy, or the home; `home` says that the near copy may
not serve it. -/
def Main.l1Read (m : Main) (core line : Nat) (ctx : Option Nat) (home : Bool) : Served × Main :=
  match m.coh.copyOf (l1Agent core) line with
  | some c => (c.served, m)
  | none =>
    let m := m.bump 1 2 (core / 9) 1
    if home then
      let (st, s, m1) := (m.applyOwn core line).homeRD (l1Agent core) line
      (s, m1.fill (newCopy (l1Agent core) line st s) ctx)
    else
      match m.coh.copyOf (l2Agent (core / 9)) line with
      | some c =>
        let m1 := m.bump 1 3 (core / 9) 1
        (c.served, ({ m1 with coh := m1.coh.touchCopy (l2Agent (core / 9)) line } : Main).fillFromL2 core line ctx c.served)
      | none =>
        let (st, s, m1) := m.homeRD (l2Agent (core / 9)) line
        let m2 := m1.fill (newCopy (l2Agent (core / 9)) line st s) ctx
        (s, m2.fillFromL2 core line ctx s)

/-- The L1 of a core made owner of a line, in M. -/
def Main.l1Own (m : Main) (core line : Nat) (ctx : Option Nat) : Main :=
  match m.coh.copyOf (l1Agent core) line with
  | some c =>
    match c.st with
    | .m => m
    | .e => m.homeDN (l1Agent core) line
    | .s =>
      let (s, m1) := m.homeRDX (l1Agent core) line
      let m2 : Main := { m1 with coh := m1.coh.dropCopy (l1Agent core) line }
      (m2.applyOwn core line).fill (newCopy (l1Agent core) line .m s) ctx
  | none =>
    let (s, m1) := m.homeRDX (l1Agent core) line
    (m1.applyOwn core line).fill (newCopy (l1Agent core) line .m s) ctx

/-- A store of bytes into a line by a core, through its L1. -/
def Main.l1Write (m : Main) (core line off : Nat) (ctx : Option Nat) (data : List Byte) : Main :=
  let m1 := m.l1Own core line ctx
  { m1 with coh := m1.coh.modCopy (l1Agent core) line (fun c =>
      { c with data := putAt c.data off data, rr := none,
               written := (rangeFrom off data.length).foldl (fun l x => insertSorted x l) c.written }) }

/-- A core's write that carries a release record: performed in the home's atomic buffer (R239). -/
def Main.bufStore (m : Main) (core line off : Nat) (data : List Byte) (rr : Option RelRec) : Main :=
  ((m.placeHome line).bufWrite line off data false rr).applyOwn core line

end Sys2Proof.Machine
end

