-- ==== Sys2Proof/Machine/Transmit.lean ====
section
/-! DEFINITION. Sending on the fabric: headers, flits, credits, routes, drills, and the module's own messages (R250-R266, R517-R519). -/

namespace Sys2Proof.Machine

/-- The composition record of a span. -/
def Main.recOf (m : Main) (span : Nat) : Option SpanRec := m.comp.recs.find? (fun r => r.id == span)

/-- The grain set under which new requests of the span are tagged (R319). -/
def SpanRec.inForce (r : SpanRec) : GrainSet := if r.phase = .drain then r.shadow else r.current

/-! ### Headers (R252, R265, R283) -/

/-- The virtual channel of an OP (R256, R282); none for an OP that is reserved. -/
def opChannel (op : Nat) : Option Nat :=
  if op = 0x01 ∨ op = 0x03 ∨ (0x10 ≤ op ∧ op ≤ 0x1A) then some 0
  else if 0x20 ≤ op ∧ op ≤ 0x24 then some 1
  else if op = 0x50 ∨ op = 0x51 then some 2
  else if op = 0x30 ∨ op = 0x31 then some 3
  else if op = 0x40 then some 4
  else none

/-- Bytes filled up to whole slots of 16. -/
def padSlots (d : List Byte) : List Byte := d ++ List.replicate (roundUp d.length 16 - d.length) 0

/-- LEN of a message: data slots. -/
def msgLen (g : Msg) : Nat := ceilDiv g.data.length 16

/-- Whether a message breaks R253: an OP that is none, a LEN or a HOPS out of range, a reserved bit of a tag echo (R265). -/
def msgReserved (g : Msg) : Bool :=
  let tagEcho := match opChannel g.op with | some v => v != 2 | none => false
  (tagEcho && g.tag % 64 != 0) || ((opChannel g.op).isNone && !(decide (0x60 ≤ g.op) && decide (g.op ≤ 0x7F))) ||
    decide (256 < msgLen g) || g.hops == 0 || decide (4 < g.hops)

/-- The header of a message (R252). -/
def msgHeader (g : Msg) : BitVec 128 :=
  BitVec.ofNat 128 (g.op * 2 ^ 120 + g.dest * 2 ^ 107 + g.src * 2 ^ 94 + g.span * 2 ^ 74 + g.epoch * 2 ^ 58
    + g.hops * 2 ^ 55 + b2n g.ord * 2 ^ 54 + msgLen g * 2 ^ 45 + g.tag)

/-- The message that a header and its data spell. -/
def msgOf (h : BitVec 128) (data : List Byte) (poison : Bool) (rr : Option RelRec) : Msg :=
  let v := h.toNat
  { op := bits v 127 120, dest := bits v 119 107, src := bits v 106 94, span := bits v 93 74, epoch := bits v 73 58,
    hops := bits v 57 55, ord := bit v 54, tag := bits v 39 0, data := data, poison := poison, rr := rr }

/-- The tag echo (R265). -/
def tagEcho (bank entry gen issuer slot : Nat) : Nat :=
  bank * 2 ^ 35 + entry * 2 ^ 25 + gen * 2 ^ 21 + issuer * 2 ^ 12 + slot * 2 ^ 6

/-- The request slot (R283). -/
def requestSlot (addr n lc : Nat) : List Byte := toBytes 16 (addr % 2 ^ 52 + (n - 1) * 2 ^ 52 + lc * 2 ^ 66)

/-! ### Flits (R250, R251, R254, R257) -/

/-- A flit header without its CRC. -/
def flitHead (lseq ackseq : Nat) (ackv : Bool) (vc kind first v0 c0 v1 c1 : Nat) : Nat :=
  lseq % 4096 * 2 ^ 84 + ackseq % 4096 * 2 ^ 72 + b2n ackv * 2 ^ 71 + vc * 2 ^ 68 + kind * 2 ^ 64 + first * 2 ^ 60
    + v0 * 2 ^ 57 + c0 * 2 ^ 48 + v1 * 2 ^ 45 + c1 * 2 ^ 36

/-- The CRC of a flit: header bits [95:0], then the payload (R250). -/
def flitCrc (head : Nat) (payload : List Byte) : Word := crc32c (toBytes 12 head ++ payload)

/-- The two credit returns a flit carries: the channels lowest in number that are owed slots. -/
def creditReturns (owed : List Nat) : (Nat × Nat) × (Nat × Nat) :=
  let l := (List.range 8).filter (fun v => nth owed v 0 != 0)
  ((nth l 0 0, min (match l with | [] => 0 | v :: _ => nth owed v 0) 511),
   (nth l 1 0, min (match l with | _ :: v :: _ => nth owed v 0 | _ => 0) 511))

/-- The slots owed, less what a flit returns. -/
def afterReturns (owed : List Nat) : List Nat :=
  let r := creditReturns owed
  modNth (modNth owed r.1.1 (· - r.1.2)) r.2.1 (· - r.2.2)

namespace Lane

/-- The credits a lane holds for a channel and a hop count: shared slots and the reserved slots it may use (R257). -/
def credits (l : Lane) (vc hops : Nat) : Nat :=
  l.shared + ((rangeFrom 1 (min hops 3)).map (fun c => nth l.reserved (vc * 3 + c - 1) 0)).sum

/-- One credit spent: a shared slot first, then the reserved slot of the highest class allowed. -/
def spend (l : Lane) (vc hops : Nat) : Lane :=
  if l.shared ≠ 0 then { l with shared := l.shared - 1 }
  else
    match (List.range (min hops 3)).reverse.find? (fun c => nth l.reserved (vc * 3 + c) 0 != 0) with
    | some c => { l with reserved := modNth l.reserved (vc * 3 + c) (· - 1) }
    | none => l

/-- Credits returned on a channel: its reserved slots first, then shared ones (DESIGN CHOICE, assumption log 33). -/
def giveBack (l : Lane) (vc : Nat) : Nat → Lane
  | 0 => l
  | n + 1 =>
    let l1 := match (List.range 3).find? (fun c => nth l.reserved (vc * 3 + c) 1 == 0) with
      | some c => { l with reserved := modNth l.reserved (vc * 3 + c) (fun _ => 1) }
      | none => { l with shared := min (l.shared + 1) 488 }
    giveBack l1 vc n

/-- The flits that a drill holds after one more flit time: those due go before others (R518). -/
def passTime (l : Lane) : Lane :=
  let h := l.held.map (fun x => (x.1 - 1, x.2))
  { l with resend := l.resend ++ (h.filter (fun x => x.1 == 0)).flatMap (·.2), held := h.filter (fun x => x.1 != 0) }

/-- A DATA flit sent on a channel: numbered, kept for replay, with what the receiver of this lane has to report (R250, R254). -/
def sendData (l : Lane) (vc first : Nat) (x : OutFlit) (now : Nat) : Lane :=
  let r := creditReturns l.owed
  let head := flitHead l.txSeq (l.rxSeq + 4095) l.rxAny vc 0 first r.1.1 r.1.2 r.2.1 r.2.2
  let hdr := BitVec.ofNat 128 ((flitCrc head x.flit.payload).toNat * 2 ^ 96 + head)
  let l1 := (l.spend vc x.hops).passTime
  let fl : Flit := { x.flit with hdr := hdr }
  { l1 with
    txSeq := (l.txSeq + 1) % 4096
    owed := afterReturns l.owed
    waitAt := if l.replay.isEmpty then now else l.waitAt
    replay := l.replay ++ [{ x with flit := fl }]
    last := some fl }

end Lane

/-- The fields of a flit header (R250). -/
def fhLseq (h : BitVec 128) : Nat := bits h.toNat 95 84
def fhAck (h : BitVec 128) : Nat := bits h.toNat 83 72
def fhAckv (h : BitVec 128) : Bool := bit h.toNat 71
def fhVc (h : BitVec 128) : Nat := bits h.toNat 70 68
def fhKind (h : BitVec 128) : Nat := bits h.toNat 67 64
def fhFirst (h : BitVec 128) : Nat := bits h.toNat 63 60

/-- The flits a message takes. -/
def msgFlits (g : Msg) : Nat := ceilDiv (1 + msgLen g) 15

/-- FIRST and the payload of a message's k-th flit, a flit of its own filled up with zeros (R251). -/
def msgFlit (g : Msg) (k : Nat) : Nat × List Byte :=
  let d := ((toBytes 16 (msgHeader g).toNat ++ padSlots g.data).drop (240 * k)).take 240
  (if k = 0 then 0 else 0xF, d ++ List.replicate (240 - d.length) 0)

/-- The class of reserved slots that a message's k-th flit may use: its HOPS where it starts, 1 where no message starts (R257; DEDUCED,
assumption log 34). -/
def flitHops (g : Msg) (k : Nat) : Nat := if k = 0 then g.hops else 1

/-- A message's flits from the k-th on, before they are numbered. -/
def outFlits (vc : Nat) (g : Msg) (k : Nat) : List OutFlit :=
  (rangeFrom k (msgFlits g - k)).map (fun j =>
    { flit := { hdr := BitVec.ofNat 128 (flitHead 0 0 false vc 0 (msgFlit g j).1 0 0 0 0), payload := (msgFlit g j).2, fec := .clean,
                poison := g.poison, rr := if j = 0 then g.rr else none }
      span := g.span, hops := flitHops g j })

/-- The channels that take turns, each with the flits of its turn: RSP, LAND, COLL, REQ, BULK (R259). -/
def vcTurns : List (Nat × Nat) := [(1, 4), (3, 2), (2, 2), (0, 1), (4, 1)]

/-- A queue without its first message of a channel. -/
def takeMessage (vc : Nat) : List (Nat × Msg × Nat) → List (Nat × Msg × Nat)
  | [] => []
  | x :: r => if x.1 = vc then r else x :: takeMessage vc r

/-- One flit of a queue's first message of a channel taken. -/
def takeFlit (vc : Nat) : List (Nat × Msg × Nat) → List (Nat × Msg × Nat)
  | [] => []
  | (v, g, k) :: r => if v = vc then (if msgFlits g ≤ k + 1 then r else (v, g, k + 1) :: r) else (v, g, k) :: takeFlit vc r

namespace Lane

/-- The message of a channel that comes next, with its flits that have left. -/
def nextOf (l : Lane) (vc : Nat) : Option (Msg × Nat) := (l.txq.find? (fun x => x.1 == vc)).map (·.2)

/-- Whether a channel has a waiting message and credit for its next flit (R257). -/
def canSend (l : Lane) (vc : Nat) : Bool :=
  match l.nextOf vc with
  | some (g, k) => l.credits vc (flitHops g k) != 0
  | none => false

/-- The channel of the next DATA flit: ABORT, MGMT and CTRL first in that order, then the others in weighted turns (R259; the order
of the turns is a DESIGN CHOICE, assumption log 72). -/
def choose (l : Lane) : Option (Nat × Lane) :=
  let turn (t : Nat) : Nat × Nat := nth vcTurns t (1, 1)
  match [6, 7, 5].find? l.canSend with
  | some v => some (v, l)
  | none =>
    if l.left ≠ 0 ∧ l.canSend (turn l.turn).1 = true then some ((turn l.turn).1, { l with left := l.left - 1 })
    else
      match ((rangeFrom 1 5).map (fun k => (l.turn + k) % 5)).find? (fun t => l.canSend (turn t).1) with
      | some t => some ((turn t).1, { l with turn := t, left := (turn t).2 - 1 })
      | none => none

/-- The DATA flit whose turn it is: its channel, its message, its number in it, and the lane whose turn it was. -/
def pick (l : Lane) : Option (Nat × Msg × Nat × Lane) :=
  match l.choose with
  | some (vc, l1) => (l1.nextOf vc).map (fun x => (vc, x.1, x.2, l1))
  | none => none

/-- The flits that go before others, of a withdrawn lane or held until now: the first leaves if it has credit (R257, R271). -/
def sendFirst (l : Lane) (now : Nat) : Option Lane :=
  match l.resend with
  | x :: r =>
    if l.credits (fhVc x.flit.hdr) x.hops = 0 then none
    else some (({ l with resend := r } : Lane).sendData (fhVc x.flit.hdr) (fhFirst x.flit.hdr) x now)
  | [] => none

end Lane

/-! ### Routes (R262-R264, R266) -/

/-- Whether a lane carries flits. -/
def Main.laneActive (m : Main) (i : Nat) : Bool :=
  match m.fab.lanes[i]? with | some l => l.st == .active | none => false

/-- A message that enters the fabric on link grains of its span only (R266): requests, landings and collective
messages at their source. -/
def msgInjected (g : Msg) (module : Nat) : Bool :=
  g.src == module && (match opChannel g.op with | some v => v == 0 || v == 2 || v == 3 | none => false)

/-- The tenant of a span that this module holds. -/
def Main.tenantOf (m : Main) (span : Nat) : Option Word :=
  (m.comp.recs.find? (fun r => r.id == span)).map (·.tenant)

/-- Whether a lane carries a message of a span: not when a drill of another tenant is armed on it (R517). -/
def Main.drillAllows (m : Main) (span i : Nat) : Bool :=
  m.drills.all (fun d => d.st != .armed || !d.links.getLsbD i || m.tenantOf d.span == m.tenantOf span)

/-- Whether a lane has its place among the lanes of its group: it is ACTIVE, or is being spared (R264). -/
def Main.laneCounts (m : Main) (i : Nat) : Bool :=
  m.laneActive i || (match m.fab.engines[i / 8]? with
    | some e => e.sparing.any (fun s => s.lane == i)
    | none => false)

/-- The lanes of a group that a message may take; a link grain that is still another span's is none of the span's (R266, R331). -/
def Main.groupLanes (m : Main) (grp : Nat) (g : Msg) : List Nat :=
  match m.fab.groups.find? (fun x => x.num == grp) with
  | none => []
  | some x =>
    let links : Nat := match m.recOf g.span with | some r => r.inForce.links.toNat | none => 0
    (bitsSet 128 x.lanes.toNat).filter (fun i => m.laneCounts i && m.drillAllows g.span i &&
      (!msgInjected g m.fab.module || (links.testBit i && nth m.comp.linkOwner i .idle == .span g.span)))

/-- The candidate next hops of a message, each with its lanes (R263). -/
def Main.candidates (m : Main) (g : Msg) : List (Nat × List Nat) :=
  match m.fab.routes.find? (fun r => r.dest == g.dest) with
  | none => []
  | some r => ((r.hops.zipIdx).filter (fun h => decide (g.hops - 1 + h.1.2 ≤ 4))).filterMap (fun h =>
      let ls := m.groupLanes h.1.1 g
      if ls.isEmpty then none else some (h.2, ls))

/-- The free credits of a lane for a message. -/
def Main.freeCredits (m : Main) (vc : Nat) (g : Msg) (i : Nat) : Nat :=
  match m.fab.lanes[i]? with | some l => l.credits vc g.hops | none => 0

/-- The lane with the most free credits, the lowest on a tie. -/
def Main.bestLane (m : Main) (vc : Nat) (g : Msg) : List Nat → Option Nat
  | [] => none
  | i :: r =>
    match m.bestLane vc g r with
    | none => some i
    | some j => if m.freeCredits vc g j ≤ m.freeCredits vc g i then some i else some j

/-- The lane of an unordered message: the candidate whose best ACTIVE lane has the most free credits, the lowest k on a tie
(R263). -/
def Main.pickLane (m : Main) (vc : Nat) (g : Msg) : List (Nat × List Nat) → Option Nat
  | [] => none
  | c :: r =>
    match m.bestLane vc g (c.2.filter m.laneActive), m.pickLane vc g r with
    | some i, some j => if m.freeCredits vc g j ≤ m.freeCredits vc g i then some i else some j
    | some i, none => some i
    | none, x => x

/-- The hash of an ordered route (R264). -/
def routeHash (g : Msg) : Nat := (g.src * 8191 + g.dest * 131 + g.span) % 65521

/-- Whether a message that waits on a half may take a lane: in a quiesce of the module's sagger none of the other half (R474). -/
def Main.mayCross (m : Main) (half : Option Nat) (i : Nat) : Bool := !m.quiesced || half.all (· == i / 64)

/-- The lane a message takes next; none when it finds no candidate (R263, R264). -/
def Main.route (m : Main) (vc : Nat) (half : Option Nat) (g : Msg) : Option Nat :=
  let cs := m.candidates g
  match g.ord, cs with
  | true, (0, ls) :: _ => (ls[routeHash g % ls.length]?).filter (m.mayCross half)
  | _, _ => m.pickLane vc g (cs.map (fun c => (c.1, c.2.filter (m.mayCross half))))

def Main.modLane (m : Main) (i : Nat) (f : Lane → Lane) : Main :=
  { m with fab := { m.fab with lanes := modNth m.fab.lanes i f } }

/-! ### Drills (R517-R519) -/

/-- Whether a drill selects the n-th flit that passed its filter (R519). -/
def Drill.selects (d : Drill) (id n : Nat) : Bool :=
  match d.mode with
  | 0 => decide (((philox d.seed 0 0x30000000 (BitVec.ofNat 32 id) (BitVec.ofNat 32 n)).word 0).toNat < d.thresh)
  | 1 => decide (d.start ≤ n) && (n - d.start) % d.period == 0
  | _ => true

/-- A flit that passes a drill's filter: whether the drill selects it, and the drill afterwards. -/
def Drill.pass (d : Drill) (id : Nat) : Bool × Drill :=
  let n := d.passed + 1
  if d.selects id n then
    (true, { d with passed := n, injected := d.injected + 1, st := if d.limit != 0 && d.limit == d.injected + 1 then .done else .armed })
  else (false, { d with passed := n })

/-- The drills whose filters a flit of a message passes on a lane; none while the module's sagger or a fabric processor is being reset
(R519, R521). -/
def Main.drillsOn (m : Main) (vc : Nat) (g : Msg) (i : Nat) : List Nat :=
  if m.rcv.handlings.any (fun h => h.sagger == 0) || m.fabricOut then []
  else (List.range m.drills.length).filter (fun id => match m.drills[id]? with
    | some d => d.st == .armed && d.links.getLsbD i && d.span == g.span && d.vcMask.testBit vc && (!d.destEn || d.dest == g.dest)
    | none => false)

/-- A flit of a message meets the drills of its lane: those that select it, and what they count (R518, R519). -/
def Main.drill (m : Main) (vc : Nat) (g : Msg) (i : Nat) : List Drill × Main :=
  (m.drillsOn vc g i).foldl (fun acc id =>
    match acc.2.drills[id]? with
    | none => acc
    | some d =>
      let (hit, d1) := d.pass id
      let m1 : Main := { acc.2 with drills := acc.2.drills.set id d1 }
      if hit then (acc.1 ++ [d], m1.bump 3 7 i 1) else (acc.1, m1)) ([], m)

/-- The other flits of a message that is held pass the filters of its drills with it (DESIGN CHOICE, assumption log 94). -/
def Main.passHeld (m : Main) (vc : Nat) (g : Msg) (i : Nat) : Main :=
  (m.drillsOn vc g i).foldl (fun m id =>
    { m with drills := modNth m.drills id (fun d => { d with passed := d.passed + (msgFlits g - 1) }) }) m

/-- The group of a lane. -/
def Main.laneGroup (m : Main) (i : Nat) : Option Group := m.fab.groups.find? (fun g => g.lanes.getLsbD i)

/-- The neighbour of a lane's group. -/
def Main.laneNeighbour (m : Main) (i : Nat) : Nat := match m.laneGroup i with | some g => g.neighbour | none => 0

def Main.modOpt (m : Main) (e : Nat) (f : OptEngine → OptEngine) : Main :=
  { m with fab := { m.fab with engines := modNth m.fab.engines e f } }

def Main.optOf (m : Main) (e : Nat) : OptEngine := nth m.fab.engines e OptEngine.reset

/-- The spare serves the logical lane (R243, R270 step 5). -/
def Main.useSpare (m : Main) (i : Nat) : Main :=
  let far := (m.optOf (i / 8)).spareFar
  (m.modLane i (fun l => { l with
    phys := 8, txPhys := 8, st := .active, resends := 0, coneAt := m.time, waitAt := m.time
    farModule := (far.map (·.module)).getD l.farModule, farEngine := (far.map (·.engine)).getD l.farEngine
    farLane := (far.map (·.lane)).getD l.farLane })).modOpt (i / 8)
    (fun o => { o with spare := .active, spareUsed := some i, sparing := none })

/-- The fabric processor that serves a lane: of the half on which its engine lies (R9, R422). -/
def fabProc (i : Nat) : Nat := 10 + i / 64

/-- Whether the laser source of a lane's engine is being taken over (R248). -/
def Main.laneDark (m : Main) (i : Nat) : Bool :=
  match m.fab.engines[i / 8]? with | some e => e.takeover | none => false

/-- What a drill's corruption makes of the flit that has just left: one payload bit, which one is open, is inverted, or its codeword is
uncorrectable; the replay buffer keeps it whole (R518). -/
def Main.corrupt (m : Main) (i : Nat) (action : Nat) : Main :=
  let (v, m1) := m.draw
  let n := v % 1920
  let bad (fl : Flit) : Flit :=
    if action = 1 then { fl with payload := modNth fl.payload (n / 8) (· ^^^ BitVec.ofNat 8 (2 ^ (n % 8))) } else { fl with fec := .uncorrectable }
  m1.modLane i (fun l => { l with last := l.last.map bad })

/-- The flit of a message whose turn it is, on a lane: it meets the lane's drills and is discarded with its message, held with it, or
leaves, whole or corrupted (R518). A held ordered message is a loss of order (R288). -/
def Main.sendTurn (m : Main) (i vc : Nat) (g : Msg) (k : Nat) (l : Lane) : Main :=
  let (hits, m1) := m.drill vc g i
  let off : Lane := { l with txq := takeMessage vc l.txq }
  if hits.any (·.action == 0) then m1.modLane i (fun _ => off)
  else
    match hits.find? (fun d => d.action == 3 && k == 0) with
    | some d =>
      let m2 := (m1.modLane i (fun _ => { off with held := off.held ++ [(d.hold, outFlits vc g 0)] })).passHeld vc g i
      if g.ord then m2.postFabric g.span 8 (m.laneNeighbour i) else m2
    | none =>
      match outFlits vc g k with
      | [] => m1.modLane i (fun _ => off)
      | x :: _ =>
        let m2 := (m1.modLane i (fun _ => ({ l with txq := takeFlit vc l.txq } : Lane).sendData vc (msgFlit g k).1 x m1.time)).bump 3 0 i 1
        match hits.find? (fun d => d.action == 1 || d.action == 2) with
        | some d => m2.corrupt i d.action
        | none => m2

/-- The flits that a lane can send now leave it, those of a withdrawn lane first (R254, R257, R259, R271): while it is ACTIVE and its
laser source is not being taken over. What a drill holds leaves at the latest when nothing else does, as flit times pass. -/
def Main.pumpLane : Nat → Nat → Main → Main
  | 0, _, m => m
  | n + 1, i, m =>
    match m.fab.lanes[i]? with
    | none => m
    | some l =>
      if l.st ≠ .active ∨ m.laneDark i = true ∨ 512 ≤ l.replay.length then m
      else if !l.resend.isEmpty then
        match l.sendFirst m.time with
        | none => m
        | some l1 => Main.pumpLane n i ((m.modLane i (fun _ => l1)).bump 3 0 i 1)
      else
        match l.pick, l.held with
        | some (vc, g, k, l1), _ => Main.pumpLane n i (m.sendTurn i vc g k l1)
        | none, x :: r => Main.pumpLane n i (m.modLane i (fun l => { l with resend := x.2, held := r }))
        | none, [] => m

/-- A lane whose replay buffer can take 512 flits sends what it can. -/
def Main.goLane (m : Main) (i : Nat) : Main :=
  Main.pumpLane (513 + (match m.fab.lanes[i]? with | some l => 2 * l.txq.length + l.held.length | none => 0)) i m

/-- A message given to its lane, when it finds a candidate; there it waits for its turn (R259, R263). -/
def Main.assign (m : Main) (vc : Nat) (half : Option Nat) (g : Msg) : Option Main :=
  (m.route vc half g).map (fun i => (m.modLane i (fun l => { l with txq := l.txq ++ [(vc, g, 0)] })).goLane i)

/-- A message sent on a channel: to this module itself when it is the destination, to a lane, or to wait at the forwarding stage for a
candidate (R263); one in transit is on the half on which it came. -/
def Main.sendOn (m : Main) (vc : Nat) (half : Option Nat) (g : Msg) : Main :=
  if g.dest = m.fab.module then { m with fab := { m.fab with arrived := m.fab.arrived ++ [g] } }
  else
    match m.assign vc half g with
    | some m1 => m1
    | none => { m with fab := { m.fab with outbox := m.fab.outbox ++ [(vc, half, g)] } }

/-- A message sent on the channel of its OP. -/
def Main.send (m : Main) (g : Msg) : Main := match opChannel g.op with | some vc => m.sendOn vc none g | none => m

/-- The messages that wait for a candidate tried again, in order, and every lane sends what it can. -/
def Main.flush (m : Main) : Main :=
  let m1 := m.fab.outbox.foldl (fun m x => m.sendOn x.1 x.2.1 x.2.2) { m with fab := { m.fab with outbox := [] } }
  ((List.range 128).filter (fun i => match m1.fab.lanes[i]? with
    | some l => !l.txq.isEmpty || !l.resend.isEmpty || !l.held.isEmpty
    | none => false)).foldl Main.goLane m1

/-! ### The module's own messages (R252, R256, R471) -/

/-- What kind of message of CTRL, ABORT and MGMT one is, with what it says as numbers. -/
def CtrlMsg.says : CtrlMsg → Nat × List Nat
  | .fenceSignal _ id handle value scope checked ctx => (0, [id, handle, value.toNat, scope, b2n checked, ctx])
  | .fenceAck _ id status => (1, [id, status.code])
  | .sagNotice _ detected recovered => (2, [detected, b2n recovered])
  | .paceToken _ tk limit => (3, [tk, limit])
  | .abort _ _ slot => (4, [slot.toNat])
  | .pierReceipt _ span => (5, [span])
  | .bankingNotice _ _ => (6, [])
  | .spareRequest lane abrupt => (7, [lane, b2n abrupt])
  | .spareGrant lane => (8, [lane])
  | .timeReply _ => (9, [])
  | .identity lane => (10, [lane])
  | .accepted lane lseq => (11, [lane, lseq])
  | .named lane lseq => (12, [lane, lseq])
  | .work _ _ => (13, [])

/-- The span of such a message. -/
def Main.ctrlSpan (m : Main) (c : CtrlMsg) : Nat :=
  match c with
  | .abort _ span _ => span
  | .pierReceipt _ span => span
  | .fenceSignal _ _ _ _ _ _ ctx => match m.objs.ctxs.find? (fun x => x.num == ctx) with | some x => x.span | none => 0
  | _ => 0

/-- Such a message in the fabric's form: its OP and, but for an ABORT, its slot are open (R252, R282; assumption log 33). -/
def Main.ctrlMsg (m : Main) (dest : Nat) (c : CtrlMsg) : Msg :=
  let span := m.ctrlSpan c
  let slot := match c with | .abort _ _ slot => slot.toNat | _ => Config.ctrlSlot c.says.1 c.says.2
  { op := Config.ctrlOp c.says.1 % 32 + 0x60, dest := dest, src := m.fab.module, span := span
    epoch := match m.recOf span with | some r => r.inForce.epoch | none => 0
    hops := 1, ord := false, tag := 0, data := toBytes 16 slot, poison := false, rr := none }

/-- A message of CTRL or ABORT sent to its module. -/
def Main.sendFar (m : Main) (vc dest : Nat) (c : CtrlMsg) : Main :=
  if dest = m.fab.module then m else m.sendOn vc none (m.ctrlMsg dest c)

/-- A link-local message of MGMT sent on a lane. -/
def Main.sendNear (m : Main) (lane : Option Nat) (c : CtrlMsg) : Main :=
  match lane with
  | some i => (m.modLane i (fun l => { l with txq := l.txq ++ [(7, m.ctrlMsg (m.laneNeighbour i) c, 0)] })).goLane i
  | none => m

/-- The lowest ACTIVE lane to a neighbour, but for one (R270, R271). -/
def Main.laneTo (m : Main) (neighbour : Nat) (but : Option Nat) : Option Nat :=
  (List.range 128).find? (fun i => m.laneActive i && m.laneNeighbour i == neighbour && (m.laneGroup i).isSome && but != some i)

/-- A message of CTRL, ABORT or MGMT leaves on its channel (R256): what it says stands in ctrlOut. The identity exchange of a lane that
trains is no DATA flit (R275). -/
def Main.sendCtrl (m0 : Main) (c : CtrlMsg) : Main :=
  let m : Main := { m0 with fab := { m0.fab with ctrlOut := m0.fab.ctrlOut ++ [c] } }
  match c with
  | .fenceSignal dest _ _ _ _ _ _ => m.sendFar 5 dest c
  | .fenceAck dest _ _ => m.sendFar 5 dest c
  | .sagNotice dest _ _ => m.sendFar 5 dest c
  | .paceToken dest _ _ => m.sendFar 5 dest c
  | .abort dest _ _ => m.sendFar 6 dest c
  | .pierReceipt dest _ => m.sendFar 5 dest c
  | .work dest _ => m.sendFar 5 dest c
  | .bankingNotice lane _ => m.sendNear (some lane) c
  | .timeReply n => m.sendNear (m.laneTo n none) c
  | .spareRequest lane _ => m.sendNear (m.laneTo (m.laneNeighbour lane) (some lane)) c
  | .spareGrant lane => m.sendNear (m.laneTo (m.laneNeighbour lane) (some lane)) c
  | .accepted lane _ => m.sendNear (m.laneTo (m.laneNeighbour lane) (some lane)) c
  | .named lane _ => m.sendNear (m.laneTo (m.laneNeighbour lane) (some lane)) c
  | .identity _ => m

/-- A message of a lane's fabric processor: it waits while that is out of use (R480). -/
def Main.sendFabric (m : Main) (i : Nat) (c : CtrlMsg) : Main :=
  if m.procOut (fabProc i) then { m with fab := { m.fab with ctrlHeld := m.fab.ctrlHeld ++ [(fabProc i, c)] } } else m.sendCtrl c

/-- The abrupt spares that have trained and may take their lanes over: no takeover or processor holds them up (R273, R480). -/
def Main.sparesReady (m : Main) : List Nat :=
  m.fab.engines.filterMap (fun o => match o.sparing with
    | some s => if s.trained && !s.hitless && !m.laneDark s.lane && !m.procOut (fabProc s.lane) then some s.lane else none
    | none => none)

/-- A fabric processor runs again: what it has to send leaves, and the spares that waited for it take over (R480). -/
def Main.fabricBack (m : Main) : Main :=
  let due := m.fab.ctrlHeld.filter (fun x => !m.procOut x.1)
  let m1 := due.foldl (fun m x => m.sendCtrl x.2) { m with fab := { m.fab with ctrlHeld := m.fab.ctrlHeld.filter (fun x => m.procOut x.1) } }
  if m1.sparesReady.isEmpty then m1 else (m1.sparesReady.foldl Main.useSpare m1).flush

end Sys2Proof.Machine
end

