-- ==== Sys2Proof/Machine/Objects.lean ====
section
/-! DEFINITION. Contexts, queues, packet completion, fence abandonment and context loss (R363-R399). -/

namespace Sys2Proof.Machine

/-! ### Span memory by an uncached agent (R212) -/

/-- A run of bytes cut at 128-byte lines: for each piece its address and its bytes. -/
def cutLines (fuel a : Nat) (data : List Byte) : List (Nat × List Byte) :=
  match fuel with
  | 0 => []
  | f + 1 =>
    if data.isEmpty then []
    else
      let n := 128 - a % 128
      (a, data.take n) :: cutLines f (a + n) (data.drop n)

/-- A write of bytes at an LPA that stays inside one line: performed, or waiting in its turn at a home that cannot serve it yet (R199,
R208, R215). -/
def Main.writePiece (m : Main) (lpa : Nat) (data : List Byte) (poison : Bool) : Main :=
  if m.mustWait (lpa / 128) then m.waitHome (.iw (lpa / 128) (lpa % 128) data poison)
  else m.homeWrite (lpa / 128) (lpa % 128) data poison

/-- Bytes written to span memory on this pier, line by line; pieces out of extent are not written. -/
def Main.spanWrite (m : Main) (span sa : Nat) (data : List Byte) (poison : Bool) : Main :=
  (cutLines (data.length / 128 + 2) sa data).foldl (fun m p =>
    match m.mem.translate span p.1 with
    | some lpa => m.writePiece lpa p.2 poison
    | none => m) m

/-- Bytes read from span memory on this pier by UR, and whether a line of them is poisoned; bytes out of extent read
as 0. -/
def Main.spanRead (m : Main) (span sa n : Nat) : List Byte × Bool × Main :=
  (cutLines (n / 128 + 2) sa (List.replicate n 0)).foldl (fun (acc : List Byte × Bool × Main) p =>
    match acc.2.2.mem.translate span p.1 with
    | some lpa =>
      let (s, m1) := acc.2.2.homeUR (lpa / 128)
      (acc.1 ++ (s.data.drop (lpa % 128)).take p.2.length, acc.2.1 || s.poison, m1)
    | none => (acc.1 ++ p.2, acc.2.1, acc.2.2)) ([], false, m)

/-- Span bytes read line by line: for each piece its offset, its bytes and whether its line is poisoned (R352). -/
def Main.spanPieces (m : Main) (span sa n : Nat) : List (Nat × List Byte × Bool) × Main :=
  (cutLines (n / 128 + 2) sa (List.replicate n 0)).foldl (fun (acc : List (Nat × List Byte × Bool) × Main) p =>
    let (d, bad, m1) := acc.2.spanRead span p.1 p.2.length
    (acc.1 ++ [(p.1 - sa, d, bad)], m1)) ([], m)

/-! ### Finding -/

def Main.ctxOf (m : Main) (n : Nat) : Option Context := m.objs.ctxs.find? (fun c => c.num == n)
def Main.modCtx (m : Main) (n : Nat) (f : Context → Context) : Main :=
  { m with objs := { m.objs with ctxs := modWhere m.objs.ctxs (fun c => c.num == n) f } }

def Main.queueOf (m : Main) (q : QRef) : Option Queue := m.objs.queues.find? (fun x => x.ctx == q.ctx && x.idx == q.q)
def Main.modQueue (m : Main) (q : QRef) (f : Queue → Queue) : Main :=
  { m with objs := { m.objs with queues := modWhere m.objs.queues (fun x => x.ctx == q.ctx && x.idx == q.q) f } }

def Main.launchOf (m : Main) (id : Nat) : Option Launch := m.cores.launches.find? (fun l => l.id == id)
def Main.modLaunch (m : Main) (id : Nat) (f : Launch → Launch) : Main :=
  { m with cores := { m.cores with launches := modWhere m.cores.launches (fun l => l.id == id) f } }

def Main.wgOf (m : Main) (id : Nat) : Option WorkGroup := m.cores.wgs.find? (fun w => w.id == id)
def Main.modWg (m : Main) (id : Nat) (f : WorkGroup → WorkGroup) : Main :=
  { m with cores := { m.cores with wgs := modWhere m.cores.wgs (fun w => w.id == id) f } }

/-- A bundle changed. -/
def Main.modBundle (m : Main) (b : BRef) (f : Bundle → Bundle) : Main :=
  m.modWg b.wg (fun w => { w with bundles := modWhere w.bundles (fun x => x.idx == b.idx) f })

def Main.bundleOf (m : Main) (b : BRef) : Option Bundle :=
  (m.wgOf b.wg).bind (fun w => w.bundles.find? (fun x => x.idx == b.idx))

/-- The live fence that a handle names (R393). -/
def Main.fenceOf (m : Main) (handle : Nat) : Option Fence := m.objs.fences.find? (fun f => f.handle == handle)
def Main.modFence (m : Main) (handle : Nat) (f : Fence → Fence) : Main :=
  { m with objs := { m.objs with fences := modWhere m.objs.fences (fun x => x.handle == handle) f } }

def Main.counterOf (m : Main) (i : Nat) : Option Counter := m.objs.counters.find? (fun c => c.idx == i)
def Main.modCounter (m : Main) (i : Nat) (f : Counter → Counter) : Main :=
  { m with objs := { m.objs with counters := modWhere m.objs.counters (fun c => c.idx == i) f } }

def Main.regionOf (m : Main) (h : Nat) : Option Region := m.objs.regions.find? (fun r => r.handle == h)

def Main.modRec (m : Main) (span : Nat) (f : SpanRec → SpanRec) : Main :=
  { m with comp := { m.comp with recs := modWhere m.comp.recs (fun r => r.id == span) f } }

/-- The pier table of that set. -/
def SpanRec.tableInForce (r : SpanRec) : List Nat := if r.phase = .drain then r.nextPiers else r.piers

/-! ### Locations (R371) -/

/-- A write at a location of a context for an owner: whether it could be made or waits for its translation, and the state after. -/
def Main.locWrite (m : Main) (ctx : Context) (l : Loc) (off : Nat) (data : List Byte) (owner : PutOwner) : Bool × Main :=
  match l with
  | .region h o =>
    match m.regionOf h with
    | some r =>
      if r.ctx = ctx.num ∧ r.write ∧ o + off + data.length ≤ r.len ∧ m.fnReach ctx.fn then
        (true, m.putHost ctx.fn ctx.pasid (r.iova + o + off) data owner)
      else (false, m)
    | none => (false, m)
  | .span a =>
    if m.mem.holdsRange ctx.span (a + off) data.length then (true, m.spanWrite ctx.span (a + off) data false)
    else (false, m)

/-! ### Queues (R372, R373, R386) -/

/-- The TYPE of a packet (R374). -/
def pkType (d : List Byte) : Nat := fieldAt d 0 1

/-- Whether a context has a packet ready to start. -/
def Main.packetReady (m : Main) (ctx : Nat) : Bool :=
  m.objs.queues.any (fun x => x.ctx == ctx && (!x.held.isEmpty || (!x.halted && x.avail != x.ridx)))

/-- Whether a context has a packet ready or in progress (R368). -/
def Main.ctxBusy (m : Main) (ctx : Nat) : Bool :=
  m.packetReady ctx || m.objs.queues.any (fun x => x.ctx == ctx && !x.running.isEmpty)

/-- Whether a context has work that needs a slot: a packet ready to start, or a launch; DMA and collective packets run to completion
without one (R366, R369). -/
def Main.ctxReady (m : Main) (ctx : Nat) : Bool :=
  m.packetReady ctx || m.objs.queues.any (fun x => x.ctx == ctx && x.running.any (fun p => pkType p.bytes == 1))

/-- A context with work asks for a slot (R366). -/
def Main.wantSlot (m : Main) (ctx : Nat) : Main :=
  m.modCtx ctx (fun c => if c.state = .idle ∧ m.ctxReady ctx = true then { c with state := .waiting, waitFrom := some m.time } else c)

/-- A context that waits for a slot with no work left is IDLE (R366). -/
def Main.restWaiting (m : Main) (ctx : Nat) : Main :=
  m.modCtx ctx (fun c => if c.state = .waiting ∧ m.ctxReady ctx = false then { c with state := .idle, waitFrom := none } else c)

/-- The queue enters HALTED and its error event is posted (R373). -/
def Main.haltQueue (m : Main) (q : QRef) (s : Status) : Main :=
  match m.queueOf q with
  | none => m
  | some x =>
    if x.halted then m
    else ((m.modQueue q (fun x => { x with halted := true })).restWaiting q.ctx).postCtx q.ctx 5 s (q.q % 256 * 2 ^ 56 + 2)

/-- The queue status word written after a count has advanced (R372). -/
def Main.writeQStatus (m : Main) (q : QRef) : Main :=
  match m.queueOf q, m.ctxOf q.ctx with
  | some x, some c =>
    let (good, m1) := m.locWrite c x.status 0 (toBytes 4 x.ridx.toNat ++ toBytes 4 x.done.toNat ++ toBytes 8 0) (.queue q)
    if good then m1 else m1.haltQueue q .faultUnresolved
  | _, _ => m

/-- DONE moved past every packet that has completed in order (R372). -/
def advanceDone : Nat → Word → List Nat → Word × List Nat
  | 0, d, l => (d, l)
  | f + 1, d, l => if l.contains d.toNat then advanceDone f (d + 1) (l.filter (· != d.toNat)) else (d, l)

/-- An energy kept in nJ as a function sees it, rounded once, in mJ: for a VF to the nearest 10 mJ, ties up (R387, R456). -/
def roundEnergy (fn : Fn) (e : Nat) : Nat :=
  if fn.idx = 0 then (e + 500000) / 1000000 else (e + 5000000) / 10000000 * 10

/-- The energy as a record reports it (R387). -/
def seenEnergy (fn : Fn) (e : Nat) : Nat := min (roundEnergy fn e) 0xFFFFFFFF

/-- A completion record (R386). -/
def completionRecord (fn : Fn) (s : Status) (type : Nat) (flags : Byte) (p : Packet) (tend detail : Nat) :
    List Byte :=
  toBytes 2 s.code ++ toBytes 1 type ++ [flags] ++ toBytes 4 p.pidx ++ toBytes 8 (seenTime fn p.tstart) ++
    toBytes 8 (seenTime fn tend) ++ toBytes 8 detail

/-- A packet leaves the running ones of its queue and its context's job is counted (R368, R372). -/
def Main.retire (m : Main) (q : QRef) (p : Packet) : Main :=
  let m1 := m.modQueue q (fun x =>
    let r := advanceDone (x.doneOut.length + 1) x.done (p.pidx :: x.doneOut)
    { x with done := r.1, doneOut := r.2, running := x.running.filter (fun y => y.pidx != p.pidx) })
  let m2 := m1.modCtx q.ctx (fun c =>
    { c with jobs := c.jobs + 1, credit := c.credit - 1,
             creditZero := if c.credit = 1 then some m.time else c.creditZero })
  m2.writeQStatus q

/-- Completion of one packet: its record when COMPLETION is set or it failed, its event, and the counts (R374, R386,
R371 CEVT). -/
def Main.completeOne (m : Main) (q : QRef) (p : Packet) (s : Status) (flags : Byte) (detail : Nat) : Main :=
  match m.queueOf q, m.ctxOf q.ctx with
  | some x, some c =>
    let type := fieldAt p.bytes 0 1
    let flag := bit (fieldAt p.bytes 1 1) 0
    let wants := flag || s != .ok || type == 9
    let m1 :=
      if wants then
        let (good, m1) := m.locWrite c x.cring (p.pidx % x.slots * 32)
          (completionRecord c.fn s type flags p m.time detail) (.queue q)
        if good then m1 else m1.haltQueue q .faultUnresolved
      else m
    let m2 := if x.cevt && flag then m1.postCtx q.ctx 1 s (qDetail q.q p.pidx) else m1
    m2.retire q p
  | _, _ => m

/-- Whether a packet of a queue of the context has started and not completed. -/
def Main.packetLive (m : Main) (ctx : Nat) (x : Nat × Nat) : Bool :=
  m.objs.queues.any (fun q => q.ctx == ctx && q.idx == x.1 && (q.running ++ q.held).any (fun p => p.pidx == x.2))

/-- The context's energy as a function sees it (R387, R388). -/
def ctxEnergy (c : Context) : Nat := roundEnergy c.fn c.energy

/-- DETAIL of a barrier or a marker (R386). -/
def Main.waitDetail (m : Main) (ctx : Nat) (p : Packet) : Nat :=
  if fieldAt p.bytes 0 1 = 9 then
    (match m.ctxOf ctx with | some c => ctxEnergy c % 2 ^ 32 | none => 0) + fieldAt p.bytes 4 4 * 2 ^ 32
  else 0

/-- The first barrier or marker of a context whose packets have all completed (R383, R385). -/
def Main.waitOver (m : Main) (ctx : Nat) : Option (QRef × Packet) :=
  m.objs.queues.findSome? (fun q =>
    if q.ctx = ctx then
      (q.running.find? (fun p => p.waiting && (fieldAt p.bytes 0 1 == 7 || fieldAt p.bytes 0 1 == 9) &&
        p.after.all (fun x => !m.packetLive ctx x))).map (fun p => (⟨q.ctx, q.idx⟩, p))
    else none)

/-- Barriers and markers that have nothing more to wait for complete, one after the other. -/
def Main.settleWaits : Nat → Nat → Main → Main
  | 0, _, m => m
  | n + 1, ctx, m =>
    match m.waitOver ctx with
    | none => m
    | some w => Main.settleWaits n ctx (m.completeOne w.1 w.2 .ok 0 (m.waitDetail ctx w.2))

/-- A queue that is being destroyed is freed with its doorbell page when its last packet has completed (R364). -/
def Main.dropQueue (m : Main) (q : QRef) : Main :=
  match m.queueOf q with
  | some x =>
    if x.destroying && x.running.isEmpty && x.held.isEmpty then
      ({ m with objs := { m.objs with queues := m.objs.queues.filter (fun y => !(y.ctx == q.ctx && y.idx == q.q)) } }
        : Main).answerHeld (.queue q) (Reply.good [])
    else m
  | none => m

/-- Every queue of a context that has nothing left of its destruction goes. -/
def Main.dropQueues (m : Main) (ctx : Nat) : Main :=
  (((m.objs.queues.filter (fun x => x.ctx == ctx)).map (fun x => (⟨ctx, x.idx⟩ : QRef))).foldl Main.dropQueue m).restWaiting ctx

/-- A packet completes, with what waits for it (R374, R383, R385, R386). -/
def Main.completePacket (m : Main) (q : QRef) (p : Packet) (s : Status) (flags : Byte) (detail : Nat) : Main :=
  let m1 := m.completeOne q p s flags detail
  (Main.settleWaits ((m1.objs.queues.map (fun x => x.running.length)).sum) q.ctx m1).dropQueues q.ctx

/-! ### Fences (R392-R399) -/

/-- Whether a fence of value v has reached a target (R395). -/
def fenceReached (v t : DWord) : Bool := decide ((v - t).toNat < 2 ^ 63)

/-- The mirror of a fence is disabled, and its owner told: the module writes it no more, nor what waits to be written (R397). -/
def Main.dropMirror (m : Main) (handle : Nat) : Main :=
  match m.fenceOf handle with
  | some f =>
    if f.mirrorOn then
      ((m.modFence handle (fun f => { f with mirrorOn := false })).cutPuts (fun p => p.owner == .mirror handle)).postCtx
        f.owner 6 .faultUnresolved (qDetail 0xFF 0)
    else m
  | none => m

/-- The host mirror written after a change; a write that cannot be made disables it (R396, R397). -/
def Main.writeMirror (m : Main) (handle : Nat) : Main :=
  match m.fenceOf handle with
  | none => m
  | some f =>
    match f.mirror, m.ctxOf f.owner with
    | some l, some c =>
      if f.mirrorOn then
        let (good, m1) := m.locWrite c l 0 (toBytes 8 f.value.toNat ++ toBytes 8 (if f.live then 0 else 1)) (.mirror handle)
        if good then m1 else m1.dropMirror handle
      else m
    | _, _ => m

/-- The acquire-free end of an FWAIT: status and last value in its registers, and the bundle goes on (R103, R398). -/
def Bundle.endFwait (b : Bundle) (f : Fields) (s : Status) (v : DWord) : Bundle :=
  { b with u := (b.u.set f.dst.toNat (BitVec.ofNat 64 s.code)).set f.c.toNat v, waiting := none, pc := b.pc + 8 }

/-- The handle an FWAIT names in u[SRCA] (R103). -/
def Bundle.fwaitHandle (b : Bundle) (f : Fields) : Nat := (nth b.u f.a.toNat 0).toNat % 2 ^ 32

/-- Every bundle of the module changed by a function of its work group. -/
def Main.mapBundles (m : Main) (f : WorkGroup → Bundle → Bundle) : Main :=
  { m with cores := { m.cores with wgs := m.cores.wgs.map (fun w => { w with bundles := w.bundles.map (f w) }) } }

/-- Fence-wait packets that wait on a handle, with their queues (R381). -/
def Main.fenceWaiters (m : Main) (handle : Nat) : List (QRef × Packet) :=
  m.objs.queues.flatMap (fun x => (x.running.filter (fun p => p.waiting && fieldAt p.bytes 0 1 == 5
    && fieldAt p.bytes 4 4 == handle)).map (fun p => (⟨x.ctx, x.idx⟩, p)))

/-- A fence abandoned: its value is frozen and every waiter is released without an acquire (R398); a bundle that is being
preempted stays at its FWAIT and executes it afresh (R127). -/
def Main.abandonFence (m : Main) (handle : Nat) : Main :=
  match m.fenceOf handle with
  | none => m
  | some f =>
    if !f.live then m
    else
      let m1 := (m.modFence handle (fun f => { f with live := false })).writeMirror handle
      let wake (b : Bundle) : Bundle :=
        match b.waiting with
        | some (.fence fl) => if b.fwaitHandle fl = handle then b.endFwait fl .fenceAbandoned f.value else b
        | _ => b
      let m2 := m1.mapBundles (fun w b => if w.state = .running then wake b else b)
      (m2.fenceWaiters handle).foldl (fun m w => m.completePacket w.1 w.2 .fenceAbandoned 0 f.value.toNat) m2

/-- An abandoned fence without a grant is freed, and its index's generation advances, skipping 0 (R393, R399). -/
def Main.freeFence (m : Main) (handle : Nat) : Main :=
  match m.fenceOf handle with
  | none => m
  | some f =>
    if f.live || !f.grants.isEmpty then m
    else
      let g := if f.gen = 16383 then 1 else f.gen + 1
      { m with objs := { m.objs with
          fences := m.objs.fences.filter (fun x => x.handle != handle)
          fenceGens := (f.index, g) :: m.objs.fenceGens.filter (fun x => x.1 != f.index) } }

/-- Every fence a context owns abandoned (R389, R390). -/
def Main.abandonOwned (m : Main) (ctx : Nat) : Main :=
  ((m.objs.fences.filter (fun f => f.owner == ctx)).map (·.handle)).foldl (fun m h => (m.abandonFence h).freeFence h) m

/-! ### The core store (R60-R65) -/

/-- The key of an offset of a core's store. -/
def csKey (core off : Nat) : Nat := core * 2 ^ 21 + off

/-- Bytes of a core's store, by absolute offset. -/
def Main.csRead (m : Main) (core off n : Nat) : List Byte := Cells.read m.cores.store (csKey core off) n

/-- Whether any 64-byte row that a range touches is poisoned (R65). -/
def Main.csBad (m : Main) (core off n : Nat) : Bool :=
  n != 0 && m.cores.rowPoison.any (fun r => r / 2 ^ 15 == core && decide (off / 64 ≤ r % 2 ^ 15)
    && decide (r % 2 ^ 15 ≤ (off + n - 1) / 64))

/-- The rows that a range touches, poisoned. -/
def Main.csPoison (m : Main) (core off n : Nat) : Main :=
  if n = 0 then m
  else
    let rows := rangeFrom (core * 2 ^ 15 + off / 64) ((off + n - 1) / 64 - off / 64 + 1)
    { m with cores := { m.cores with rowPoison := rows.foldl (fun l r => insertSorted r l) m.cores.rowPoison } }

/-- Whether one write's ranges cover a row wholly. -/
def rowCovered (row : Nat) (rs : List (Nat × Nat)) : Bool :=
  (List.range 64).all (fun i => rs.any (fun r => decide (r.1 ≤ row * 64 + i) && decide (row * 64 + i < r.1 + r.2)))

/-- One write of several ranges of a core's store; rows it covers wholly lose their poison (R65). -/
def Main.csWrite (m : Main) (core : Nat) (parts : List (Nat × List Byte)) : Main :=
  let rs := parts.map (fun p => (p.1, p.2.length))
  { m with cores := { m.cores with
      store := parts.foldl (fun c p => Cells.write c (csKey core p.1) p.2) m.cores.store
      rowPoison := m.cores.rowPoison.filter (fun r => !(r / 2 ^ 15 == core && rowCovered (r % 2 ^ 15) rs)) } }

/-! ### Tile transfers (R75, R107) -/

/-- The core-store pieces of a storage line: chunk c of it lies at chunk c XOR swz (R105). -/
def XferLine.pieces (l : XferLine) : List (Nat × Nat × Nat) :=
  if l.swz = 0 then [(0, l.cs, l.len)]
  else (List.range (ceilDiv l.len 16)).map (fun c => (c * 16, l.cs + 16 * (c ^^^ l.swz), min 16 (l.len - c * 16)))

/-- The bytes of a storage line in core store, in the order span memory holds them. -/
def Main.lineBytes (m : Main) (core : Nat) (l : XferLine) : List Byte :=
  l.pieces.flatMap (fun p => m.csRead core p.2.1 p.2.2)

/-- The core-store ranges a transfer touches. -/
def Xfer.ranges (x : Xfer) : List (Nat × Nat) := x.lines.flatMap (fun l => l.pieces.map (fun p => (p.2.1, p.2.2)))

/-- Whether two ranges share a byte. -/
def overlap (a n b k : Nat) : Bool := decide (a < b + k) && decide (b < a + n) && n != 0 && k != 0

/-- The core-store ranges that some bytes of a storage line lie at. -/
def XferLine.landing (l : XferLine) (off n : Nat) : List (Nat × Nat) :=
  l.pieces.filterMap (fun p =>
    let a := max p.1 off
    let b := min (p.1 + p.2.2) (off + n)
    if a < b then some (p.2.1 + (a - p.1), b - a) else none)

/-- One storage line of a load: its bytes in core store, the ranges of it that a poisoned line lands in, and no stale copy of the
memory lines left at the core (R65, R75, R219). -/
def Main.loadLine (m : Main) (core span : Nat) (l : XferLine) : List (Nat × List Byte) × List (Nat × Nat) × Main :=
  let (ps, m1) := m.spanPieces span l.sa l.len
  let d := ps.flatMap (fun p => p.2.1)
  (l.pieces.map (fun p => (p.2.1, (d.drop p.1).take p.2.2)),
   (ps.filter (fun p => p.2.2)).flatMap (fun p => l.landing p.1 p.2.1.length),
   (m.spanLines span l.sa l.len).foldl (fun m x => m.applyOwn core x) m1)

/-- What a store writes to one line of memory, at offsets of it: one whole write where its pieces cover the line, else piece by piece
(R191, R212). -/
def Main.storeParts (m : Main) (line : Nat) (parts : List (Nat × List Byte)) : Main :=
  if (List.range 128).all (fun i => parts.any (fun p => decide (p.1 ≤ i) && decide (i < p.1 + p.2.length))) then
    m.writePiece (line * 128) (parts.foldl (fun d p => putAt d p.1 p.2) (List.replicate 128 0)) false
  else parts.foldl (fun m p => m.writePiece (line * 128 + p.1) p.2 false) m

/-- A transfer's load performed: its bytes in core store; poison poisons the rows it lands in (R65, R75). -/
def Main.performLoad (m : Main) (core span : Nat) (x : Xfer) : Main :=
  let r := x.lines.foldl (fun (acc : List (Nat × List Byte) × List (Nat × Nat) × Main) l =>
    let (p, b, m1) := acc.2.2.loadLine core span l
    (acc.1 ++ p, acc.2.1 ++ b, m1)) ([], [], m)
  r.2.1.foldl (fun m p => m.csPoison core p.1 p.2) (r.2.2.csWrite core r.1)

/-- A transfer's store performed, memory line by memory line, as invalidating writes (R75). R75 gives the lines no order: they go in rising
order, so of lines that overlap in span memory the last one stays (DESIGN CHOICE, assumption log 82). -/
def Main.performStore (m : Main) (core span : Nat) (x : Xfer) : Main :=
  let ps := (x.lines.flatMap (fun l => cutLines (l.len / 128 + 2) l.sa (l.data.getD (m.lineBytes core l)))).filterMap
    (fun p => (m.mem.translate span p.1).map (fun a => (a, p.2)))
  ((ps.map (fun p => p.1 / 128)).eraseDups).foldl (fun m line =>
    (m.storeParts line ((ps.filter (fun p => p.1 / 128 == line)).map (fun p => (p.1 % 128, p.2)))).applyOwn core line) m

/-- A transfer performed. -/
def Main.performXfer (m : Main) (core span : Nat) (x : Xfer) : Main :=
  if x.store then m.performStore core span x else m.performLoad core span x

/-- Whether a line of a transfer waits at its home (R199, R208, R215). -/
def Main.xferHeld (m : Main) (span : Nat) (x : Xfer) : Bool := x.lines.any (fun l => m.spanBlocked span l.sa l.len)

/-- Every transfer in flight of a work group performed, in order, as its lines allow: a load that must wait has no one left to wait for
it, and what a store writes waits at the homes (DESIGN CHOICE, assumption log 97). -/
def Main.performAll (m : Main) (w : WorkGroup) (span : Nat) : Main :=
  (w.xfers.foldl (fun m x => if !x.store && m.xferHeld span x then m else m.performXfer w.core span x) m).modWg w.id
    (fun w => { w with xfers := [] })

/-- The number of a bundle's transfers up to and with the last that touches one of some ranges (R63). -/
def touching (xs : List Xfer) (rs : List (Nat × Nat)) : Nat :=
  xs.length - ((xs.reverse.takeWhile (fun x =>
    !x.ranges.any (fun a => rs.any (fun r => overlap a.1 a.2 r.1 r.2)))).length)

/-- Work groups leave their cores; the stays of the last 100 ms are kept (R388). -/
def Main.dropGroups (m : Main) (gone : WorkGroup → Bool) : Main :=
  let left := m.cores.wgs.filter (fun w => !gone w)
  let ends (s : Stay) : Stay := if s.stop.isNone && !left.any (fun w => w.id == s.wg) then { s with stop := some m.time } else s
  let recent (s : Stay) : Bool := match s.stop with | some t => decide (m.time < t + 100000000) | none => true
  { m with cores := { m.cores with wgs := left, stays := (m.cores.stays.map ends).filter recent } }

/-! ### Launches that end without their work groups (R132, R136, R389) -/

/-- Every pier that holds a batch of a launch is told to stop, once (R136). -/
def Main.stopAway (m : Main) (launch : Nat) : Main :=
  match m.launchOf launch with
  | none => m
  | some l =>
    ((l.away.filter (fun a => !a.told)).foldl (fun m a => m.sendCtrl (.work a.module (.stop m.fab.module a.batch))) m).modLaunch
      launch (fun l => { l with away := l.away.map (fun a => { a with told := true }) })

/-- The work groups of a launch stopped and discarded without a save, and its pending list emptied; the transfers they
had issued are performed (R117, R136). -/
def Main.discardWork (m : Main) (launch : Nat) : Main :=
  let span := match m.launchOf launch with | some l => l.span | none => 0
  let m0 := (m.cores.wgs.filter (fun w => w.launch == launch)).foldl (fun m w => m.performAll w span) m
  let m1 := m0.dropGroups (fun w => w.launch == launch)
  (m1.modLaunch launch (fun l => { l with todo := [], saved := [], reading := [], reserve := 0 })).stopAway launch

/-- The records a launch holds, kept for DEBUG_READ when its context was created with DEBUG (R544). -/
def Main.keepRecords (m : Main) (launch : Nat) : Main :=
  match m.launchOf launch with
  | some l => m.modCtx l.ctx (fun c => if c.debug then { c with kept := c.kept ++ l.saved ++ l.reading.map (·.2) } else c)
  | none => m

/-- The slots of a context are being given up (R369). -/
def Main.closeSlots (m : Main) (ctx : Nat) : Main :=
  { m with objs := { m.objs with slots := m.objs.slots.map (fun s =>
      match s with
      | some x => if x.ctx = ctx then some { x with closing := true } else some x
      | none => none) } }

/-- A packet that a lost slot stops: a fence wait or a counter wait in progress (R369). -/
def stoppable (p : Packet) : Bool := p.waiting && (pkType p.bytes == 5 || pkType p.bytes == 6)

/-- A context gives up its slot on this pier (R369 steps 1 to 3). -/
def Main.giveUp (m : Main) (ctx : Nat) : Main :=
  let m1 := m.closeSlots ctx
  let m2 : Main := { m1 with objs := { m1.objs with queues := m1.objs.queues.map (fun x =>
    if x.ctx = ctx then
      { x with running := x.running.filter (fun p => !stoppable p), held := x.running.filter stoppable ++ x.held }
    else x) } }
  { m2 with cores := { m2.cores with wgs := m2.cores.wgs.map (fun w =>
    match m2.launchOf w.launch with
    | some l => if l.ctx = ctx ∧ w.state = .running then { w with state := .stopping } else w
    | none => w) } }

/-- A context becomes LOST (R389): its event is posted, its other launches end, its fences are abandoned and its slots
are given up. Packets not started complete CONTEXT_LOST when they are read. -/
def Main.loseContext (m : Main) (ctx : Nat) (q pidx : Nat) : Main :=
  match m.ctxOf ctx with
  | none => m
  | some c =>
    if c.state = .lost ∨ c.state = .teardown then m
    else
      let m1 := (m.modCtx ctx (fun c => { c with state := .lost })).postCtx ctx 7 .contextLost (qDetail q pidx)
      let mine := (m1.cores.launches.filter (fun l => l.ctx == ctx && l.killed.isNone)).map (·.id)
      let m2 := mine.foldl (fun m l =>
        ((m.keepRecords l).discardWork l).modLaunch l (fun x => { x with killed := some .contextLost })) m1
      (m2.abandonOwned ctx).giveUp ctx

end Sys2Proof.Machine
end

