-- ==== Sys2Proof/Machine/Ops.lean ====
section
/-! DEFINITION. Issue of an instruction, traps, ranks, scopes and acquires (R11, R56-R59, R78-R81, R117, R118, R136,
R222-R226, R240). -/

namespace Sys2Proof.Machine

/-! ### Ranks -/

/-- The cores in service of a cluster, in the order of their places: a core that is being replaced keeps its place until its
spare has taken it (R11, R486). -/
def Main.clusterCores (m : Main) (k : Nat) : List Nat :=
  let cs := (rangeFrom (9 * k) 9).filter (fun c =>
    match m.cores.units[c]? with | some u => u.inService | none => false)
  (List.range 9).flatMap (fun p => cs.filter (fun c => match m.cores.units[c]? with | some u => u.pos == p | none => false))

/-- The cores of a span on this pier, in order of cluster and place. -/
def Main.spanCores (m : Main) (span : Nat) : List Nat :=
  match m.recOf span with
  | some r => (bitsSet 32 r.inForce.cores.toNat).flatMap (fun k => m.clusterCores k)
  | none => []

/-- CORE_RANK: the base of this pier's part plus the core's place in it (R11, R116). -/
def Main.coreRank (m : Main) (span core : Nat) : Nat :=
  let base := match m.recOf span with
    | some r => Config.coreRankBase span r.inForce.epoch r.inForce.rank
    | none => 0
  base + (m.spanCores span).idxOf core

/-- SPAN_RANK (R307). -/
def Main.spanRank (m : Main) (span : Nat) : Nat :=
  match m.recOf span with | some r => r.inForce.rank | none => 0

/-- SPAN_PIERS: the pier count of the epoch with which new requests are tagged (R97, R307). -/
def Main.pierCount (m : Main) (span : Nat) : Nat :=
  match m.recOf span with | some r => r.inForce.piersM1 + 1 | none => 1

/-! ### Scopes (R222, R226, R240) -/

/-- Whether the scope instance of an operation at one position contains another position (R222). -/
def scopeHas (scope : Nat) (h o : RelRec) : Bool :=
  if h.host || scope == 5 then true
  else if o.host then false
  else
    let s := if h.core == 15 && decide (scope < 3) then (if h.modLevel then 3 else 2) else scope
    if s == 4 then true
    else if s == 3 then h.module == o.module
    else if h.module != o.module || h.cluster != o.cluster || h.modLevel || o.modLevel then false
    else if s == 2 then true
    else h.core == o.core

/-- The position of a core, with the scope of an operation there. -/
def Main.posOf (m : Main) (core scope : Nat) : RelRec :=
  { scope := scope, module := m.fab.module, cluster := core / 9, core := core % 9, host := false, modLevel := false }

/-- The position of an agent of the module that lies in no cluster (R222). -/
def Main.modPos (m : Main) (scope : Nat) : RelRec :=
  { scope := scope, module := m.fab.module, cluster := 0, core := 15, host := false, modLevel := true }

/-- The position of an engine of a cluster (R222). -/
def Main.clusterPos (m : Main) (k scope : Nat) : RelRec :=
  { scope := scope, module := m.fab.module, cluster := k, core := 15, host := false, modLevel := false }

/-- A VALID record against an acquire: both instances contain the other side (R240); without a record nothing is
compared (R241). -/
def agrees (r : Option RelRec) (acq : RelRec) : Bool :=
  match r with
  | none => true
  | some x => scopeHas x.scope x acq && scopeHas acq.scope acq x

/-- The actions of an acquire on a core: of cluster scope or wider the L1 applies its queue, and the bundle's misses
go past the L2 until it has applied what it has queued (R225). -/
def Main.acquire (m : Main) (core scope : Nat) : Main := if scope < 2 then m else m.drain (l1Agent core)

/-- The lines an agent has queued, in order. -/
def Main.queuedLines (m : Main) (agent : Nat) : List Nat := (m.coh.invq.filter (fun q => q.1 == agent)).map (·.2)

/-- What a bundle remembers of the L2's queue at an acquire (R225). -/
def Bundle.acquired (b : Bundle) (m : Main) (core scope : Nat) : Bundle :=
  if scope < 2 then b else { b with l2Wait := m.queuedLines (l2Agent (core / 9)) }

/-- Whether a bundle's misses go past the L2: it has yet to apply what it had queued at the acquire (R225). -/
def Main.bypass (m : Main) (core : Nat) (b : Bundle) : Bool :=
  b.l2Wait.any (fun l => m.coh.invq.contains (l2Agent (core / 9), l))

/-! ### Traps (R117, R136-R138) -/

/-- A trap as an instruction asks for it; LANE 0xFF for a uniform or tile instruction (R138). -/
structure TrapReq where
  cls : TrapClass
  cause : Status
  lane : Nat
  dbcode : Nat
  flags : Byte
  deriving DecidableEq, Repr

/-- A trap of a class and nothing else to say. -/
def TrapReq.plain (c : TrapClass) (lane : Nat) : TrapReq :=
  { cls := c, cause := .ok, lane := lane, dbcode := 0, flags := 0 }

/-- The trap's record (R138). -/
def Main.trapRec (m : Main) (w : WorkGroup) (la : Launch) (b : Bundle) (word : DWord) (pc : Nat) (t : TrapReq) :
    TrapRec :=
  { cls := t.cls, cause := t.cause, lane := t.lane, bundle := b.idx, pc := pc, wg := w.lin, word := word,
    coreRank := m.coreRank la.span w.core, spanRank := m.spanRank la.span, dbcode := t.dbcode, flags := t.flags,
    time := m.time / 1000 * 1000 }

/-- Whether a trap is recoverable (R136). -/
def trapRecoverable (la : Launch) (c : TrapClass) : Bool :=
  match c with
  | .sm => true
  | .pd => la.spec.rcvPd
  | _ => false

/-- The queue and packet a launch of this module came from. -/
def Launch.origin (l : Launch) : Option (QRef × Nat) :=
  match l.coord with
  | .queue q p => some (q, p)
  | .remote _ _ => none

/-- A trap taken (R136, R137): the launch's work groups and pending list are discarded, the first trap is kept and the
others counted, and a trap that is not recoverable marks the context LOST. -/
def Main.raiseTrap (m : Main) (w : WorkGroup) (la : Launch) (b : Bundle) (word : DWord) (pc : Nat) (t : TrapReq) :
    Main :=
  let rec0 := m.trapRec w la b word pc t
  let fatal := !trapRecoverable la t.cls
  let m1 := m.modLaunch la.id (fun l =>
    match l.trap with
    | none => { l with trap := some rec0, fatal := l.fatal || fatal,
                       firstFail := l.firstFail.orElse (fun _ =>
                         some (if t.cls = .sm then .scopeMismatch else .poisoned)) }
    | some _ => { l with moreTraps := min (l.moreTraps + 1) 255, fatal := l.fatal || fatal })
  let m2 := (if fatal then m1.keepRecords la.id else m1).discardWork la.id
  if fatal then
    match la.origin with
    | some (q, p) => m2.loseContext la.ctx q.q p
    | none => m2
  else m2

/-! ### Instruction words (R78) -/

/-- The word of an instruction: its class, function and fields. -/
def fieldWord (f : Fields) (cls func : Nat) : DWord :=
  BitVec.ofNat 64 (cls * 2 ^ 60 + func * 2 ^ 52 + b2n f.ge * 2 ^ 51 + b2n f.gn * 2 ^ 50 + f.gp.toNat * 2 ^ 47
    + f.dst.toNat * 2 ^ 40 + f.a.toNat * 2 ^ 33 + f.b.toNat * 2 ^ 26 + f.c.toNat * 2 ^ 19 + f.md.toNat)

/-- The fields of a word. -/
def fieldsOf (w : DWord) : Fields :=
  { ge := w.getLsbD 51, gn := w.getLsbD 50, gp := w.extractLsb' 47 3, dst := w.extractLsb' 40 7,
    a := w.extractLsb' 33 7, b := w.extractLsb' 26 7, c := w.extractLsb' 19 7, md := w.extractLsb' 0 19 }

/-- MOD bits [hi:lo]. -/
def fieldMod (f : Fields) (hi lo : Nat) : Nat := bits f.md.toNat hi lo

/-! ### Registers (R56, R59, R65) -/

namespace Bundle

/-- A vector register of a lane. -/
def getV (b : Bundle) (reg lane : Nat) : Word := nth b.v (reg * 32 + lane) 0
/-- A uniform register. -/
def getU (b : Bundle) (reg : Nat) : DWord := nth b.u reg 0
def setU (b : Bundle) (reg : Nat) (x : DWord) : Bundle := { b with u := b.u.set reg x }
/-- A predicate, as a mask of lanes. -/
def getP (b : Bundle) (reg : Nat) : Word := nth b.p reg 0
/-- A predicate's bits of the lanes of a mask replaced. -/
def setP (b : Bundle) (reg : Nat) (mask x : Word) : Bundle :=
  { b with p := b.p.set reg ((b.getP reg &&& ~~~mask) ||| (x &&& mask)) }

/-- A vector register of the lanes of a mask written; its poison goes (R65). -/
def setV (b : Bundle) (reg : Nat) (mask : Word) (f : Nat → Word) : Bundle :=
  let row := (List.range 32).map (fun l => if mask.getLsbD l then f l else b.getV reg l)
  { b with
    v := b.v.take (reg * 32) ++ row ++ b.v.drop (reg * 32 + 32)
    poison := b.poison.filter (fun x => !(x.1 / 32 == reg && mask.getLsbD (x.1 % 32))) }

/-- Registers of one lane from words, lowest first. -/
def setVs (b : Bundle) (reg lane : Nat) : List Word → Bundle
  | [] => b
  | w :: r => setVs (b.setV reg (1#32 <<< lane) (fun _ => w)) (reg + 1) lane r

/-- Registers of one lane written as poisoned with a cause: what they hold is open (R98). -/
def poisonVs (b : Bundle) (reg lane : Nat) (vals : List Nat) (s : Status) : Bundle :=
  let b1 := b.setVs reg lane (vals.map (BitVec.ofNat 32))
  { b1 with poison := b1.poison ++ (rangeFrom reg vals.length).map (fun r => (r * 32 + lane, s)) }

/-- The cause of the poison that a lane's registers carry, if any. -/
def poisonOf (b : Bundle) (reg n lane : Nat) : Option Status :=
  (b.poison.find? (fun x => x.1 % 32 == lane && decide (reg ≤ x.1 / 32) && decide (x.1 / 32 < reg + n))).map (·.2)

/-- Whether an operation in flight will write one of a lane's registers. -/
def pending (b : Bundle) (reg n lane : Nat) : Bool :=
  b.pend.any (fun p => p.lane == lane && decide (p.reg < reg + n) && decide (reg < p.reg + p.n))

end Bundle

/-! ### Issue -/

/-- Who executes an instruction: each active thread, the bundle when a thread is active, or the bundle whatever the
mask is (R56, R116). -/
inductive Kind where
  | thread | uniform | bundle
  deriving DecidableEq, Repr

/-- An instruction at issue. -/
structure Issue where
  br : BRef
  w : WorkGroup
  la : Launch
  b : Bundle
  f : Fields
  word : DWord
  mask : Word
  deriving DecidableEq, Repr

/-- The lanes that perform the instruction, ascending. -/
def Issue.lanes (i : Issue) : List Nat := (List.range 32).filter (fun l => i.mask.getLsbD l)

/-- What an instruction does when it has passed its checks. -/
inductive Act where
  /-- It completes: the bundle afterwards, its program counter set. -/
  | done (m : Main) (b : Bundle)
  /-- It traps and has no effect (R117). -/
  | trap (t : TrapReq)
  /-- It completes with its results and raises a trap before the next instruction (R118). -/
  | late (m : Main) (b : Bundle) (t : TrapReq)
  /-- It does not issue yet. -/
  | wait (m : Main) (x : Wait)
  /-- The step cannot occur. -/
  | stop (r : Refusal)

/-- An instruction: its class and function, who executes it, its field checks, the vector registers it reads and
writes (first register, how many), the misaligned and out-of-extent checks, the core-store ranges it accesses, what a lane
finds poisoned beside its registers, and its effect. -/
structure Ins where
  cls : Nat
  func : Nat
  kind : Kind
  legal : Issue → Bool
  reads : Issue → List (Nat × Nat)
  writes : Issue → List (Nat × Nat)
  addr : Main → Issue → Option TrapReq
  store : Issue → List (Nat × Nat) := fun _ => []
  bad : Main → Issue → Nat → Option Status := fun _ _ _ => none
  run : Main → Issue → Act

/-- Whether the class may carry a guard (R79). -/
def guarded (cls : Nat) : Bool := [1, 2, 3, 6, 7, 8, 9].contains cls

/-- The guard fields by R81. -/
def guardLegal (cls : Nat) (f : Fields) : Bool :=
  if guarded cls then f.ge || (!f.gn && f.gp == 0) else !f.ge && !f.gn && f.gp == 0

/-- The lanes that perform an instruction (R56, R81). -/
def Bundle.effective (b : Bundle) (f : Fields) : Word :=
  if f.ge then b.mask &&& (if f.gn then ~~~(b.getP f.gp.toNat) else b.getP f.gp.toNat) else b.mask

/-- n registers from a number on: a multiple of n, all declared (R58, R80). -/
def vRegs (regs r n : Nat) : Bool := r % n == 0 && decide (r + n ≤ regs)

/-- The lowest lane that meets poison, with its cause (R117, R118). -/
def poisonedLane (b : Bundle) (lanes : List Nat) (reads : List (Nat × Nat)) (bad : Nat → Option Status) :
    Option (Nat × Status) :=
  lanes.findSome? (fun l =>
    ((reads.findSome? (fun r => b.poisonOf r.1 r.2 l)).orElse (fun _ => bad l)).map (fun s => (l, s)))

/-- The outcome of a line of code asked for at the program counter (R67, R90). -/
inductive Fetched where
  | held (m : Main)
  | waits (lines : List Nat)
  | trap (t : TrapReq)

/-- The code line at the program counter: held, or filled from its home, where it may have to wait (R199, R215); a fill out of extent
or of a poisoned line traps (R67). The set, the span line number mod 64, is
PRESUMED; the line a full set of 8 gives up is free (assumption log 22). -/
def Main.fetch (m : Main) (w : WorkGroup) (la : Launch) (b : Bundle) : Fetched :=
  if la.spec.codeLen < b.pc + 8 then .trap (.plain .il 0xFF)
  else
    let sa := la.spec.codeAddr + b.pc
    let key := (w.core, la.span, sa / 128)
    if m.cores.icache.contains key then .held m
    else
      match m.mem.translate la.span sa with
      | none => .trap (.plain .ox 0xFF)
      | some lpa =>
        if m.coh.dead.contains (l2Agent (w.core / 9)) then .waits []
        else if m.lineHeldFor (some (.bundle w.id b.idx)) (lpa / 128) then .waits [lpa / 128]
        else
        let (s, m1) := m.homeUR (lpa / 128)
        if s.poison then .trap { cls := .pd, cause := .poisoned, lane := 0xFF, dbcode := 0, flags := 0 }
        else
          let same := m1.cores.icache.filter (fun x => x.1 == w.core && x.2.2 % 64 == sa / 128 % 64)
          if same.length < 8 then .held { m1 with cores := { m1.cores with icache := m1.cores.icache ++ [key] } }
          else
            let (r, m2) := m1.draw
            let v := nth same (r % same.length) key
            .held { m2 with cores := { m2.cores with icache := m2.cores.icache.filter (· != v) ++ [key] } }

/-- The bundle put back. -/
def Main.putBundle (m : Main) (br : BRef) (b : Bundle) : Main := m.modBundle br (fun _ => b)

/-- Whether a bundle can issue: running and restored, not ended, not waiting in a barrier, a counter or a fence (R54, R100,
R102, R103, R127, R131). -/
def Bundle.canIssue (w : WorkGroup) (b : Bundle) : Bool :=
  w.state == .running && w.reads.isEmpty && !b.ended &&
    (match b.waiting with
     | some (.barrier _ _) => false
     | some (.counter _ _) => false
     | some (.fence _) => false
     | _ => true)

/-- Whether an uncompleted TMMA of the bundle accesses bytes of some ranges (R63). -/
def Bundle.mmaTouches (b : Bundle) (rs : List (Nat × Nat)) : Bool :=
  b.mma.any (fun r => r.ranges.any (fun a => rs.any (fun x => overlap a.1 a.2 x.1 x.2)))

/-- The transfers of a bundle that have not completed, in issue order (R75). -/
def Main.xfersOf (m : Main) (wg bundle : Nat) : List Xfer :=
  match m.wgOf wg with | some w => w.xfers.filter (fun x => x.bundle == bundle) | none => []

/-- Whether an uncompleted transfer of the bundle that an access to some ranges comes after has a line that waits at its home (R63, R199,
R215). -/
def Main.xfersHeld (m : Main) (i : Issue) (rs : List (Nat × Nat)) : Bool :=
  let mine := m.xfersOf i.w.id i.b.idx
  (mine.take (touching mine rs)).any (m.xferHeld i.la.span)

/-- The effect of an instruction that has been fetched (R56, R63, R80, R81, R117, R118): what it accesses of core store after an
uncompleted TMMA or transfer waits for it before anything else is judged. MA and OX are judged on what a poisoned register
holds, a free value, before PD (DESIGN CHOICE, assumption log 28: R118 does not say whether they can be met there). -/
def Ins.exec (ins : Ins) (m : Main) (i : Issue) : Act :=
  let skip : Act := .done m { i.b with pc := i.b.pc + 8 }
  let lane := nth i.lanes 0 0xFF
  let go : Act :=
    if !(guardLegal ins.cls i.f && ins.legal i) then .trap (.plain .il (if ins.kind = .thread then lane else 0xFF))
    else if i.lanes.any (fun l => (ins.reads i ++ ins.writes i).any (fun r => i.b.pending r.1 r.2 l)) then
      .stop (.notReady "a register that an operation in flight will write")
    else if i.b.mmaTouches (ins.store i) then .wait m .tmma
    else if m.xfersHeld i (ins.store i) then .wait m .transfers
    else
      match ins.addr m i with
      | some t => .trap t
      | none =>
        match poisonedLane i.b i.lanes (ins.reads i) (ins.bad m i) with
        | some (l, s) => .trap { cls := .pd, cause := s, lane := l, dbcode := 0, flags := 0 }
        | none => ins.run m i
  match ins.kind with
  | .thread => if i.mask = 0 then skip else go
  | .uniform => if i.b.mask = 0 then skip else go
  | .bundle => go

/-- What error correction finds as an instruction issues (R65): a corrected error is counted and logged (R479); another poisons the
register, whose value is then open, or the row, and is recorded. -/
def Main.coreErr (m : Main) (w : WorkGroup) (b : Bundle) : CoreEcc → Main × Bundle
  | .clean => (m, b)
  | .corrected => (({ m with cores := { m.cores with corrected := m.cores.corrected + 1 } } : Main).log (.core w.core), b)
  | .register reg lane =>
    if b.v.length ≤ reg * 32 + lane then (m, b)
    else
      let (x, m1) := m.draw
      (m1.noteCore w.core (reg * 32 + lane), b.poisonVs reg lane [x] .poisoned)
  | .row off => ((m.csPoison w.core off 1).noteCore w.core off, b)

/-- The places that a bundle kept for the instruction it stood at are given up as it goes on. -/
def Main.goesOn (m : Main) (br : BRef) (b : Bundle) : Main :=
  if b.waiting = some .line then m.leaveTurns (.bundle br.wg br.idx) (fun _ => true) else m

/-- A bundle issues an instruction; it waits for a line of code or data in its turn at the line's home (R208). -/
def Ins.issue (ins : Ins) (br : BRef) (f : Fields) (m : Main) : Out :=
  match m.wgOf br.wg with
  | none => .refused (.noSubject "work group")
  | some w =>
    match m.bundleOf br, m.launchOf w.launch with
    | some b, some la =>
      if !Bundle.canIssue w b || m.rcv.resets.any (fun r => r.eng == ⟨0, w.core⟩) then .refused (.notReady "bundle")
      else
        let word := fieldWord f ins.cls ins.func
        match m.fetch w la b with
        | .waits ls => .next ((m.takeTurns (.bundle br.wg br.idx) ls).putBundle br { b with waiting := some .line })
        | .trap t => .next ((m.goesOn br b).raiseTrap w la b 0 b.pc t)
        | .held m1 =>
          let (m0, b0) := m1.coreErr w { b with waiting := none } br.ecc
          let i : Issue := { br := { br with ecc := .clean }, w := w, la := la, b := b0, f := f, word := word,
                              mask := b0.effective f &&& ~~~b0.sent }
          match ins.exec m0 i with
          | .done m1 b1 => .next ((m1.goesOn br b).putBundle br b1)
          | .trap t => .next ((m0.goesOn br b).raiseTrap w la b0 word b0.pc t)
          | .late m1 b1 t => .next (((m1.goesOn br b).putBundle br b1).raiseTrap w la b1 word b.pc t)
          | .wait m1 x => .next ((if x = .line then m1 else m1.goesOn br b).putBundle br { b0 with waiting := some x })
          | .stop r => .refused r
    | _, _ => .refused (.noSubject "bundle")

/-! ### Common shapes -/

def noRegs (_ : Issue) : List (Nat × Nat) := []
def noAddr (_ : Main) (_ : Issue) : Option TrapReq := none

/-- A bundle moved to the following instruction. -/
def Bundle.advance (b : Bundle) : Bundle := { b with pc := b.pc + 8 }

end Sys2Proof.Machine
end

