-- ==== Sys2Proof/Machine/Flags.lean ====
section
/-! DEFINITION. Vector flags and their promotion to traps (R44, R118, R135). -/

namespace Sys2Proof.Machine

/-- Completion with the flags each lane's operation set: a flag that TRAPEN promotes and that changed from 0 to 1 traps,
at the lowest lane that set it (R117, R118, R135). -/
def doneFlags (m : Main) (i : Issue) (b : Bundle) (fl : List (Nat × Byte)) : Act :=
  let all := fl.foldl (fun a x => a ||| x.2) 0
  let b1 := { b with vflags := i.b.vflags ||| all, pc := i.b.pc + 8 }
  let hot := b1.vflags &&& ~~~i.b.vflags &&& i.la.spec.trapEn
  if hot = 0 then .done m b1
  else
    let lane := match fl.find? (fun x => x.2 &&& hot != 0) with | some x => x.1 | none => 0xFF
    .late m b1 { cls := .af, cause := .ok, lane := lane, dbcode := 0, flags := b1.vflags }

end Sys2Proof.Machine
end

