-- ==== Sys2Proof/Machine/Operands.lean ====
section
/-! DEFINITION. Operand forms of the vector classes (R80, R82, R85). -/

namespace Sys2Proof.Machine

/-- The operand form in MOD[18:17] (R82): 0 .VV, 1 .VU, 2 .VI. -/
def Issue.form (i : Issue) : Nat := fieldMod i.f 18 17

/-- A u register number: bit [6] of the field is 0 (R80). -/
def uReg (x : BitVec 7) : Bool := !x.getLsbD 6
/-- A p register number: bits [6:3] are 0 (R80). -/
def pReg (x : BitVec 7) : Bool := decide (x.toNat < 8)
/-- A t register number: bits [6:4] are 0 (R80). -/
def tReg (x : BitVec 7) : Bool := decide (x.toNat < 16)
/-- A declared v register (R58). -/
def Issue.vReg (i : Issue) (x : BitVec 7) : Bool := decide (x.toNat < i.la.spec.regs)
/-- n consecutive v registers (R80). -/
def Issue.vRegN (i : Issue) (x : BitVec 7) (n : Nat) : Bool := vRegs i.la.spec.regs x.toNat n

/-- SRCB under the forms: a v register, a u register, or unused (R82). -/
def Issue.bLegal (i : Issue) : Bool :=
  match i.form with
  | 0 => i.vReg i.f.b
  | 1 => uReg i.f.b
  | 2 => i.f.b == 0
  | _ => false

/-- The v registers operand B reads. -/
def Issue.bReads (i : Issue) : List (Nat × Nat) := if i.form = 0 then [(i.f.b.toNat, 1)] else []

/-- The 17-bit immediate of the integer class (R82). -/
def intImm (f : Fields) : Word := (f.md.setWidth 17).signExtend 32

/-- The immediate of the FP32 class: bits [31:15] (R82). -/
def fpImm (f : Fields) : Word := (f.md.setWidth 17).setWidth 32 <<< 15

/-- Operand B of a lane (R82). -/
def Issue.bVal (i : Issue) (fp : Bool) (lane : Nat) : Word :=
  match i.form with
  | 0 => i.b.getV i.f.b.toNat lane
  | 1 => (i.b.getU i.f.b.toNat).setWidth 32
  | _ => if fp then fpImm i.f else intImm i.f

/-- Absolute value, then negation, of an FP32 operand (R85). -/
def fpModify (w : Word) (neg abs : Bool) : Word :=
  let a := if abs then w &&& 0x7FFFFFFF#32 else w
  if neg then a ^^^ 0x80000000#32 else a

end Sys2Proof.Machine
end

