-- ==== Sys2Proof/Machine/Integer.lean ====
section
/-! DEFINITION. The integer class (R82-R84). -/

namespace Sys2Proof.Machine

/-- A two-operand integer operation on each active thread (R84). -/
def intIns (func : Nat) (op : Word → Word → Word) : Ins :=
  { cls := 1, func := func, kind := .thread
    legal := fun i => i.vReg i.f.dst && i.vReg i.f.a && i.bLegal && i.f.c == 0 &&
      (i.form == 2 || fieldMod i.f 16 0 == 0)
    reads := fun i => (i.f.a.toNat, 1) :: i.bReads
    writes := fun i => [(i.f.dst.toNat, 1)]
    addr := noAddr
    run := fun m i =>
      .done m (i.b.setV i.f.dst.toNat i.mask
        (fun l => op (i.b.getV i.f.a.toNat l) (i.bVal false l))).advance }

/-- A one-operand integer operation: .VV with SRCB and SRCC 0 (R82). -/
def intIns1 (func : Nat) (op : Word → Word) : Ins :=
  { cls := 1, func := func, kind := .thread
    legal := fun i => i.vReg i.f.dst && i.vReg i.f.a && i.f.b == 0 && i.f.c == 0 && i.f.md == 0
    reads := fun i => [(i.f.a.toNat, 1)]
    writes := fun i => [(i.f.dst.toNat, 1)]
    addr := noAddr
    run := fun m i => .done m (i.b.setV i.f.dst.toNat i.mask (fun l => op (i.b.getV i.f.a.toNat l))).advance }

/-- IMAC: no .VI form (R82, R84). -/
def imacIns : Ins :=
  { cls := 1, func := 0x05, kind := .thread
    legal := fun i => i.vReg i.f.dst && i.vReg i.f.a && i.vReg i.f.c && i.bLegal && i.form != 2 &&
      fieldMod i.f 16 0 == 0
    reads := fun i => (i.f.a.toNat, 1) :: (i.f.c.toNat, 1) :: i.bReads
    writes := fun i => [(i.f.dst.toNat, 1)]
    addr := noAddr
    run := fun m i =>
      .done m (i.b.setV i.f.dst.toNat i.mask (fun l =>
        i.b.getV i.f.a.toNat l * i.bVal false l + i.b.getV i.f.c.toNat l)).advance }

/-- The lanes of a mask for which a test holds. -/
def laneMask (f : Nat → Bool) : Word :=
  (List.range 32).foldl (fun w l => if f l then w ||| (1#32 <<< l) else w) 0

/-- ICMP (R83). -/
def icmpIns : Ins :=
  { cls := 1, func := 0x10, kind := .thread
    legal := fun i => pReg i.f.dst && i.vReg i.f.a && i.bLegal && i.form != 2 && i.f.c == 0 &&
      fieldMod i.f 16 4 == 0 && (icmpCode (fieldMod i.f 3 0) (0#32) 0).isSome
    reads := fun i => (i.f.a.toNat, 1) :: i.bReads
    writes := noRegs
    addr := noAddr
    run := fun m i =>
      .done m (i.b.setP i.f.dst.toNat i.mask (laneMask (fun l =>
        (icmpCode (fieldMod i.f 3 0) (i.b.getV i.f.a.toNat l) (i.bVal false l)).getD false))).advance }

/-- PICK (R84). -/
def pickIns : Ins :=
  { cls := 1, func := 0x11, kind := .thread
    legal := fun i => i.vReg i.f.dst && i.vReg i.f.a && i.bLegal && i.form != 2 && i.f.c == 0 &&
      fieldMod i.f 16 7 == 0 && fieldMod i.f 3 0 == 0
    reads := fun i => (i.f.a.toNat, 1) :: i.bReads
    writes := fun i => [(i.f.dst.toNat, 1)]
    addr := noAddr
    run := fun m i =>
      .done m (i.b.setV i.f.dst.toNat i.mask (fun l =>
        if (i.b.getP (fieldMod i.f 6 4)).getLsbD l then i.b.getV i.f.a.toNat l else i.bVal false l)).advance }

/-- The source lane of XLANE (R84). -/
def Issue.xlane (i : Issue) (l : Nat) : Nat := (i.bVal false l).toNat % 32

/-- XLANE reads the source lane's register whether or not that lane is active (R84). -/
def xlaneIns : Ins :=
  { cls := 1, func := 0x15, kind := .thread
    legal := fun i => i.vReg i.f.dst && i.vReg i.f.a && i.bLegal && i.f.c == 0 &&
      (i.form == 2 || fieldMod i.f 16 0 == 0)
    reads := fun i => i.bReads
    writes := fun i => [(i.f.dst.toNat, 1)]
    addr := noAddr
    bad := fun _ i l => i.b.poisonOf i.f.a.toNat 1 (i.xlane l)
    run := fun m i =>
      if i.lanes.any (fun l => i.b.pending i.f.a.toNat 1 (i.xlane l)) then
        .stop (.notReady "a register that an operation in flight will write")
      else .done m (i.b.setV i.f.dst.toNat i.mask (fun l => i.b.getV i.f.a.toNat (i.xlane l))).advance }

/-- The high word of the signed product. -/
def mulHighS (a b : Word) : Word := BitVec.ofInt 32 (a.toInt * b.toInt / 2 ^ 32)
/-- The high word of the unsigned product. -/
def mulHighU (a b : Word) : Word := BitVec.ofNat 32 (a.toNat * b.toNat / 2 ^ 32)
/-- The number of 1 bits. -/
def popCount (a : Word) : Word := BitVec.ofNat 32 (bitsSet 32 a.toNat).length
/-- Leading zero bits, 32 for zero. -/
def leadZeros (a : Word) : Word := BitVec.ofNat 32 (32 - bitLen a.toNat)

/-- IADD (R84). -/
def execIadd (b : BRef) (f : Fields) (s : State) : Outcome := onMain ((intIns 0x00 (· + ·)).issue b f) s
/-- ISUB (R84). -/
def execIsub (b : BRef) (f : Fields) (s : State) : Outcome := onMain ((intIns 0x01 (· - ·)).issue b f) s
/-- IMUL (R84). -/
def execImul (b : BRef) (f : Fields) (s : State) : Outcome := onMain ((intIns 0x02 (· * ·)).issue b f) s
/-- IMULHS (R84). -/
def execImulhs (b : BRef) (f : Fields) (s : State) : Outcome := onMain ((intIns 0x03 mulHighS).issue b f) s
/-- IMULHU (R84). -/
def execImulhu (b : BRef) (f : Fields) (s : State) : Outcome := onMain ((intIns 0x04 mulHighU).issue b f) s
/-- IMAC (R84). -/
def execImac (b : BRef) (f : Fields) (s : State) : Outcome := onMain (imacIns.issue b f) s
/-- AND (R84). -/
def execAnd (b : BRef) (f : Fields) (s : State) : Outcome := onMain ((intIns 0x06 (· &&& ·)).issue b f) s
/-- OR (R84). -/
def execOr (b : BRef) (f : Fields) (s : State) : Outcome := onMain ((intIns 0x07 (· ||| ·)).issue b f) s
/-- XOR (R84). -/
def execXor (b : BRef) (f : Fields) (s : State) : Outcome := onMain ((intIns 0x08 (· ^^^ ·)).issue b f) s
/-- SHL: bits [4:0] of the count (R84). -/
def execShl (b : BRef) (f : Fields) (s : State) : Outcome :=
  onMain ((intIns 0x09 (fun x y => x <<< (y.toNat % 32))).issue b f) s
/-- SHR (R84). -/
def execShr (b : BRef) (f : Fields) (s : State) : Outcome :=
  onMain ((intIns 0x0A (fun x y => x >>> (y.toNat % 32))).issue b f) s
/-- SAR (R84). -/
def execSar (b : BRef) (f : Fields) (s : State) : Outcome :=
  onMain ((intIns 0x0B (fun x y => x.sshiftRight (y.toNat % 32))).issue b f) s
/-- IMINS (R84). -/
def execImins (b : BRef) (f : Fields) (s : State) : Outcome :=
  onMain ((intIns 0x0C (fun x y => if x.sle y then x else y)).issue b f) s
/-- IMAXS (R84). -/
def execImaxs (b : BRef) (f : Fields) (s : State) : Outcome :=
  onMain ((intIns 0x0D (fun x y => if x.sle y then y else x)).issue b f) s
/-- IMINU (R84). -/
def execIminu (b : BRef) (f : Fields) (s : State) : Outcome :=
  onMain ((intIns 0x0E (fun x y => if x.ule y then x else y)).issue b f) s
/-- IMAXU (R84). -/
def execImaxu (b : BRef) (f : Fields) (s : State) : Outcome :=
  onMain ((intIns 0x0F (fun x y => if x.ule y then y else x)).issue b f) s
/-- ICMP (R83, R84). -/
def execIcmp (b : BRef) (f : Fields) (s : State) : Outcome := onMain (icmpIns.issue b f) s
/-- PICK (R84). -/
def execPick (b : BRef) (f : Fields) (s : State) : Outcome := onMain (pickIns.issue b f) s
/-- BITCNT (R84). -/
def execBitcnt (b : BRef) (f : Fields) (s : State) : Outcome := onMain ((intIns1 0x12 popCount).issue b f) s
/-- CLZ (R84). -/
def execClz (b : BRef) (f : Fields) (s : State) : Outcome := onMain ((intIns1 0x13 leadZeros).issue b f) s
/-- MOV (R84). -/
def execMov (b : BRef) (f : Fields) (s : State) : Outcome := onMain ((intIns1 0x14 (fun x => x)).issue b f) s
/-- XLANE (R84). -/
def execXlane (b : BRef) (f : Fields) (s : State) : Outcome := onMain (xlaneIns.issue b f) s

end Sys2Proof.Machine
end

