-- ==== Sys2Proof/Machine/VectorFp.lean ====
section
/-! DEFINITION. The FP32 class (R82, R83, R85, R86). -/

namespace Sys2Proof.Machine

/-- The rounding mode of the FP32 class: MOD[16:14], or RNE in .VI form (R85). -/
def Issue.fpMode (i : Issue) : RMode :=
  if i.form = 2 then .rne else (RMode.ofCode (fieldMod i.f 16 14)).getD .rne

/-- Operand A with its modifiers (R85). -/
def Issue.fpA (i : Issue) (l : Nat) : Word :=
  let a := i.b.getV i.f.a.toNat l
  if i.form = 2 then a else fpModify a (bit i.f.md.toNat 13) (bit i.f.md.toNat 10)

/-- Operand B with its modifiers (R85). -/
def Issue.fpB (i : Issue) (l : Nat) : Word :=
  let b := i.bVal true l
  if i.form = 2 then b else fpModify b (bit i.f.md.toNat 12) (bit i.f.md.toNat 9)

/-- Operand C with its modifier (R85). -/
def Issue.fpC (i : Issue) (l : Nat) : Word := fpModify (i.b.getV i.f.c.toNat l) (bit i.f.md.toNat 11) false

/-- A rounding mode that the class takes: 0 to 3 (R85). -/
def fpModeOk (f : Fields) : Bool := decide (fieldMod f 16 14 ≤ 3)

/-- The registers of a lane written with results, their flags collected (R44). -/
def writeFp (m : Main) (i : Issue) (op : Nat → FRes) : Act :=
  doneFlags m i (i.b.setV i.f.dst.toNat i.mask (fun l => (op l).1)) (i.lanes.map (fun l => (l, (op l).2)))

/-- An operation on A and B (R85). -/
def fpIns (func : Nat) (op : RMode → Num → Num → FRes) : Ins :=
  { cls := 2, func := func, kind := .thread
    legal := fun i => i.vReg i.f.dst && i.vReg i.f.a && i.bLegal && i.f.c == 0 &&
      (i.form == 2 || (fpModeOk i.f && fieldMod i.f 11 11 == 0 && fieldMod i.f 8 0 == 0))
    reads := fun i => (i.f.a.toNat, 1) :: i.bReads
    writes := fun i => [(i.f.dst.toNat, 1)]
    addr := noAddr
    run := fun m i => writeFp m i (fun l => op i.fpMode (f32 (i.fpA l)) (f32 (i.fpB l))) }

/-- FMAC: no .VI form (R82, R85). -/
def fmacIns : Ins :=
  { cls := 2, func := 0x03, kind := .thread
    legal := fun i => i.vReg i.f.dst && i.vReg i.f.a && i.vReg i.f.c && i.bLegal && i.form != 2 && fpModeOk i.f &&
      fieldMod i.f 8 0 == 0
    reads := fun i => (i.f.a.toNat, 1) :: (i.f.c.toNat, 1) :: i.bReads
    writes := fun i => [(i.f.dst.toNat, 1)]
    addr := noAddr
    run := fun m i => writeFp m i (fun l => fFma i.fpMode (f32 (i.fpA l)) (f32 (i.fpB l)) (f32 (i.fpC l))) }

/-- An operation on A alone: .VV with SRCB and SRCC 0 (R82); `fixed` says that the rounding field must be 0 (R86). -/
def fpIns1 (func : Nat) (fixed : Bool) (op : RMode → Word → FRes) : Ins :=
  { cls := 2, func := func, kind := .thread
    legal := fun i => i.vReg i.f.dst && i.vReg i.f.a && i.f.b == 0 && i.f.c == 0 && i.form == 0 &&
      (if fixed then fieldMod i.f 16 14 == 0 else fpModeOk i.f) && fieldMod i.f 12 11 == 0 && fieldMod i.f 9 0 == 0
    reads := fun i => [(i.f.a.toNat, 1)]
    writes := fun i => [(i.f.dst.toNat, 1)]
    addr := noAddr
    run := fun m i => writeFp m i (fun l => op i.fpMode (i.fpA l)) }

/-- FCMP: no .VI form; a comparison sets no flag (R82, R83). -/
def fcmpIns : Ins :=
  { cls := 2, func := 0x08, kind := .thread
    legal := fun i => pReg i.f.dst && i.vReg i.f.a && i.bLegal && i.form != 2 && i.f.c == 0 && fpModeOk i.f &&
      fieldMod i.f 11 11 == 0 && fieldMod i.f 8 4 == 0 && (fcmpCode (fieldMod i.f 3 0) .zero .zero).isSome
    reads := fun i => (i.f.a.toNat, 1) :: i.bReads
    writes := noRegs
    addr := noAddr
    run := fun m i =>
      .done m (i.b.setP i.f.dst.toNat i.mask (laneMask (fun l =>
        (fcmpCode (fieldMod i.f 3 0) (f32 (i.fpA l)) (f32 (i.fpB l))).getD false))).advance }

/-- FADD (R85). -/
def execFadd (b : BRef) (f : Fields) (s : State) : Outcome := onMain ((fpIns 0x00 fAdd).issue b f) s
/-- FSUB (R85). -/
def execFsub (b : BRef) (f : Fields) (s : State) : Outcome :=
  onMain ((fpIns 0x01 (fun r x y => fAdd r x y.neg)).issue b f) s
/-- FMUL (R85). -/
def execFmul (b : BRef) (f : Fields) (s : State) : Outcome := onMain ((fpIns 0x02 fMul).issue b f) s
/-- FMAC (R85). -/
def execFmac (b : BRef) (f : Fields) (s : State) : Outcome := onMain (fmacIns.issue b f) s
/-- FDIV (R85). -/
def execFdiv (b : BRef) (f : Fields) (s : State) : Outcome := onMain ((fpIns 0x04 fDiv).issue b f) s
/-- FSQRT (R85). -/
def execFsqrt (b : BRef) (f : Fields) (s : State) : Outcome :=
  onMain ((fpIns1 0x05 false (fun r x => fSqrt r (f32 x))).issue b f) s
/-- FMIN (R85). -/
def execFmin (b : BRef) (f : Fields) (s : State) : Outcome :=
  onMain ((fpIns 0x06 (fun _ x y => fMin x y)).issue b f) s
/-- FMAX (R85). -/
def execFmax (b : BRef) (f : Fields) (s : State) : Outcome :=
  onMain ((fpIns 0x07 (fun _ x y => fMax x y)).issue b f) s
/-- FCMP (R83, R85). -/
def execFcmp (b : BRef) (f : Fields) (s : State) : Outcome := onMain (fcmpIns.issue b f) s
/-- FPOW2 (R86). -/
def execFpow2 (b : BRef) (f : Fields) (s : State) : Outcome :=
  onMain ((fpIns1 0x09 true (fun _ x => fPow2 x)).issue b f) s
/-- FLOG2 (R86). -/
def execFlog2 (b : BRef) (f : Fields) (s : State) : Outcome :=
  onMain ((fpIns1 0x0A true (fun _ x => fLog2 x)).issue b f) s

end Sys2Proof.Machine
end

