-- ==== Sys2Proof/Machine/Convert.lean ====
section
/-! DEFINITION. The conversion and predicate class (R87, R88). -/

namespace Sys2Proof.Machine

/-- The width of a format's slot in a register (R88). -/
def Elem.slotBits (t : Elem) : Nat :=
  match t with
  | .fp32 => 32
  | .bf16 => 16 | .fp16 => 16
  | .e4m3 => 8 | .e5m2 => 8 | .int8 => 8 | .e2m3 => 8 | .e3m2 => 8
  | .fp4 => 4 | .int4 => 4
  | .acc128 => 0

/-- How many slots a register has for a format; none for ACC128. -/
def Elem.slots (t : Elem) : Nat := if t.slotBits = 0 then 0 else 32 / t.slotBits

def Issue.cvtSrc (i : Issue) : Option Elem := Elem.ofCode (fieldMod i.f 18 15)
def Issue.cvtDst (i : Issue) : Option Elem := Elem.ofCode (fieldMod i.f 14 11)

/-- A word with a slot replaced; bits above the element in its slot are 0 (R88). -/
def putSlot (w : Word) (slot width code : Nat) : Word :=
  let mask : Word := BitVec.ofNat 32 ((2 ^ width - 1) * 2 ^ (slot * width))
  (w &&& ~~~mask) ||| (BitVec.ofNat 32 (code * 2 ^ (slot * width)) &&& mask)

/-- CVT of one element: the new register and the flags. -/
def cvtOne (src dst : Elem) (mode : RMode) (ieee : Bool) (dslot sslot : Nat) (old w : Word) : FRes :=
  let code := w.toNat / 2 ^ (sslot * src.slotBits) % 2 ^ src.bits
  let r := dst.convert mode ieee 0 (src.value code)
  (putSlot old dslot dst.slotBits r.1, r.2)

/-- Whether CVT reads v[DST]: not when the destination is FP32 (R88). -/
def Issue.cvtReadsDst (i : Issue) : Bool := i.cvtDst != some .fp32

/-- CVT (R88). -/
def cvtIns : Ins :=
  { cls := 3, func := 0x00, kind := .thread
    legal := fun i => i.vReg i.f.dst && i.vReg i.f.a && i.f.b == 0 && i.f.c == 0 &&
      (match i.cvtSrc, i.cvtDst with
       | some s, some d => decide (fieldMod i.f 3 1 < s.slots) && decide (fieldMod i.f 6 4 < d.slots)
       | _, _ => false) &&
      decide (fieldMod i.f 10 8 ≤ 3) && fieldMod i.f 0 0 == 0
    reads := fun i => (i.f.a.toNat, 1) :: (if i.cvtReadsDst then [(i.f.dst.toNat, 1)] else [])
    writes := fun i => [(i.f.dst.toNat, 1)]
    addr := noAddr
    run := fun m i => writeFp m i (fun l =>
      cvtOne (i.cvtSrc.getD .fp32) (i.cvtDst.getD .fp32) ((RMode.ofCode (fieldMod i.f 10 8)).getD .rne)
        (bit i.f.md.toNat 7) (fieldMod i.f 6 4) (fieldMod i.f 3 1) (i.b.getV i.f.dst.toNat l)
        (i.b.getV i.f.a.toNat l)) }

/-- The rounding mode of I2F and F2I (R87). -/
def Issue.cvtMode (i : Issue) : RMode := (RMode.ofCode (fieldMod i.f 2 0)).getD .rne

/-- I2F: an integer as FP32 (R87). -/
def i2fOne (mode : RMode) (unsignedIn : Bool) (w : Word) : FRes :=
  roundF32 mode (Num.ofInt (if unsignedIn then (w.toNat : Int) else w.toInt))

/-- F2I: FP32 as INT32, limited to the range (R87). -/
def f2iOne (mode : RMode) (unsignedOut : Bool) (w : Word) : FRes :=
  let r := if unsignedOut then convertInt 0 0xFFFFFFFF mode 0 (f32 w)
    else convertInt (-0x80000000) 0x7FFFFFFF mode 0 (f32 w)
  (BitVec.ofInt 32 r.1, r.2)

/-- I2F and F2I: MOD[4] unsigned, MOD[2:0] a rounding mode of 0 to 3 (R87). -/
def intFpIns (func : Nat) (op : RMode → Bool → Word → FRes) : Ins :=
  { cls := 3, func := func, kind := .thread
    legal := fun i => i.vReg i.f.dst && i.vReg i.f.a && i.f.b == 0 && i.f.c == 0 && fieldMod i.f 18 5 == 0 &&
      fieldMod i.f 3 2 == 0
    reads := fun i => [(i.f.a.toNat, 1)]
    writes := fun i => [(i.f.dst.toNat, 1)]
    addr := noAddr
    run := fun m i => writeFp m i (fun l => op i.cvtMode (bit i.f.md.toNat 4) (i.b.getV i.f.a.toNat l)) }

/-- A predicate operation on two predicates (R87). -/
def predIns (func : Nat) (op : Word → Word → Word) : Ins :=
  { cls := 3, func := func, kind := .thread
    legal := fun i => pReg i.f.dst && pReg i.f.a && pReg i.f.b && i.f.c == 0 && i.f.md == 0
    reads := noRegs, writes := noRegs, addr := noAddr
    run := fun m i =>
      .done m (i.b.setP i.f.dst.toNat i.mask (op (i.b.getP i.f.a.toNat) (i.b.getP i.f.b.toNat))).advance }

/-- PNOT (R87). -/
def pnotIns : Ins :=
  { cls := 3, func := 0x0B, kind := .thread
    legal := fun i => pReg i.f.dst && pReg i.f.a && i.f.b == 0 && i.f.c == 0 && i.f.md == 0
    reads := noRegs, writes := noRegs, addr := noAddr
    run := fun m i => .done m (i.b.setP i.f.dst.toNat i.mask (~~~(i.b.getP i.f.a.toNat))).advance }

/-- PSET (R87). -/
def psetIns : Ins :=
  { cls := 3, func := 0x0C, kind := .thread
    legal := fun i => pReg i.f.dst && i.f.a == 0 && i.f.b == 0 && i.f.c == 0 && fieldMod i.f 18 1 == 0
    reads := noRegs, writes := noRegs, addr := noAddr
    run := fun m i =>
      .done m (i.b.setP i.f.dst.toNat i.mask (if i.f.md.getLsbD 0 then 0xFFFFFFFF#32 else 0)).advance }

/-- CVT (R88). -/
def execCvt (b : BRef) (f : Fields) (s : State) : Outcome := onMain (cvtIns.issue b f) s
/-- I2F (R87). -/
def execI2f (b : BRef) (f : Fields) (s : State) : Outcome := onMain ((intFpIns 0x01 i2fOne).issue b f) s
/-- F2I (R87). -/
def execF2i (b : BRef) (f : Fields) (s : State) : Outcome := onMain ((intFpIns 0x02 f2iOne).issue b f) s
/-- PAND (R87). -/
def execPand (b : BRef) (f : Fields) (s : State) : Outcome := onMain ((predIns 0x08 (· &&& ·)).issue b f) s
/-- POR (R87). -/
def execPor (b : BRef) (f : Fields) (s : State) : Outcome := onMain ((predIns 0x09 (· ||| ·)).issue b f) s
/-- PXOR (R87). -/
def execPxor (b : BRef) (f : Fields) (s : State) : Outcome := onMain ((predIns 0x0A (· ^^^ ·)).issue b f) s
/-- PNOT (R87). -/
def execPnot (b : BRef) (f : Fields) (s : State) : Outcome := onMain (pnotIns.issue b f) s
/-- PSET (R87). -/
def execPset (b : BRef) (f : Fields) (s : State) : Outcome := onMain (psetIns.issue b f) s

end Sys2Proof.Machine
end

