-- ==== Sys2Proof/Machine/Uniform.lean ====
section
/-! DEFINITION. The uniform class (R89). -/

namespace Sys2Proof.Machine

/-- A uniform instruction that writes one u register. -/
def uniIns (func : Nat) (legal : Issue → Bool) (val : Issue → DWord) : Ins :=
  { cls := 4, func := func, kind := .uniform
    legal := fun i => uReg i.f.dst && legal i
    reads := noRegs, writes := noRegs, addr := noAddr
    run := fun m i => .done m (i.b.setU i.f.dst.toNat (val i)).advance }

/-- An operation on two u registers (R89). -/
def uniIns2 (func : Nat) (op : DWord → DWord → DWord) : Ins :=
  uniIns func (fun i => uReg i.f.a && uReg i.f.b && i.f.c == 0 && i.f.md == 0)
    (fun i => op (i.b.getU i.f.a.toNat) (i.b.getU i.f.b.toNat))

/-- Bits [39:0] of the word (R89). -/
def fieldImm (f : Fields) : BitVec 40 :=
  BitVec.ofNat 40 (f.a.toNat * 2 ^ 33 + f.b.toNat * 2 ^ 26 + f.c.toNat * 2 ^ 19 + f.md.toNat)

/-- UMOV. -/
def umovIns : Ins :=
  uniIns 0x09 (fun i => uReg i.f.a && i.f.b == 0 && i.f.c == 0 && i.f.md == 0) (fun i => i.b.getU i.f.a.toNat)

/-- ULDI: the immediate sign-extended. -/
def uldiIns : Ins := uniIns 0x0A (fun _ => true) (fun i => (fieldImm i.f).signExtend 64)

/-- ULDHI: bits [63:40] from bits [23:0] of the word. -/
def uldhiIns : Ins :=
  uniIns 0x0B (fun i => (fieldImm i.f).toNat / 2 ^ 24 == 0)
    (fun i => BitVec.ofNat 64 ((fieldImm i.f).toNat % 2 ^ 24 * 2 ^ 40 + (i.b.getU i.f.dst.toNat).toNat % 2 ^ 40))

/-- UCMP. -/
def ucmpIns : Ins :=
  uniIns 0x0C
    (fun i => uReg i.f.a && uReg i.f.b && i.f.c == 0 && fieldMod i.f 18 4 == 0 &&
      (icmpCode (fieldMod i.f 3 0) (0#64) 0).isSome)
    (fun i => if (icmpCode (fieldMod i.f 3 0) (i.b.getU i.f.a.toNat) (i.b.getU i.f.b.toNat)).getD false then 1 else 0)

/-- UADDI. -/
def uaddiIns : Ins :=
  uniIns 0x0D (fun i => uReg i.f.a && i.f.b == 0 && i.f.c == 0)
    (fun i => i.b.getU i.f.a.toNat + i.f.md.signExtend 64)

/-- ULANE reads the lane whether or not it is active; a poisoned register traps (R89, R118). -/
def ulaneIns : Ins :=
  { cls := 4, func := 0x0E, kind := .uniform
    legal := fun i => uReg i.f.dst && i.vReg i.f.a && i.f.b == 0 && i.f.c == 0 && fieldMod i.f 18 5 == 0
    reads := noRegs, writes := noRegs, addr := noAddr
    run := fun m i =>
      let lane := fieldMod i.f 4 0
      if i.b.pending i.f.a.toNat 1 lane then .stop (.notReady "a register that an operation in flight will write")
      else
        match i.b.poisonOf i.f.a.toNat 1 lane with
        | some s => .trap { cls := .pd, cause := s, lane := 0xFF, dbcode := 0, flags := 0 }
        | none => .done m (i.b.setU i.f.dst.toNat ((i.b.getV i.f.a.toNat lane).setWidth 64)).advance }

/-- UVOTE: the active threads whose predicate is 1. -/
def uvoteIns : Ins :=
  uniIns 0x0F (fun i => pReg i.f.a && i.f.b == 0 && i.f.c == 0 && i.f.md == 0)
    (fun i => (i.b.mask &&& i.b.getP i.f.a.toNat).setWidth 64)

/-- UADD (R89). -/
def execUadd (b : BRef) (f : Fields) (s : State) : Outcome := onMain ((uniIns2 0x00 (· + ·)).issue b f) s
/-- USUB (R89). -/
def execUsub (b : BRef) (f : Fields) (s : State) : Outcome := onMain ((uniIns2 0x01 (· - ·)).issue b f) s
/-- UMUL (R89). -/
def execUmul (b : BRef) (f : Fields) (s : State) : Outcome := onMain ((uniIns2 0x02 (· * ·)).issue b f) s
/-- UAND (R89). -/
def execUand (b : BRef) (f : Fields) (s : State) : Outcome := onMain ((uniIns2 0x03 (· &&& ·)).issue b f) s
/-- UOR (R89). -/
def execUor (b : BRef) (f : Fields) (s : State) : Outcome := onMain ((uniIns2 0x04 (· ||| ·)).issue b f) s
/-- UXOR (R89). -/
def execUxor (b : BRef) (f : Fields) (s : State) : Outcome := onMain ((uniIns2 0x05 (· ^^^ ·)).issue b f) s
/-- USHL: bits [5:0] of the count (R89). -/
def execUshl (b : BRef) (f : Fields) (s : State) : Outcome :=
  onMain ((uniIns2 0x06 (fun x y => x <<< (y.toNat % 64))).issue b f) s
/-- USHR (R89). -/
def execUshr (b : BRef) (f : Fields) (s : State) : Outcome :=
  onMain ((uniIns2 0x07 (fun x y => x >>> (y.toNat % 64))).issue b f) s
/-- USAR (R89). -/
def execUsar (b : BRef) (f : Fields) (s : State) : Outcome :=
  onMain ((uniIns2 0x08 (fun x y => x.sshiftRight (y.toNat % 64))).issue b f) s
/-- UMOV (R89). -/
def execUmov (b : BRef) (f : Fields) (s : State) : Outcome := onMain (umovIns.issue b f) s
/-- ULDI (R89). -/
def execUldi (b : BRef) (f : Fields) (s : State) : Outcome := onMain (uldiIns.issue b f) s
/-- ULDHI (R89). -/
def execUldhi (b : BRef) (f : Fields) (s : State) : Outcome := onMain (uldhiIns.issue b f) s
/-- UCMP (R83, R89). -/
def execUcmp (b : BRef) (f : Fields) (s : State) : Outcome := onMain (ucmpIns.issue b f) s
/-- UADDI (R89). -/
def execUaddi (b : BRef) (f : Fields) (s : State) : Outcome := onMain (uaddiIns.issue b f) s
/-- ULANE (R89). -/
def execUlane (b : BRef) (f : Fields) (s : State) : Outcome := onMain (ulaneIns.issue b f) s
/-- UVOTE (R89). -/
def execUvote (b : BRef) (f : Fields) (s : State) : Outcome := onMain (uvoteIns.issue b f) s

end Sys2Proof.Machine
end

