-- ==== Sys2Proof/Machine/Groups.lean ====
section
/-! DEFINITION. Barriers, the end of bundles and of work groups (R91, R100, R110, R125, R134). -/

namespace Sys2Proof.Machine

/-- Bit i of a 64-bit arrival mask set. -/
def maskSet (w : DWord) (i : Nat) : DWord := w ||| (1#64 <<< i)

/-- Whether every bundle that has not ended has arrived at an id (R100). -/
def WorkGroup.allArrived (w : WorkGroup) (id : Nat) : Bool :=
  w.bundles.all (fun b => b.ended || (nth w.barriers id 0).getLsbD b.idx)

/-- The bundles waiting at an id leave together when all have arrived (R100). -/
def WorkGroup.leaveBarrier (w : WorkGroup) (id : Nat) : WorkGroup :=
  let here (b : Bundle) : Bool := match b.waiting with | some (.barrier n _) => n == id | _ => false
  if w.bundles.any here && w.allArrived id then
    { w with
      barriers := w.barriers.set id 0
      bundles := w.bundles.map (fun b => if here b then { b with waiting := none, pc := b.pc + 8 } else b) }
  else w

/-- Every id looked at, after a bundle has ended. -/
def WorkGroup.leaveBarriers (w : WorkGroup) : WorkGroup := (List.range 16).foldl (fun w id => w.leaveBarrier id) w

/-- A bundle that has ended: its flags join the launch's, and it counts as arrived everywhere (R100, R134). The chains
it left open stay its own until its work group ends (R110). -/
def Main.bundleEnded (m : Main) (w : WorkGroup) (b : Bundle) : Main :=
  let m1 := m.modLaunch w.launch (fun l => { l with flags := l.flags ||| b.vflags })
  m1.modWg w.id (fun w => w.leaveBarriers)

/-- A TMMA of the work group that has not completed and whose flags trap when it does (R118, R135). -/
def WorkGroup.hotMma (w : WorkGroup) (la : Launch) : Option (Bundle × MmaRun) :=
  w.bundles.findSome? (fun b => (b.mma.find? (fun r => r.newFlags &&& la.spec.trapEn != 0)).map (fun r => (b, r)))

/-- A work group whose bundles have all ended, once no transfer of it waits for a line's home: its transfers are performed, its chains
and allocations are gone, and the launch counts it (R110, R125, R126, R215). -/
def Main.wgEnded (m : Main) (id : Nat) : Main :=
  match m.wgOf id with
  | none => m
  | some w =>
    if !w.bundles.all (·.ended) then m
    else
      match (m.launchOf w.launch).bind (fun la => (w.hotMma la).map (fun h => (la, h))) with
      | some (la, b, r) =>
        m.raiseTrap w la b r.word r.pc { cls := .af, cause := .ok, lane := 0xFF, dbcode := 0, flags := r.flags }
      | none =>
      let span := match m.launchOf w.launch with | some l => l.span | none => 0
      if w.xfers.any (m.xferHeld span) then m else
      let m1 := m.performAll w span
      let m2 := m1.dropGroups (fun x => x.id == id)
      m2.modLaunch w.launch (fun l => { l with ended := l.ended + 1 })

end Sys2Proof.Machine
end

