-- ==== Sys2Proof/Machine/Control.lean ====
section
/-! DEFINITION. The control-flow class (R90-R92). It executes whatever the active mask holds. -/

namespace Sys2Proof.Machine

/-- Bit [32] of the word, ZSEL. -/
def fieldZsel (f : Fields) : Bool := f.b.getLsbD 6

/-- OFFSET: bits [31:0], a signed count of words from the following instruction (R90). -/
def fieldOffset (f : Fields) : Int := ((fieldImm f).setWidth 32).toInt

/-- Whether a control-flow instruction leaves OFFSET 0. -/
def noOffset (f : Fields) : Bool := fieldOffset f == 0

/-- The program counter of a branch by OFFSET; none when it leaves the code (R90). -/
def Issue.branch (i : Issue) : Option Nat :=
  let t : Int := (i.b.pc : Int) + 8 + 8 * fieldOffset i.f
  if 0 ≤ t ∧ t < i.la.spec.codeLen then some t.toNat else none

/-- The illegal-instruction trap of a bundle. -/
def illegal : Act := .trap (.plain .il 0xFF)

/-- A bundle that branches by OFFSET. -/
def Issue.jump (i : Issue) (m : Main) (b : Bundle) : Act :=
  match i.branch with
  | some t => .done m { b with pc := t }
  | none => illegal

/-- A control-flow instruction: SRCA 0, ZSEL only where it is used, OFFSET only where it is used. -/
def flowIns (func : Nat) (dst : BitVec 7 → Bool) (zsel offset : Bool) (run : Main → Issue → Act) : Ins :=
  { cls := 5, func := func, kind := .bundle
    legal := fun i => i.f.a == 0 && dst i.f.dst && (zsel || !fieldZsel i.f) && (offset || noOffset i.f)
    reads := noRegs, writes := noRegs, addr := noAddr
    run := run }

/-- DST must be 0. -/
def noDst (x : BitVec 7) : Bool := x == 0

/-- BRA. -/
def braIns : Ins := flowIns 0x00 noDst false true (fun m i => i.jump m i.b)

/-- BRU: nonzero for ZSEL 0, zero for ZSEL 1. -/
def bruIns : Ins := flowIns 0x01 uReg true true (fun m i =>
  if (i.b.getU i.f.dst.toNat == 0) == fieldZsel i.f then i.jump m i.b else .done m i.b.advance)

/-- CALL. -/
def callIns : Ins := flowIns 0x02 uReg false true (fun m i =>
  i.jump m (i.b.setU i.f.dst.toNat (BitVec.ofNat 64 (i.b.pc + 8))))

/-- RET: a multiple of 8 in the code. -/
def retIns : Ins := flowIns 0x03 uReg false false (fun m i =>
  let t := (i.b.getU i.f.dst.toNat).toNat
  if t % 8 = 0 ∧ t < i.la.spec.codeLen then .done m { i.b with pc := t } else illegal)

/-- IF. -/
def ifIns : Ins := flowIns 0x04 pReg false true (fun m i =>
  if 32 ≤ i.b.stack.length then illegal
  else
    let p := i.b.getP i.f.dst.toNat
    let yes := i.b.mask &&& p
    let no := i.b.mask &&& ~~~p
    if yes ≠ 0 then .done m { i.b with mask := yes, stack := .ifE i.b.mask no false :: i.b.stack, pc := i.b.pc + 8 }
    else i.jump m { i.b with mask := no, stack := .ifE i.b.mask no true :: i.b.stack })

/-- ELSE. -/
def elseIns : Ins := flowIns 0x05 noDst false true (fun m i =>
  match i.b.stack with
  | .ifE saved other false :: r =>
    let b := { i.b with mask := other, stack := .ifE saved other true :: r }
    if other = 0 then i.jump m b else .done m b.advance
  | _ => illegal)

/-- ENDIF. -/
def endifIns : Ins := flowIns 0x06 noDst false false (fun m i =>
  match i.b.stack with
  | .ifE saved _ _ :: r => .done m { i.b with mask := saved, stack := r, pc := i.b.pc + 8 }
  | _ => illegal)

/-- LOOP. -/
def loopIns : Ins := flowIns 0x07 noDst false false (fun m i =>
  if 32 ≤ i.b.stack.length then illegal
  else .done m { i.b with stack := .loopE i.b.mask :: i.b.stack, pc := i.b.pc + 8 })

/-- The breaking threads leave the IF entries above the innermost LOOP entry; none when there is no LOOP entry. -/
def breakStack (t : Word) : List MaskEntry → Option (List MaskEntry)
  | [] => none
  | .loopE s :: r => some (.loopE s :: r)
  | .ifE s o e :: r => (breakStack t r).map (fun r => .ifE (s &&& ~~~t) (o &&& ~~~t) e :: r)

/-- BRK. -/
def brkIns : Ins := flowIns 0x08 pReg false false (fun m i =>
  let t := i.b.mask &&& i.b.getP i.f.dst.toNat
  match breakStack t i.b.stack with
  | some st => .done m { i.b with mask := i.b.mask &&& ~~~t, stack := st, pc := i.b.pc + 8 }
  | none => illegal)

/-- ENDLOOP. -/
def endloopIns : Ins := flowIns 0x09 noDst false true (fun m i =>
  match i.b.stack with
  | .loopE saved :: r =>
    if i.b.mask ≠ 0 then i.jump m i.b else .done m { i.b with mask := saved, stack := r, pc := i.b.pc + 8 }
  | _ => illegal)

/-- An entry without the threads of a mask. -/
def MaskEntry.without (t : Word) : MaskEntry → MaskEntry
  | .ifE s o e => .ifE (s &&& ~~~t) (o &&& ~~~t) e
  | .loopE s => .loopE (s &&& ~~~t)

/-- The bundle after its active threads have ended. -/
def Bundle.exit (b : Bundle) : Bundle :=
  let live := b.live &&& ~~~b.mask
  { b with live := live, mask := 0, stack := b.stack.map (MaskEntry.without b.mask), ended := live == 0,
           pc := b.pc + 8 }

/-- EXIT. -/
def exitIns : Ins := flowIns 0x0A noDst false false (fun m i => .done m i.b.exit)

/-- After an EXIT: a bundle that ended, and its work group when it was the last. -/
def afterExit (br : BRef) (o : Out) : Out :=
  match o with
  | .next m =>
    match m.wgOf br.wg, m.bundleOf br with
    | some w, some b => if b.ended then .next ((m.bundleEnded w b).wgEnded w.id) else .next m
    | _, _ => .next m
  | x => x

/-- BRA (R90). -/
def execBra (b : BRef) (f : Fields) (s : State) : Outcome := onMain (braIns.issue b f) s
/-- BRU (R90). -/
def execBru (b : BRef) (f : Fields) (s : State) : Outcome := onMain (bruIns.issue b f) s
/-- CALL (R90). -/
def execCall (b : BRef) (f : Fields) (s : State) : Outcome := onMain (callIns.issue b f) s
/-- RET (R90). -/
def execRet (b : BRef) (f : Fields) (s : State) : Outcome := onMain (retIns.issue b f) s
/-- IF (R91). -/
def execIf (b : BRef) (f : Fields) (s : State) : Outcome := onMain (ifIns.issue b f) s
/-- ELSE (R91). -/
def execElse (b : BRef) (f : Fields) (s : State) : Outcome := onMain (elseIns.issue b f) s
/-- ENDIF (R91). -/
def execEndif (b : BRef) (f : Fields) (s : State) : Outcome := onMain (endifIns.issue b f) s
/-- LOOP (R91). -/
def execLoop (b : BRef) (f : Fields) (s : State) : Outcome := onMain (loopIns.issue b f) s
/-- BRK (R91). -/
def execBrk (b : BRef) (f : Fields) (s : State) : Outcome := onMain (brkIns.issue b f) s
/-- ENDLOOP (R91). -/
def execEndloop (b : BRef) (f : Fields) (s : State) : Outcome := onMain (endloopIns.issue b f) s
/-- EXIT (R91). -/
def execExit (b : BRef) (f : Fields) (s : State) : Outcome := onMain (fun m => afterExit b (exitIns.issue b f m)) s

end Sys2Proof.Machine
end

