-- ==== Sys2Proof/Machine/CoreStore.lean ====
section
/-! DEFINITION. The core-store class (R60-R65, R93). -/

namespace Sys2Proof.Machine

/-! ### Sizes and pieces -/

/-- Bytes of a SIZE code: 1, 2, 4, 8, 16 (R93). -/
def sizeBytes (code : Nat) : Nat := 2 ^ code
/-- The v registers of an access (R93). -/
def sizeRegs (n : Nat) : Nat := if n ≤ 4 then 1 else n / 4

/-- The bytes of a lane's registers, lowest-addressed word first. -/
def Bundle.laneBytes (b : Bundle) (reg lane n : Nat) : List Byte :=
  ((rangeFrom reg (sizeRegs n)).flatMap (fun r => toBytes 4 (b.getV r lane).toNat)).take n

/-- The words of loaded bytes, narrow loads zero-extended (R93). -/
def loadWords (d : List Byte) : List Word :=
  (List.range (sizeRegs d.length)).map (fun k => BitVec.ofNat 32 (ofBytes ((d.drop (4 * k)).take 4)))

/-- Whether two of the accesses of a list share a byte. -/
def anyOverlap : List (Nat × Nat) → Bool
  | [] => false
  | x :: r => r.any (fun y => overlap x.1 x.2 y.1 y.2) || anyOverlap r

/-- The accesses of an instruction's lanes: in lane order, and in an open order when two of them meet (R95). -/
def Main.laneOrder {α : Type} (m : Main) (range : α → Nat × Nat) (l : List α) : List α × Main :=
  if anyOverlap (l.map range) then (freePerm m.free l, { m with free := m.free + l.length }) else (l, m)

/-! ### Program order of core-store accesses (R63) -/

/-- The first n transfers of a bundle performed, in order. -/
def Main.performFirst (m : Main) (wg bundle n : Nat) : Main :=
  match m.wgOf wg with
  | none => m
  | some w =>
    let span := match m.launchOf w.launch with | some l => l.span | none => 0
    let mine := (w.xfers.filter (fun x => x.bundle == bundle)).take n
    let rest := (w.xfers.filter (fun x => x.bundle == bundle)).drop n
    (mine.foldl (fun m x => m.performXfer w.core span x) m).modWg wg (fun w =>
      { w with xfers := w.xfers.filter (fun x => x.bundle != bundle) ++ rest })

/-- A later core-store access of a bundle waits for its uncompleted transfers that it overlaps (R63). -/
def Main.settle (m : Main) (w : WorkGroup) (bundle : Nat) (rs : List (Nat × Nat)) : Main :=
  let n := touching (m.xfersOf w.id bundle) rs
  if n = 0 then m else m.performFirst w.id bundle n

/-! ### The class (R93) -/

/-- The bytes of the work group's allocation (R61). -/
def Launch.csBytes (l : Launch) : Nat := l.spec.cstore * 16384

/-- A lane's offset in the allocation; it may fall outside. -/
def Issue.csAddr (i : Issue) (l : Nat) : Int :=
  ((i.b.getV i.f.a.toNat l).toNat : Int) + signed 16 (fieldMod i.f 15 0)

/-- The access size in bytes. -/
def Issue.memSize (i : Issue) : Nat := sizeBytes (fieldMod i.f 18 16)

/-- Misaligned access, then access outside the allocation (R61, R93, R117). -/
def csCheck (_ : Main) (i : Issue) : Option TrapReq :=
  let n : Int := i.memSize
  match i.lanes.find? (fun l => i.csAddr l % n != 0) with
  | some l => some (.plain .ma l)
  | none =>
    match i.lanes.find? (fun l => decide (i.csAddr l < 0) || decide ((i.la.csBytes : Int) < i.csAddr l + n)) with
    | some l => some (.plain .ox l)
    | none => none

/-- A lane's range in the core's store. -/
def Issue.csRange (i : Issue) (l : Nat) : Nat × Nat := (i.w.base + (i.csAddr l).toNat, i.memSize)

/-- The core-store ranges of every lane. -/
def Issue.csRanges (i : Issue) : List (Nat × Nat) := i.lanes.map i.csRange

/-- The fields of the class: the data registers, a v address, nothing else. -/
def csLegal (i : Issue) : Bool :=
  decide (fieldMod i.f 18 16 ≤ 4) && i.vRegN i.f.dst (sizeRegs i.memSize) && i.vReg i.f.a && i.f.b == 0 && i.f.c == 0

/-- Data registers of the access. -/
def Issue.dataRegs (i : Issue) : List (Nat × Nat) := [(i.f.dst.toNat, sizeRegs i.memSize)]

/-- CSLD. -/
def csldIns : Ins :=
  { cls := 6, func := 0x00, kind := .thread, legal := csLegal
    reads := fun i => [(i.f.a.toNat, 1)]
    writes := Issue.dataRegs
    addr := csCheck
    store := Issue.csRanges
    bad := fun m i l =>
      if (m.settle i.w i.b.idx i.csRanges).csBad i.w.core (i.csRange l).1 i.memSize then some .poisoned else none
    run := fun m i =>
      let m1 := m.settle i.w i.b.idx i.csRanges
      let b1 := i.lanes.foldl (fun b l =>
        b.setVs i.f.dst.toNat l (loadWords (m1.csRead i.w.core (i.csRange l).1 i.memSize))) i.b
      .done m1 b1.advance }

/-- CSST. -/
def csstIns : Ins :=
  { cls := 6, func := 0x01, kind := .thread, legal := csLegal
    reads := fun i => (i.f.a.toNat, 1) :: i.dataRegs
    writes := noRegs
    addr := csCheck
    store := Issue.csRanges
    run := fun m i =>
      let m1 := m.settle i.w i.b.idx i.csRanges
      let (order, m2) := m1.laneOrder i.csRange i.lanes
      .done (m2.csWrite i.w.core (order.map (fun l =>
        ((i.csRange l).1, i.b.laneBytes i.f.dst.toNat l i.memSize)))) i.b.advance }

/-- CSLD (R93). -/
def execCsld (b : BRef) (f : Fields) (s : State) : Outcome := onMain (csldIns.issue b f) s
/-- CSST (R93). -/
def execCsst (b : BRef) (f : Fields) (s : State) : Outcome := onMain (csstIns.issue b f) s

end Sys2Proof.Machine
end

