-- ==== Sys2Proof/Machine/SpanMemory.lean ====
section
/-! DEFINITION. The span-memory class (R94, R95) and what releases and acquires do (R101, R224-R227, R239, R240). -/

namespace Sys2Proof.Machine

/-! ### Addresses (R94, R95) -/

/-- The span address of a lane with an immediate of n bits, modulo 2^64. -/
def Issue.spanAddr (i : Issue) (n l : Nat) : Nat :=
  (i.b.getU i.f.b.toNat + (i.b.getV i.f.a.toNat l).signExtend 64
    + BitVec.ofInt 64 (signed n (i.f.md.toNat % 2 ^ n))).toNat

/-- Misaligned access, then an address outside the span (R95, R117). -/
def spanCheck (n : Nat) (size : Issue → Nat) (m : Main) (i : Issue) : Option TrapReq :=
  match i.lanes.find? (fun l => i.spanAddr n l % size i != 0) with
  | some l => some (.plain .ma l)
  | none =>
    match i.lanes.find? (fun l => (m.mem.translate i.la.span (i.spanAddr n l)).isNone) with
    | some l => some (.plain .ox l)
    | none => none

/-- The LPA of a lane's access. -/
def Main.laneLpa (m : Main) (i : Issue) (n l : Nat) : Nat := (m.mem.translate i.la.span (i.spanAddr n l)).getD 0

/-- The lines of the lanes' accesses. -/
def Main.laneLines (m : Main) (i : Issue) (n : Nat) : List Nat := (i.lanes.map (fun l => m.laneLpa i n l / 128)).eraseDups

/-- Who keeps the instruction's places at the homes. -/
def Issue.who (i : Issue) : TurnOf := .bundle i.br.wg i.br.idx

/-- Whether a lane's access waits: its core's port is closed, or its line waits at the home (R199, R208, R215). -/
def Main.laneBlocked (m : Main) (i : Issue) (n : Nat) : Bool :=
  m.portClosed i.w.core || (m.laneLines i n).any (m.lineHeldFor (some i.who))

/-- The bundle waits with the accesses at their homes, unless its core's port is closed (R208, R215). -/
def Main.lineWait (m : Main) (i : Issue) (n : Nat) : Act :=
  .wait (if m.portClosed i.w.core then m else m.takeTurns i.who (m.laneLines i n)) .line

/-! ### Order and scope -/

/-- MOD[15:14]. -/
def Issue.order (i : Issue) : Nat := fieldMod i.f 15 14
/-- MOD[13:11] (R99). -/
def Issue.scope (i : Issue) : Nat := fieldMod i.f 13 11
/-- The order carries a release. -/
def Issue.releases (i : Issue) : Bool := bit i.order 1
/-- The order carries an acquire. -/
def Issue.acquires (i : Issue) : Bool := bit i.order 0

/-- What a release of a scope waits for: TSTOREs performed, and from span scope on the acknowledgement of every RST and
RATOM (R224). Stores and atomics of this model are performed as they issue. -/
def releaseWait (i : Issue) (scope : Nat) : Option Wait :=
  if 1 ≤ scope ∧ i.w.xfers.any (fun x => x.bundle == i.b.idx && x.store) then some .transfers
  else if 4 ≤ scope ∧ i.b.rstOut ≠ 0 then some .acks
  else none

/-- The release record a write of the bundle leaves in checked mode: its own release's, or that of a release fence it
follows; the wider when both hold (R239). A release of thread scope leaves none. -/
def Main.writeRecord (m : Main) (i : Issue) (own : Option Nat) : Option RelRec :=
  let s := max (own.getD 0) (i.b.relFence.getD 0)
  if i.la.spec.checked && s != 0 then some (m.posOf i.w.core s) else none

/-- The bundle after a write that followed a release fence. -/
def Bundle.afterWrite (b : Bundle) : Bundle := { b with relFence := none }

/-- The first lane whose record does not agree with an acquire of the bundle (R240). -/
def Main.mismatch (m : Main) (i : Issue) (scope : Nat) (rrs : List (Nat × Option RelRec)) : Option Nat :=
  if i.la.spec.checked then (rrs.find? (fun x => !agrees x.2 (m.posOf i.w.core scope))).map (·.1) else none

/-- The scope-mismatch trap (R136, R240). -/
def scopeTrap (lane : Nat) : TrapReq := { cls := .sm, cause := .scopeMismatch, lane := lane, dbcode := 0, flags := 0 }

/-- The records that arrived with each distinct line of an instruction, in lane order, up to 32 (R240). -/
def keptRecords (l : List (Nat × Option RelRec)) : List (Option RelRec) :=
  ((l.foldl (fun (a : List (Nat × Option RelRec)) x => if a.any (fun y => y.1 == x.1) then a else a ++ [x]) []).map
    (·.2)).take 32

/-! ### The class -/

/-- One lane's load. -/
def Main.laneLoad (m : Main) (i : Issue) (l : Nat) : Served × Main :=
  let lpa := m.laneLpa i 11 l
  let (s, m1) := m.l1Read i.w.core (lpa / 128) (some i.la.ctx) (m.bypass i.w.core i.b)
  ({ s with data := (s.data.drop (lpa % 128)).take i.memSize }, m1)

/-- Fields of the class: a v address and a u base. -/
def spanLegal (i : Issue) : Bool :=
  decide (fieldMod i.f 18 16 ≤ 4) && i.vReg i.f.a && uReg i.f.b && i.f.c == 0 && decide (i.scope ≤ 5)

/-- LD. -/
def ldIns : Ins :=
  { cls := 7, func := 0x00, kind := .thread
    legal := fun i => spanLegal i && i.vRegN i.f.dst (sizeRegs i.memSize) && decide (i.order ≤ 1)
    reads := fun i => [(i.f.a.toNat, 1)]
    writes := Issue.dataRegs
    addr := spanCheck 11 Issue.memSize
    bad := fun m i l => if (m.laneLoad i l).1.poison then some .poisoned else none
    run := fun m i =>
      if m.laneBlocked i 11 then m.lineWait i 11
      else
        let r := i.lanes.foldl (fun (a : List (Nat × Served) × Main) l =>
          let (s, m1) := a.2.laneLoad i l
          (a.1 ++ [(l, s)], m1)) ([], m)
        let b1 := r.1.foldl (fun b x => b.setVs i.f.dst.toNat x.1 (loadWords x.2.data)) i.b
        let rrs := r.1.map (fun x => (x.1, x.2.rr))
        if i.acquires then
          match r.2.mismatch i i.scope rrs with
          | some l => .trap (scopeTrap l)
          | none =>
            let m2 := r.2.acquire i.w.core i.scope
            .done m2 (b1.acquired m2 i.w.core i.scope).advance
        else
          let lines := r.1.map (fun x => (m.laneLpa i 11 x.1 / 128, x.2.rr))
          .done r.2 { b1 with kept := keptRecords lines, pc := b1.pc + 8 } }

/-- One lane's store. -/
def Main.laneStore (m : Main) (i : Issue) (rr : Option RelRec) (l : Nat) : Main :=
  let lpa := m.laneLpa i 11 l
  let data := i.b.laneBytes i.f.dst.toNat l i.memSize
  match rr with
  | some r => m.bufStore i.w.core (lpa / 128) (lpa % 128) data (some r)
  | none => m.l1Write i.w.core (lpa / 128) (lpa % 128) (some i.la.ctx) data

/-- ST. -/
def stIns : Ins :=
  { cls := 7, func := 0x01, kind := .thread
    legal := fun i => spanLegal i && i.vRegN i.f.dst (sizeRegs i.memSize) && (i.order == 0 || i.order == 2)
    reads := fun i => (i.f.a.toNat, 1) :: i.dataRegs
    writes := noRegs
    addr := spanCheck 11 Issue.memSize
    run := fun m i =>
      if m.laneBlocked i 11 then m.lineWait i 11
      else
        match if i.releases then releaseWait i i.scope else none with
        | some x => .wait m x
        | none =>
          let rr := m.writeRecord i (if i.releases then some i.scope else none)
          let (order, m1) := m.laneOrder (fun l => (m.laneLpa i 11 l, i.memSize)) i.lanes
          .done (order.foldl (fun m l => m.laneStore i rr l) m1) i.b.afterWrite.advance }

/-- One lane's prefetch: nothing happens for an address the span does not hold, a poisoned line or one that would wait (R94, R215). -/
def Main.lanePref (m : Main) (i : Issue) (l : Nat) : Main :=
  match m.mem.translate i.la.span (i.spanAddr 11 l) with
  | none => m
  | some lpa =>
    if m.portClosed i.w.core || m.mustWait (lpa / 128) then m
    else
      let (s, m1) := m.l1Read i.w.core (lpa / 128) (some i.la.ctx) (m.bypass i.w.core i.b)
      if s.poison then m else m1

/-- PREF. -/
def prefIns : Ins :=
  { cls := 7, func := 0x02, kind := .thread
    legal := fun i => spanLegal i && i.f.dst == 0 && i.order == 0 && fieldMod i.f 18 16 == 0
    reads := fun i => [(i.f.a.toNat, 1)]
    writes := noRegs
    addr := noAddr
    run := fun m i => .done (i.lanes.foldl (fun m l => m.lanePref i l) m) i.b.advance }

/-- LD (R94). -/
def execLd (b : BRef) (f : Fields) (s : State) : Outcome := onMain (ldIns.issue b f) s
/-- ST (R94). -/
def execSt (b : BRef) (f : Fields) (s : State) : Outcome := onMain (stIns.issue b f) s
/-- PREF (R94). -/
def execPref (b : BRef) (f : Fields) (s : State) : Outcome := onMain (prefIns.issue b f) s

end Sys2Proof.Machine
end

