-- ==== Sys2Proof/Machine/Atomics.lean ====
section
/-! DEFINITION. The atomic class (R96) and the operation at a home (R209, R230). -/

namespace Sys2Proof

/-- Minimum and maximum. -/
def pickBy {α : Type} (c : Bool) (a b : α) : α := if c then a else b

/-- The new value of a location of w bits: m before, operand x, and CAS's new value (R96). -/
def AtomOp.apply (op : AtomOp) {w : Nat} (m x new : BitVec w) : BitVec w :=
  match op with
  | .add => m + x
  | .smin => pickBy (m.sle x) m x
  | .smax => pickBy (m.sle x) x m
  | .umin => pickBy (m.ule x) m x
  | .umax => pickBy (m.ule x) x m
  | .and => m &&& x
  | .or => m ||| x
  | .xor => m ^^^ x
  | .exch => x
  | .cas => if m = x then new else m
  | .fadd => (Machine.fAdd .rne (Machine.f32 (m.setWidth 32)) (Machine.f32 (x.setWidth 32))).1.setWidth w

/-- The FUNC value of R96. -/
def AtomOp.code : AtomOp → Nat
  | .add => 0 | .smin => 1 | .smax => 2 | .umin => 3 | .umax => 4 | .and => 5 | .or => 6 | .xor => 7 | .exch => 8
  | .cas => 9 | .fadd => 10

/-- Whether it takes two operands. -/
def AtomOp.pair (op : AtomOp) : Bool := op == .cas

/-- The operation on n bytes of memory, as bytes. -/
def AtomOp.onBytes (op : AtomOp) (n : Nat) (old x new : List Byte) : List Byte :=
  Machine.toBytes n (op.apply (w := 8 * n) (BitVec.ofNat _ (Machine.ofBytes old)) (BitVec.ofNat _ (Machine.ofBytes x))
    (BitVec.ofNat _ (Machine.ofBytes new))).toNat

end Sys2Proof

namespace Sys2Proof.Machine

/-- What an atomic finds at its home. -/
structure AtomRes where
  poison : Bool
  old : List Byte
  rr : Option RelRec
  deriving DecidableEq, Repr

/-- An atomic at its line's home: the line is placed in the atomic buffer and the operation performed there; not on a
poisoned line (R192, R209). -/
def Main.homeAT (m : Main) (lpa : Nat) (op : AtomOp) (n : Nat) (x new : List Byte) (rr : Option RelRec) :
    AtomRes × Main :=
  let line := lpa / 128
  let m1 := m.placeHome line
  match m1.coh.bufOf line with
  | none => (⟨true, [], none⟩, m1)
  | some b =>
    let old := (b.data.drop (lpa % 128)).take n
    if b.poison then (⟨true, old, b.rr⟩, m1)
    else (⟨false, old, b.rr⟩, m1.bufWrite line (lpa % 128) (op.onBytes n old x new) false rr)

/-! ### The class -/

/-- MOD[10]: the old value is written to v[DST…]. -/
def Issue.atomRet (i : Issue) : Bool := bit i.f.md.toNat 10

/-- The registers of the operand: twice as many for CAS. -/
def atomSrcRegs (op : AtomOp) (n : Nat) : Nat := sizeRegs n * (if op.pair then 2 else 1)

/-- The operand bytes of a lane: x, and CAS's new value. -/
def Issue.atomOperands (i : Issue) (op : AtomOp) (reg n l : Nat) : List Byte × List Byte :=
  (i.b.laneBytes reg l n, if op.pair then i.b.laneBytes (reg + sizeRegs n) l n else [])

/-- One lane's atomic: the lane's result, and the state after; the core's own copies are gone (R219). -/
def Main.laneAtomic (m : Main) (i : Issue) (op : AtomOp) (rr : Option RelRec) (l : Nat) : AtomRes × Main :=
  let lpa := m.laneLpa i 10 l
  let (x, new) := i.atomOperands op i.f.c.toNat i.memSize l
  let (r, m1) := m.homeAT lpa op i.memSize x new rr
  (r, m1.applyOwn i.w.core (lpa / 128))

/-- A failure recorded in a launch: the first one counts (R286). -/
def Main.launchFailure (m : Main) (id : Nat) (s : Status) : Main :=
  m.modLaunch id (fun l => { l with firstFail := l.firstFail.orElse (fun _ => some s) })

/-- The results of the lanes written to registers; without a result register a failure is the launch's (R96). -/
def Main.atomResults (m : Main) (i : Issue) (rs : List (Nat × AtomRes)) : Bundle × Main :=
  rs.foldl (fun (a : Bundle × Main) x =>
    if x.2.poison then
      if i.atomRet then
        let (vals, m1) := a.2.drawList (sizeRegs i.memSize)
        (a.1.poisonVs i.f.dst.toNat x.1 vals .poisoned, m1)
      else (a.1, a.2.launchFailure i.la.id .poisoned)
    else if i.atomRet then (a.1.setVs i.f.dst.toNat x.1 (loadWords x.2.old), a.2)
    else a) (i.b, m)

/-- The record of a line as an acquire atomic finds it. -/
def Main.lineRecord (m : Main) (line : Nat) : Option RelRec := (m.coh.bufOf line).bind (·.rr)

/-- An atomic (R96). -/
def atomIns (op : AtomOp) : Ins :=
  { cls := 8, func := op.code, kind := .thread
    legal := fun i =>
      let n := i.memSize
      (fieldMod i.f 18 16 == 2 || (fieldMod i.f 18 16 == 3 && op != .fadd)) && decide (i.scope ≤ 5) &&
      (if i.atomRet then i.vRegN i.f.dst (sizeRegs n) else i.f.dst == 0) && i.vReg i.f.a && uReg i.f.b &&
      i.vRegN i.f.c (atomSrcRegs op n)
    reads := fun i => [(i.f.a.toNat, 1), (i.f.c.toNat, atomSrcRegs op i.memSize)]
    writes := fun i => if i.atomRet then [(i.f.dst.toNat, sizeRegs i.memSize)] else []
    addr := spanCheck 10 Issue.memSize
    run := fun m i =>
      if m.laneBlocked i 10 then m.lineWait i 10
      else
        match if i.releases then releaseWait i i.scope else none with
        | some x => .wait m x
        | none =>
          let before := i.lanes.map (fun l => (l, m.lineRecord (m.laneLpa i 10 l / 128)))
          match if i.acquires then m.mismatch i i.scope before else none with
          | some l => .trap (scopeTrap l)
          | none =>
            let rr := m.writeRecord i (if i.releases then some i.scope else none)
            let (order, m1) := m.laneOrder (fun l => (m.laneLpa i 10 l, i.memSize)) i.lanes
            let r := order.foldl (fun (a : List (Nat × AtomRes) × Main) l =>
              let (x, m2) := a.2.laneAtomic i op rr l
              (a.1 ++ [(l, x)], m2)) ([], m1)
            let (b1, m2) := r.2.atomResults i r.1
            let lines := before.map (fun x => (m.laneLpa i 10 x.1 / 128, x.2))
            let b2 := { b1.afterWrite with kept := keptRecords lines, pc := b1.pc + 8 }
            if i.acquires then
              let m3 := m2.acquire i.w.core i.scope
              .done m3 (b2.acquired m3 i.w.core i.scope)
            else .done m2 b2 }

/-- ATOMIC_ADD (R96). -/
def execAtomicAdd (b : BRef) (f : Fields) (s : State) : Outcome := onMain ((atomIns .add).issue b f) s
/-- ATOMIC_SMIN (R96). -/
def execAtomicSmin (b : BRef) (f : Fields) (s : State) : Outcome := onMain ((atomIns .smin).issue b f) s
/-- ATOMIC_SMAX (R96). -/
def execAtomicSmax (b : BRef) (f : Fields) (s : State) : Outcome := onMain ((atomIns .smax).issue b f) s
/-- ATOMIC_UMIN (R96). -/
def execAtomicUmin (b : BRef) (f : Fields) (s : State) : Outcome := onMain ((atomIns .umin).issue b f) s
/-- ATOMIC_UMAX (R96). -/
def execAtomicUmax (b : BRef) (f : Fields) (s : State) : Outcome := onMain ((atomIns .umax).issue b f) s
/-- ATOMIC_AND (R96). -/
def execAtomicAnd (b : BRef) (f : Fields) (s : State) : Outcome := onMain ((atomIns .and).issue b f) s
/-- ATOMIC_OR (R96). -/
def execAtomicOr (b : BRef) (f : Fields) (s : State) : Outcome := onMain ((atomIns .or).issue b f) s
/-- ATOMIC_XOR (R96). -/
def execAtomicXor (b : BRef) (f : Fields) (s : State) : Outcome := onMain ((atomIns .xor).issue b f) s
/-- ATOMIC_EXCH (R96). -/
def execAtomicExch (b : BRef) (f : Fields) (s : State) : Outcome := onMain ((atomIns .exch).issue b f) s
/-- ATOMIC_CAS (R96). -/
def execAtomicCas (b : BRef) (f : Fields) (s : State) : Outcome := onMain ((atomIns .cas).issue b f) s
/-- ATOMIC_FADD (R96). -/
def execAtomicFadd (b : BRef) (f : Fields) (s : State) : Outcome := onMain ((atomIns .fadd).issue b f) s

end Sys2Proof.Machine
end

