-- ==== Sys2Proof/Machine/FabOps.lean ====
section
/-! DEFINITION. What answers to requests do, and the request tracker (R265-R269, R285, R319-R324). -/

namespace Sys2Proof.Machine

/-! ### Answers to requests -/

/-- What ends a tracked request. -/
inductive Answer where
  | data (d : List Byte) (poison : Bool)
  | ack
  | fail (s : Status)
  deriving DecidableEq, Repr

/-- The registers a lane's answer writes, and the operation no longer in flight (R98, R285). -/
def Main.regAnswer (m : Main) (b : BRef) (reg n lane : Nat) (a : Answer) : Main :=
  let clear (x : Bundle) : Bundle :=
    { x with pend := x.pend.filter (fun p => !(p.reg == reg && p.n == n && p.lane == lane)) }
  let poisoned (s : Status) : Main :=
    let (vals, m1) := m.drawList n
    m1.modBundle b (fun x => (clear x).poisonVs reg lane vals s)
  match a with
  | .data d false => m.modBundle b (fun x => (clear x).setVs reg lane ((loadWords (d.take (4 * n))).take n))
  | .data _ true => poisoned .poisoned
  | .ack => m.modBundle b clear
  | .fail s => poisoned s

/-- An RST or RATOM of a bundle and launch is no longer outstanding. -/
def Main.acked (m : Main) (b : BRef) (launch : Nat) : Main :=
  (m.modBundle b (fun x => { x with rstOut := x.rstOut - 1 })).modLaunch launch (fun l => { l with rsts := l.rsts - 1 })

def Main.modEngine (m : Main) (e : Nat) (f : Engine → Engine) : Main := { m with eng := modNth m.eng e f }

/-- Bytes of a remote row have come, its last ones or not, or the row has failed; a row that its pier does not hold, or that
no link grain of the span leads to, is skipped (R148, R153; DESIGN CHOICE, log 85). -/
def RowRes.answered (r : RowRes) (a : Answer) : RowRes :=
  match r, a with
  | .asked rank addr size got, .data d false =>
    if size ≤ (got ++ d).length then .data ((got ++ d).take size) else .asked rank addr size (got ++ d)
  | .asked _ _ _ _, .data _ true => .failed .poisoned
  | .asked _ _ _ _, .fail .notPermitted => .skipped
  | .asked _ _ _ _, .fail s => .failed s
  | r, _ => r

/-- One row of a gather in progress changed. -/
def Engine.modRow (e : Engine) (row : Nat) (f : RowRes → RowRes) : Engine :=
  match e.run with
  | some (.gather g) => { e with run := some (.gather { g with rows := modNth g.rows row f }) }
  | _ => e

/-- One request of a stream in progress changed. -/
def Engine.modReq (e : Engine) (i : Nat) (f : StreamReq → StreamReq) : Engine :=
  match e.run with
  | some (.stream g) => { e with run := some (.stream { g with reqs := modNth g.reqs i f }) }
  | _ => e

/-- A work group's record has been read: the coordinator may give its pages to other records (R131). -/
def Main.recordRead (m : Main) (w : WorkGroup) : Main :=
  match m.launchOf w.launch with
  | none => m
  | some l =>
    let pages := (l.reading.filter (fun x => x.1 == w.id)).flatMap (fun x => x.2.pages)
    let m1 := m.modLaunch l.id (fun l => { l with reading := l.reading.filter (fun x => x.1 != w.id) })
    match l.coord with
    | .remote module batch => m1.sendCtrl (.work module (.read batch pages))
    | .queue _ _ => m1

/-- A work group whose record could not be read leaves its core, and its record heads the pending list again (DESIGN CHOICE,
log 29). -/
def Main.recordBack (m : Main) (w : WorkGroup) : Main :=
  let m1 := m.modLaunch w.launch (fun l =>
    { l with saved := (l.reading.filter (fun x => x.1 == w.id)).map (·.2) ++ l.saved
             reading := l.reading.filter (fun x => x.1 != w.id) })
  m1.dropGroups (fun x => x.id == w.id)

/-- A page of a save record has been answered. -/
def Main.pageAnswer (m : Main) (wg page : Nat) (a : Answer) : Main :=
  match m.wgOf wg with
  | none => m
  | some w =>
    match a with
    | .data _ false =>
      let left := w.reads.filter (· != page)
      let m1 := m.modWg wg (fun w => { w with reads := left })
      if left.isEmpty then m1.recordRead w else m1
    | _ => m.recordBack w

/-- The effect of an answer on who waits for it (R98, R153, R285, R286, R295-R297). The bytes of a stream GET are
written by the stream's own meaning, from `got`. -/
def Main.deliver (m : Main) (who : Requester) (a : Answer) (got : Main → Nat → Nat → List Byte → Bool → Main) : Main :=
  match who with
  | .rld b reg n lane => m.regAnswer b reg n lane a
  | .ratom b launch reg n lane =>
    let m1 := m.acked b launch
    match reg with
    | some r => m1.regAnswer b r n lane a
    | none =>
      match a with
      | .fail s => m1.launchFailure launch s
      | .data _ true => m1.launchFailure launch .poisoned
      | _ => m1
  | .rst b launch =>
    let m1 := m.acked b launch
    match a with
    | .fail s => m1.launchFailure launch s
    | _ => m1
  | .gather e row => m.modEngine e (fun x => x.modRow row (fun r => r.answered a))
  | .stream e i =>
    match a with
    | .data d p => got (m.modEngine e (fun x => x.modReq i (fun r => { r with st := .done }))) e i d p
    | .ack => m.modEngine e (fun x => x.modReq i (fun r => { r with st := .done }))
    | .fail s => m.modEngine e (fun x => x.modReq i (fun r => { r with st := .failed s }))
  | .save wg page => m.pageAnswer wg page a
  | .nobody => m

/-- Bytes of a stream GET written at its local address: into core store or as invalidating writes (R296). -/
def Main.streamGot (m : Main) (e i : Nat) (d : List Byte) (poison : Bool) : Main :=
  match m.eng[e]? with
  | some x =>
    match x.run, x.queue with
    | some (.stream r), q :: _ =>
      match r.reqs[i]? with
      | some req =>
        let data := d.take req.len
        if bit (fieldAt q.bytes 1 1) 6 then
          let m1 := m.csWrite q.core [(q.base + req.loc, data)]
          if poison then m1.csPoison q.core (q.base + req.loc) req.len else m1
        else m.spanWrite q.span req.loc data poison
      | none => m
    | _, _ => m
  | none => m

/-- An answer delivered. -/
def Main.answer (m : Main) (who : Requester) (a : Answer) : Main := m.deliver who a Main.streamGot

/-! ### The tracker (R265-R269, R319-R324) -/

/-- The tracker number of an entry. -/
def entryKey (bank entry : Nat) : Nat := bank * 1024 + entry

/-- The generation an entry will carry (R268). -/
def Main.entryGen (m : Main) (bank entry : Nat) : Nat :=
  match m.fab.gens.find? (fun x => x.1 == entryKey bank entry) with | some x => x.2 | none => 0

/-- A free entry: the active banks in turn, full ones skipped (R267). -/
def Main.freeEntry (m : Main) : Option (Nat × Nat) :=
  let banks := ((rangeFrom m.fab.nextBank 18).map (· % 18)).filter (fun b => nth m.fab.banks b .retired == .active)
  banks.findSome? (fun b =>
    (lowestFree ((m.fab.entries.filter (fun e => e.bank == b)).map (·.entry)) 1024).map (fun e => (b, e)))

/-- The resident slot of a context on this module (R367). -/
def Main.slotOf (m : Main) (ctx : Nat) : Nat :=
  m.objs.slots.findIdx (fun s => match s with | some x => x.ctx == ctx | none => false)

/-- The message of a tracked request (R282, R283). -/
def TrackEntry.msg (e : TrackEntry) (module : Nat) : Msg :=
  let body := match e.op with
    | 0x01 => requestSlot e.addr e.len 0
    | 0x03 => requestSlot e.addr e.len 0
    | 0x30 => requestSlot e.addr e.len e.lc ++ padSlots e.data
    | 0x31 => requestSlot e.addr e.len e.lc ++ padSlots e.data
    | _ => requestSlot e.addr e.len 0 ++ padSlots e.data
  { op := e.op, dest := e.dest, src := module, span := e.span, epoch := e.epoch, hops := 1, ord := e.ord,
    tag := tagEcho e.bank e.entry e.gen e.issuer e.slot, data := body, poison := e.poison, rr := e.rr }

/-- An entry freed: its generation advances (R268, R269). -/
def Main.freeTrack (m : Main) (e : TrackEntry) : Main :=
  let k := entryKey e.bank e.entry
  { m with fab := { m.fab with
      entries := m.fab.entries.filter (fun x => !(x.bank == e.bank && x.entry == e.entry))
      gens := (k, (e.gen + 1) % 16) :: m.fab.gens.filter (fun x => x.1 != k) } }

/-- Whether a rank is changing owner in an open transition (R324). -/
def SpanRec.changing (r : SpanRec) (rank : Nat) : Bool :=
  r.phase != .stable && r.piers[rank]? != r.nextPiers[rank]?

/-- Whether a new request is held back: older requests of its issuer to a changing rank, tagged E, have not completed
with their reissues (R324). -/
def Main.heldBack (m : Main) (w : WaitReq) : Bool :=
  match m.recOf w.span with
  | some r => r.phase == .drain && r.changing w.rank &&
      m.fab.entries.any (fun e => e.issuer == w.issuer && e.span == w.span && e.rank == w.rank
        && (e.epoch == r.current.epoch || e.reissued))
  | none => false

/-- The bundle of a requester has one ordered request less. -/
def Main.orderedDone (m : Main) (ord : Bool) (who : Requester) : Main :=
  if ord then
    match who with
    | .rld b _ _ _ => m.modBundle b (fun x => { x with ordOut := x.ordOut - 1 })
    | .ratom b _ _ _ _ => m.modBundle b (fun x => { x with ordOut := x.ordOut - 1 })
    | .rst b _ => m.modBundle b (fun x => { x with ordOut := x.ordOut - 1 })
    | _ => m
  else m

/-- A request ended by this module before it left or without an answer. -/
def Main.endRequest (m : Main) (ord : Bool) (who : Requester) (s : Status) : Main :=
  (m.orderedDone ord who).answer who (.fail s)

/-- A request takes an entry, is tagged and leaves (R266, R267, R319, R320). A gather's row whose pier no link grain of a candidate
group leads to ends NOT_PERMITTED here, and is counted as skipped (DESIGN CHOICE, assumption log 85). -/
def Main.takeEntry (m : Main) (w : WaitReq) (bank entry : Nat) : Main :=
  match m.recOf w.span with
  | none => m.endRequest w.ord w.who .notPermitted
  | some r =>
    match r.tableInForce[w.rank]? with
    | none => m.endRequest w.ord w.who .epochStale
    | some dest =>
      let e : TrackEntry :=
        { bank := bank, entry := entry, gen := m.entryGen bank entry, reissued := false, retry := 0, dest := dest,
          span := w.span, epoch := r.inForce.epoch, issuer := w.issuer, slot := w.slot, op := w.op, len := w.len,
          addr := w.addr, deadline := m.time + m.param 4 * 1000, lc := w.lc, ord := w.ord, rank := w.rank,
          data := w.data, poison := w.poison, rr := w.rr, who := w.who }
      let g := e.msg m.fab.module
      if dest ≠ m.fab.module ∧ (m.candidates g).isEmpty then m.endRequest w.ord w.who .notPermitted
      else
        let m1 : Main := { m with fab := { m.fab with entries := m.fab.entries ++ [e], nextBank := (bank + 1) % 18 } }
        m1.send g

/-- The waiting requests looked at in order: each leaves unless it is held back, an older one of its issuer waits, or no
entry is free (R267, R324). -/
def Main.pumpList (m : Main) : List WaitReq → Main
  | [] => m
  | w :: r =>
    let keep (m : Main) : Main := { m with fab := { m.fab with waitReqs := m.fab.waitReqs ++ [w] } }
    if m.fab.waitReqs.any (fun x => x.issuer == w.issuer) || m.heldBack w then (keep m).pumpList r
    else
      match m.freeEntry with
      | none => (keep m).pumpList r
      | some (b, e) => (m.takeEntry w b e).pumpList r

/-- The requests that wait tried again. -/
def Main.pump (m : Main) : Main :=
  ({ m with fab := { m.fab with waitReqs := [] } } : Main).pumpList m.fab.waitReqs

/-- A request issued. -/
def Main.issueReq (m : Main) (w : WaitReq) : Main :=
  ({ m with fab := { m.fab with waitReqs := [] } } : Main).pumpList (m.fab.waitReqs ++ [w])

/-- A tracked request ended: its entry is freed, its requester has its answer, and a waiting request may leave. -/
def Main.endTrack (m : Main) (e : TrackEntry) (a : Answer) : Main :=
  (((m.freeTrack e).orderedDone e.ord e.who).answer e.who a).pump

/-- The entry of a gather's row of which an answer brings the bytes up to a 4 KiB boundary, as it asks for the rest: the row's fetch is
one request with one entry and one epoch, but no request may cross the boundary (R149, R283; DEDUCED, log 31). -/
def Main.rowRest (m : Main) (e : TrackEntry) (a : Answer) : Option TrackEntry :=
  match e.who, a with
  | .gather g row, .data d false =>
    match (m.eng[g]?).bind (·.run) with
    | some (.gather r) =>
      match r.rows[row]? with
      | some (.asked _ addr size got) =>
        let n := (got ++ d).length
        if n < size then some { e with addr := addr + n, len := size - n, retry := 0, deadline := m.time + m.param 4 * 1000 } else none
      | _ => none
    | _ => none
  | _, _ => none

/-- An answer to a tracked request: it ends, or, of a row's first bytes, its entry asks for the rest. -/
def Main.finishTrack (m : Main) (e : TrackEntry) (a : Answer) : Main :=
  match m.rowRest e a with
  | none => m.endTrack e a
  | some e1 =>
    let m1 := m.answer e.who a
    let m2 : Main := { m1 with fab := { m1.fab with
      entries := modWhere m1.fab.entries (fun x => x.bank == e.bank && x.entry == e.entry) (fun _ => e1) } }
    let g := e1.msg m2.fab.module
    if e1.dest ≠ m2.fab.module ∧ (m2.candidates g).isEmpty then m2.endTrack e1 (.fail .notPermitted) else m2.send g

end Sys2Proof.Machine
end

