-- ==== Sys2Proof/Machine/Remote.lean ====
section
/-! DEFINITION. The remote class: RLD, RST and the remote atomics (R97, R98, R285-R287). -/

namespace Sys2Proof.Machine

/-- The data bytes of a request: MOD[3:1] (R97). -/
def Issue.remSize (i : Issue) : Nat := sizeBytes (fieldMod i.f 3 1)

/-- The pier a lane names: v[SRCC]. -/
def Issue.remRank (i : Issue) (l : Nat) : Nat := (i.b.getV i.f.c.toNat l).toNat

/-- The span address of a lane, modulo 2^64. -/
def Issue.remAddr (i : Issue) (l : Nat) : Nat :=
  (i.b.getU i.f.b.toNat + (i.b.getV i.f.a.toNat l).signExtend 64).toNat

/-- Misaligned access; then a rank or an address that cannot be (R97). -/
def remCheck (m : Main) (i : Issue) : Option TrapReq :=
  match i.lanes.find? (fun l => i.remAddr l % i.remSize != 0) with
  | some l => some (.plain .ma l)
  | none =>
    match i.lanes.find? (fun l => decide (m.pierCount i.la.span ≤ i.remRank l) || decide (2 ^ 13 ≤ i.remRank l)
        || decide (2 ^ 52 ≤ i.remAddr l)) with
    | some l => some (.plain .ox l)
    | none => none

/-- Fields common to the class: addresses, the pier, the size and the bits only some operations use (R97). -/
def remLegal (i : Issue) (regs : Nat) (max : Nat) (lc ret : Bool) : Bool :=
  decide (2 ≤ fieldMod i.f 3 1) && decide (fieldMod i.f 3 1 ≤ max) && i.vRegN i.f.dst regs && i.vReg i.f.a &&
  uReg i.f.b && i.vReg i.f.c && (lc || fieldMod i.f 17 4 == 0) && (ret || fieldMod i.f 0 0 == 0)

/-- MOD[18]: flagged ordered. -/
def Issue.remOrd (i : Issue) : Bool := bit i.f.md.toNat 18

/-- The request of a lane. -/
def Main.remReq (m : Main) (i : Issue) (op l : Nat) (data : List Byte) (lc : Nat) (rr : Option RelRec)
    (who : Requester) : WaitReq :=
  { issuer := i.w.core, slot := m.slotOf i.la.ctx, span := i.la.span, rank := i.remRank l, op := op,
    addr := i.remAddr l, len := i.remSize, data := data, poison := false, ord := i.remOrd, lc := lc, rr := rr, who := who }

/-- A bundle after the requests of some lanes have left: a request whose answer a register receives keeps it pending; the
instruction is complete when no lane is left over. -/
def Issue.leaves (i : Issue) (lanes left : List Nat) (ret : Option (Nat × Nat)) (writes : Bool) : Bundle :=
  let n := lanes.length
  let pend := match ret with | some (r, k) => lanes.map (fun l => ⟨r, k, l⟩) | none => []
  let b := { i.b with
    pend := i.b.pend ++ pend, ordOut := i.b.ordOut + (if i.remOrd then n else 0),
    rstOut := i.b.rstOut + (if writes then n else 0) }
  if left.isEmpty then { (if writes then b.afterWrite else b) with sent := 0, pc := b.pc + 8 }
  else { b with sent := lanes.foldl (fun s l => s ||| 1#32 <<< l) b.sent, waiting := some .ordered }

/-- The requests of an instruction issued, after the bundle has been put back with what they leave outstanding: at most 64
ordered requests of a bundle are outstanding, and the lanes over that number wait at issue (R287). -/
def Main.remIssue (m : Main) (i : Issue) (ret : Option (Nat × Nat)) (writes : Bool) (req : Main → Nat → WaitReq) : Act :=
  let (order, m1) := m.laneOrder (fun l => (i.remRank l * 2 ^ 52 + i.remAddr l, i.remSize)) i.lanes
  let n := if i.remOrd then min order.length (64 - i.b.ordOut) else order.length
  if n = 0 then .wait m .ordered
  else
    let b1 := i.leaves (order.take n) (order.drop n) ret writes
    let m2 := m1.putBundle i.br b1
    let m3 := if writes then m2.modLaunch i.la.id (fun l => { l with rsts := l.rsts + n }) else m2
    let m4 := (order.take n).foldl (fun m l => m.issueReq (req m l)) m3
    .done m4 ((m4.bundleOf i.br).getD b1)

/-- RLD. -/
def rldIns : Ins :=
  { cls := 9, func := 0x00, kind := .thread
    legal := fun i => remLegal i (sizeRegs i.remSize) 4 false false
    reads := fun i => [(i.f.a.toNat, 1), (i.f.c.toNat, 1)]
    writes := fun i => [(i.f.dst.toNat, sizeRegs i.remSize)]
    addr := remCheck
    run := fun m i =>
      let n := sizeRegs i.remSize
      m.remIssue i (some (i.f.dst.toNat, n)) false (fun m l => m.remReq i 0x01 l [] 0 none (.rld i.br i.f.dst.toNat n l)) }

/-- RST: counted at the landing counter MOD[17:4] of the target. -/
def rstIns : Ins :=
  { cls := 9, func := 0x01, kind := .thread
    legal := fun i => remLegal i (sizeRegs i.remSize) 4 true false
    reads := fun i => [(i.f.a.toNat, 1), (i.f.c.toNat, 1), (i.f.dst.toNat, sizeRegs i.remSize)]
    writes := noRegs
    addr := remCheck
    run := fun m i =>
      let rr := m.writeRecord i none
      m.remIssue i none true (fun m l =>
        m.remReq i 0x30 l (i.b.laneBytes i.f.dst.toNat l i.remSize) (fieldMod i.f 17 4) rr (.rst i.br i.la.id)) }

/-- MOD[0]: the old value is received. -/
def Issue.ratomRet (i : Issue) : Bool := bit i.f.md.toNat 0

/-- A remote atomic: the operand in v[DST…], CAS's new value after it. -/
def ratomIns (op : AtomOp) : Ins :=
  { cls := 9, func := 0x10 + op.code, kind := .thread
    legal := fun i => remLegal i (atomSrcRegs op i.remSize) (if op = .fadd then 2 else 3) false true
    reads := fun i => [(i.f.a.toNat, 1), (i.f.c.toNat, 1), (i.f.dst.toNat, atomSrcRegs op i.remSize)]
    writes := fun i => if i.ratomRet then [(i.f.dst.toNat, sizeRegs i.remSize)] else []
    addr := remCheck
    run := fun m i =>
      let n := sizeRegs i.remSize
      let rr := m.writeRecord i none
      m.remIssue i (if i.ratomRet then some (i.f.dst.toNat, n) else none) true (fun m l =>
        let (x, new) := i.atomOperands op i.f.dst.toNat i.remSize l
        m.remReq i (0x10 + op.code) l (x ++ new) 0 rr
          (.ratom i.br i.la.id (if i.ratomRet then some i.f.dst.toNat else none) n l)) }

/-- RLD (R97). -/
def execRld (b : BRef) (f : Fields) (s : State) : Outcome := onMain (rldIns.issue b f) s
/-- RST (R97). -/
def execRst (b : BRef) (f : Fields) (s : State) : Outcome := onMain (rstIns.issue b f) s
/-- RATOM_ADD (R97). -/
def execRatomAdd (b : BRef) (f : Fields) (s : State) : Outcome := onMain ((ratomIns .add).issue b f) s
/-- RATOM_SMIN (R97). -/
def execRatomSmin (b : BRef) (f : Fields) (s : State) : Outcome := onMain ((ratomIns .smin).issue b f) s
/-- RATOM_SMAX (R97). -/
def execRatomSmax (b : BRef) (f : Fields) (s : State) : Outcome := onMain ((ratomIns .smax).issue b f) s
/-- RATOM_UMIN (R97). -/
def execRatomUmin (b : BRef) (f : Fields) (s : State) : Outcome := onMain ((ratomIns .umin).issue b f) s
/-- RATOM_UMAX (R97). -/
def execRatomUmax (b : BRef) (f : Fields) (s : State) : Outcome := onMain ((ratomIns .umax).issue b f) s
/-- RATOM_AND (R97). -/
def execRatomAnd (b : BRef) (f : Fields) (s : State) : Outcome := onMain ((ratomIns .and).issue b f) s
/-- RATOM_OR (R97). -/
def execRatomOr (b : BRef) (f : Fields) (s : State) : Outcome := onMain ((ratomIns .or).issue b f) s
/-- RATOM_XOR (R97). -/
def execRatomXor (b : BRef) (f : Fields) (s : State) : Outcome := onMain ((ratomIns .xor).issue b f) s
/-- RATOM_EXCH (R97). -/
def execRatomExch (b : BRef) (f : Fields) (s : State) : Outcome := onMain ((ratomIns .exch).issue b f) s
/-- RATOM_CAS (R97). -/
def execRatomCas (b : BRef) (f : Fields) (s : State) : Outcome := onMain ((ratomIns .cas).issue b f) s
/-- RATOM_FADD (R97). -/
def execRatomFadd (b : BRef) (f : Fields) (s : State) : Outcome := onMain ((ratomIns .fadd).issue b f) s

end Sys2Proof.Machine
end

