-- ==== Sys2Proof/Machine/Sync.lean ====
section
/-! DEFINITION. The synchronisation class, and signals of fence objects (R99-R103, R224-R242, R395, R396). -/

namespace Sys2Proof.Machine

/-! ### Barriers (R100) -/

/-- A bundle arrives at an id and waits; all leave together when it was the last. -/
def Main.arrive (m : Main) (i : Issue) (id : Nat) (core : Bool) : Act :=
  let m1 := m.putBundle i.br { i.b with waiting := some (.barrier id core) }
  let m2 := m1.modWg i.w.id (fun w =>
    { w with barriers := modNth w.barriers id (fun x => maskSet x i.b.idx) }.leaveBarrier id)
  .done m2 ((m2.bundleOf i.br).getD i.b)

/-- Fields of BARB and BARC: the id in MOD[3:0] and nothing else. -/
def barLegal (i : Issue) : Bool :=
  i.f.dst == 0 && i.f.a == 0 && i.f.b == 0 && i.f.c == 0 && fieldMod i.f 18 4 == 0

/-- BARB. -/
def barbIns : Ins :=
  { cls := 0xA, func := 0x00, kind := .bundle, legal := barLegal
    reads := noRegs, writes := noRegs, addr := noAddr
    run := fun m i => m.arrive i (fieldMod i.f 3 0) false }

/-- BARC waits for the bundle's tile transfers; its release and acquire of core scope take no further action
(R224, R225). -/
def barcIns : Ins :=
  { cls := 0xA, func := 0x01, kind := .bundle, legal := barLegal
    reads := noRegs, writes := noRegs, addr := noAddr
    run := fun m i =>
      if i.w.xfers.any (fun x => x.bundle == i.b.idx) then .wait m .transfers
      else m.arrive i (fieldMod i.f 3 0) true }

/-! ### FENCE (R101) -/

/-- The fields that order and scope share in class 0xA: MOD[15:14], MOD[13:11] of 0 to 5, nothing else. -/
def syncMod (i : Issue) : Bool := fieldMod i.f 18 16 == 0 && fieldMod i.f 10 0 == 0 && decide (i.scope ≤ 5)

/-- FENCE. Of two release fences before the bundle's next write the later one's scope is kept, be it narrower (R239; DESIGN CHOICE,
assumption log 104). -/
def fenceIns : Ins :=
  { cls := 0xA, func := 0x02, kind := .bundle
    legal := fun i => i.f.dst == 0 && i.f.a == 0 && i.f.b == 0 && i.f.c == 0 && syncMod i && i.order != 0
    reads := noRegs, writes := noRegs, addr := noAddr
    run := fun m i =>
      match if i.releases then releaseWait i i.scope else none with
      | some x => .wait m x
      | none =>
        let kept := i.b.kept.map (fun r => (0xFF, r))
        match if i.acquires && i.scope != 0 then m.mismatch i i.scope kept else none with
        | some _ => .trap (scopeTrap 0xFF)
        | none =>
          let b1 := if i.releases && i.scope != 0 then { i.b with relFence := some i.scope } else i.b
          if i.acquires then
            let m1 := m.acquire i.w.core i.scope
            .done m1 (b1.acquired m1 i.w.core i.scope).advance
          else .done m b1.advance }

/-! ### LCWAIT (R102, R240, R289) -/

/-- The counter an LCWAIT names, when the bundle may read it (R102, R289). -/
def Main.lcOf (m : Main) (la : Launch) (b : Bundle) (f : Fields) : Option Counter :=
  match m.counterOf ((b.getU f.a.toNat).toNat % 2 ^ 14) with
  | none => none
  | some c =>
    match la.coord with
    | .queue _ _ => if c.ctx = la.ctx then some c else none
    | .remote _ _ =>
      match m.ctxOf c.ctx with
      | some x => if x.span = la.span then some c else none
      | none => none

/-- Whether the condition of an LCWAIT holds. -/
def Bundle.lcHolds (b : Bundle) (f : Fields) (c : Counter) : Bool := decide ((b.getU f.b.toNat).toNat ≤ c.value.toNat)

/-- Checked mode: a scope of thread, core or cluster against whoever released the latest increment (R240). -/
def Main.lcMismatch (m : Main) (w : WorkGroup) (la : Launch) (scope : Nat) (c : Counter) : Bool :=
  la.spec.checked && decide (scope ≤ 2) &&
    (match c.last with
     | none => false
     | some r => scope == 0 || !scopeHas scope (m.posOf w.core scope) r)

/-- The end of an LCWAIT: the predicate in every active thread, and the value last observed. -/
def Bundle.endLcwait (b : Bundle) (f : Fields) (ok : Bool) (v : DWord) : Bundle :=
  let b1 := b.setP f.dst.toNat b.mask (if ok then 0xFFFFFFFF#32 else 0)
  { (b1.setU f.c.toNat v) with waiting := none, pc := b.pc + 8 }

/-- A satisfied LCWAIT: its acquire, or the scope-mismatch trap. -/
def Main.satisfyLc (m : Main) (w : WorkGroup) (la : Launch) (b : Bundle) (f : Fields) (c : Counter) : Act :=
  let scope := fieldMod f 13 11
  if m.lcMismatch w la scope c then .trap (scopeTrap 0xFF)
  else
    let m1 := m.acquire w.core scope
    .done m1 ((b.endLcwait f true c.value).acquired m1 w.core scope)

/-- LCWAIT. -/
def lcwaitIns : Ins :=
  { cls := 0xA, func := 0x03, kind := .bundle
    legal := fun i => pReg i.f.dst && uReg i.f.a && uReg i.f.b && uReg i.f.c && syncMod i && i.order == 1 &&
      (i.b.getU i.f.a.toNat).toNat / 2 ^ 14 % 2 ^ 18 == 0
    reads := noRegs, writes := noRegs
    addr := fun m i => if (m.lcOf i.la i.b i.f).isNone then some (.plain .ox 0xFF) else none
    run := fun m i =>
      match m.lcOf i.la i.b i.f with
      | none => .trap (.plain .ox 0xFF)
      | some c =>
        if i.b.lcHolds i.f c then m.satisfyLc i.w i.la i.b i.f c
        else
          let us := (i.b.getU i.f.a.toNat).toNat / 2 ^ 32
          .wait m (.counter i.f (if us = 0 then none else some (m.time + us * 1000))) }

/-- What an action means for a bundle that waited and did not issue anew. -/
def Main.applyAct (m : Main) (br : BRef) (w : WorkGroup) (la : Launch) (b : Bundle) (word : DWord) (a : Act) : Out :=
  match a with
  | .done m1 b1 => .next (m1.putBundle br b1)
  | .trap t => .next (m.raiseTrap w la b word b.pc t)
  | .late m1 b1 t => .next ((m1.putBundle br b1).raiseTrap w la b1 word b.pc t)
  | .wait m1 x => .next (m1.putBundle br { b with waiting := some x })
  | .stop r => .refused r

/-- A bundle that waits in LCWAIT, with its work group and launch; one that is being preempted stays at it (R127). -/
def Main.lcWaiter (m : Main) (br : BRef) : Option (WorkGroup × Launch × Bundle × Fields × Option Nat) :=
  match m.wgOf br.wg, m.bundleOf br with
  | some w, some b =>
    match m.launchOf w.launch, b.waiting with
    | some la, some (.counter f d) => if w.state = .running then some (w, la, b, f, d) else none
    | _, _ => none
  | _, _ => none

/-- The counter has reached the expected value (R102). -/
def Main.lcSatisfied (br : BRef) (m : Main) : Out :=
  match m.lcWaiter br with
  | none => .refused (.noSubject "a bundle that waits in LCWAIT")
  | some (w, la, b, f, _) =>
    match m.lcOf la b f with
    | none => .refused (.noSubject "counter")
    | some c =>
      if b.lcHolds f c then m.applyAct br w la b (fieldWord f 0xA 0x03) (m.satisfyLc w la b f c)
      else .refused (.notReady "counter below the expected value")

/-- The value an LCWAIT that times out last observed. -/
def Main.lcValue (m : Main) (la : Launch) (b : Bundle) (f : Fields) : DWord :=
  match m.lcOf la b f with | some c => c.value | none => 0

/-- The timeout has elapsed; a condition that holds by then ends the wait as it does (R102). -/
def Main.lcTimeout (br : BRef) (m : Main) : Out :=
  match m.lcWaiter br with
  | none => .refused (.noSubject "a bundle that waits in LCWAIT")
  | some (w, la, b, f, d) =>
    match d with
    | none => .refused (.notReady "an LCWAIT without a timeout")
    | some t =>
      let m1 := m.until t
      match m1.lcOf la b f with
      | some c =>
        if b.lcHolds f c then m1.applyAct br w la b (fieldWord f 0xA 0x03) (m1.satisfyLc w la b f c)
        else .next (m1.putBundle br (b.endLcwait f false c.value))
      | none => .next (m1.putBundle br (b.endLcwait f false 0))

/-! ### FWAIT (R103, R395, R398) -/

/-- Whether a context may wait on a fence of this module (R394). -/
def Fence.mayWait (f : Fence) (module ctx : Nat) : Bool :=
  f.owner == ctx || f.grants.any (fun g => g.module == module && g.ctx == ctx && g.wait)

/-- Whether a context may signal it (R394). -/
def Fence.maySignal (f : Fence) (home module ctx : Nat) : Bool :=
  (module == home && f.owner == ctx) || f.grants.any (fun g => g.module == module && g.ctx == ctx && g.signal)

/-- The fence an FWAIT names, when it is visible to the context: a fence of the context's home pier (R103, R393). -/
def Main.fwaitFence (m : Main) (la : Launch) (b : Bundle) (f : Fields) : Option Fence :=
  match la.coord, m.fenceOf (b.fwaitHandle f) with
  | .queue _ _, some x => if x.mayWait m.fab.module la.ctx then some x else none
  | _, _ => none

/-- FWAIT at a fence: abandoned, reached, or not yet. -/
def Main.fwaitAt (m : Main) (w : WorkGroup) (la : Launch) (b : Bundle) (f : Fields) (x : Fence) : Act :=
  if !x.live then .done m (b.endFwait f .fenceAbandoned x.value)
  else if fenceReached x.value (b.getU f.b.toNat) then
    let scope := fieldMod f 13 11
    if la.spec.checked && !agrees x.rr (m.posOf w.core scope) then .trap (scopeTrap 0xFF)
    else
      let m1 := m.acquire w.core scope
      .done m1 ((b.endFwait f .ok x.value).acquired m1 w.core scope)
  else .wait m (.fence f)

/-- FWAIT. -/
def fwaitIns : Ins :=
  { cls := 0xA, func := 0x04, kind := .bundle
    legal := fun i => uReg i.f.dst && uReg i.f.a && uReg i.f.b && uReg i.f.c && syncMod i && i.order == 1 &&
      (i.b.getU i.f.a.toNat).toNat / 2 ^ 32 == 0
    reads := noRegs, writes := noRegs
    addr := fun m i => if (m.fwaitFence i.la i.b i.f).isNone then some (.plain .ox 0xFF) else none
    run := fun m i =>
      match m.fwaitFence i.la i.b i.f with
      | none => .trap (.plain .ox 0xFF)
      | some x => m.fwaitAt i.w i.la i.b i.f x }

/-! ### Signals (R234, R396) -/

/-- The bundles that wait on a handle, but for those that are being preempted: they stay at it (R127). -/
def Main.fwaitBundles (m : Main) (handle : Nat) : List BRef :=
  (m.cores.wgs.filter (fun w => w.state == .running)).flatMap (fun w => (w.bundles.filter (fun b =>
    match b.waiting with | some (.fence f) => b.fwaitHandle f == handle | _ => false)).map
      (fun b => { wg := w.id, idx := b.idx }))

/-- One waiting bundle looked at again after a signal. -/
def Main.wakeFwait (m : Main) (br : BRef) : Main :=
  match m.wgOf br.wg, m.bundleOf br with
  | some w, some b =>
    match m.launchOf w.launch, b.waiting with
    | some la, some (.fence f) =>
      match m.fenceOf (b.fwaitHandle f) with
      | some x =>
        match m.applyAct br w la b (fieldWord f 0xA 0x04) (m.fwaitAt w la b f x) with
        | .next m1 => m1
        | _ => m
      | none => m
    | _, _ => m
  | _, _ => m

/-- A fence-wait packet looked at again after a signal: the queue processor is an agent of its module (R222, R240,
R381). -/
def Main.wakePacket (m : Main) (handle : Nat) (w : QRef × Packet) : Main :=
  match m.fenceOf handle, m.ctxOf w.1.ctx with
  | some f, some c =>
    if fenceReached f.value (BitVec.ofNat 64 (fieldAt w.2.bytes 8 8)) then
      let scope := fieldAt w.2.bytes 2 1 % 8
      if c.checked && !agrees f.rr (m.modPos scope) then m.completePacket w.1 w.2 .scopeMismatch 0 f.value.toNat
      else m.completePacket w.1 w.2 .ok 0 f.value.toNat
    else m
  | _, _ => m

/-- A signal of value s applied to a fence, with the record of its release (R239, R396); an abandoned fence ignores it
(R398). -/
def Main.applySignal (m : Main) (handle : Nat) (s : DWord) (rr : Option RelRec) : Main :=
  match m.fenceOf handle with
  | none => m
  | some f =>
    if !f.live then m
    else
      let d := (s - f.value).toNat
      if d = 0 then m
      else if d < 2 ^ 63 then
        let m1 := (m.modFence handle (fun f => { f with value := s, rr := rr })).writeMirror handle
        let m2 := (m1.fwaitBundles handle).foldl (fun m br => m.wakeFwait br) m1
        (m2.fenceWaiters handle).foldl (fun m w => m.wakePacket handle w) m2
      else
        let n := f.regress + 1
        (m.modFence handle (fun f => { f with regress := n })).postCtx f.owner 4 .ok
          (handle * 2 ^ 32 + n % 2 ^ 32)

/-- BARB (R100). -/
def execBarb (b : BRef) (f : Fields) (s : State) : Outcome := onMain (barbIns.issue b f) s
/-- BARC (R100). -/
def execBarc (b : BRef) (f : Fields) (s : State) : Outcome := onMain (barcIns.issue b f) s
/-- FENCE (R101). -/
def execFence (b : BRef) (f : Fields) (s : State) : Outcome := onMain (fenceIns.issue b f) s
/-- LCWAIT (R102). -/
def execLcwait (b : BRef) (f : Fields) (s : State) : Outcome := onMain (lcwaitIns.issue b f) s
/-- LCWAIT_SATISFIED (R102). -/
def execLcwaitSatisfied (b : BRef) (s : State) : Outcome := onMain (Main.lcSatisfied b) s
/-- LCWAIT_TIMEOUT (R102). -/
def execLcwaitTimeout (b : BRef) (s : State) : Outcome := onMain (Main.lcTimeout b) s
/-- FWAIT (R103). -/
def execFwait (b : BRef) (f : Fields) (s : State) : Outcome := onMain (fwaitIns.issue b f) s

end Sys2Proof.Machine
end

