-- ==== Sys2Proof/Machine/TileOps.lean ====
section
/-! DEFINITION. Tile descriptors, their storage, and the reading and writing of tiles (R30-R34, R71, R104-R106,
R111, R112). -/

namespace Sys2Proof.Machine

/-- A tile descriptor's 256 bits (R104). -/
abbrev Desc := BitVec 256

/-- A field of a descriptor. -/
def dField (d : Desc) (hi lo : Nat) : Nat := bits d.toNat hi lo

def dBase (d : Desc) : Nat := dField d 20 0
def dLayout (d : Desc) : Nat := dField d 53 52
def dPts (d : Desc) : Bool := d.getLsbD 54
def dSparse (d : Desc) : Bool := d.getLsbD 55
def dNsmZero (d : Desc) : Bool := d.getLsbD 56
def dSform (d : Desc) : Nat := dField d 59 57
def dEtypeCode (d : Desc) : Nat := dField d 63 60
def dEtype (d : Desc) : Elem := (Elem.ofCode (dEtypeCode d)).getD .acc128
def dInstance (d : Desc) : Nat := dField d 91 64
def dRows (d : Desc) : Nat := dField d 98 92
def dCols (d : Desc) : Nat := dField d 111 99
def dPitch (d : Desc) : Nat := dField d 127 112
def dFlags (d : Desc) : Byte := BitVec.ofNat 8 (dField d 135 128)
def dScale (d : Desc) : Nat := dField d 170 150
def dMeta (d : Desc) : Nat := dField d 191 171
def dOvf (d : Desc) : Bool := d.getLsbD 210
def dRmode (d : Desc) : RMode := (RMode.ofCode (dField d 213 211)).getD .rne
def dAnchor (d : Desc) : Int := signed 10 (dField d 223 214)
/-- The per-tensor scale, when present. -/
def dScaleWord (d : Desc) : Option Word := if dPts d then some (BitVec.ofNat 32 (dField d 255 224)) else none

/-- The FLAGS field with more flags. -/
def dOrFlags (d : Desc) (f : Byte) : Desc := d ||| ((f.setWidth 256) <<< 128)

/-- The ANCHOR field replaced. -/
def dSetAnchor (d : Desc) (a : Int) : Desc :=
  (d &&& ~~~((0x3FF#256) <<< 214)) ||| (((BitVec.ofInt 10 a).setWidth 256) <<< 214)

/-- Some FLAGS bits cleared. -/
def dClearFlags (d : Desc) (f : Byte) : Desc := d &&& ~~~((f.setWidth 256) <<< 128)

/-! ### Geometry (R71, R105, R106) -/

/-- The block of a scaling form: 0 when there is none (R30, R105). -/
def sformBlock : Nat → Nat
  | 1 => 32 | 2 => 16 | 3 => 32 | 4 => 64 | 5 => 128 | _ => 0

/-- Bytes of one scale (R30). -/
def sformBytes (s : Nat) : Nat := if s ≤ 2 then 1 else 2

/-- The columns that are stored: half of them in a sparse tile (R71). -/
def dStored (d : Desc) : Nat := if dSparse d then dCols d / 2 else dCols d

/-- The number of storage lines. -/
def dLines (d : Desc) : Nat := if dLayout d = 1 then dStored d else dRows d

/-- The elements of a storage line. -/
def dPerLine (d : Desc) : Nat := if dLayout d = 1 then dRows d else dStored d

/-- The bytes of a storage line. -/
def dLineLen (d : Desc) : Nat := ceilDiv (dPerLine d * (dEtype d).bits) 8

/-- The bytes a storage line occupies: whole 128 in swizzled layout (R106). -/
def dOccupied (d : Desc) : Nat := if dLayout d = 2 then roundUp (dLineLen d) 128 else dLineLen d

/-- The packed pitch (R106). -/
def dPacked (d : Desc) : Nat := roundUp (dOccupied d) 16

/-- The pitch in force. -/
def dStep (d : Desc) : Nat := if dPitch d = 0 then dPacked d else dPitch d

/-- Bytes of one row of the scale array. -/
def dScaleRow (d : Desc) : Nat := ceilDiv (dCols d) (sformBlock (dSform d)) * sformBytes (dSform d)

/-- R_b: bytes of one row of the index array (R71). -/
def dMetaRow (d : Desc) : Nat := roundUp (ceilDiv (dCols d) 8) 16

/-- The storage of a part of the tile, in allocation offsets: the elements, the scale array, the index array; `sa` is
the span address of line 0 and `stride` the step (R107). -/
def dPart (d : Desc) (which csBase : Nat) (sa stride : Nat) : List XferLine :=
  match which with
  | 0 => (List.range (dLines d)).map (fun i =>
      { sa := (sa + i * stride) % 2 ^ 64, len := dLineLen d, cs := csBase + dBase d + i * dStep d,
        swz := if dLayout d = 2 then i % 8 else 0, data := none })
  | 1 => (List.range (dRows d)).map (fun i =>
      { sa := (sa + i * stride) % 2 ^ 64, len := dScaleRow d, cs := csBase + dScale d + i * dScaleRow d, swz := 0,
        data := none })
  | _ => (List.range (dRows d)).map (fun i =>
      { sa := (sa + i * stride) % 2 ^ 64, len := dMetaRow d, cs := csBase + dMeta d + i * dMetaRow d, swz := 0,
        data := none })

/-- The core-store ranges of lines. -/
def lineRanges (ls : List XferLine) : List (Nat × Nat) := ls.flatMap (fun l => l.pieces.map (fun p => (p.2.1, p.2.2)))

/-- The ranges an instruction reads of a tile: elements, scales and indices, an index array with its padding bytes (R71, R118; DESIGN
CHOICE, assumption log 101). -/
def dReads (d : Desc) (csBase : Nat) : List (Nat × Nat) :=
  lineRanges (dPart d 0 csBase 0 0) ++ (if dSform d = 0 then [] else lineRanges (dPart d 1 csBase 0 0)) ++
    (if dSparse d then lineRanges (dPart d 2 csBase 0 0) else [])

/-! ### Checks of TDSET (R106) -/

/-- The checks that raise the illegal-instruction trap. -/
def dLegal (d : Desc) : Bool :=
  let e := dEtype d
  let mx : Bool := e == .fp4 || e == .e2m3 || e == .e3m2 || e == .e4m3 || e == .e5m2 || e == .int8
  decide (dEtypeCode d ≤ 10) && decide (dSform d ≤ 5) && decide (dLayout d ≤ 2) && decide (dField d 213 211 ≤ 4) &&
  dField d 223 214 != 512 && dField d 209 192 == 0 && dField d 149 136 == 0 && dField d 135 134 == 0 &&
  dField d 51 21 == 0 &&
  decide (1 ≤ dRows d) && decide (dRows d ≤ 64) && decide (1 ≤ dCols d) && decide (dCols d ≤ 4096) &&
  dBase d % 16 == 0 && dPitch d % 16 == 0 &&
  (dSform d == 0 || (decide (dSform d ≤ 2) && mx) || (decide (3 ≤ dSform d) && e == .int4)) &&
  (dLayout d != 2 || decide (128 ≤ dLineLen d)) &&
  (!dSparse d || dCols d % 4 == 0) &&
  (dPitch d == 0 || decide (dPacked d ≤ dPitch d))

/-- Whether the tile and its arrays lie in the allocation (R106). -/
def dInside (d : Desc) (alloc : Nat) : Bool :=
  decide (dBase d + (dLines d - 1) * dStep d + dOccupied d ≤ alloc) &&
  (dSform d == 0 || decide (dScale d + dRows d * dScaleRow d ≤ alloc)) &&
  (!dSparse d || decide (dMeta d + dRows d * dMetaRow d ≤ alloc))

/-! ### Elements -/

/-- An element's code in a line's bytes, packed from the least significant bits up (R105). -/
def elemCode (line : List Byte) (idx w : Nat) : Nat :=
  fieldAt line (idx * w / 8) (w / 8 + 2) / 2 ^ (idx * w % 8) % 2 ^ w

/-- The bytes of a line from its elements' codes. -/
def packLine (w len : Nat) (codes : List Nat) : List Byte :=
  toBytes len ((codes.zipIdx).foldl (fun a c => a + c.1 % 2 ^ w * 2 ^ (c.2 * w)) 0)

/-- The lines of a tile as core store holds them. -/
def Main.tileLines (m : Main) (core csBase : Nat) (d : Desc) : List (List Byte) :=
  (dPart d 0 csBase 0 0).map (fun l => m.lineBytes core l)

/-- The code of a stored element. -/
def tileCode (d : Desc) (lines : List (List Byte)) (r c : Nat) : Nat :=
  if dLayout d = 1 then elemCode (nth lines c []) r (dEtype d).bits else elemCode (nth lines r []) c (dEtype d).bits

/-- An element with its block or group scale: its value, the scale, and what a NaN scale makes of it (R30-R34). -/
structure Factor where
  val : Num
  scale : Num
  scaleNaN : Bool
  zeroMode : Bool
  deriving DecidableEq, Repr

/-- A tile read for its values: its descriptor, its lines, its scale array and its index array. -/
structure TileData where
  d : Desc
  lines : List (List Byte)
  scales : List Byte
  idxs : List Byte

/-- A tile read from core store. -/
def Main.readTile (m : Main) (core csBase : Nat) (d : Desc) : TileData :=
  { d := d, lines := m.tileLines core csBase d
    scales := if dSform d = 0 then [] else m.csRead core (csBase + dScale d) (dRows d * dScaleRow d)
    idxs := if dSparse d then m.csRead core (csBase + dMeta d) (dRows d * dMetaRow d) else [] }

namespace TileData

/-- The dense column of stored element j of row r (R71). -/
def denseCol (t : TileData) (r j : Nat) : Nat :=
  if dSparse t.d then
    4 * (j / 2) + fieldAt t.idxs (r * dMetaRow t.d + j / 4) 1 / 2 ^ (2 * (j % 4)) % 4
  else j

/-- The scale that applies at a dense column (R30, R31). -/
def scaleAt (t : TileData) (r k : Nat) : Option Num :=
  let s := dSform t.d
  if s = 0 then none
  else
    let off := r * dScaleRow t.d + k / sformBlock s * sformBytes s
    let code := fieldAt t.scales off (sformBytes s)
    if s ≤ 2 then some (if code = 0xFF then .nan else .fin false 1 ((code : Int) - 127))
    else some (fmtFP16.decode code)

/-- A value at a dense column with the scale of its block; an INT8 element of a block-scaled tile is its integer × 2^-6
(R25, R30). -/
def scaledAt (t : TileData) (r k : Nat) (v : Num) : Factor :=
  match t.scaleAt r k with
  | none => { val := v, scale := .fin false 1 0, scaleNaN := false, zeroMode := false }
  | some s =>
    { val := if dEtype t.d = .int8 then v.shift (-6) else v
      scale := s, scaleNaN := s.isNaN, zeroMode := dNsmZero t.d }

/-- Stored element (r, j) with its scale. A group of 4 columns lies in one block (R30, R32), so the scale needs no index. -/
def factor (t : TileData) (r j : Nat) : Factor :=
  t.scaledAt r (if dSparse t.d then 4 * (j / 2) else j) ((dEtype t.d).value (tileCode t.d t.lines r j))

/-- The stored elements of a row that stand at a dense column. -/
def atCol (t : TileData) (r k : Nat) : List Factor :=
  if dSparse t.d then
    (([2 * (k / 4), 2 * (k / 4) + 1]).filter (fun j => t.denseCol r j == k)).map (t.factor r)
  else [t.factor r k]

end TileData

/-- An element's scaled value, with INVALID when the scale makes a NaN of it (R33). -/
def Factor.value (x : Factor) : Num × Byte :=
  let p := x.val.mul x.scale
  (p, newNaN [x.val, x.scale] p)

/-- A product (R33, R34, R39). -/
def product (x y : Factor) : Num × Byte :=
  if (x.scaleNaN && !x.zeroMode) || (y.scaleNaN && !y.zeroMode) then (.nan, fSCALENAN ||| fINVALID)
  else if x.scaleNaN || y.scaleNaN then (Num.zero, fSCALENAN)
  else
    let a := x.value
    let b := y.value
    let p := a.1.mul b.1
    (p, a.2 ||| b.2 ||| newNaN [a.1, b.1] p)

/-- A scaled element read alone, by TCONV: a NaN scale by the tile's mode (R33, R112). -/
def Factor.alone (x : Factor) : Num × Byte :=
  if x.scaleNaN then (if x.zeroMode then (Num.zero, fSCALENAN) else (.nan, fSCALENAN ||| fINVALID)) else x.value

/-! ### Writing a tile (R111, R112) -/

/-- The draw word of an element when the tile rounds stochastically (R48). -/
def drawWord (sp : LaunchSpec) (d : Desc) (r c : Nat) : Nat :=
  if dRmode d = .sto then stochasticWord sp.seed sp.reqId (dInstance d) r c else 0

/-- emax of a format (R112). -/
def Elem.emax : Elem → Int
  | .e4m3 => 8 | .e5m2 => 15 | .e2m3 => 2 | .e3m2 => 4 | .fp4 => 2 | _ => 0

/-- floor(log2) of a nonzero finite magnitude. -/
def Num.floorLog2 : Num → Int
  | .fin _ m e => (bitLen m : Int) - 1 + e
  | _ => 0

/-- The largest magnitude of a block. -/
def maxMag : List Num → Num
  | [] => Num.zero
  | x :: r => let y := maxMag r; if x.abs.lt y then y else x.abs

/-- The values of a row into a destination without block scales: codes and flags. -/
def convertRow (sp : LaunchSpec) (d : Desc) (r c0 : Nat) (vals : List Num) : List Nat × Byte :=
  (vals.zipIdx).foldl (fun (a : List Nat × Byte) v =>
    let x := (dEtype d).convert (dRmode d) (dOvf d) (drawWord sp d r (c0 + v.2)) v.1
    (a.1 ++ [x.1], a.2 ||| x.2)) ([], 0)

/-- One block of a block-scaled destination: its scale code, the codes and the flags (R112). -/
def convertBlock (sp : LaunchSpec) (d : Desc) (r c0 : Nat) (vals : List Num) : Nat × List Nat × Byte :=
  if vals.any (fun v => v.isNaN || v.isInf) then (0xFF, vals.map (fun _ => 0), fINVALID)
  else
    let a := maxMag vals
    let e : Int := if a.isZero then -127 else max (-127) (min 127 (a.floorLog2 - (dEtype d).emax))
    let down : Int := if dEtype d = .int8 then e - 6 else e
    let x := convertRow sp d r c0 (vals.map (fun v => v.shift (-down)))
    ((e + 127).toNat, x.1, x.2)

/-- A list cut into blocks of n. -/
def blocksOf {α : Type} : Nat → Nat → List α → List (List α)
  | 0, _, _ => []
  | f + 1, n, l => if l.isEmpty || n == 0 then [] else l.take n :: blocksOf f n (l.drop n)

/-- A row of a destination: codes, scale codes and flags. -/
def convertTileRow (sp : LaunchSpec) (d : Desc) (r : Nat) (vals : List Num) : List Nat × List Nat × Byte :=
  if dSform d = 0 then
    let x := convertRow sp d r 0 vals
    (x.1, [], x.2)
  else
    let n := if dSparse d then sformBlock (dSform d) / 2 else sformBlock (dSform d)
    ((blocksOf (vals.length + 1) n vals).zipIdx).foldl (fun (a : List Nat × List Nat × Byte) b =>
      let x := convertBlock sp d r (b.2 * n) b.1
      (a.1 ++ x.2.1, a.2.1 ++ [x.1], a.2.2 ||| x.2.2)) ([], [], 0)

/-- Every row of a destination. -/
def convertTile (sp : LaunchSpec) (d : Desc) (rows : List (List Num)) : List (List Nat) × List (List Nat) × Byte :=
  (rows.zipIdx).foldl (fun (a : List (List Nat) × List (List Nat) × Byte) v =>
    let x := convertTileRow sp d v.2 v.1
    (a.1 ++ [x.1], a.2.1 ++ [x.2.1], a.2.2 ||| x.2.2)) ([], [], 0)

/-- The bytes of a tile's storage lines from its stored codes by row. -/
def packTile (d : Desc) (codes : List (List Nat)) : List (List Byte) :=
  let w := (dEtype d).bits
  if dLayout d = 1 then
    (List.range (dStored d)).map (fun c => packLine w (dLineLen d) (codes.map (fun r => nth r c 0)))
  else codes.map (packLine w (dLineLen d))

/-- The core-store parts that hold lines: the swizzle places chunk c at c XOR (i mod 8) (R105). -/
def lineParts (ls : List XferLine) (data : List (List Byte)) : List (Nat × List Byte) :=
  (ls.zip data).flatMap (fun x => x.1.pieces.map (fun p => (p.2.1, (x.2.drop p.1).take p.2.2)))

/-- The scale array's part. -/
def scaleParts (d : Desc) (csBase : Nat) (scales : List (List Nat)) : List (Nat × List Byte) :=
  if dSform d = 0 then []
  else (scales.zipIdx).map (fun s => (csBase + dScale d + s.2 * dScaleRow d, s.1.map (BitVec.ofNat 8)))

/-- A tile's elements, and its computed scales, written to core store. -/
def Main.writeTile (m : Main) (core csBase : Nat) (d : Desc) (codes scales : List (List Nat)) : Main :=
  m.csWrite core (lineParts (dPart d 0 csBase 0 0) (packTile d codes) ++ scaleParts d csBase scales)

/-- The ranges that a write of a tile touches. -/
def dWrites (d : Desc) (csBase : Nat) : List (Nat × Nat) :=
  lineRanges (dPart d 0 csBase 0 0) ++ (if dSform d = 0 then [] else lineRanges (dPart d 1 csBase 0 0))

end Sys2Proof.Machine
end

