-- ==== Sys2Proof/Machine/Tmma.lean ====
section
/-! DEFINITION. TMMA and its banks (R32-R42, R69, R71, R108-R111, R118, R134, R135). -/

namespace Sys2Proof.Machine

/-! ### Descriptors of a bundle (R59, R104) -/

/-- A t register's descriptor; none when the field is no t register or the descriptor is invalid. -/
def Issue.desc (i : Issue) (x : BitVec 7) : Option Desc := if tReg x then nth i.b.t x.toNat none else none

/-- A t register set. -/
def Bundle.setT (b : Bundle) (x : BitVec 7) (d : Desc) : Bundle := { b with t := b.t.set x.toNat (some d) }

/-- Whether a range of core store lies in a poisoned row (R65). -/
def Main.rangesBad (m : Main) (core : Nat) (rs : List (Nat × Nat)) : Bool := rs.any (fun r => m.csBad core r.1 r.2)

/-- The poisoned-data trap of a tile instruction (R118, R138). -/
def tilePoison : TrapReq := { cls := .pd, cause := .poisoned, lane := 0xFF, dbcode := 0, flags := 0 }

/-- The arithmetic-flag trap of a tile instruction (R135, R138). -/
def tileAf (flags : Byte) : TrapReq := { cls := .af, cause := .ok, lane := 0xFF, dbcode := 0, flags := flags }

/-! ### The fields of TMMA (R36, R108-R110) -/

/-- A TMMA that passed its checks. -/
structure MmaPlan where
  a : Desc
  b : Desc
  c : Option Desc
  d : Desc
  cont : Bool
  close : Bool
  mode : AccMode
  anchor : Int
  chain : Nat

def isHalf (e : Elem) : Bool := e == .bf16 || e == .fp16

/-- An element type of the LONG table (R108). -/
def isLong (e : Elem) : Bool :=
  e == .fp4 || e == .e2m3 || e == .e3m2 || e == .e4m3 || e == .e5m2 || e == .int8 || e == .int4

/-- INT4 with group scales against its partners (R34). -/
def groupPair (x y : Desc) : Bool :=
  dEtype x == .int4 && decide (3 ≤ dSform x) && (dEtype y == .int8 || dEtype y == .e4m3 || dEtype y == .e5m2)

/-- The permitted pairs and their modes (R108). -/
def pairLegal (a b : Desc) (mode : AccMode) : Bool :=
  if isHalf (dEtype a) || isHalf (dEtype b) then dEtype a == dEtype b && mode != .long
  else
    mode == .long &&
      ((isLong (dEtype a) && isLong (dEtype b) && (dEtype a != .int4 || dSform a == 0) &&
        (dEtype b != .int4 || dSform b == 0)) || groupPair a b || groupPair b a)

/-- K is whole blocks (R32). -/
def blockLegal (d : Desc) : Bool := dSform d == 0 || dCols d % sformBlock (dSform d) == 0

/-- The anchor a TMMA resolves to (R36, R37, R109). -/
def mmaAnchor (f : Fields) (a b : Desc) (mode : AccMode) : Option Int :=
  let field := signed 10 (fieldMod f 12 3)
  if mode = .fp32 then (if fieldMod f 13 3 = 0 then some 0 else none)
  else if fieldMod f 13 13 = 1 then (if field = 0 then naturalAnchor (dEtype a) (dEtype b) else none)
  else if field = -512 then none
  else some field

/-- A destination that a bank may be written to (R108, R111). -/
def bankDest (d : Desc) (mode : AccMode) : Bool :=
  decide (dSform d ≤ 2) && !dSparse d && (mode != .fp32 || dEtype d != .acc128)

/-- A C tile that may be loaded (R108, R110). -/
def loadLegal (c : Desc) (rows cols : Nat) (mode : AccMode) (anchor : Int) : Bool :=
  dRows c == rows && dCols c == cols && !dSparse c &&
    (if mode = .fp32 then dEtype c == .fp32
     else (dEtype c == .acc128 && dAnchor c == anchor) || dEtype c == .fp32 || dEtype c == .bf16 || dEtype c == .fp16)

/-- The accumulation mode of a field (R109). -/
def accMode : Nat → Option AccMode
  | 0 => some .long | 1 => some .fp32 | 2 => some .windowed | _ => none

/-- The open bank of a chain. -/
def Bundle.bank (b : Bundle) (chain : Nat) : Option Bank := nth b.chains chain none

/-- Whether the chain stands as INIT asks (R110). -/
def chainLegal (bk : Option Bank) (cont : Bool) (rows cols : Nat) (mode : AccMode) (anchor : Int) : Bool :=
  match bk with
  | none => !cont
  | some k => cont && k.m == rows && k.n == cols && k.mode == mode && k.anchor == anchor

/-- The checks of TMMA (R32, R37, R108-R111); none is the illegal-instruction trap. -/
def Issue.mmaPlan (i : Issue) : Option MmaPlan :=
  let init := fieldMod i.f 18 17
  let close := fieldMod i.f 16 16 == 1
  match i.desc i.f.a, i.desc i.f.b, i.desc i.f.dst, accMode (fieldMod i.f 15 14) with
  | some a, some b, some d, some mode =>
    match mmaAnchor i.f a b mode with
    | none => none
    | some anchor =>
      let chain := fieldMod i.f 2 2
      let c := if init = 1 then i.desc i.f.c else none
      let shape : Bool := init != 3 && fieldMod i.f 1 0 == 0 && dCols a == dCols b && !dSparse b && pairLegal a b mode &&
        blockLegal a && blockLegal b
      let bank := chainLegal (i.b.bank chain) (init == 2) (dRows a) (dRows b) mode anchor
      let dest := !close || (dRows d == dRows a && dCols d == dRows b && bankDest d mode)
      let load : Bool :=
        if init = 1 then (match c with | some c => loadLegal c (dRows a) (dRows b) mode anchor | none => false)
        else i.f.c == 0
      if shape && bank && dest && load then
        some { a := a, b := b, c := c, d := d, cont := init == 2, close := close, mode := mode, anchor := anchor,
               chain := chain }
      else none
  | _, _, _, _ => none

/-! ### The update -/

/-- The factors of A at a dense column; a position that no kept element names is a zero of its block (R33, R71). -/
def TileData.column (t : TileData) (r k : Nat) : List Factor :=
  let l := t.atCol r k
  if l.isEmpty then [t.scaledAt r k Num.zero] else l

/-- The products of one output element, along K (R37-R39, R42, R71). -/
def products (a b : TileData) (r n : Nat) : List (Num × Byte) :=
  (List.range (dCols b.d)).flatMap (fun k => (a.column r k).map (fun x => product x (b.factor n k)))

/-- One element of a LONG or WINDOWED bank (R38, R39). -/
def longElement (key : Nat) (anchor : Int) (old : BitVec 128) (ps : List (Num × Byte)) : BitVec 128 × Byte :=
  let terms := ps.map (fun p => Acc.ofNum anchor p.1)
  let s := Acc.sum key (Acc.ofBits old) (terms.map (·.1))
  (s.1.toBits, (ps.map (·.2)).foldl (· ||| ·) 0 ||| (terms.map (·.2)).foldl (· ||| ·) s.2)

/-- A leaf of the FP32 tree: the rounded product, or the rounded sum of two (R41, R71). -/
def leaf (ps : List (Num × Byte)) : FRes :=
  let rs : List FRes := ps.map (fun p => let r := roundF32 .rne p.1; (r.1, p.2 ||| r.2))
  match rs with
  | [] => (0, 0)
  | [x] => x
  | x :: y :: _ => let r := fAdd .rne (f32 x.1) (f32 y.1); (r.1, x.2 ||| y.2 ||| r.2)

/-- One element of an FP32 bank (R41). -/
def fp32Element (a b : TileData) (old : BitVec 128) (r n : Nat) : BitVec 128 × Byte :=
  let leaves := (List.range (dCols b.d)).map (fun k =>
    leaf ((a.column r k).map (fun x => product x (b.factor n k))))
  let t := tree (leaves.map (·.1))
  let d := fAdd .rne (f32 (old.setWidth 32)) (f32 t.1)
  (d.1.setWidth 128, (leaves.map (·.2)).foldl (· ||| ·) (t.2 ||| d.2))

/-- A bank after an update, with the flags the update sets. -/
def Bank.update (k : Bank) (key : Nat) (a b : TileData) : Bank × Byte :=
  let out := (k.vals.zipIdx).map (fun v =>
    let r := v.2 / k.n
    let n := v.2 % k.n
    if k.mode = .fp32 then fp32Element a b v.1 r n
    else longElement (key + v.2 * (2 * dCols b.d)) k.anchor v.1 (products a b r n))
  ({ k with vals := out.map (·.1), ptsA := dScaleWord a.d, ptsB := dScaleWord b.d }, (out.map (·.2)).foldl (· ||| ·) 0)

/-- The bank a chain starts from: zero, or C (R110). -/
def openBank (rows cols : Nat) (mode : AccMode) (anchor : Int) (c : Option TileData) : Bank × Byte :=
  let k : Bank := { m := rows, n := cols, mode := mode, anchor := anchor, flags := 0,
                    vals := List.replicate (rows * cols) 0, ptsA := none, ptsB := none }
  match c with
  | none => (k, 0)
  | some t =>
    let out := (List.range (rows * cols)).map (fun x =>
      let code := tileCode t.d t.lines (x / cols) (x % cols)
      if mode = .fp32 ∨ dEtype t.d = .acc128 then (BitVec.ofNat 128 code, (0 : Byte))
      else longElement 0 anchor 0 [((dEtype t.d).value code, 0)])
    ({ k with vals := out.map (·.1), flags := dFlags t.d }, (out.map (·.2)).foldl (· ||| ·) 0)

/-! ### Out of a bank (R40, R111, R112) -/

/-- An element of a bank as the conversion reads it, times the per-tensor scales. -/
def Bank.scaled (k : Bank) (s : Num) (w : BitVec 128) : Num × Byte :=
  if k.mode = .fp32 then scaledBy (f32 (w.setWidth 32)) s true
  else
    let v := (Acc.ofBits w).value k.anchor
    let r := scaledBy v.1 s false
    (r.1, r.2 ||| v.2)

/-- A bank converted for a tile: the codes by row, the scale codes by row, the flags. -/
def Bank.convert (k : Bank) (sp : LaunchSpec) (d : Desc) : List (List Nat) × List (List Nat) × Byte :=
  let rows := (List.range k.m).map (fun r => (k.vals.drop (r * k.n)).take k.n)
  if dEtype d = .acc128 then (rows.map (·.map (·.toNat)), [], 0)
  else
    let s := scaleProduct [k.ptsA, k.ptsB, dScaleWord d]
    let vs := rows.map (·.map (k.scaled s))
    let c := convertTile sp d (vs.map (·.map (·.1)))
    (c.1, c.2.1, (vs.flatMap (·.map (·.2))).foldl (· ||| ·) c.2.2)

/-- A tile's descriptor after a bank was written to it: FLAGS ORed, and the anchor of an ACC128 tile (R110, R111). -/
def bankDesc (d : Desc) (k : Bank) : Desc :=
  dOrFlags (if dEtype d = .acc128 then dSetAnchor d k.anchor else d) k.flags

/-- Flags joined to the launch's flag word (R134). -/
def Main.launchFlags (m : Main) (id : Nat) (f : Byte) : Main := m.modLaunch id (fun l => { l with flags := l.flags ||| f })

/-! ### TMMA -/

/-- The bundles whose banks stand on the unit a bundle uses: those of its core on its quadrant (R53, R69). -/
def Main.unitBanks (m : Main) (core quadrant : Nat) : Nat :=
  (m.cores.wgs.flatMap (fun w => if w.core = core then
    (w.bundles.filter (fun b => (b.idx + w.w) % 4 == quadrant)).flatMap (fun b => b.chains.filterMap id) else [])).length

/-- The quadrant of a bundle (R53). -/
def Issue.quadrant (i : Issue) : Nat := (i.b.idx + i.w.w) % 4

/-- The core-store ranges a TMMA reads. -/
def MmaPlan.reads (p : MmaPlan) (base : Nat) : List (Nat × Nat) :=
  dReads p.a base ++ dReads p.b base ++ (match p.c with | some c => dReads c base | none => [])

/-- The core-store ranges a TMMA reads and, when it closes its bank, writes. -/
def MmaPlan.ranges (p : MmaPlan) (base : Nat) : List (Nat × Nat) :=
  p.reads base ++ (if p.close then dWrites p.d base else [])

/-- A TMMA performed: the bank opened or continued, updated, and closed when CLOSE is 1 (R110). -/
def Main.mma (m : Main) (i : Issue) (p : MmaPlan) : Main × Bundle :=
  let core := i.w.core
  let base := i.w.base
  let start := match i.b.bank p.chain with
    | some k => if p.cont then (k, 0) else openBank (dRows p.a) (dRows p.b) p.mode p.anchor none
    | none => openBank (dRows p.a) (dRows p.b) p.mode p.anchor (p.c.map (m.readTile core base))
  let up := start.1.update m.free (m.readTile core base p.a) (m.readTile core base p.b)
  let m1 := { m with free := m.free + dRows p.a * dRows p.b * (2 * dCols p.b) }
  let out := if p.close then up.1.convert i.la.spec p.d else ([], [], 0)
  let flags := start.1.flags ||| start.2 ||| up.2 ||| out.2.2
  let k := { up.1 with flags := flags }
  let run : MmaRun := { chain := p.chain, pc := i.b.pc, word := i.word, flags := flags,
                        newFlags := flags &&& ~~~start.1.flags, ranges := p.ranges base }
  let b1 := { i.b with mma := i.b.mma ++ [run], pc := i.b.pc + 8 }
  if p.close then
    (((m1.writeTile core base p.d out.1 out.2.1).launchFlags i.la.id flags),
      { b1 with chains := b1.chains.set p.chain none }.setT i.f.dst (bankDesc p.d k))
  else (m1, { b1 with chains := b1.chains.set p.chain (some k) })

/-- TMMA. -/
def tmmaIns : Ins :=
  { cls := 0xB, func := 0x04, kind := .uniform, legal := fun i => i.mmaPlan.isSome
    reads := noRegs, writes := noRegs, addr := noAddr
    store := fun i => match i.mmaPlan with | some p => p.ranges i.w.base | none => []
    run := fun m i =>
      match i.mmaPlan with
      | none => .trap (.plain .il 0xFF)
      | some p =>
        let m1 := m.settle i.w i.b.idx (p.ranges i.w.base)
        if m1.rangesBad i.w.core (p.reads i.w.base) then .trap tilePoison
        else if !p.cont && decide (2 ≤ m1.unitBanks i.w.core i.quadrant) then .wait m (.bank i.f)
        else let r := m1.mma i p; .done r.1 r.2 }

/-- A waiting TMMA proceeds when a bank of its unit has closed (R69). -/
def Main.bankFree (br : BRef) (m : Main) : Out :=
  match m.wgOf br.wg, m.bundleOf br with
  | some w, some b =>
    match b.waiting with
    | some (.bank f) =>
      if 2 ≤ m.unitBanks w.core ((b.idx + w.w) % 4) then .refused (.notReady "no bank is free")
      else tmmaIns.issue br f m
    | _ => .refused (.noSubject "a TMMA that waits for a bank")
  | _, _ => .refused (.noSubject "bundle")

/-- The oldest uncompleted TMMA of a chain completes; a flag that it changed and TRAPEN promotes traps (R118, R135). -/
def Main.mmaComplete (br : BRef) (chain : Nat) (m : Main) : Out :=
  match m.wgOf br.wg, m.bundleOf br with
  | some w, some b =>
    match m.launchOf w.launch, b.mma.find? (fun r => r.chain == chain) with
    | some la, some r =>
      let b1 := { b with mma := b.mma.erase r }
      let m1 := m.putBundle br b1
      if r.newFlags &&& la.spec.trapEn = 0 then .next m1
      else .next (m1.raiseTrap w la b1 r.word r.pc (tileAf r.flags))
    | _, _ => .refused (.noSubject "a TMMA of that chain")
  | _, _ => .refused (.noSubject "bundle")

/-- TMMA (R108-R111). -/
def execTmma (b : BRef) (f : Fields) (s : State) : Outcome := onMain (tmmaIns.issue b f) s
/-- TMMA_BANK_FREE (R69). -/
def execTmmaBankFree (b : BRef) (s : State) : Outcome := onMain (Main.bankFree b) s
/-- TMMA_COMPLETE (R118, R135). -/
def execTmmaComplete (b : BRef) (chain : Nat) (s : State) : Outcome := onMain (Main.mmaComplete b chain) s

end Sys2Proof.Machine
end

