-- ==== Sys2Proof/Machine/Tile.lean ====
section
/-! DEFINITION. The tile class beside TMMA (R75, R104-R107, R112, R113, R118, R134, R135). -/

namespace Sys2Proof.Machine

/-! ### TDSET, TDGET (R106) -/

/-- The descriptor in four u registers. -/
def Bundle.descIn (b : Bundle) (x : BitVec 7) : Desc :=
  b.getU (x.toNat + 3) ++ b.getU (x.toNat + 2) ++ b.getU (x.toNat + 1) ++ b.getU x.toNat

/-- A group of four u registers (R80). -/
def uReg4 (x : BitVec 7) : Bool := uReg x && x.toNat % 4 == 0

/-- TDSET. -/
def tdsetIns : Ins :=
  { cls := 0xB, func := 0x00, kind := .uniform
    legal := fun i => tReg i.f.dst && uReg4 i.f.a && i.f.b == 0 && i.f.c == 0 && i.f.md == 0 && dLegal (i.b.descIn i.f.a)
    reads := noRegs, writes := noRegs
    addr := fun _ i => if dInside (i.b.descIn i.f.a) i.la.csBytes then none else some (.plain .ox 0xFF)
    run := fun m i => .done m (i.b.setT i.f.dst (i.b.descIn i.f.a)).advance }

/-- TDGET. -/
def tdgetIns : Ins :=
  { cls := 0xB, func := 0x01, kind := .uniform
    legal := fun i => uReg4 i.f.dst && (i.desc i.f.a).isSome && i.f.b == 0 && i.f.c == 0 && i.f.md == 0
    reads := noRegs, writes := noRegs, addr := noAddr
    run := fun m i =>
      match i.desc i.f.a with
      | none => .trap (.plain .il 0xFF)
      | some d =>
        .done m ((List.range 4).foldl (fun b k => b.setU (i.f.dst.toNat + k) (d.extractLsb' (64 * k) 64)) i.b).advance }

/-! ### TLOAD, TSTORE (R74, R75, R107) -/

/-- What a transfer moves, in MOD[18:17] (R107). -/
def Issue.part (i : Issue) : Nat := fieldMod i.f 18 17

/-- The selections that the descriptor has (R107). -/
def partLegal (d : Desc) : Nat → Bool
  | 0 => true
  | 1 => dSform d != 0
  | 2 => dSparse d
  | _ => false

/-- The lines of the transfer. -/
def Issue.xferLines (i : Issue) (d : Desc) : List XferLine :=
  dPart d i.part i.w.base (i.b.getU i.f.a.toNat).toNat (i.b.getU i.f.b.toNat).toNat

/-- Misaligned access, then a line outside the span (R107, R117). -/
def xferCheck (m : Main) (i : Issue) : Option TrapReq :=
  if (i.b.getU i.f.a.toNat).toNat % 16 ≠ 0 ∨ (i.b.getU i.f.b.toNat).toNat % 16 ≠ 0 then some (.plain .ma 0xFF)
  else
    match i.desc i.f.dst with
    | none => none
    | some d =>
      if (i.xferLines d).all (fun l => m.mem.holdsRange i.la.span l.sa l.len) then none else some (.plain .ox 0xFF)

/-- The transfers outstanding on a core (R74). -/
def Main.coreXfers (m : Main) (core : Nat) : Nat :=
  ((m.cores.wgs.filter (fun w => w.core == core)).map (fun w => w.xfers.length)).sum

/-- A transfer handed to the engine. -/
def Main.startXfer (m : Main) (i : Issue) (store : Bool) (ls : List XferLine) : Main :=
  m.modWg i.w.id (fun w => { w with xfers := w.xfers ++ [{ bundle := i.b.idx, store := store, lines := ls }] })

/-- Fields of the transfers: a t register, u address and stride. -/
def xferLegal (i : Issue) : Bool := uReg i.f.a && uReg i.f.b && i.f.c == 0 && (i.desc i.f.dst).isSome

/-- TLOAD: its bytes land when it completes. -/
def tloadIns : Ins :=
  { cls := 0xB, func := 0x02, kind := .uniform
    legal := fun i => xferLegal i && fieldMod i.f 16 0 == 0 &&
      (match i.desc i.f.dst with | some d => partLegal d i.part | none => false)
    reads := noRegs, writes := noRegs, addr := xferCheck
    store := fun i => match i.desc i.f.dst with | some d => lineRanges (i.xferLines d) | none => []
    run := fun m i =>
      match i.desc i.f.dst with
      | none => .trap (.plain .il 0xFF)
      | some d =>
        let ls := i.xferLines d
        let m1 := m.settle i.w i.b.idx (lineRanges ls)
        if 64 ≤ m1.coreXfers i.w.core then .wait m .transfers
        else .done (m1.startXfer i false ls) i.b.advance }

/-- The bank a TSTORE in bank mode empties, when its checks pass (R107, R111). -/
def Issue.storeBank (i : Issue) (d : Desc) : Option Bank :=
  match i.b.bank (fieldMod i.f 2 2) with
  | none => none
  | some k => if dRows d = k.m ∧ dCols d = k.n ∧ bankDest d k.mode then some k else none

/-- TSTORE of a bank: once the TMMAs of its chain have completed (R118), converted, its scales to core store, its elements to span memory;
the bank is closed. -/
def Main.storeBank (m : Main) (i : Issue) (d : Desc) (k0 : Bank) : Act :=
  if i.b.mma.any (fun r => r.chain == fieldMod i.f 2 2) then .wait m .tmma else
  let ls := i.xferLines d
  let c := k0.convert i.la.spec d
  let k := { k0 with flags := k0.flags ||| c.2.2 }
  let sc := scaleParts d i.w.base c.2.1
  let m1 := m.settle i.w i.b.idx (sc.map (fun p => (p.1, p.2.length)))
  if 64 ≤ m1.coreXfers i.w.core then .wait m .transfers
  else
    let data := packTile d c.1
    let m2 := (m1.csWrite i.w.core sc).startXfer i true ((ls.zip data).map (fun x => { x.1 with data := some x.2 }))
    let m3 := m2.launchFlags i.la.id k.flags
    let b1 := { i.b with chains := i.b.chains.set (fieldMod i.f 2 2) none }.setT i.f.dst (bankDesc d k)
    if k.flags &&& ~~~k0.flags &&& i.la.spec.trapEn = 0 then .done m3 b1.advance
    else .late m3 b1.advance (tileAf k.flags)

/-- The core-store ranges of a TSTORE: those it moves, or in bank mode the destination's scale array (R111). -/
def Issue.storeRanges (i : Issue) : List (Nat × Nat) :=
  match i.desc i.f.dst with
  | none => []
  | some d =>
    if fieldMod i.f 16 16 = 0 then lineRanges (i.xferLines d)
    else if dSform d = 0 then [] else lineRanges (dPart d 1 i.w.base 0 0)

/-- TSTORE: its bytes are taken as it issues. -/
def tstoreIns : Ins :=
  { cls := 0xB, func := 0x03, kind := .uniform
    legal := fun i => xferLegal i && fieldMod i.f 15 3 == 0 && fieldMod i.f 1 0 == 0 &&
      (match i.desc i.f.dst with
       | some d =>
         if fieldMod i.f 16 16 = 1 then i.part == 0 && (i.storeBank d).isSome
         else fieldMod i.f 2 2 == 0 && partLegal d i.part
       | none => false)
    reads := noRegs, writes := noRegs, addr := xferCheck
    store := Issue.storeRanges
    run := fun m i =>
      match i.desc i.f.dst with
      | none => .trap (.plain .il 0xFF)
      | some d =>
        if fieldMod i.f 16 16 = 1 then
          match i.storeBank d with
          | some k => m.storeBank i d k
          | none => .trap (.plain .il 0xFF)
        else
          let ls := i.xferLines d
          let m1 := m.settle i.w i.b.idx (lineRanges ls)
          if m1.rangesBad i.w.core (lineRanges ls) then .trap tilePoison
          else if 64 ≤ m1.coreXfers i.w.core then .wait m .transfers
          else .done (m1.startXfer i true (ls.map (fun l => { l with data := some (m1.lineBytes i.w.core l) }))) i.b.advance }

/-- The n-th outstanding transfer of a bundle completes, counted in issue order from 0 (R75). -/
def Main.xferComplete (br : BRef) (n : Nat) (m : Main) : Out :=
  match m.wgOf br.wg with
  | none => .refused (.noSubject "work group")
  | some w =>
    match (w.xfers.filter (fun x => x.bundle == br.idx))[n]? with
    | none => .refused (.noSubject "transfer")
    | some x =>
      let span := match m.launchOf w.launch with | some l => l.span | none => 0
      if m.xferHeld span x then .refused (.notReady "a line's home")
      else .next (((m.performXfer w.core span x).modWg w.id (fun w => { w with xfers := w.xfers.erase x })).wgEnded w.id)

/-! ### TCONV, TREDUCE, TFILL (R112, R113) -/

/-- Completion of TCONV and TREDUCE: FLAGS and the launch's flag word; AF by the flags it computed itself (R112, R113,
R134, R135). -/
def tileDone (m : Main) (i : Issue) (d : Desc) (merged own : Byte) : Act :=
  let d1 := dOrFlags d (merged ||| own)
  let m1 := m.launchFlags i.la.id (merged ||| own)
  let b1 := (i.b.setT i.f.dst d1).advance
  if own &&& i.la.spec.trapEn = 0 then .done m1 b1 else .late m1 b1 (tileAf (dFlags d1))

/-- A source element of TCONV: its value, its flags, whether it is a clash NaN. -/
def TileData.conv (t : TileData) (r j : Nat) : Num × Byte × Bool :=
  if dEtype t.d = .acc128 then
    let a := Acc.ofBits (BitVec.ofNat 128 (tileCode t.d t.lines r j))
    let v := a.value (dAnchor t.d)
    (v.1, v.2, a == .clash)
  else
    let v := (t.factor r j).alone
    (v.1, v.2, false)

/-- Whether the zeros of a source have signs (R29). -/
def signedZero (d : Desc) : Bool := (dEtype d).fmt.isSome

/-- One element into an ACC128 destination (R112). A clash stays a clash and sets no flag, also where the source's scale is a NaN: R40 and
R112 do not say which of the two comes first (DESIGN CHOICE, assumption log 100). -/
def convAcc (anchor : Int) (src : Desc) (s : Num) (v : Num × Byte × Bool) : Nat × Byte :=
  if v.2.2 then (Acc.clash.toBits.toNat, 0)
  else
    let p := scaledBy v.1 s (signedZero src)
    let t := Acc.ofNum anchor p.1
    let a := (Acc.fin 0).add t.1
    (a.1.toBits.toNat, v.2.1 ||| p.2 ||| t.2 ||| a.2)

/-- TCONV's codes, scales and flags. -/
def convTile (sp : LaunchSpec) (t : TileData) (d : Desc) : List (List Nat) × List (List Nat) × Byte :=
  let vs := (List.range (dRows t.d)).map (fun r => (List.range (dStored t.d)).map (t.conv r))
  if dEtype d = .acc128 then
    let out := vs.map (·.map (convAcc (dAnchor d) t.d (scaleProduct [dScaleWord t.d])))
    (out.map (·.map (·.1)), [], (out.flatMap (·.map (·.2))).foldl (· ||| ·) 0)
  else
    let s := scaleProduct [dScaleWord t.d, dScaleWord d]
    let sv := vs.map (·.map (fun v => let p := scaledBy v.1 s (signedZero t.d); (p.1, p.2 ||| v.2.1)))
    let c := convertTile sp d (sv.map (·.map (·.1)))
    (c.1, c.2.1, (sv.flatMap (·.map (·.2))).foldl (· ||| ·) c.2.2)

/-- The shapes and types of TCONV (R112). -/
def convLegal (src d : Desc) : Bool :=
  dRows src == dRows d && dCols src == dCols d && decide (dSform d ≤ 2) && dSparse src == dSparse d &&
    (dEtype d != .acc128 || !dPts d)

/-- The ranges TCONV reads: not the index array of a sparse source (R112). -/
def convReads (d : Desc) (base : Nat) : List (Nat × Nat) :=
  lineRanges (dPart d 0 base 0 0) ++ (if dSform d = 0 then [] else lineRanges (dPart d 1 base 0 0))

/-- TCONV. -/
def tconvIns : Ins :=
  { cls := 0xB, func := 0x06, kind := .uniform
    legal := fun i => i.f.b == 0 && i.f.c == 0 && i.f.md == 0 &&
      (match i.desc i.f.a, i.desc i.f.dst with | some s, some d => convLegal s d | _, _ => false)
    reads := noRegs, writes := noRegs, addr := noAddr
    store := fun i => match i.desc i.f.a, i.desc i.f.dst with
      | some s, some d => convReads s i.w.base ++ dWrites d i.w.base
      | _, _ => []
    run := fun m i =>
      match i.desc i.f.a, i.desc i.f.dst with
      | some s, some d =>
        let base := i.w.base
        let m1 := m.settle i.w i.b.idx (convReads s base ++ dWrites d base)
        if m1.rangesBad i.w.core (convReads s base) then .trap tilePoison
        else
          let c := convTile i.la.spec (m1.readTile i.w.core base s) d
          tileDone (m1.writeTile i.w.core base d c.1 c.2.1) i d 0 c.2.2
      | _, _ => .trap (.plain .il 0xFF) }

/-- A source element of a standard TREDUCE: the element times its tile's scale, in FP32 (R113). -/
def reduceSource (t : TileData) (r c : Nat) : FRes :=
  let v := (dEtype t.d).value (tileCode t.d t.lines r c)
  match dScaleWord t.d with
  | none => (BitVec.ofNat 32 (fmtFP32.convert .rne true 0 v).1, 0)
  | some s => fMul .rne v (f32 s)

/-- The flags that TREDUCE's own FP32 operations set: R44 gives OVERFLOW and UNDERFLOW to the vector unit, to FP32-mode
TMMA and to conversions alone (R44, R113). -/
def reduceFlags (f : Byte) : Byte := f &&& fINVALID

/-- One sum of a standard TREDUCE, times the destination's scale. -/
def reduceSum (x y : TileData) (d : Desc) (r c : Nat) : Num × Byte :=
  let p := reduceSource x r c
  let q := reduceSource y r c
  let s := fAdd .rne (f32 p.1) (f32 q.1)
  let v := scaledBy (f32 s.1) (scaleProduct [dScaleWord d]) true
  (v.1, reduceFlags (p.2 ||| q.2 ||| s.2) ||| v.2)

/-- One sum of an exact TREDUCE (R38, R39, R113). -/
def reduceExact (x y : TileData) (r c : Nat) : Nat × Byte :=
  let a (t : TileData) := Acc.ofBits (BitVec.ofNat 128 (tileCode t.d t.lines r c))
  let s := (a x).add (a y)
  (s.1.toBits.toNat, s.2)

/-- TREDUCE's codes, scales and flags. -/
def reduceTile (sp : LaunchSpec) (mode : Nat) (x y : TileData) (d : Desc) : List (List Nat) × List (List Nat) × Byte :=
  let at2 {α : Type} (g : Nat → Nat → α) : List (List α) :=
    (List.range (dRows d)).map (fun r => (List.range (dCols d)).map (g r))
  if mode = 0 then
    let out := at2 (reduceExact x y)
    (out.map (·.map (·.1)), [], (out.flatMap (·.map (·.2))).foldl (· ||| ·) 0)
  else
    let sv := at2 (reduceSum x y d)
    let c := convertTile sp d (sv.map (·.map (·.1)))
    (c.1, c.2.1, (sv.flatMap (·.map (·.2))).foldl (· ||| ·) c.2.2)

/-- The shapes and types of TREDUCE (R113). -/
def reduceLegal (mode : Nat) (x y d : Desc) : Bool :=
  dRows x == dRows d && dCols x == dCols d && dRows y == dRows d && dCols y == dCols d &&
    !dSparse x && !dSparse y && !dSparse d &&
    (match mode with
     | 0 => dEtype x == .acc128 && dEtype y == .acc128 && dEtype d == .acc128 && dAnchor x == dAnchor d &&
       dAnchor y == dAnchor d
     | 1 => (dEtype x == .fp32 || dEtype x == .bf16) && (dEtype y == .fp32 || dEtype y == .bf16) &&
       bankDest d .fp32
     | _ => false)

/-- TREDUCE. -/
def treduceIns : Ins :=
  { cls := 0xB, func := 0x05, kind := .uniform
    legal := fun i => i.f.c == 0 && fieldMod i.f 16 0 == 0 &&
      (match i.desc i.f.a, i.desc i.f.b, i.desc i.f.dst with
       | some x, some y, some d => reduceLegal (fieldMod i.f 18 17) x y d
       | _, _, _ => false)
    reads := noRegs, writes := noRegs, addr := noAddr
    store := fun i => match i.desc i.f.a, i.desc i.f.b, i.desc i.f.dst with
      | some x, some y, some d => dReads x i.w.base ++ dReads y i.w.base ++ dWrites d i.w.base
      | _, _, _ => []
    run := fun m i =>
      match i.desc i.f.a, i.desc i.f.b, i.desc i.f.dst with
      | some x, some y, some d =>
        let base := i.w.base
        let rd := dReads x base ++ dReads y base
        let m1 := m.settle i.w i.b.idx (rd ++ dWrites d base)
        if m1.rangesBad i.w.core rd then .trap tilePoison
        else
          let c := reduceTile i.la.spec (fieldMod i.f 18 17) (m1.readTile i.w.core base x)
            (m1.readTile i.w.core base y) d
          tileDone (m1.writeTile i.w.core base d c.1 c.2.1) i d (dFlags x ||| dFlags y) c.2.2
      | _, _, _ => .trap (.plain .il 0xFF) }

/-- The code TFILL writes: the register's low bits; sign-extended for ACC128. -/
def fillCode (d : Desc) (u : DWord) : Nat :=
  if dEtype d = .acc128 then (u.signExtend 128).toNat else u.toNat % 2 ^ (dEtype d).bits

/-- TFILL. -/
def tfillIns : Ins :=
  { cls := 0xB, func := 0x07, kind := .uniform
    legal := fun i => (i.desc i.f.dst).isSome && uReg i.f.a && i.f.b == 0 && i.f.c == 0 && i.f.md == 0
    reads := noRegs, writes := noRegs, addr := noAddr
    store := fun i => match i.desc i.f.dst with | some d => lineRanges (dPart d 0 i.w.base 0 0) | none => []
    run := fun m i =>
      match i.desc i.f.dst with
      | none => .trap (.plain .il 0xFF)
      | some d =>
        let m1 := m.settle i.w i.b.idx (lineRanges (dPart d 0 i.w.base 0 0))
        let row := List.replicate (dStored d) (fillCode d (i.b.getU i.f.a.toNat))
        .done (m1.writeTile i.w.core i.w.base d (List.replicate (dRows d) row) []) i.b.advance }

/-- TDSET (R106). -/
def execTdset (b : BRef) (f : Fields) (s : State) : Outcome := onMain (tdsetIns.issue b f) s
/-- TDGET (R104). -/
def execTdget (b : BRef) (f : Fields) (s : State) : Outcome := onMain (tdgetIns.issue b f) s
/-- TLOAD (R107). -/
def execTload (b : BRef) (f : Fields) (s : State) : Outcome := onMain (tloadIns.issue b f) s
/-- TSTORE (R107). -/
def execTstore (b : BRef) (f : Fields) (s : State) : Outcome := onMain (tstoreIns.issue b f) s
/-- TILE_TRANSFER_COMPLETE (R75). -/
def execTileTransferComplete (b : BRef) (n : Nat) (s : State) : Outcome := onMain (Main.xferComplete b n) s
/-- TREDUCE (R113). -/
def execTreduce (b : BRef) (f : Fields) (s : State) : Outcome := onMain (treduceIns.issue b f) s
/-- TCONV (R112). -/
def execTconv (b : BRef) (f : Fields) (s : State) : Outcome := onMain (tconvIns.issue b f) s
/-- TFILL (R104). -/
def execTfill (b : BRef) (f : Fields) (s : State) : Outcome := onMain (tfillIns.issue b f) s

end Sys2Proof.Machine
end

