-- ==== Sys2Proof/Machine/Special.lean ====
section
/-! DEFINITION. The special class, and words that are no instruction (R57, R79, R116, R136). -/

namespace Sys2Proof.Machine

/-! ### SRD (R116) -/

/-- The special registers other than LANE. -/
def Main.special (m : Main) (i : Issue) : Nat → Nat
  | 0x01 => i.b.idx
  | 0x02 => i.la.spec.bundles
  | 0x03 => i.w.lin % i.la.spec.gridX
  | 0x04 => i.w.lin / i.la.spec.gridX % i.la.spec.gridY
  | 0x05 => i.w.lin / (i.la.spec.gridX * i.la.spec.gridY)
  | 0x06 => i.la.spec.gridX
  | 0x07 => i.la.spec.gridY
  | 0x08 => i.la.spec.gridZ
  | 0x09 => m.coreRank i.la.span i.w.core
  | 0x0A => m.spanRank i.la.span
  | 0x0B => m.pierCount i.la.span
  | 0x0C => i.w.cycle / 64
  | 0x0D => m.time / 1000 * 1000
  | _ => i.la.spec.reqId.toNat

/-- SRD of LANE into a v register, per thread. -/
def srdLaneIns : Ins :=
  { cls := 0xD, func := 0x01, kind := .thread
    legal := fun i => i.vReg i.f.dst && i.f.a == 0 && i.f.b == 0 && i.f.c == 0
    reads := noRegs, writes := fun i => [(i.f.dst.toNat, 1)], addr := noAddr
    run := fun m i => .done m (i.b.setV i.f.dst.toNat i.mask (BitVec.ofNat 32)).advance }

/-- SRD of another special register into a u register. -/
def srdUIns : Ins :=
  { cls := 0xD, func := 0x01, kind := .uniform
    legal := fun i => uReg i.f.dst && i.f.a == 0 && i.f.b == 0 && i.f.c == 0 && decide (i.f.md.toNat ≤ 0x0E)
    reads := noRegs, writes := noRegs, addr := noAddr
    run := fun m i => .done m (i.b.setU i.f.dst.toNat (BitVec.ofNat 64 (m.special i i.f.md.toNat))).advance }

/-- SRD by its code. -/
def srdIns (f : Fields) : Ins := if f.md = 0 then srdLaneIns else srdUIns

/-! ### Flags (R116) -/

/-- MOD[0]: a tile's FLAGS in place of the vector flag word. -/
def Issue.tileFlags (i : Issue) : Bool := i.f.md == 1

/-- FLAGRD. -/
def flagrdIns : Ins :=
  { cls := 0xD, func := 0x02, kind := .uniform
    legal := fun i => uReg i.f.dst && i.f.b == 0 && i.f.c == 0 &&
      (if i.tileFlags then (i.desc i.f.a).isSome else i.f.md == 0 && i.f.a == 0)
    reads := noRegs, writes := noRegs, addr := noAddr
    run := fun m i =>
      let v : Byte := if i.tileFlags then (match i.desc i.f.a with | some d => dFlags d | none => 0) else i.b.vflags
      .done m (i.b.setU i.f.dst.toNat (v.setWidth 64)).advance }

/-- FLAGCLR. -/
def flagclrIns : Ins :=
  { cls := 0xD, func := 0x03, kind := .uniform
    legal := fun i => i.f.dst == 0 && uReg i.f.a && i.f.c == 0 &&
      (if i.tileFlags then (i.desc i.f.b).isSome else i.f.md == 0 && i.f.b == 0)
    reads := noRegs, writes := noRegs, addr := noAddr
    run := fun m i =>
      let v : Byte := (i.b.getU i.f.a.toNat).setWidth 8
      if i.tileFlags then
        match i.desc i.f.b with
        | some d => .done m (i.b.setT i.f.b (dClearFlags d v)).advance
        | none => .trap (.plain .il 0xFF)
      else .done m { i.b with vflags := i.b.vflags &&& ~~~v, pc := i.b.pc + 8 } }

/-! ### NOP, TRAP, BKPT (R116) -/

/-- No register fields. -/
def bareLegal (i : Issue) : Bool := i.f.dst == 0 && i.f.a == 0 && i.f.b == 0 && i.f.c == 0

/-- NOP. -/
def nopIns : Ins :=
  { cls := 0xD, func := 0x00, kind := .uniform, legal := fun i => bareLegal i && i.f.md == 0
    reads := noRegs, writes := noRegs, addr := noAddr, run := fun m i => .done m i.b.advance }

/-- The debug trap. -/
def debugTrap (code : Nat) : TrapReq := { cls := .db, cause := .ok, lane := 0xFF, dbcode := code, flags := 0 }

/-- TRAP. -/
def trapIns : Ins :=
  { cls := 0xD, func := 0x04, kind := .uniform, legal := fun i => bareLegal i && fieldMod i.f 18 16 == 0
    reads := noRegs, writes := noRegs, addr := noAddr, run := fun _ i => .trap (debugTrap (fieldMod i.f 15 0)) }

/-- BKPT. -/
def bkptIns : Ins :=
  { cls := 0xD, func := 0x05, kind := .uniform, legal := fun i => bareLegal i && i.f.md == 0
    reads := noRegs, writes := noRegs, addr := noAddr
    run := fun m i => if i.la.spec.debug then .trap (debugTrap 0) else .done m i.b.advance }

/-! ### Reserved words (R79) -/

/-- Whether a class lists a FUNC (R79 and the opcode tables). -/
def funcListed (cls func : Nat) : Bool :=
  match cls with
  | 0x1 => decide (func ≤ 0x15)
  | 0x2 => decide (func ≤ 0x0A)
  | 0x3 => decide (func ≤ 0x02) || (decide (0x08 ≤ func) && decide (func ≤ 0x0C))
  | 0x4 => decide (func ≤ 0x0F)
  | 0x5 => decide (func ≤ 0x0A)
  | 0x6 => decide (func ≤ 0x01)
  | 0x7 => decide (func ≤ 0x02)
  | 0x8 => decide (func ≤ 0x0A)
  | 0x9 => decide (func ≤ 0x01) || (decide (0x10 ≤ func) && decide (func ≤ 0x1A))
  | 0xA => decide (func ≤ 0x04)
  | 0xB => decide (func ≤ 0x07)
  | 0xC => decide (func ≤ 0x01)
  | 0xD => decide (func ≤ 0x05)
  | _ => false

/-- The CLASS and FUNC of a word (R78). -/
def wordClass (w : DWord) : Nat := (w.extractLsb' 60 4).toNat
def wordFunc (w : DWord) : Nat := (w.extractLsb' 52 8).toNat

/-- A reserved word met at the program counter: the illegal-instruction trap. -/
def reservedIns (w : DWord) : Ins :=
  { cls := wordClass w, func := wordFunc w, kind := .bundle, legal := fun _ => false
    reads := noRegs, writes := noRegs, addr := noAddr, run := fun _ _ => .trap (.plain .il 0xFF) }

/-- A bundle meets a reserved word. -/
def Main.illegal (b : BRef) (w : DWord) (m : Main) : Out :=
  if funcListed (wordClass w) (wordFunc w) then .refused (.noSubject "reserved word")
  else (reservedIns w).issue b (fieldsOf w) m

/-- NOP (R116). -/
def execNop (b : BRef) (f : Fields) (s : State) : Outcome := onMain (nopIns.issue b f) s
/-- SRD (R116). -/
def execSrd (b : BRef) (f : Fields) (s : State) : Outcome := onMain ((srdIns f).issue b f) s
/-- FLAGRD (R116). -/
def execFlagrd (b : BRef) (f : Fields) (s : State) : Outcome := onMain (flagrdIns.issue b f) s
/-- FLAGCLR (R116). -/
def execFlagclr (b : BRef) (f : Fields) (s : State) : Outcome := onMain (flagclrIns.issue b f) s
/-- TRAP (R116, R136). -/
def execTrap (b : BRef) (f : Fields) (s : State) : Outcome := onMain (trapIns.issue b f) s
/-- BKPT (R116, R136). -/
def execBkpt (b : BRef) (f : Fields) (s : State) : Outcome := onMain (bkptIns.issue b f) s
/-- ILLEGAL_INSTRUCTION (R79). -/
def execIllegalInstruction (b : BRef) (w : DWord) (s : State) : Outcome := onMain (Main.illegal b w) s

end Sys2Proof.Machine
end

