-- ==== Sys2Proof/Machine/EngineIssue.lean ====
section
/-! DEFINITION. Landing counters that advance, and the engine-issue class (R114, R139, R140, R145, R157, R229, R240,
R290, R293, R382). -/

namespace Sys2Proof.Machine

/-! ### Advancing a landing counter (R240, R290, R382) -/

/-- The counter-wait packets that wait on a counter (R382). -/
def Main.counterWaiters (m : Main) (idx : Nat) : List (QRef × Packet) :=
  m.objs.queues.flatMap (fun x => (x.running.filter (fun p => p.waiting && fieldAt p.bytes 0 1 == 6
    && fieldAt p.bytes 4 2 % 2 ^ 14 == idx)).map (fun p => (⟨x.ctx, x.idx⟩, p)))

/-- Whether a counter-wait packet's scope does not contain who released the latest increment (R222, R240): the queue
processor is an agent of its module. -/
def Main.packetMismatch (m : Main) (q : QRef) (scope : Nat) (c : Counter) : Bool :=
  match m.ctxOf q.ctx, c.last with
  | some x, some r => x.checked && !scopeHas scope (m.modPos scope) r
  | _, _ => false

/-- One counter-wait packet looked at again (R382). -/
def Main.wakeCounterPacket (m : Main) (idx : Nat) (w : QRef × Packet) : Main :=
  match m.counterOf idx with
  | some c =>
    if fieldAt w.2.bytes 8 8 ≤ c.value.toNat then
      m.completePacket w.1 w.2 (if m.packetMismatch w.1 (fieldAt w.2.bytes 2 1 % 8) c then .scopeMismatch else .ok) 0 0
    else m
  | none => m

/-- A counter advanced by n, with who released the increment; packets that wait on it are looked at again. -/
def Main.advanceCounter (m : Main) (idx n : Nat) (who : RelRec) : Main :=
  let m1 := m.modCounter idx (fun c => { c with value := c.value + BitVec.ofNat 64 n, last := some who })
  (m1.counterWaiters idx).foldl (fun m w => m.wakeCounterPacket idx w) m1

/-! ### Descriptors (R145, R157, R293) -/

/-- A descriptor's fields that every engine reads alike. -/
def dsOp (d : List Byte) : Nat := fieldAt d 0 1
/-- Whether a flag bit of a byte is set. -/
def dsBit (d : List Byte) (off i : Nat) : Bool := bit (fieldAt d off 1) i
/-- A 52-bit address. -/
def dsAddr (d : List Byte) (off : Nat) : Nat := fieldAt d off 8 % 2 ^ 52

/-- Bits of an element type; 0 for a reserved code and for ACC128 as a row type. -/
def rowBits (code : Nat) : Nat :=
  match Elem.ofCode code with
  | some .acc128 => 0
  | some e => e.bits
  | none => 0

/-- Row bytes (R145). -/
def gaRow (d : List Byte) : Nat := (fieldAt d 6 1 + 1) * 16
def gaPool (d : List Byte) : Nat := fieldAt d 1 1 / 16
def gaRetype (d : List Byte) : Nat := fieldAt d 1 1 % 16
def gaOetype (d : List Byte) : Nat := fieldAt d 2 1 / 16
def gaCount (d : List Byte) : Nat := fieldAt d 0x28 4
def gaBag (d : List Byte) : Nat := fieldAt d 0x2C 2 % 2 ^ 13
def gaPitch (d : List Byte) : Nat := fieldAt d 0x2E 2 * 16
/-- Bytes of one index. -/
def gaIdx (d : List Byte) : Nat := if dsBit d 3 7 then 8 else 4
/-- Elements of a row. -/
def gaElems (d : List Byte) : Nat := if rowBits (gaRetype d) = 0 then 0 else gaRow d * 8 / rowBits (gaRetype d)
/-- Bytes of an output row (R145, R146). -/
def gaOut (d : List Byte) : Nat :=
  if gaPool d = 0 then gaRow d
  else gaElems d * (match Elem.ofCode (gaOetype d) with | some e => e.bits | none => 0) / 8
/-- The list with the weights that follow it: its length (R147). -/
def gaListLen (d : List Byte) : Nat :=
  if gaPool d = 4 then roundUp (gaCount d * gaIdx d) 64 + gaCount d * 4 else gaCount d * gaIdx d
/-- The extent of the output rows. -/
def gaDestLen (d : List Byte) : Nat :=
  let bags := gaCount d / gaBag d
  if bags = 0 then 0 else (bags - 1) * gaPitch d + gaOut d

/-- V, and bytes of one logit (R157). -/
def saVocab (d : List Byte) : Nat := fieldAt d 0x20 4 % 2 ^ 19
def saSize (d : List Byte) : Nat := if fieldAt d 1 1 / 16 = 7 then 2 else 4

/-- Rows and bytes of a stream (R293). -/
def stRows (d : List Byte) : Nat := fieldAt d 0x1C 4
def stRow (d : List Byte) : Nat := fieldAt d 0x18 4
/-- The extent of a stream's local rows. -/
def stLocalLen (d : List Byte) : Nat := if stRows d = 0 then 0 else (stRows d - 1) * dsAddr d 0x28 + stRow d

/-- The landing counter a descriptor names: the sampler's layout, the stream's, and the gather's for every other OP. -/
def dsCounter (sampler : Bool) (d : List Byte) : Nat :=
  (if sampler then fieldAt d 0x26 2 else if dsOp d = 3 then fieldAt d 0x30 2 else fieldAt d 0x34 2) % 2 ^ 14

/-- The status or result record: its address, and whether it lies in core store. -/
def dsRecord (sampler : Bool) (d : List Byte) : Nat × Bool :=
  if sampler then (dsAddr d 0x18, dsBit d 1 1)
  else (dsAddr d 0x38, if dsOp d = 3 then dsBit d 1 5 else dsBit d 3 4)

/-- The core-store ranges a descriptor names, in allocation offsets. -/
def dsRanges (sampler : Bool) (d : List Byte) : List (Nat × Nat) :=
  if sampler then
    if dsOp d = 2 then
      (if dsBit d 1 3 then [(dsAddr d 8, saVocab d * saSize d)] else []) ++
        (if dsBit d 1 2 then [(dsAddr d 0x10, ceilDiv (saVocab d) 8)] else [])
    else []
  else if dsOp d = 1 then
    (if dsBit d 3 6 then [(dsAddr d 0x18, gaListLen d)] else []) ++
      (if dsBit d 3 5 then [(dsAddr d 0x20, gaDestLen d)] else [])
  else if dsOp d = 3 then (if dsBit d 1 6 then [(dsAddr d 0x10, stLocalLen d)] else [])
  else []

/-- Whether a descriptor writes core store: its outputs, or its record (R115). -/
def dsDestCs (sampler : Bool) (d : List Byte) : Bool :=
  (dsRecord sampler d).2 || (!sampler && (if dsOp d = 3 then dsBit d 1 6 && !dsBit d 1 7 else dsBit d 3 5))

/-! ### Issue (R114, R140) -/

/-- Whether a counter is allocated to a launch's context (R140). -/
def Main.counterFor (m : Main) (la : Launch) (idx : Nat) : Bool :=
  match m.counterOf idx with | some c => c.ctx == la.ctx | none => false

/-- The descriptor's offset: u[SRCA]. -/
def Issue.dsOff (i : Issue) : Nat := (i.b.getU i.f.a.toNat).toNat

/-- The descriptor's bytes and the core store as the issue finds it: earlier transfers that meet them are done. -/
def Main.descriptor (m : Main) (i : Issue) : List Byte × Main :=
  let m1 := m.settle i.w i.b.idx [(i.w.base + i.dsOff, 64)]
  (m1.csRead i.w.core (i.w.base + i.dsOff) 64, m1)

/-- The traps of R140 on what the descriptor names. -/
def Main.dsCheck (m : Main) (i : Issue) (sampler : Bool) (d : List Byte) : Option TrapReq :=
  let r := dsRecord sampler d
  let alloc := i.la.csBytes
  if r.1 % 16 ≠ 0 then some (.plain .ma 0xFF)
  else if !m.counterFor i.la (dsCounter sampler d) ||
      (if r.2 then decide (alloc < r.1 + 16) else !m.mem.holdsRange i.la.span r.1 16) ||
      (dsRanges sampler d).any (fun x => decide (alloc < x.1 + x.2)) then some (.plain .ox 0xFF)
  else none

/-- The traps of an engine issue, with the poisoned descriptor that nothing can be read from. -/
def engineCheck (sampler : Bool) (m : Main) (i : Issue) : Option TrapReq :=
  if i.dsOff % 64 ≠ 0 then some (.plain .ma 0xFF)
  else if i.la.csBytes < i.dsOff + 64 then some (.plain .ox 0xFF)
  else
    let x := m.descriptor i
    if x.2.csBad i.w.core (i.w.base + i.dsOff) 64 then some tilePoison else x.2.dsCheck i sampler x.1

/-- The gather engine that GISSUE names: the emptier one, engine 0 on a tie, or the one in MOD[1:0] (R114). The descriptor that an engine
runs counts with those queued (DESIGN CHOICE, assumption log 101). -/
def Main.gatherPick (m : Main) (k sel : Nat) : Nat :=
  let len (e : Nat) : Nat := match m.eng[e]? with | some x => x.queue.length | none => 0
  if sel = 0 then (if len (2 * k + 1) < len (2 * k) then 2 * k + 1 else 2 * k) else 2 * k + sel - 1

/-- A descriptor queued at its engine; an issue to a full queue, the running descriptor counted (DESIGN CHOICE, assumption log 101), waits.
The core-store bytes it names are settled first (R63, R229). -/
def Main.engineIssue (m : Main) (i : Issue) (sampler : Bool) (e limit : Nat) : Act :=
  let x := m.descriptor i
  match x.2.eng[e]? with
  | none => .stop (.noSubject "engine")
  | some g =>
    if limit ≤ g.queue.length then .wait m (.engine sampler i.f)
    else
      let rs := (dsRanges sampler x.1).map (fun r => (i.w.base + r.1, r.2))
      if i.b.mmaTouches rs then .wait m .tmma
      else if x.2.xfersHeld i rs then .wait m .transfers
      else
      let m1 := x.2.settle i.w i.b.idx rs
      let q : EngDesc := { bytes := x.1, core := i.w.core, launch := i.la.id, wg := i.w.id, ctx := i.la.ctx,
                           span := i.la.span, base := i.w.base, seed := i.la.spec.seed, checked := i.la.spec.checked }
      let m2 : Main := { m1 with eng := modNth m1.eng e (fun g => { g with queue := g.queue ++ [q] }) }
      .done (m2.modLaunch i.la.id (fun l => { l with engines := l.engines + 1 })) i.b.advance

/-- GISSUE. -/
def gissueIns : Ins :=
  { cls := 0xC, func := 0x00, kind := .bundle
    legal := fun i => i.f.dst == 0 && uReg i.f.a && i.f.b == 0 && i.f.c == 0 && fieldMod i.f 18 2 == 0 &&
      fieldMod i.f 1 0 != 3
    reads := noRegs, writes := noRegs, addr := engineCheck false, store := fun i => [(i.w.base + i.dsOff, 64)]
    run := fun m i => m.engineIssue i false (m.gatherPick (i.w.core / 9) (fieldMod i.f 1 0)) 64 }

/-- SISSUE. -/
def sissueIns : Ins :=
  { cls := 0xC, func := 0x01, kind := .bundle
    legal := fun i => i.f.dst == 0 && uReg i.f.a && i.f.b == 0 && i.f.c == 0 && i.f.md == 0
    reads := noRegs, writes := noRegs, addr := engineCheck true, store := fun i => [(i.w.base + i.dsOff, 64)]
    run := fun m i => m.engineIssue i true (64 + i.w.core / 9) 32 }

/-- A waiting issue completes when its engine's queue has space (R114). -/
def Main.engineSpace (br : BRef) (m : Main) : Out :=
  match m.wgOf br.wg, m.bundleOf br with
  | some w, some b =>
    match b.waiting with
    | some (.engine sampler f) =>
      let e := if sampler then 64 + w.core / 9 else m.gatherPick (w.core / 9) (fieldMod f 1 0)
      let n := match m.eng[e]? with | some x => x.queue.length | none => 0
      if (if sampler then 32 else 64) ≤ n then .refused (.notReady "engine queue")
      else (if sampler then sissueIns else gissueIns).issue br f m
    | _ => .refused (.noSubject "an issue that waits for an engine")
  | _, _ => .refused (.noSubject "bundle")

/-- GISSUE (R114). -/
def execGissue (b : BRef) (f : Fields) (s : State) : Outcome := onMain (gissueIns.issue b f) s
/-- SISSUE (R114). -/
def execSissue (b : BRef) (f : Fields) (s : State) : Outcome := onMain (sissueIns.issue b f) s
/-- ENGINE_QUEUE_SPACE (R114). -/
def execEngineQueueSpace (b : BRef) (s : State) : Outcome := onMain (Main.engineSpace b) s

end Sys2Proof.Machine
end

