-- ==== Sys2Proof/Machine/Gather.lean ====
section
/-! DEFINITION. Gather descriptors (R141, R144-R156). -/

namespace Sys2Proof.Machine

/-! ### Checks (R5, R145-R147) -/

/-- An element type of a code, as a pooling row allows it. -/
def codeIn (l : List Elem) (code : Nat) : Bool :=
  match Elem.ofCode code with | some e => l.contains e | none => false

/-- The rows pooled in a long accumulator (R146). -/
def gaLong (d : List Byte) : Bool := codeIn [.e4m3, .e5m2, .int8] (gaRetype d)

/-- POOL, RETYPE and OETYPE form a row of R146. -/
def gaTypes (d : List Byte) : Bool :=
  match gaPool d with
  | 0 => decide (gaRetype d ≤ 9) && gaOetype d == gaRetype d
  | 3 => codeIn [.e4m3, .e5m2, .int8, .bf16, .fp16, .fp32] (gaRetype d) &&
      (gaOetype d == gaRetype d || codeIn [.fp32, .bf16, .fp16] (gaOetype d))
  | 1 => (gaLong d && codeIn [.fp32, .bf16, .fp16, .acc128] (gaOetype d)) ||
      (codeIn [.bf16, .fp16, .fp32] (gaRetype d) && codeIn [.fp32, .bf16, .fp16] (gaOetype d))
  | 2 => (gaLong d || codeIn [.bf16, .fp16, .fp32] (gaRetype d)) && codeIn [.fp32, .bf16, .fp16] (gaOetype d)
  | 4 => (gaLong d && codeIn [.fp32, .bf16, .fp16, .acc128] (gaOetype d)) ||
      (codeIn [.bf16, .fp16, .fp32] (gaRetype d) && codeIn [.fp32, .bf16, .fp16] (gaOetype d))
  | _ => false

def gaAuto (d : List Byte) : Bool := dsBit d 3 3
def gaAnchorField (d : List Byte) : Int := signed 10 (fieldAt d 4 2 % 1024)
def gaShard (d : List Byte) : Nat := fieldAt d 3 1 % 8
def gaFirst (d : List Byte) : Nat := fieldAt d 0x30 2 % 2 ^ 13
def gaPiersM1 (d : List Byte) : Nat := fieldAt d 0x32 2 % 2 ^ 13
def gaRows (d : List Byte) : Nat := fieldAt d 0x10 8 % 2 ^ 48
def gaOvf (d : List Byte) : Bool := dsBit d 2 3
def gaMode (d : List Byte) : RMode := (RMode.ofCode (fieldAt d 2 1 % 8)).getD .rne

/-- Whether long-accumulator pooling is asked for. -/
def gaAccum (d : List Byte) : Bool := gaLong d && (gaPool d == 1 || gaPool d == 2 || gaPool d == 4)

/-- The anchor in force (R150). -/
def gaAnchor (d : List Byte) : Int :=
  if gaAuto d then
    match Elem.ofCode (gaRetype d) with
    | some e => (e.lowExp).getD 0
    | none => 0
  else gaAnchorField d

/-- Reserved fields and values (R5, R145). Bits 63:52 of LIST and DEST, of which the layout says nothing, are taken as reserved (DESIGN
CHOICE, assumption log 101). -/
def gaReserved (d : List Byte) : Bool :=
  fieldAt d 4 2 / 1024 == 0 && fieldAt d 7 1 == 0 && fieldAt d 8 8 / 2 ^ 52 == 0 && fieldAt d 0x10 8 / 2 ^ 48 == 0 &&
  fieldAt d 0x18 8 / 2 ^ 52 == 0 && fieldAt d 0x20 8 / 2 ^ 52 == 0 && fieldAt d 0x2C 2 / 2 ^ 13 == 0 &&
  fieldAt d 0x30 2 / 2 ^ 13 == 0 && fieldAt d 0x32 2 / 2 ^ 13 == 0 && fieldAt d 0x34 2 / 2 ^ 14 == 0 &&
  fieldAt d 0x36 2 == 0 && fieldAt d 0x38 8 / 2 ^ 52 == 0 && decide (gaShard d ≤ 2) && decide (fieldAt d 2 1 % 8 < 4) &&
  gaAnchorField d != -512

/-- The ranges and alignments of R145. -/
def gaRangesOk (d : List Byte) : Bool :=
  dsAddr d 8 % 16 == 0 && decide (1 ≤ gaRows d) && dsAddr d 0x18 % 64 == 0 && dsAddr d 0x20 % 16 == 0 &&
  decide (1 ≤ gaCount d) && decide (1 ≤ gaBag d) && decide (gaBag d ≤ 4096) && decide (16 ≤ gaPitch d)

/-- The further cases of R147. -/
def Main.gaLegal (m : Main) (q : EngDesc) : Bool :=
  let d := q.bytes
  gaReserved d && gaRangesOk d && gaTypes d &&
  gaCount d % gaBag d == 0 && (gaPool d != 0 || gaBag d == 1) &&
  (!gaAuto d || (gaAnchorField d == 0 && gaPool d != 4)) &&
  (gaAccum d || (!gaAuto d && gaAnchorField d == 0)) &&
  (gaShard d != 0 || (gaFirst d == 0 && gaPiersM1 d == 0)) &&
  decide (gaFirst d + gaPiersM1 d < m.pierCount q.span) &&
  decide (gaOut d ≤ gaPitch d) &&
  (dsBit d 3 6 || m.mem.holdsRange q.span (dsAddr d 0x18) (gaListLen d)) &&
  (dsBit d 3 5 || m.mem.holdsRange q.span (dsAddr d 0x20) (gaDestLen d))

/-- Whether a range that an engine reads or writes has a line that waits at its home (R199, R215). -/
def Main.engBlocked (m : Main) (q : EngDesc) (cs : Bool) (addr len : Nat) : Bool := !cs && m.spanBlocked q.span addr len

/-! ### The list (R144, R148) -/

/-- A range of core store or of span memory as an engine reads it: its bytes, and whether a byte's row or line is
poisoned, by 64 bytes. -/
def Main.engRead (m : Main) (q : EngDesc) (cs : Bool) (addr len : Nat) : List (List Byte × Bool) × Main :=
  (List.range (ceilDiv len 64)).foldl (fun (a : List (List Byte × Bool) × Main) k =>
    let n := min 64 (len - k * 64)
    if cs then
      let off := q.base + addr + k * 64
      (a.1 ++ [(a.2.csRead q.core off n, a.2.csBad q.core off n)], a.2)
    else
      let r := a.2.spanRead q.span (addr + k * 64) n
      (a.1 ++ [(r.1, r.2.1)], r.2.2)) ([], m)

/-- An index or a weight of n bytes; none where it is poisoned. -/
def engField (l : List (List Byte × Bool)) (i n : Nat) : Option Nat :=
  match l[i * n / 64]? with
  | some (d, false) => some (fieldAt d (i * n % 64) n)
  | _ => none

/-- The pier and the local row of an index, none for the issuing pier (R144). -/
def gaPlace (d : List Byte) (i : Nat) : Option Nat × Nat :=
  let p := gaPiersM1 d + 1
  match gaShard d with
  | 1 => let q := ceilDiv (gaRows d) p; (some (gaFirst d + i / q), i % q)
  | 2 => (some (gaFirst d + i % p), i / p)
  | _ => (none, i)

/-- What an index asks for; an entry of a poisoned index line fails with POISONED (R153; DESIGN CHOICE, assumption log 85). -/
def gaIndex (d : List Byte) (x : Option Nat) : RowRes :=
  match x with
  | none => .failed .poisoned
  | some i =>
    if i = 2 ^ (8 * gaIdx d) - 1 then .padding
    else if gaRows d ≤ i then .skipped
    else
      let p := gaPlace d i
      let a := dsAddr d 8 + p.2 * gaRow d
      if 2 ^ 52 < a + gaRow d then .skipped else .todo p.1 a

/-! ### Fetching (R149) -/

/-- The fetches in flight. -/
def GatherRun.inFlight (r : GatherRun) : Nat :=
  (r.rows.filter (fun x => match x with | .asked _ _ _ _ => true | _ => false)).length

/-- Whether a row lies on this pier, as its ranks are now (R144, R307). -/
def Main.rowHere (m : Main) (q : EngDesc) (rank : Option Nat) : Bool :=
  match rank with | none => true | some r => r == m.spanRank q.span

/-- One row fetched: here at its home, or asked of its pier by one request. A row that crosses a 4 KiB boundary is asked for up to the
boundary first, for no request may cross it (R149, R283; DEDUCED, log 31). -/
def Main.fetchRow (m : Main) (e : Nat) (q : EngDesc) (row : Nat) (rank : Option Nat) (a : Nat) : Main :=
  let n := gaRow q.bytes
  if m.rowHere q rank then
    if m.mem.holdsRange q.span a n then
      let r := m.spanRead q.span a n
      r.2.2.modEngine e (fun x => x.modRow row (fun _ => if r.2.1 then .failed .poisoned else .data r.1))
    else m.modEngine e (fun x => x.modRow row (fun _ => .skipped))
  else
    let k := rank.getD 0
    (m.modEngine e (fun x => x.modRow row (fun _ => .asked k a n []))).issueReq
      { issuer := 288 + e, slot := m.slotOf q.ctx, span := q.span, rank := k, op := 0x03, addr := a, len := min n (4096 - a % 4096),
        data := [], poison := false, ord := false, lc := 0, rr := none, who := .gather e row }

/-- The rows not yet fetched, in list order, while fewer than 512 fetches are in flight and none waits: to leave, or at a home. -/
def Main.fetchRows (m : Main) (e : Nat) (q : EngDesc) : List (RowRes × Nat) → Main
  | [] => m
  | (.todo rank a, row) :: r =>
    let busy := match m.eng[e]? with
      | some x => (match x.run with | some (.gather g) => g.inFlight | _ => 512)
      | none => 512
    if 512 ≤ busy || m.fab.waitReqs.any (fun w => w.issuer == 288 + e) ||
      (m.rowHere q rank && m.spanBlocked q.span a (gaRow q.bytes)) then m
    else (m.fetchRow e q row rank a).fetchRows e q r
  | _ :: r => m.fetchRows e q r

/-- A gather goes on fetching. -/
def Main.gatherGo (m : Main) (e : Nat) : Main :=
  match m.eng[e]? with
  | some x =>
    match x.run, x.queue with
    | some (.gather g), q :: _ => m.fetchRows e q g.rows.zipIdx
    | _, _ => m
  | none => m

/-- A gather descriptor begun at its list, or refused. -/
def Main.gatherStart (m : Main) (e : Nat) (q : EngDesc) : Main :=
  if !m.gaLegal q then m.modEngine e (fun x => { x with run := some .refused })
  else
    let d := q.bytes
    let l := m.engRead q (dsBit d 3 6) (dsAddr d 0x18) (gaCount d * gaIdx d)
    let rows := (List.range (gaCount d)).map (fun i => gaIndex d (engField l.1 i (gaIdx d)))
    let ws := if gaPool d = 4 then
        l.2.engRead q (dsBit d 3 6) (dsAddr d 0x18 + roundUp (gaCount d * gaIdx d) 64) (gaCount d * 4)
      else ([], l.2)
    let weights := (List.range (if gaPool d = 4 then gaCount d else 0)).map (fun i =>
      (engField ws.1 i 4).map (BitVec.ofNat 32))
    let run : EngRun := .gather { rows := rows, weights := weights }
    (ws.2.modEngine e (fun x => { x with run := some run })).gatherGo e

/-! ### Pooling (R150-R153) -/

/-- Element e of a row's bytes. -/
def rowElem (t : Elem) (bytes : List Byte) (e : Nat) : Num := t.value (elemCode bytes e t.bits)

/-- A pooled row of a bag: its bytes, and its weight. -/
abbrev Pooled := List Byte × Word

/-- One output element of long-accumulator pooling (R150). -/
def poolLong (d : List Byte) (key : Nat) (t o : Elem) (rows : List Pooled) (e : Nat) : Nat × Byte :=
  let terms := rows.map (fun r =>
    let v := rowElem t r.1 e
    if gaPool d = 4 then
      let p := (f32 r.2).mul v
      let x := Acc.ofNum (gaAnchor d) p
      (x.1, x.2 ||| newNaN [f32 r.2, v] p)
    else Acc.ofNum (gaAnchor d) v)
  let s := Acc.sum key (.fin 0) (terms.map (·.1))
  let fl := (terms.map (·.2)).foldl (· ||| ·) s.2
  if o = .acc128 then (s.1.toBits.toNat, fl)
  else if gaPool d = 2 ∧ rows.length ≠ 0 then
    let v := s.1.value (gaAnchor d)
    let q := quotient v.1 (Num.ofInt rows.length)
    let r := o.convert (gaMode d) (gaOvf d) 0 (if q.isZero then Num.zero else q)
    (r.1, r.2 ||| fl ||| v.2)
  else
    let r := convertAcc o (gaMode d) (gaOvf d) 0 s.1 (gaAnchor d) (.fin false 1 0)
    (r.1, r.2 ||| fl)

/-- One output element of FP32 pooling, in list order from +0 (R151). -/
def poolFp32 (d : List Byte) (t o : Elem) (rows : List Pooled) (e : Nat) : Nat × Byte :=
  let s := rows.foldl (fun (a : FRes) r =>
    let v := rowElem t r.1 e
    let x := if gaPool d = 4 then fFma .rne (f32 r.2) v (f32 a.1) else fAdd .rne (f32 a.1) v
    (x.1, x.2 ||| a.2)) (0, 0)
  let m := if gaPool d = 2 ∧ rows.length ≠ 0 then
      let x := fDiv .rne (f32 s.1) (Num.ofInt rows.length)
      (x.1, x.2 ||| s.2)
    else s
  let r := o.convert (gaMode d) (gaOvf d) 0 (f32 m.1)
  (r.1, r.2 ||| reduceFlags m.2)

/-- One output element of MAX (R152). -/
def poolMax (d : List Byte) (t o : Elem) (rows : List Pooled) (e : Nat) : Nat × Byte :=
  match rows with
  | [] => o.convert .rne false 0 Num.zero
  | r :: rs =>
    let v := rs.foldl (fun a r => numMax a (rowElem t r.1 e)) (rowElem t r.1 e)
    let r := o.convert (gaMode d) (gaOvf d || t == o) 0 v
    if t == o then (r.1, 0) else r

/-- A bag's output row: its bytes and flags; the empty bag gives +0, or N = 0 (R148). -/
def poolBag (d : List Byte) (key : Nat) (rows : List Pooled) : List Byte × Byte :=
  match Elem.ofCode (gaRetype d), Elem.ofCode (gaOetype d) with
  | some t, some o =>
    let out := (List.range (gaElems d)).map (fun e =>
      if rows.isEmpty then ((0 : Nat), (0 : Byte))
      else if gaPool d = 3 then poolMax d t o rows e
      else if gaLong d then poolLong d (key + e * rows.length) t o rows e
      else poolFp32 d t o rows e)
    (packLine o.bits (gaOut d) (out.map (·.1)), (out.map (·.2)).foldl (· ||| ·) 0)
  | _, _ => ([], 0)

/-- The result of an index with its weight: what it contributes to its bag. -/
inductive Contrib where
  | nothing
  | row (p : Pooled)
  | bad (s : Status)

/-- The contribution of an index (R148, R153); one whose weight is poisoned fails with POISONED (DESIGN CHOICE, assumption log 85). -/
def GatherRun.contrib (g : GatherRun) (d : List Byte) (i : Nat) : Contrib :=
  match g.rows[i]? with
  | some (.data b) =>
    if gaPool d = 4 then
      match g.weights[i]? with
      | some (some w) => .row (b, w)
      | _ => .bad .poisoned
    else .row (b, 0)
  | some (.failed s) => .bad s
  | _ => .nothing

/-- The failures of a run, by index. -/
def GatherRun.failures (g : GatherRun) (d : List Byte) : List Status :=
  (List.range g.rows.length).filterMap (fun i => match g.contrib d i with | .bad s => some s | _ => none)

/-- Whether every index has come to an end. -/
def GatherRun.finished (g : GatherRun) : Bool :=
  g.rows.all (fun x => match x with | .todo _ _ => false | .asked _ _ _ _ => false | _ => true)

/-- n bytes that nothing states. -/
def Main.freeBytes (m : Main) (n : Nat) : List Byte × Main :=
  let r := m.drawList n
  (r.1.map (BitVec.ofNat 8), r.2)

/-- An engine's output written: to core store, or to span memory by invalidating writes (R154). -/
def Main.engWrite (m : Main) (q : EngDesc) (cs : Bool) (addr : Nat) (data : List Byte) : Main :=
  if cs then m.csWrite q.core [(q.base + addr, data)] else m.spanWrite q.span addr data false

/-- An engine's output written as poisoned (R153): what its bytes are is open. -/
def Main.engPoison (m : Main) (q : EngDesc) (cs : Bool) (addr len : Nat) : Main :=
  if cs then m.csPoison q.core (q.base + addr) len
  else
    let f := m.freeBytes len
    f.2.spanWrite q.span addr f.1 true

/-- One bag written, and its flags: none of a poisoned bag (R155; DESIGN CHOICE, assumption log 85). -/
def Main.gatherBag (m : Main) (q : EngDesc) (g : GatherRun) (bag : Nat) : Byte × Main :=
  let d := q.bytes
  let cs := (rangeFrom (bag * gaBag d) (gaBag d)).map (g.contrib d)
  let at_ := dsAddr d 0x20 + bag * gaPitch d
  if cs.any (fun c => match c with | .bad _ => true | _ => false) then
    (0, m.engPoison q (dsBit d 3 5) at_ (gaOut d))
  else
    let rows := cs.filterMap (fun c => match c with | .row p => some p | _ => none)
    if gaPool d = 0 then
      match rows with
      | p :: _ => (0, m.engWrite q (dsBit d 3 5) at_ p.1)
      | [] => (0, m)
    else
      let r := poolBag d m.free rows
      (r.2, ({ m with free := m.free + gaElems d * rows.length } : Main).engWrite q (dsBit d 3 5) at_ r.1)

/-- The status record (R155). -/
def gatherRecord (d : List Byte) (s : Status) (flags : Byte) (pooled skipped : Nat) : List Byte :=
  toBytes 2 s.code ++
    toBytes 2 (BitVec.ofInt 16 (if s != .notPermitted && gaAccum d then gaAnchor d else 0)).toNat ++
    [flags] ++ toBytes 3 0 ++ toBytes 4 pooled ++ toBytes 4 (min skipped 0xFFFFFFFF)

/-- The outputs of a gather, then its record's bytes. The rows of a poisoned bag count in POOLED (R155; DESIGN CHOICE, assumption log
85). -/
def Main.gatherOutputs (m : Main) (q : EngDesc) (g : GatherRun) : List Byte × Main :=
  let d := q.bytes
  let r := (List.range (gaCount d / gaBag d)).foldl (fun (a : Byte × Main) b =>
    let x := a.2.gatherBag q g b
    (a.1 ||| x.1, x.2)) (0, m)
  let status := match g.failures d with | s :: _ => s | [] => .ok
  let pooled := ((List.range g.rows.length).filter (fun i => match g.contrib d i with | .row _ => true | _ => false)).length
  let skipped := (g.rows.filter (fun x => match x with | .skipped => true | _ => false)).length
  (gatherRecord d status r.1 pooled skipped, r.2)

/-- Whether an engine holds the descriptors of its queue: the module's sagger or its cluster is quiesced, or it is being reset
(R474, R480, R486). -/
def Main.engHeld (m : Main) (e : Nat) : Bool :=
  m.quiesced || m.rcv.resets.any (fun r => r.eng == ⟨3, 288 + e⟩) ||
    m.rcv.swaps.any (fun x => x.cluster == (if e < 64 then e / 2 else e - 64))

/-- The head of an engine's queue, when it has not begun and may begin. -/
def Main.engHead (m : Main) (e : Nat) : Option EngDesc :=
  match m.eng[e]? with
  | some x => if x.run.isNone && !m.engHeld e then x.queue.head? else none
  | none => none

/-- A gather engine takes a gather descriptor. -/
def Main.gatherDescriptor (e : Nat) (m : Main) : Out :=
  match m.engHead e with
  | none => .refused (.noSubject "descriptor")
  | some q =>
    if ¬ (e < 64 ∧ dsOp q.bytes = 1) then .refused (.noSubject "gather descriptor")
    else if m.engBlocked q (dsBit q.bytes 3 6) (dsAddr q.bytes 0x18) (gaListLen q.bytes) then .refused (.notReady "a line's home")
    else .next (m.gatherStart e q)

/-- GATHER_DESCRIPTOR (R145). -/
def execGatherDescriptor (e : Nat) (s : State) : Outcome := onMain (Main.gatherDescriptor e) s

end Sys2Proof.Machine
end

