-- ==== Sys2Proof/Machine/Sampler.lean ====
section
/-! DEFINITION. Sampler descriptors (R141, R157-R162). -/

namespace Sys2Proof.Machine

/-! ### Checks (R157, R158) -/

def saTopk (d : List Byte) : Nat := fieldAt d 0x24 2
def saTemp (d : List Byte) : Word := BitVec.ofNat 32 (fieldAt d 0x28 4)
def saPenalty (d : List Byte) : Word := BitVec.ofNat 32 (fieldAt d 0x2C 4)
def saTopp (d : List Byte) : Word := BitVec.ofNat 32 (fieldAt d 0x30 4)
def saMinp (d : List Byte) : Word := BitVec.ofNat 32 (fieldAt d 0x34 4)
def saPen (d : List Byte) : Bool := dsBit d 1 0

/-- 1.0. -/
def oneF32 : Word := 0x3F800000#32

/-- A positive finite value. -/
def posFinite (w : Word) : Bool :=
  match f32 w with
  | .fin neg m _ => !neg && m != 0
  | _ => false

/-- A finite value of at least 0 and below or at a bound. -/
def inUnit (w : Word) (top : Bool) : Bool :=
  match f32 w with
  | .fin neg m e => (m == 0 || !neg) &&
      (match Num.cmp (.fin neg m e) (f32 oneF32) with | .lt => true | .eq => top | .gt => false)
  | _ => false

/-- An address field of a descriptor: reserved bits, and those that a core-store offset leaves 0 (R145). -/
def addrOk (d : List Byte) (off align : Nat) (cs : Bool) : Bool :=
  fieldAt d off 8 / 2 ^ 52 == 0 && dsAddr d off % align == 0 && (!cs || decide (dsAddr d off < 2 ^ 21))

/-- The fields of R157. -/
def saFields (d : List Byte) : Bool :=
  (fieldAt d 1 1 / 16 == 7 || fieldAt d 1 1 / 16 == 9) && fieldAt d 2 1 / 2 == 0 && fieldAt d 3 1 == 0 &&
  addrOk d 8 64 (dsBit d 1 3) && addrOk d 0x10 16 (dsBit d 1 2) && addrOk d 0x18 16 (dsBit d 1 1) &&
  fieldAt d 0x20 4 / 2 ^ 19 == 0 && decide (1 ≤ saVocab d) && decide (saVocab d ≤ 262144) &&
  decide (saTopk d ≤ 1024) && fieldAt d 0x26 2 / 2 ^ 14 == 0 &&
  ((f32 (saTemp d)).isZero || posFinite (saTemp d)) && (!saPen d || posFinite (saPenalty d)) &&
  inUnit (saTopp d) true && !(f32 (saTopp d)).isZero && inUnit (saMinp d) false &&
  fieldAt d 0x38 4 / 2 ^ 28 == 0

/-- The cases of R158. -/
def Main.saLegal (m : Main) (q : EngDesc) : Bool :=
  let d := q.bytes
  saFields d && (saTopp d == oneF32 || saTopk d != 0) &&
  (dsBit d 1 3 || m.mem.holdsRange q.span (dsAddr d 8) (saVocab d * saSize d)) &&
  (dsBit d 1 2 || m.mem.holdsRange q.span (dsAddr d 0x10) (ceilDiv (saVocab d) 8))

/-! ### The steps of R159 -/

def log2e : Word := 0x3FB8AA3B#32
def ln2 : Word := 0x3F317218#32
def posInf : Word := 0x7F800000#32
def negInf : Word := 0xFF800000#32

/-- FP32 operations on words, their values alone. -/
def wAdd (a b : Word) : Word := (fAdd .rne (f32 a) (f32 b)).1
def wSub (a b : Word) : Word := (fAdd .rne (f32 a) (f32 b).neg).1
def wMul (a b : Word) : Word := (fMul .rne (f32 a) (f32 b)).1
/-- a < b by value. -/
def wLt (a b : Word) : Bool := (f32 a).lt (f32 b)

/-- Step 1: a logit as FP32; a NaN becomes minus infinity. -/
def logit (bf16 : Bool) (code : Nat) : Word × Byte :=
  let w := BitVec.ofNat 32 (if bf16 then code * 65536 else code)
  if (f32 w).isNaN then (negInf, fINVALID) else (w, 0)

/-- Steps 2 and 3: temperature and penalty. -/
def tempered (d : List Byte) (pen : Bool) (x : Word × Byte) : Word × Byte :=
  let a : FRes := if (f32 (saTemp d)).isZero then (x.1, 0) else fDiv .rne (f32 x.1) (f32 (saTemp d))
  let b : FRes :=
    if pen then
      (if (f32 a.1).isZero || (f32 a.1).sign then fMul .rne (f32 a.1) (f32 (saPenalty d))
       else fDiv .rne (f32 a.1) (f32 (saPenalty d)))
    else (a.1, 0)
  (b.1, x.2 ||| ((a.2 ||| b.2) &&& (fOVERFLOW ||| fUNDERFLOW)))

/-- The largest value of a list. -/
def maxWord : List Word → Word
  | [] => negInf
  | x :: r => let y := maxWord r; if wLt x y then y else x

/-- A token with its value. -/
abbrev Tok := Nat × Word

/-- Descending by value, the lower index first: one token put in. -/
def insertDesc (x : Tok) : List Tok → List Tok
  | [] => [x]
  | y :: r => if wLt y.2 x.2 then x :: y :: r else y :: insertDesc x r

/-- Tokens in descending order; equal ones in ascending index. -/
def sortDesc (l : List Tok) : List Tok := l.foldl (fun acc x => insertDesc x acc) []

/-- A token put in by ascending index. -/
def insertIdx (x : Tok) : List Tok → List Tok
  | [] => [x]
  | y :: r => if x.1 < y.1 then x :: y :: r else y :: insertIdx x r

/-- Tokens in ascending index. -/
def sortIdx (l : List Tok) : List Tok := l.foldl (fun acc x => insertIdx x acc) []

/-- Step 7: e_i. -/
def expOf (m x : Word) : Word := (fPow2 (wMul (wSub x m) log2e)).1

/-- Σ over tokens in ascending index: the tree of R41. -/
def sumToks (l : List Tok) : Word := (tree (l.map (·.2))).1

/-- Step 8: the shortest initial run whose running sum reaches a bound; all of it when none does. -/
def runTo (bound : Word) : Word → List Tok → List Tok
  | _, [] => []
  | s, x :: r => let t := wAdd s x.2; if wLt t bound then x :: runTo bound t r else [x]

/-- Whether some initial run reaches the bound. -/
def reaches (bound : Word) : Word → List Tok → Bool
  | _, [] => false
  | s, x :: r => let t := wAdd s x.2; if wLt t bound then reaches bound t r else true

/-- Step 10: the lowest token whose running sum exceeds a bound, else the highest. -/
def pickTok (bound : Num) : Word → List Tok → Option Nat
  | _, [] => none
  | s, [x] => let _ := s; some x.1
  | s, x :: r => let t := wAdd s x.2; if bound.lt (f32 t) then some x.1 else pickTok bound t r

/-- The draw u (R160). -/
def drawU (q : EngDesc) : Num :=
  let d := q.bytes
  let p := philox q.seed (BitVec.ofNat 32 (fieldAt d 4 4)) (BitVec.ofNat 32 (2 * 2 ^ 28 + fieldAt d 0x38 4 % 2 ^ 28))
    (BitVec.ofNat 32 (fieldAt d 0x3C 4)) 0
  .fin false ((p.word 1).toNat * 2 ^ 32 + (p.word 0).toNat) (-64)

/-- Step 11. -/
def logProb (x m s : Word) : Word := wMul (wSub (wMul (wSub x m) log2e) (fLog2 s).1) ln2

/-- Steps 4 to 11 on the x_i. -/
def sample (q : EngDesc) (xs : List Word) (fl : Byte) : SampleRun :=
  let d := q.bytes
  let m := maxWord xs
  let toks : List Tok := (xs.zipIdx).map (fun x => (x.2, x.1))
  let first : Nat := (toks.find? (fun t => (f32 t.2).cmp (f32 m) == .eq)).elim 0 (·.1)
  if m = posInf then { status := .ok, flags := fl ||| fINVALID, token := BitVec.ofNat 32 first, logp := 0, kept := 1 }
  else if m = negInf then { status := .ok, flags := fl ||| fINVALID, token := 0xFFFFFFFF, logp := negInf, kept := 0 }
  else
    let full := sumToks ((toks.filter (fun t => t.2 != negInf)).map (fun t => (t.1, expOf m t.2)))
    let all := dsBit d 2 0
    if (f32 (saTemp d)).isZero then
      { status := .ok, flags := fl, token := BitVec.ofNat 32 first
        logp := logProb m m (if all then oneF32 else full), kept := 1 }
    else
      let k0 := if saTopk d = 0 then toks.filter (fun t => t.2 != negInf)
        else sortIdx ((sortDesc toks).take (saTopk d))
      let ks := k0.map (fun t => (t.1, expOf m t.2))
      let k1 :=
        if saTopp d = oneF32 then ks
        else
          let bound := wMul (saTopp d) (sumToks ks)
          let l := sortDesc ks
          if reaches bound 0 l then sortIdx (runTo bound 0 l) else ks
      let f := if (f32 (saMinp d)).isZero then k1 else k1.filter (fun t => !wLt t.2 (saMinp d))
      let s := sumToks f
      let j := (pickTok ((drawU q).mul (f32 s)) 0 f).getD 0
      { status := .ok, flags := fl, token := BitVec.ofNat 32 j
        logp := logProb (nth xs j negInf) m (if all then s else full), kept := f.length }

/-- A sampler descriptor computed, refused, or ended by poison (R162); FLAGS and KEPT of a poisoned record are 0 (DESIGN CHOICE,
assumption log 85). -/
def Main.samplerStart (m : Main) (e : Nat) (q : EngDesc) : Main :=
  if !m.saLegal q then m.modEngine e (fun x => { x with run := some .refused })
  else
    let d := q.bytes
    let l := m.engRead q (dsBit d 1 3) (dsAddr d 8) (saVocab d * saSize d)
    let k := if saPen d then l.2.engRead q (dsBit d 1 2) (dsAddr d 0x10) (ceilDiv (saVocab d) 8) else ([], l.2)
    let run : SampleRun :=
      if l.1.any (·.2) || k.1.any (·.2) then
        { status := .poisoned, flags := 0, token := 0xFFFFFFFF, logp := 0x7FC00000#32, kept := 0 }
      else
        let xs := (List.range (saVocab d)).map (fun i =>
          let x := logit (saSize d == 2) ((engField l.1 i (saSize d)).getD 0)
          tempered d (saPen d && bit ((engField k.1 (i / 8) 1).getD 0) (i % 8)) x)
        sample q (xs.map (·.1)) ((xs.map (·.2)).foldl (· ||| ·) 0)
    k.2.modEngine e (fun x => { x with run := some (.sample run) })

/-- The result record (R161). -/
def sampleRecord (r : SampleRun) : List Byte :=
  toBytes 2 r.status.code ++ [r.flags] ++ toBytes 1 0 ++ toBytes 4 r.token.toNat ++ toBytes 4 r.logp.toNat ++
    toBytes 4 r.kept

/-- A sampler takes a sampler descriptor. -/
def Main.samplerDescriptor (e : Nat) (m : Main) : Out :=
  match m.engHead e with
  | none => .refused (.noSubject "descriptor")
  | some q =>
    let d := q.bytes
    if ¬ (64 ≤ e ∧ dsOp d = 2) then .refused (.noSubject "sampler descriptor")
    else if m.engBlocked q (dsBit d 1 3) (dsAddr d 8) (saVocab d * saSize d) ||
      (saPen d && m.engBlocked q (dsBit d 1 2) (dsAddr d 0x10) (ceilDiv (saVocab d) 8)) then .refused (.notReady "a line's home")
    else .next (m.samplerStart e q)

/-- SAMPLER_DESCRIPTOR (R159). -/
def execSamplerDescriptor (e : Nat) (s : State) : Outcome := onMain (Main.samplerDescriptor e) s

end Sys2Proof.Machine
end

