-- ==== Sys2Proof/Machine/Stream.lean ====
section
/-! DEFINITION. Stream descriptors, reserved descriptors, and the end of a descriptor (R139-R141, R293-R297). -/

namespace Sys2Proof.Machine

/-! ### Checks (R5, R293, R294) -/

def stPut (d : List Byte) : Bool := dsBit d 1 7
def stLocCs (d : List Byte) : Bool := dsBit d 1 6
def stPeer (d : List Byte) : Nat := fieldAt d 4 2
def stWindow (d : List Byte) : Nat := fieldAt d 6 2
def stTotal (d : List Byte) : Nat := stRow d * stRows d
/-- Bytes of a chunk. -/
def stChunk (d : List Byte) : Nat := 4096 * 2 ^ (fieldAt d 2 1 / 16)
/-- The increments that LC has in all (R295). -/
def stChunks (d : List Byte) : Nat := ceilDiv (stTotal d) (stChunk d)

/-- The fields of R293 and their reserved bits. -/
def stFields (d : List Byte) : Bool :=
  fieldAt d 1 1 % 32 == 0 && fieldAt d 2 1 % 16 == 0 && decide (fieldAt d 2 1 / 16 ≤ 8) && fieldAt d 3 1 == 0 &&
  decide (stPeer d < 2 ^ 13) && decide (1 ≤ stWindow d) && decide (stWindow d ≤ 256) &&
  addrOk d 8 16 false && addrOk d 0x10 16 (stLocCs d) && stRow d % 16 == 0 && decide (16 ≤ stRow d) &&
  decide (1 ≤ stRows d) && addrOk d 0x20 16 false && addrOk d 0x28 16 false &&
  fieldAt d 0x30 2 / 2 ^ 14 == 0 && fieldAt d 0x32 2 / 2 ^ 14 == 0 && fieldAt d 0x34 4 == 0 &&
  addrOk d 0x38 16 (dsBit d 1 5)

/-- The local address of a row. -/
def stLocal (d : List Byte) (row : Nat) : Nat := dsAddr d 0x10 + row * dsAddr d 0x28

/-- The cases of R294. -/
def Main.stLegal (m : Main) (q : EngDesc) : Bool :=
  let d := q.bytes
  stFields d && decide (stTotal d ≤ 2 ^ 36) && decide (stPeer d < m.pierCount q.span) &&
  stPeer d != m.spanRank q.span && (stPut d || fieldAt d 0x32 2 == 0) &&
  (stRows d == 1 || decide (stRow d ≤ dsAddr d 0x28)) &&
  (stLocCs d || (List.range (stRows d)).all (fun r => m.mem.holdsRange q.span (stLocal d r) (stRow d)))

/-! ### Requests (R295) -/

/-- The requests of a row, cut at every 4 KiB boundary of the remote address; a PUT carries at most 4,080 bytes
(R283). -/
def rowReqs (put : Bool) : Nat → Nat → Nat → Nat → Nat → List StreamReq
  | 0, _, _, _, _ => []
  | f + 1, off, remote, loc, n =>
    if n = 0 then []
    else
      let room := min n (4096 - remote % 4096)
      let k := if put then min room 4080 else room
      { off := off, remote := remote, len := k, loc := loc, st := .unissued } ::
        rowReqs put f (off + k) (remote + k) (loc + k) (n - k)

/-- The requests of a stream, in order. -/
def stReqs (d : List Byte) : List StreamReq :=
  (List.range (stRows d)).flatMap (fun r =>
    rowReqs (stPut d) (2 * (stRow d / 4096) + 4) (r * stRow d) (dsAddr d 8 + r * dsAddr d 0x20) (stLocal d r) (stRow d))

/-- The bytes of a PUT's request, and whether one is poisoned. -/
def Main.stData (m : Main) (q : EngDesc) (r : StreamReq) : List Byte × Bool × Main :=
  if stLocCs q.bytes then (m.csRead q.core (q.base + r.loc) r.len, m.csBad q.core (q.base + r.loc) r.len, m)
  else m.spanRead q.span r.loc r.len

/-- One request issued. -/
def Main.stIssue (m : Main) (e : Nat) (q : EngDesc) (i : Nat) (r : StreamReq) : Main :=
  let d := q.bytes
  let x := if stPut d then m.stData q r else ([], false, m)
  let m1 := x.2.2.modEngine e (fun g => g.modReq i (fun r => { r with st := .outstanding }))
  m1.issueReq
    { issuer := 288 + e, slot := m1.slotOf q.ctx, span := q.span, rank := stPeer d
      op := if stPut d then 0x31 else 0x03, addr := r.remote, len := r.len, data := x.1, poison := x.2.1, ord := false
      lc := if stPut d then fieldAt d 0x32 2 % 2 ^ 14 else 0, rr := none, who := .stream e i }

/-- Whether a request has failed. -/
def StreamReq.isFailed (r : StreamReq) : Bool := match r.st with | .failed _ => true | _ => false

/-- The requests outstanding. -/
def StreamRun.inFlight (r : StreamRun) : Nat := (r.reqs.filter (fun x => x.st == .outstanding)).length

/-- Bytes in the completed initial part (R295). -/
def StreamRun.done (r : StreamRun) : Nat := ((r.reqs.takeWhile (fun x => x.st == .done)).map (·.len)).sum

/-- Whether nothing more is to come: every request done, or one failed and none outstanding (R297). -/
def StreamRun.finished (r : StreamRun) : Bool :=
  r.inFlight == 0 && (r.reqs.any (·.isFailed) || r.reqs.all (fun x => x.st == .done))

/-- The run of a stream, when an engine has one. -/
def Main.streamOf (m : Main) (e : Nat) : Option (EngDesc × StreamRun) :=
  match m.eng[e]? with
  | some x =>
    match x.run, x.queue with
    | some (.stream r), q :: _ => some (q, r)
    | _, _ => none
  | none => none

/-- The requests not yet issued, in stream order, while the window is open and none has failed. -/
def Main.stGo (m : Main) (e : Nat) (q : EngDesc) : List (StreamReq × Nat) → Main
  | [] => m
  | (r, i) :: rest =>
    match m.streamOf e with
    | none => m
    | some (_, s) =>
      if s.reqs.any (·.isFailed) then m
      else if r.st != .unissued then m.stGo e q rest
      else if min (stWindow q.bytes) 512 ≤ s.inFlight then m
      else if stPut q.bytes && m.engBlocked q (stLocCs q.bytes) r.loc r.len then m
      else (m.stIssue e q i r).stGo e q rest

/-- Who releases an engine's increment (R140, R222): the engine, or the issuing core for outputs in its store. -/
def Main.engRelease (m : Main) (e : Nat) (q : EngDesc) : RelRec :=
  let k := if e < 64 then e / 2 else e - 64
  if dsDestCs (decide (64 ≤ e)) q.bytes then m.posOf q.core 3 else m.clusterPos k 3

/-- The chunk boundaries that the completed part has passed, all but the last of the stream, counted (R295). -/
def Main.stCount (m : Main) (e : Nat) : Main :=
  match m.streamOf e with
  | none => m
  | some (q, r) =>
    let n := min (r.done / stChunk q.bytes) (stChunks q.bytes - 1)
    if n ≤ r.chunks then m
    else
      let m1 := m.modEngine e (fun x => { x with run := some (.stream { r with chunks := n }) })
      m1.advanceCounter (dsCounter false q.bytes) (n - r.chunks) (m.engRelease e q)

/-- A stream goes on. -/
def Main.streamGo (m : Main) (e : Nat) : Main :=
  match m.streamOf e with
  | none => m
  | some (q, r) => (m.stGo e q r.reqs.zipIdx).stCount e

/-- Every gather engine goes on, after an answer or a freed entry. -/
def Main.enginesGo (m : Main) : Main := (List.range 64).foldl (fun m e => (m.gatherGo e).streamGo e) m

/-- A stream descriptor begun, or refused. -/
def Main.streamStart (m : Main) (e : Nat) (q : EngDesc) : Main :=
  if !m.stLegal q then m.modEngine e (fun x => { x with run := some .refused })
  else
    let run : EngRun := .stream { reqs := stReqs q.bytes, chunks := 0 }
    (m.modEngine e (fun x => { x with run := some run })).streamGo e

/-- A gather engine takes a stream descriptor. -/
def Main.streamDescriptor (e : Nat) (m : Main) : Out :=
  match m.engHead e with
  | none => .refused (.noSubject "descriptor")
  | some q => if e < 64 ∧ dsOp q.bytes = 3 then .next (m.streamStart e q) else .refused (.noSubject "stream descriptor")

/-- An engine takes a descriptor whose OP it does not know (R141). -/
def Main.reservedDescriptor (e : Nat) (m : Main) : Out :=
  match m.engHead e with
  | none => .refused (.noSubject "descriptor")
  | some q =>
    if (if e < 64 then dsOp q.bytes = 1 ∨ dsOp q.bytes = 3 else dsOp q.bytes = 2) then
      .refused (.noSubject "reserved descriptor")
    else .next (m.modEngine e (fun x => { x with run := some .refused }))

/-! ### The end of a descriptor (R140, R141, R297) -/

/-- The lines a failed GET leaves poisoned: every local range from the first failed request on that no request has
filled (R297). -/
def Main.stPoison (m : Main) (q : EngDesc) (r : StreamRun) : Main :=
  if stPut q.bytes then m
  else
    (r.reqs.dropWhile (fun x => !x.isFailed)).foldl (fun m x =>
      if x.st == .done then m else m.engPoison q (stLocCs q.bytes) x.loc x.len) m

/-- The stream's status record. -/
def streamRecord (r : StreamRun) : List Byte :=
  let s := match r.reqs.find? (·.isFailed) with
    | some x => (match x.st with | .failed s => s | _ => .ok)
    | none => .ok
  toBytes 2 s.code ++ toBytes 6 0 ++ toBytes 8 r.done

/-- The record of a descriptor that the engine answers NOT_PERMITTED. -/
def refusedRecord : List Byte := toBytes 2 Status.notPermitted.code ++ toBytes 14 0

/-- Whether an engine's descriptor can end. -/
def EngRun.finished : EngRun → Bool
  | .gather g => g.finished
  | .stream s => s.finished
  | _ => true

/-- The outputs of a run, its record, and the increments still owed. -/
def Main.engOutputs (m : Main) (q : EngDesc) (r : EngRun) : List Byte × Nat × Main :=
  match r with
  | .gather g => let x := m.gatherOutputs q g; (x.1, 1, x.2)
  | .stream s => (streamRecord s, stChunks q.bytes - s.chunks, m.stPoison q s)
  | .sample s => (sampleRecord s, 1, m)
  | .refused => (refusedRecord, 1, m)

/-- Whether an output of a run has a line that waits at its home (R199, R215). -/
def Main.outBlocked (m : Main) (sampler : Bool) (q : EngDesc) (r : EngRun) : Bool :=
  let rd := dsRecord sampler q.bytes
  m.engBlocked q rd.2 rd.1 16 || (match r with
    | .gather _ => m.engBlocked q (dsBit q.bytes 3 5) (dsAddr q.bytes 0x20) (gaDestLen q.bytes)
    | .stream s => !stPut q.bytes && s.reqs.any (fun x => x.st != .done && m.engBlocked q (stLocCs q.bytes) x.loc x.len)
    | _ => false)

/-- The descriptor at the head of an engine ends: outputs, record, counter (R140). -/
def Main.descriptorEnd (e : Nat) (m : Main) : Out :=
  match m.eng[e]? with
  | none => .refused (.noSubject "engine")
  | some x =>
    match x.run, x.queue with
    | some r, q :: rest =>
      if !r.finished then .refused (.notReady "descriptor")
      else if m.outBlocked (decide (64 ≤ e)) q r then .refused (.notReady "a line's home")
      else
        let sampler := decide (64 ≤ e)
        let o := m.engOutputs q r
        let rd := dsRecord sampler q.bytes
        let m1 := o.2.2.engWrite q rd.2 rd.1 o.1
        let m2 := m1.modEngine e (fun x => { x with queue := rest, run := none })
        let m3 := m2.advanceCounter (dsCounter sampler q.bytes) o.2.1 (m.engRelease e q)
        .next (m3.modLaunch q.launch (fun l => { l with engines := l.engines - 1 }))
    | _, _ => .refused (.noSubject "descriptor in progress")

/-- STREAM_DESCRIPTOR (R295). -/
def execStreamDescriptor (e : Nat) (s : State) : Outcome := onMain (Main.streamDescriptor e) s
/-- RESERVED_DESCRIPTOR (R141). -/
def execReservedDescriptor (e : Nat) (s : State) : Outcome := onMain (Main.reservedDescriptor e) s

end Sys2Proof.Machine
end

