-- ==== Sys2Proof/Machine/Queues.lean ====
section
/-! DEFINITION. Doorbells, the reading and starting of packets, and the packets that need no engine (R342, R343, R370-R376,
R380-R385, R468). -/

namespace Sys2Proof.Machine

/-! ### Fences of saggers (R468, R474, R481) -/

/-- Whether a span's sagger is fenced on this pier (R468, R474, R481, R482). -/
def Main.fenced (m : Main) (span : Nat) : Bool :=
  m.rcv.dev.isSome || m.quiesced || m.rcv.handlings.any (fun h => h.sagger == span)

/-! ### Doorbells (R342, R343) -/

/-- A doorbell write that is ignored and counted (R342, R390). -/
def Main.ignoreDoorbell (m : Main) : Main := m.bump 5 2 0 1

/-- WIDX of W given to a queue (R343). -/
def Main.ringDoorbell (m : Main) (q : QRef) (x : Queue) (w : Word) : Main :=
  let d := (w - x.avail).toNat
  if d = 0 then m
  else if d ≤ x.slots then (m.modQueue q (fun x => { x with avail := w })).wantSlot q.ctx
  else m.postCtx q.ctx 5 .ok (q.q * 2 ^ 56 + 1)

/-- A write to a doorbell page. -/
def Main.doorbellWrite (fn : Fn) (page off : Nat) (bytes : List Byte) (m : Main) : Out :=
  match m.objs.queues.find? (fun x => x.fn == fn && x.page == page) with
  | none => .next m.ignoreDoorbell
  | some x =>
    let gone := x.destroying || (match m.ctxOf x.ctx with | some c => c.state == .teardown | none => true)
    if off ≠ 0 ∨ bytes.length < 4 ∨ gone = true then .next m.ignoreDoorbell
    else .next (m.ringDoorbell ⟨x.ctx, x.idx⟩ x (BitVec.ofNat 32 (fieldAt bytes 0 4)))

/-! ### Reading a packet (R372, R373) -/

/-- A location read: the bytes, none when the read fails. What host memory holds is the command's operand, an empty one
when its read fails (R371, R373). -/
def Main.locRead (m : Main) (c : Context) (l : Loc) (off n : Nat) (host : List Byte) : Option (List Byte) × Main :=
  match l with
  | .region h o =>
    match m.regionOf h with
    | some r =>
      if r.ctx = c.num ∧ r.read ∧ o + off + n ≤ r.len ∧ m.fnReach c.fn ∧ host.length = n then (some host, m)
      else (none, m)
    | none => (none, m)
  | .span a =>
    if m.mem.holdsRange c.span (a + off) n then
      let (d, bad, m1) := m.spanRead c.span (a + off) n
      (if bad then none else some d, m1)
    else (none, m)

/-- A bit of byte 0x01. -/
def pkBit (d : List Byte) (i : Nat) : Bool := bit (fieldAt d 1 1) i

/-- The page of a location that is read: of span memory, and of what cannot be read, none is needed (R353, R371). -/
def Main.locPage (m : Main) (c : Context) (l : Loc) (off : Nat) (o : PutOwner) : PageRes :=
  match l with
  | .region h a =>
    match m.regionOf h with
    | some r => if m.fnReach c.fn then m.needPage c.fn c.pasid (r.iova + a + off) o else .have m
    | none => .have m
  | .span _ => .have m

/-- Whether a line of a location in span memory waits at its home (R199, R208, R215). -/
def Main.locHeld (m : Main) (c : Context) (l : Loc) (off n : Nat) : Bool :=
  match l with
  | .span a => m.spanBlocked c.span (a + off) n
  | _ => false

/-- Whether the previous packet has completed (R376). -/
def Queue.prevDone (x : Queue) : Bool := !(x.running ++ x.held).any (fun p => p.pidx == (x.ridx - 1).toNat)

/-- The launch of a packet of a queue, when it runs. -/
def Main.launchOfPacket (m : Main) (q : QRef) (pidx : Nat) : Option Launch :=
  m.cores.launches.find? (fun l => l.coord == .queue q pidx)

/-- How many packets have been read since a packet was, itself included: packet indices wrap at 2^32 (R372). -/
def Queue.age (x : Queue) (pidx : Nat) : Nat := (x.ridx - BitVec.ofNat 32 pidx).toNat

/-- Whether a launch with OVERLAP may start: the previous launch of its queue has handed out its last pending work group,
and every packet before that launch has completed (R125). -/
def Main.overlapReady (m : Main) (q : QRef) (x : Queue) : Bool :=
  match x.lastLaunch with
  | none => true
  | some p =>
    (match m.launchOfPacket q p with
     | some l => l.todo.isEmpty && l.saved.isEmpty
     | none => true) &&
      (x.running ++ x.held).all (fun y => decide (x.age y.pidx ≤ x.age p))

/-- Whether the next packet may start (R125, R376): two launches of a queue overlap only when the later one has OVERLAP. -/
def Main.mayStart (m : Main) (q : QRef) (x : Queue) (d : List Byte) : Bool :=
  if pkType d = 1 then
    (if pkBit d 2 then m.overlapReady q x else x.prevDone && !x.running.any (fun p => pkType p.bytes == 1))
  else x.prevDone || (pkType d == 2 && pkBit d 2)

/-- Whether a context's packets may be started: it holds its home slot and is not giving it up, or it is LOST
(R367, R369, R389). -/
def Main.mayRun (m : Main) (c : Context) : Bool :=
  !m.quiesced && (c.state == .lost || (c.state == .resident &&
    m.objs.slots.any (fun s => match s with | some x => x.ctx == c.num && x.home && !x.closing | none => false)))

/-- A packet read from the ring becomes the queue's newest running one, and the status word is written (R372). -/
def Main.takePacket (m : Main) (q : QRef) (x : Queue) (d : List Byte) : Packet × Main :=
  let p : Packet := { pidx := x.ridx.toNat, bytes := d, tstart := m.time, energy := 0, waiting := false, due := 0, after := [] }
  (p, (m.modQueue q (fun x =>
    { x with ridx := x.ridx + 1, running := x.running ++ [p]
             lastLaunch := if pkType d = 1 then some p.pidx else x.lastLaunch })).writeQStatus q)

/-- What every packet meets as it starts: a LOST context, a fenced sagger, a reserved bit (R5, R374, R389, R468); then
its own start. -/
def Main.beginPacket (m : Main) (q : QRef) (c : Context) (p : Packet) (legal : Bool) (go : Main → Main) : Main :=
  let fails (s : Status) : Main := m.completePacket q p s 0 (m.waitDetail c.num p)
  if c.state = .lost then fails .contextLost
  else if m.fenced c.span then fails .spanAborted
  else if !legal || fieldAt p.bytes 1 1 / 16 != 0 then fails .notPermitted
  else go m

/-- A packet of a queue is read and starts: one that a lost slot has stopped, afresh, or the next of the ring. -/
def Main.startPacket (q : QRef) (host : List Byte) (isType : Nat → Bool) (legal : List Byte → Bool)
    (go : Context → Packet → Main → Main) (m : Main) : Out :=
  match m.queueOf q, m.ctxOf q.ctx with
  | some x, some c =>
    if !m.mayRun c || m.procOut (6 + x.proc) then .refused (.notReady "the queue's packets")
    else
      match x.held with
      | p :: r =>
        if !isType (pkType p.bytes) then .refused (.noSubject "a packet of this type")
        else
          let p1 := { p with tstart := m.time, waiting := false }
          let m1 := m.modQueue q (fun x => { x with held := r, running := x.running ++ [p1] })
          .next (m1.beginPacket q c p1 (legal p1.bytes) (go c p1))
      | [] =>
        if x.halted || x.avail == x.ridx then .refused (.noSubject "a packet")
        else
          let off := x.ridx.toNat % x.slots * 64
          if m.locHeld c x.ring off 64 then .refused (.notReady "a line's home") else
          match m.locPage c x.ring off (.ring q) with
          | .wait m0 => .next m0
          | .lost m0 => .next (m0.haltQueue q .faultUnresolved)
          | .have m0 =>
            match m0.locRead c x.ring off 64 host with
            | (none, m1) => .next (m1.haltQueue q .faultUnresolved)
            | (some d, m1) =>
              if !isType (pkType d) then .refused (.noSubject "a packet of this type")
              else if c.state != .lost && !m1.mayStart q x d then .refused (.notReady "an earlier packet")
              else
                let (p, m2) := m1.takePacket q x d
                .next (m2.beginPacket q c p (legal d) (go c p))
  | _, _ => .refused (.noSubject "queue")

/-- A running packet changed. -/
def Main.modPacket (m : Main) (q : QRef) (pidx : Nat) (f : Packet → Packet) : Main :=
  m.modQueue q (fun x => { x with running := modWhere x.running (fun p => p.pidx == pidx) f })

/-- A packet waits. -/
def Main.packetWaits (m : Main) (q : QRef) (p : Packet) : Main := m.modPacket q p.pidx (fun p => { p with waiting := true })

/-- A packet that cannot begin yet is started afresh when its queue is looked at again. -/
def Main.holdPacket (m : Main) (q : QRef) (p : Packet) : Main :=
  m.modQueue q (fun x => { x with running := x.running.filter (fun y => y.pidx != p.pidx), held := p :: x.held })

/-! ### Reserved types (R375) -/

/-- A packet whose TYPE is reserved. -/
def Main.reservedPacket (q : QRef) (pkt : List Byte) : Main → Out :=
  Main.startPacket q pkt (fun t => t == 0 || decide (10 ≤ t)) (fun _ => false) (fun _ _ m => m)

/-! ### Fence signal (R234, R380) -/

/-- Reserved bytes of a fence signal packet. -/
def signalLegal (d : List Byte) : Bool :=
  let s := fieldAt d 2 1
  pkType d == 4 && zeroAt d 3 1 && fieldAt d 1 1 / 2 % 8 == 0 && decide (3 ≤ s) && decide (s ≤ 5) &&
    fieldAt d 8 2 / 2 ^ 13 == 0 && zeroAt d 0xA 6 && zeroAt d 0x18 40

/-- A signal of a context of a module applied here: what its packet completes with, and the state (R380, R394, R396). -/
def Main.signalFence (m : Main) (home module ctx handle : Nat) (v : DWord) (rr : Option RelRec) : Status × Main :=
  match m.fenceOf handle with
  | none => (.notPermitted, m)
  | some f =>
    if !f.maySignal home module ctx then (.notPermitted, m)
    else if !f.live then (.fenceAbandoned, m)
    else (.ok, m.applySignal handle v rr)

/-- Whether a module can be reached (R262). -/
def Main.routed (m : Main) (dest : Nat) : Bool := m.fab.routes.any (fun r => r.dest == dest)

/-- The number that a signal to another module carries for its packet. -/
def packetNum (q : QRef) (pidx : Nat) : Nat := (q.ctx * 64 + q.q) * 2 ^ 32 + pidx

/-- A fence signal packet starts. A signal to another module tells whether its context is in checked mode, so that the fence keeps its
record (R239), and waits for the acknowledgement within the request timer. -/
def Main.signalGo (q : QRef) (c : Context) (p : Packet) (m : Main) : Main :=
  let d := p.bytes
  let scope := fieldAt d 2 1
  let handle := fieldAt d 4 4
  let target := fieldAt d 8 2
  let v : DWord := BitVec.ofNat 64 (fieldAt d 0x10 8)
  if target = m.fab.module then
    let r := m.signalFence m.fab.module m.fab.module c.num handle v (if c.checked then some (m.modPos scope) else none)
    r.2.completePacket q p r.1 0 0
  else if scope < 4 || !m.routed target then m.completePacket q p .notPermitted 0 0
  else
    (m.modPacket q p.pidx (fun p => { p with waiting := true, due := m.time + m.param 4 * 1000 })).sendCtrl
      (.fenceSignal target (packetNum q p.pidx) handle v 4 c.checked c.num)

def Main.fenceSignalPacket (q : QRef) (pkt : List Byte) : Main → Out :=
  Main.startPacket q pkt (· == 4) signalLegal (Main.signalGo q)

/-! ### Fence wait (R381) -/

def fenceWaitLegal (d : List Byte) : Bool :=
  decide (fieldAt d 2 1 ≤ 5) && zeroAt d 3 1 && fieldAt d 1 1 / 2 % 8 == 0 && zeroAt d 0x10 48

/-- A fence wait packet starts. -/
def Main.fenceWaitGo (q : QRef) (c : Context) (p : Packet) (m : Main) : Main :=
  let handle := fieldAt p.bytes 4 4
  match m.fenceOf handle with
  | none => m.completePacket q p .notPermitted 0 0
  | some f =>
    if !f.mayWait m.fab.module c.num then m.completePacket q p .notPermitted 0 0
    else if !f.live then m.completePacket q p .fenceAbandoned 0 f.value.toNat
    else (m.packetWaits q p).wakePacket handle (q, p)

def Main.fenceWaitPacket (q : QRef) (pkt : List Byte) : Main → Out :=
  Main.startPacket q pkt (· == 5) fenceWaitLegal (Main.fenceWaitGo q)

/-! ### Counter wait (R240, R289, R382) -/

def counterWaitLegal (d : List Byte) : Bool :=
  decide (fieldAt d 2 1 ≤ 5) && zeroAt d 3 1 && fieldAt d 1 1 / 2 % 8 == 0 && fieldAt d 4 2 / 2 ^ 14 == 0 &&
    zeroAt d 6 2 && zeroAt d 0x10 48

/-- A counter wait packet starts; a counter that is not the context's is refused. -/
def Main.counterWaitGo (q : QRef) (c : Context) (p : Packet) (m : Main) : Main :=
  let idx := fieldAt p.bytes 4 2
  match m.counterOf idx with
  | none => m.completePacket q p .notPermitted 0 0
  | some k =>
    if k.ctx ≠ c.num then m.completePacket q p .notPermitted 0 0
    else (m.packetWaits q p).wakeCounterPacket idx (q, p)

def Main.counterWaitPacket (q : QRef) (pkt : List Byte) : Main → Out :=
  Main.startPacket q pkt (· == 6) counterWaitLegal (Main.counterWaitGo q)

/-! ### Barrier, hint, marker (R383-R385) -/

def barrierLegal (d : List Byte) : Bool := fieldAt d 1 1 / 2 % 8 == 0 && zeroAt d 2 6 && zeroAt d 0x10 48

/-- The packets of a queue that have started, but one. -/
def Main.startedOf (m : Main) (ctx i : Nat) (own : Option Nat) : List (Nat × Nat) :=
  match m.queueOf ⟨ctx, i⟩ with
  | some x => ((x.running ++ x.held).filter (fun p => some p.pidx != own)).map (fun p => (i, p.pidx))
  | none => []

/-- A packet that waits for others: it completes when they have (R383, R385). -/
def Main.waitFor (m : Main) (q : QRef) (p : Packet) (l : List (Nat × Nat)) : Main :=
  let m1 := m.modPacket q p.pidx (fun p => { p with waiting := true, after := l })
  (Main.settleWaits ((m1.objs.queues.map (fun x => x.running.length)).sum) q.ctx m1).dropQueues q.ctx

/-- A barrier starts. -/
def Main.barrierGo (q : QRef) (c : Context) (p : Packet) (m : Main) : Main :=
  m.waitFor q p (m.startedOf c.num q.q (some p.pidx) ++
    ((bitsSet 64 (fieldAt p.bytes 8 8)).filter (· != q.q)).flatMap (fun i => m.startedOf c.num i none))

def Main.barrierPacket (q : QRef) (pkt : List Byte) : Main → Out :=
  Main.startPacket q pkt (· == 7) barrierLegal (Main.barrierGo q)

def markerLegal (d : List Byte) : Bool := fieldAt d 1 1 / 2 % 8 == 0 && zeroAt d 2 2 && zeroAt d 8 56

/-- A marker starts. -/
def Main.markerGo (q : QRef) (c : Context) (p : Packet) (m : Main) : Main :=
  m.waitFor q p (m.startedOf c.num q.q (some p.pidx))

def Main.markerPacket (q : QRef) (pkt : List Byte) : Main → Out :=
  Main.startPacket q pkt (· == 9) markerLegal (Main.markerGo q)

def hintLegal (d : List Byte) : Bool :=
  decide (fieldAt d 2 1 ≤ 3) && zeroAt d 3 1 && fieldAt d 1 1 / 2 % 8 == 0 && zeroAt d 0xC 52

/-- What the Kiln makes of a hint (R454): END takes the context's phases offline; another kind comes online after LEAD_US,
20 µs when that is less, and stays until DUR_US has passed, 10 ms when that is 0 and 1 s at most. -/
def Main.hintGo (q : QRef) (c : Context) (p : Packet) (m : Main) : Main :=
  let kind := fieldAt p.bytes 2 1
  let lead := max (fieldAt p.bytes 4 4) 20
  let dur := if fieldAt p.bytes 8 4 = 0 then 10000 else min (fieldAt p.bytes 8 4) 1000000
  let start := m.time + lead * 1000
  let m1 : Main := { m with hints :=
    if kind = 0 then m.hints.filter (fun h => h.ctx != c.num)
    else m.hints ++ [{ ctx := c.num, kind := kind, start := start, stop := start + dur * 1000, online := false }] }
  m1.completePacket q p .ok 0 0

def Main.hintPacket (q : QRef) (pkt : List Byte) : Main → Out :=
  Main.startPacket q pkt (· == 8) hintLegal (Main.hintGo q)

/-- DOORBELL_WRITE (R342, R343). -/
def execDoorbellWrite (fn : Fn) (page off : Nat) (bytes : List Byte) (s : State) : Outcome :=
  onMain (Main.doorbellWrite fn page off bytes) s
/-- RESERVED_PACKET (R5, R375). -/
def execReservedPacket (q : QRef) (pkt : List Byte) (s : State) : Outcome := onMain (Main.reservedPacket q pkt) s
/-- FENCE_SIGNAL_PACKET (R380). -/
def execFenceSignalPacket (q : QRef) (pkt : List Byte) (s : State) : Outcome := onMain (Main.fenceSignalPacket q pkt) s
/-- FENCE_WAIT_PACKET (R381). -/
def execFenceWaitPacket (q : QRef) (pkt : List Byte) (s : State) : Outcome := onMain (Main.fenceWaitPacket q pkt) s
/-- COUNTER_WAIT (R382). -/
def execCounterWait (q : QRef) (pkt : List Byte) (s : State) : Outcome := onMain (Main.counterWaitPacket q pkt) s
/-- BARRIER (R383). -/
def execBarrier (q : QRef) (pkt : List Byte) (s : State) : Outcome := onMain (Main.barrierPacket q pkt) s
/-- HINT (R384, R454). -/
def execHint (q : QRef) (pkt : List Byte) (s : State) : Outcome := onMain (Main.hintPacket q pkt) s
/-- MARKER (R385). -/
def execMarker (q : QRef) (pkt : List Byte) (s : State) : Outcome := onMain (Main.markerPacket q pkt) s

end Sys2Proof.Machine
end

