-- ==== Sys2Proof/Machine/Launching.lean ====
section
/-! DEFINITION. Kernel images, launches, the placement of work groups, preemption and resident slots (R62, R77, R119-R138,
R367-R369). -/

namespace Sys2Proof.Machine

/-! ### Images (R119, R120) -/

def imCodeOff (h : List Byte) : Nat := fieldAt h 0x0C 4
def imCodeLen (h : List Byte) : Nat := fieldAt h 0x10 4
def imEntry (h : List Byte) : Nat := fieldAt h 0x14 4
def imConstOff (h : List Byte) : Nat := fieldAt h 0x18 4
def imConstLen (h : List Byte) : Nat := fieldAt h 0x1C 4
def imLen (h : List Byte) : Nat := fieldAt h 8 4
def imRegs (h : List Byte) : Nat := fieldAt h 0x20 1
def imBundles (h : List Byte) : Nat := fieldAt h 0x21 1
def imCstore (h : List Byte) : Nat := fieldAt h 0x22 1
def imArgs (h : List Byte) : Nat := fieldAt h 0x23 1

/-- The ranges of the header, and its parts within IMG_LEN. -/
def imageLegal (h : List Byte) : Bool :=
  fieldAt h 0 4 == 0x314B5843 && fieldAt h 4 2 == 1 && zeroAt h 6 2 && decide (imLen h ≤ 0x02000000) &&
  decide (256 ≤ imLen h) && imCodeOff h % 256 == 0 && imCodeLen h % 8 == 0 && decide (8 ≤ imCodeLen h) &&
  decide (imCodeLen h ≤ 0x01000000) && imEntry h % 8 == 0 && decide (imEntry h < imCodeLen h) &&
  imConstOff h % 64 == 0 && decide (imConstLen h ≤ 0x10000) &&
  imRegs h % 8 == 0 && decide (8 ≤ imRegs h) && decide (imRegs h ≤ 128) &&
  decide (1 ≤ imBundles h) && decide (imBundles h ≤ 64) && decide (imCstore h ≤ 128) && decide (imArgs h ≤ 48) &&
  zeroAt h 0x24 220 && decide (imCodeOff h + imCodeLen h ≤ imLen h) && decide (imConstOff h + imConstLen h ≤ imLen h)

/-! ### Launch packets (R121) -/

def pkImage (d : List Byte) : Nat := fieldAt d 8 8
def pkArgs (d : List Byte) : Nat := fieldAt d 0x10 8
def pkGridX (d : List Byte) : Nat := fieldAt d 0x18 4
def pkGridY (d : List Byte) : Nat := fieldAt d 0x1C 2
def pkGridZ (d : List Byte) : Nat := fieldAt d 0x1E 2
def pkCscope (d : List Byte) : Nat := fieldAt d 0x20 1

/-- The fields of a launch packet (R5, R121). -/
def launchLegal (d : List Byte) : Bool :=
  decide (fieldAt d 2 1 < 64) && decide (fieldAt d 3 1 < 4) && bit (fieldAt d 3 1) 1 && decide (pkImage d < 2 ^ 52) &&
  decide (pkArgs d < 2 ^ 52) && decide (1 ≤ pkGridX d) && decide (1 ≤ pkGridY d) && decide (1 ≤ pkGridZ d) &&
  decide (3 ≤ pkCscope d) && decide (pkCscope d ≤ 5) && zeroAt d 0x21 31

/-- What a launch fixes for its work groups (R119, R121, R122, R365). -/
def launchSpec (seed : DWord) (checked debug isLocal : Bool) (d h : List Byte) (args : List DWord) : LaunchSpec :=
  { seed := seed, checked := checked, debug := debug, reqId := BitVec.ofNat 32 (fieldAt d 4 4)
    trapEn := BitVec.ofNat 8 (fieldAt d 2 1), rcvPd := bit (fieldAt d 3 1) 0, evtInexact := pkBit d 1, record := pkBit d 0
    overlap := pkBit d 2, isLocal := isLocal, cscope := pkCscope d, codeAddr := pkImage d + imCodeOff h
    codeLen := imCodeLen h, entry := imEntry h, constAddr := pkImage d + imConstOff h, argAddr := pkArgs d, args := args
    regs := imRegs h, bundles := imBundles h, cstore := imCstore h, gridX := pkGridX d, gridY := pkGridY d
    gridZ := pkGridZ d }

/-! ### The save pool (R128, R129) -/

/-- Bytes of a save record with a number of open banks. -/
def recordSize (sp : LaunchSpec) (banks : Nat) : Nat :=
  roundUp (256 + sp.bundles * (1600 + 128 * sp.regs) + banks * 65600 + sp.cstore * 16384) 4096

/-- The work groups that can be resident at once on one core, at most (R77). -/
def maxResident (sp : LaunchSpec) : Nat :=
  let q := min 64 (2048 / sp.regs)
  let w := min 32 (4 * q / sp.bundles)
  if sp.cstore = 0 then w else min w (128 / sp.cstore)

/-- An entry of a mask stack in 16 bytes. -/
def MaskEntry.bytes : MaskEntry → List Byte
  | .ifE saved other e => toBytes 4 saved.toNat ++ toBytes 4 other.toNat ++ toBytes 1 1 ++ toBytes 1 (b2n e) ++ toBytes 6 0
  | .loopE saved => toBytes 4 saved.toNat ++ toBytes 4 0 ++ toBytes 1 2 ++ toBytes 7 0

/-- The values of the accumulation modes (R109). -/
def AccMode.num : AccMode → Nat
  | .long => 0 | .fp32 => 1 | .windowed => 2

/-- An open bank: its state, then its values. -/
def Bank.record (chain : Nat) (k : Bank) : List Byte :=
  padTo 64 (toBytes 2 k.m ++ toBytes 2 k.n ++ toBytes 1 k.mode.num ++ [k.flags] ++ toBytes 2 (k.anchor % 2 ^ 16).toNat ++
    toBytes 1 chain) ++ padTo 65536 (k.vals.flatMap (fun v => toBytes 16 v.toNat))

/-- A bundle's parts of a record. -/
def Bundle.record (b : Bundle) (regs : Nat) : List Byte :=
  padTo 64 (toBytes 4 b.pc ++ toBytes 4 b.mask.toNat ++ toBytes 1 b.stack.length ++ [b.vflags] ++ toBytes 2 0 ++
      b.p.flatMap (fun p => toBytes 4 p.toNat)) ++
    padTo 512 (b.u.flatMap (fun x => toBytes 8 x.toNat)) ++
    padTo 512 (b.t.flatMap (fun x => toBytes 32 (match x with | some d => d.toNat | none => 0))) ++
    padTo 512 (b.stack.flatMap MaskEntry.bytes) ++
    padTo (128 * regs) (b.v.flatMap (fun x => toBytes 4 x.toNat)) ++
    (b.chains.zipIdx.flatMap (fun k => match k.1 with | some x => x.record k.2 | none => []))

/-- A save record in the parts and sizes of R128, in whole units of 4 KiB. Where a value lies in its part is the model's choice:
the format is no interface (log 29). -/
def SaveRec.record (r : SaveRec) : List Byte :=
  let regs := match r.wg.bundles with | b :: _ => b.v.length / 32 | [] => 0
  let banks := (r.wg.bundles.flatMap (fun b => b.chains.filterMap id)).length
  let l := padTo 256 (toBytes 8 r.wg.lin ++ toBytes 8 r.wg.launch ++ r.wg.barriers.flatMap (fun x => toBytes 8 x.toNat) ++
      toBytes 4 banks ++ toBytes 4 r.store.length) ++ r.wg.bundles.flatMap (fun b => b.record regs) ++ r.store
  padTo (roundUp l.length 4096) l

/-- The 4 KiB pages of a context's save pool, by span address. -/
def Main.poolPages (m : Main) (c : Context) : List Nat :=
  (m.mem.extents.filter (fun e => e.span == c.span && c.pool.contains e.base)).flatMap (fun e =>
    (List.range (e.len * 512)).map (fun i => e.base * 0x200000 + i * 4096))

/-- Bytes of a context's save pool. -/
def Main.poolBytes (m : Main) (c : Context) : Nat :=
  ((m.mem.extents.filter (fun e => e.span == c.span && c.pool.contains e.base)).map (fun e => e.len * 0x200000)).sum

/-- The pages of it that hold records: on the pending lists of the context's launches, being read by other piers, or kept for
DEBUG_READ (R544). -/
def Main.poolUsed (m : Main) (ctx : Nat) : List Nat :=
  (m.cores.launches.filter (fun l => l.ctx == ctx)).flatMap (fun l =>
    l.saved.flatMap (·.pages) ++ l.away.flatMap (·.pages)) ++
  (match m.ctxOf ctx with | some c => c.kept.flatMap (·.pages) | none => [])

/-- The pages a new record takes: the lowest free ones (DESIGN CHOICE, log 29). -/
def Main.poolTake (m : Main) (ctx n : Nat) : Option (List Nat) :=
  match m.ctxOf ctx with
  | none => none
  | some c =>
    let used := m.poolUsed ctx
    let free := ((m.poolPages c).filter (fun p => !used.contains p)).take n
    if free.length = n then some free else none

/-- A record written to its pages by invalidating writes. -/
def Main.writePages (m : Main) (span : Nat) (pages : List Nat) (bytes : List Byte) : Main :=
  (pages.zipIdx).foldl (fun m p => m.spanWrite span p.1 ((bytes.drop (p.2 * 4096)).take 4096) false) m

/-- Bytes of it that launches hold in reserve. -/
def Main.poolReserved (m : Main) (ctx : Nat) : Nat := ((m.cores.launches.filter (fun l => l.ctx == ctx)).map (·.reserve)).sum

/-- The cores of a launch's core set as it starts (R124). -/
def Main.coreSetSize (m : Main) (span : Nat) (isLocal : Bool) : Nat :=
  let here := (m.spanCores span).length
  if isLocal || m.pierCount span == 1 then here
  else here + Config.otherCores span (match m.recOf span with | some r => r.inForce.epoch | none => 0)

/-! ### LAUNCH (R119-R125, R129) -/

/-- The image and the arguments of a launch: its header and argument words, or how it completes (R120). R120
gives no order between a poisoned line and a field refused: a poisoned header comes first, then the header's and ARGS' ranges, then
poisoned arguments (DESIGN CHOICE, assumption log 83). -/
def Main.readImage (m : Main) (span : Nat) (d : List Byte) : Except Status (List Byte × List DWord) × Main :=
  let image := pkImage d
  if image % 256 ≠ 0 ∨ m.mem.holdsRange span image 256 = false then (.error .notPermitted, m)
  else
    let (h, bad, m1) := m.spanRead span image 256
    if bad then (.error .poisoned, m1)
    else if !imageLegal h || !m1.mem.holdsRange span image (imLen h) then (.error .notPermitted, m1)
    else if imArgs h = 0 then (.ok (h, []), m1)
    else if pkArgs d % 64 ≠ 0 ∨ m1.mem.holdsRange span (pkArgs d) (imArgs h * 8) = false then (.error .notPermitted, m1)
    else
      let (a, bad2, m2) := m1.spanRead span (pkArgs d) (imArgs h * 8)
      if bad2 then (.error .poisoned, m2)
      else (.ok (h, (List.range (imArgs h)).map (fun i => BitVec.ofNat 64 (fieldAt a (8 * i) 8))), m2)

/-- A launch added to the module's. -/
def Main.addLaunch (m : Main) (coord : Coord) (ctx span : Nat) (sp : LaunchSpec) (saved : List SaveRec)
    (first count reserve room tstart : Nat) : Main :=
  { m with cores := { m.cores with
      nextLaunch := m.cores.nextLaunch + 1
      launches := m.cores.launches ++
        [{ id := m.cores.nextLaunch, coord := coord, ctx := ctx, span := span, spec := sp,
           todo := if count = 0 then [] else [(first, first + count)], saved := saved, reading := [], away := [], ended := 0, flags := 0, trap := none, moreTraps := 0,
           fatal := false, firstFail := none, engines := 0, rsts := 0, reserve := reserve, room := room, killed := none,
           tstart := tstart, energy := 0 }] } }

/-- Whether a line of a launch's image header or of its arguments waits at its home (R199, R208, R215). -/
def Main.imageHeld (m : Main) (span : Nat) (d : List Byte) : Bool :=
  !m.linesFree && (m.spanBlocked span (pkImage d) 256 ||
    m.spanBlocked span (pkArgs d) (imArgs (m.spanRead span (pkImage d) 256).1 * 8))

/-- A launch packet starts, or waits while its image cannot be read. The reserve is what the core set could hold, however small the grid
(R129; DESIGN CHOICE, assumption log 84). -/
def Main.launchGo (q : QRef) (c : Context) (p : Packet) (m : Main) : Main :=
  if m.imageHeld c.span p.bytes then m.holdPacket q p else
  match m.readImage c.span p.bytes with
  | (.error s, m1) => m1.completePacket q p s 0 0
  | (.ok (h, args), m1) =>
    let isLocal := pkBit p.bytes 3 && !(m1.spanCores c.span).isEmpty
    let sp := launchSpec c.seed c.checked c.debug isLocal p.bytes h args
    let need := m1.coreSetSize c.span isLocal * maxResident sp * recordSize sp 8
    if m1.poolBytes c < m1.poolReserved c.num + need then m1.completePacket q p .notPermitted 0 0
    else m1.addLaunch (.queue q p.pidx) c.num c.span sp [] 0 (sp.gridX * sp.gridY * sp.gridZ) need 0 p.tstart

def Main.launchPacket (q : QRef) (pkt : List Byte) : Main → Out :=
  Main.startPacket q pkt (· == 1) launchLegal (Main.launchGo q)

/-! ### Admission (R53, R59, R61, R62, R77, R122, R131, R229) -/

/-- The work groups resident on a core. -/
def Main.onCore (m : Main) (core : Nat) : List WorkGroup := m.cores.wgs.filter (fun w => w.core == core)

/-- How many of n bundles of a work group with counter w fall in a quadrant (R53). -/
def inQuadrant (n w quad : Nat) : Nat := ((List.range n).filter (fun i => (i + w) % 4 == quad)).length

/-- The core-store base addresses, in 16 KiB units, at which an allocation fits (R61, R77). -/
def Main.storeFits (m : Main) (core units : Nat) : List Nat :=
  let used := (m.onCore core).filterMap (fun w =>
    (m.launchOf w.launch).map (fun l => (w.base / 16384, l.spec.cstore)))
  (List.range (129 - units)).filter (fun b => used.all (fun u => decide (b + units ≤ u.1) || decide (u.1 + u.2 ≤ b)))

/-- The lowest unstarted work group, and the ranges that are left. -/
def takeFirst : List (Nat × Nat) → Option (Nat × List (Nat × Nat))
  | [] => none
  | (a, b) :: r => some (a, if a + 1 < b then (a + 1, b) :: r else r)

/-- The next work group of a pending list: a saved one, or an unstarted one by its linear index (R123). -/
inductive Head where
  | saved (r : SaveRec)
  | fresh (lin : Nat)
  deriving DecidableEq, Repr

def Launch.head (l : Launch) : Option Head :=
  match l.saved with
  | r :: _ => some (.saved r)
  | [] => (takeFirst l.todo).map (fun x => .fresh x.1)

/-- A launch without its pending list's head. -/
def Launch.popHead (l : Launch) : Launch :=
  match l.saved with
  | _ :: s => { l with saved := s }
  | [] => { l with todo := match takeFirst l.todo with | some x => x.2 | none => [] }

/-- Whether every quadrant has bundle slots, registers and banks for a work group (R77). -/
def Main.quadsFit (m : Main) (core w : Nat) (sp : LaunchSpec) (h : Head) : Bool :=
  let here := m.onCore core
  (List.range 4).all (fun quad =>
    let n := inQuadrant sp.bundles w quad
    let slots := (here.map (fun g => inQuadrant g.bundles.length g.w quad)).sum
    let regs := (here.map (fun g => match m.launchOf g.launch with
      | some l => inQuadrant g.bundles.length g.w quad * l.spec.regs | none => 0)).sum
    let banks := match h with
      | .saved r => ((r.wg.bundles.filter (fun b => (b.idx + w) % 4 == quad)).flatMap (fun b => b.chains.filterMap id)).length
      | .fresh _ => 0
    decide (slots + n ≤ 64) && decide (regs + n * sp.regs ≤ 2048) && (banks == 0 || decide (m.unitBanks core quad + banks ≤ 2)))

/-- A bundle as it starts (R59, R122). -/
def newBundle (sp : LaunchSpec) (i : Nat) : Bundle :=
  let u : List DWord := List.replicate 64 0
  let u1 := (sp.args ++ u.drop sp.args.length).take 64
  { idx := i, pc := sp.entry, live := 0xFFFFFFFF, mask := 0xFFFFFFFF, stack := [], v := List.replicate (sp.regs * 32) 0,
    poison := [], p := List.replicate 8 0,
    u := (u1.set 62 (BitVec.ofNat 64 sp.argAddr)).set 63 (BitVec.ofNat 64 sp.constAddr),
    t := List.replicate 16 none, vflags := 0, chains := [none, none], mma := [], waiting := none, pend := [], rstOut := 0,
    ordOut := 0, sent := 0, relFence := none, kept := [], l2Wait := [], ended := false }

/-- The core's store becomes zero when its span has changed since its bytes were last allocated (R62). -/
def Main.claimStore (m : Main) (core span : Nat) : Main :=
  match m.cores.units[core]? with
  | some u =>
    let units := m.cores.units.set core { u with lastSpan := span, w := u.w + 1 }
    if u.lastSpan = span then { m with cores := { m.cores with units := units } }
    else
      { m with cores := { m.cores with
          units := units
          store := Cells.clear m.cores.store (csKey core 0) 0x200000
          rowPoison := m.cores.rowPoison.filter (fun r => r / 2 ^ 15 != core) } }
  | none => m

/-- Whether a context holds a slot on this module that is not being given up (R367, R369). -/
def Main.slotOpen (m : Main) (ctx : Nat) : Bool :=
  m.objs.slots.any (fun s => match s with | some x => x.ctx == ctx && !x.closing | none => false)

/-- Whether a core may take work of a span: it works, the span holds its grain, in the set of cores in force, and the cluster is not
being swapped nor the core reset (R14, R319, R331, R480, R486). -/
def Main.coreOpen (m : Main) (span core : Nat) : Bool :=
  (m.spanCores span).contains core && (match m.cores.units[core]? with | some u => u.good | none => false) && nth m.comp.coreOwner (core / 9) .idle == .span span &&
  !m.rcv.swaps.any (fun x => x.cluster == core / 9) && !m.rcv.resets.any (fun r => r.eng == ⟨0, core⟩)

/-- The work groups of a launch that run here. -/
def Main.residentOf (m : Main) (launch : Nat) : Nat := (m.cores.wgs.filter (fun w => w.launch == launch)).length

/-- The work groups of a launch that its reserve has to hold: those that run here or are saved, and those that other piers may run
(R129). -/
def Main.reserveUsed (m : Main) (l : Launch) : Nat :=
  m.residentOf l.id + l.saved.length + (l.away.map (·.room)).sum

/-- How many more work groups may run: as many as the reserve holds and the free part of the pool adds to it, or, of another pier's
batch, as many as its coordinator keeps room for (R129). -/
def Main.reserveRoom (m : Main) (l : Launch) : Nat :=
  match l.coord, m.ctxOf l.ctx with
  | .queue _ _, some c => (l.reserve + (m.poolBytes c - m.poolReserved l.ctx)) / recordSize l.spec 8 - m.reserveUsed l
  | .queue _ _, none => 0
  | .remote _ _, _ => l.room - m.residentOf l.id

/-- The reserve of a launch of which n more work groups may run (R129). -/
def Main.reserveFor (m : Main) (l : Launch) (n : Nat) : Nat :=
  match l.coord with
  | .queue _ _ => max l.reserve ((m.reserveUsed l + n) * recordSize l.spec 8)
  | .remote _ _ => l.reserve

/-- A record read by the transfer engine of the core that resumes its work group: from this pier's memory, or over the fabric
from the coordinator's pier, a page a request (R131). -/
def Main.readRecord (m : Main) (l : Launch) (core id : Nat) (r : SaveRec) : Main :=
  match l.coord with
  | .queue _ _ => r.pages.foldl (fun m p => (m.spanRead l.span p 4096).2.2) m
  | .remote module _ =>
    let rank := match m.recOf l.span with | some x => x.tableInForce.idxOf module | none => 0
    let m1 := m.modLaunch l.id (fun l => { l with reading := l.reading ++ [(id, r)] })
    r.pages.foldl (fun m p => m.issueReq
      { issuer := core, slot := m.slotOf l.ctx, span := l.span, rank := rank, op := 0x03, addr := p, len := 4096, data := [],
        poison := false, ord := false, lc := 0, rr := none, who := .save id p }) m1

/-- A work group placed on a core: a bundle's first access comes after an acquire of span scope (R229). -/
def Main.placeGroup (m : Main) (l : Launch) (core w base : Nat) (h : Head) : Main :=
  let id := m.cores.nextWg
  let m1 := (m.claimStore core l.span).acquire core 4
  let wg : WorkGroup := match h with
    | .saved r =>
      { r.wg with id := id, launch := l.id, core := core, w := w, base := base, state := .running, cycle := 0
                  reads := match l.coord with | .remote _ _ => r.pages | .queue _ _ => [] }
    | .fresh lin =>
      { id := id, launch := l.id, lin := lin, core := core, w := w, base := base, state := .running, cycle := 0,
        barriers := List.replicate 16 0, bundles := (List.range l.spec.bundles).map (newBundle l.spec), xfers := [], reads := [] }
  let wg1 := { wg with bundles := wg.bundles.map (fun b => b.acquired m1 core 4) }
  let m2 : Main := { m1 with cores := { m1.cores with
    wgs := m1.cores.wgs ++ [wg1], nextWg := id + 1
    stays := m1.cores.stays ++ [{ wg := id, ctx := l.ctx, core := core, start := m1.time, stop := none }] } }
  match h with
  | .saved r =>
    (r.storePoison.foldl (fun m row => m.csPoison core (base + row * 64) 64) (m2.csWrite core [(base, r.store)])).readRecord
      l core id r
  | .fresh _ => m2

/-- Whether a launch goes on: nothing has ended it (R136, R389, R468). -/
def Main.launchRuns (m : Main) (l : Launch) : Bool := l.killed.isNone && l.trap.isNone && !l.fatal && !m.fenced l.span

/-- Whether a page of a record that lies on this pier waits at its home (R199, R208, R215). -/
def Main.recordHeld (m : Main) (l : Launch) (h : Head) : Bool :=
  match l.coord, h with
  | .queue _ _, .saved r => r.pages.any (fun p => m.spanBlocked l.span p 4096)
  | _, _ => false

/-- A core admits the head of a launch's pending list. -/
def Main.admitGroup (launch core : Nat) (m : Main) : Out :=
  match m.launchOf launch, m.cores.units[core]? with
  | some l, some u =>
    match l.head with
    | none => .refused (.noSubject "a pending work group")
    | some h =>
      if !m.launchRuns l || !m.slotOpen l.ctx || !m.coreOpen l.span core then .refused (.notReady "the core or the launch")
      else
        let w := u.w % 4
        let fits := m.storeFits core l.spec.cstore
        if 32 ≤ (m.onCore core).length || !m.quadsFit core w l.spec h || fits.isEmpty then
          .refused (.notReady "room on the core")
        else
          let n := match h with | .saved _ => 0 | .fresh _ => 1
          if m.reserveRoom l < n then .refused (.notReady "the save pool")
          else if m.recordHeld l h then .refused (.notReady "a line's home")
          else
            let (r, m1) := m.draw
            let m2 := m1.modLaunch launch (fun x => { x.popHead with reserve := if n = 0 then l.reserve else m.reserveFor l n })
            .next (m2.placeGroup l core w (nth fits (r % fits.length) 0 * 16384) h)
  | _, _ => .refused (.noSubject "launch or core")

/-- The head of a pending list handed to another pier as a batch of up to n: saved work groups, then unstarted ones whose
linear indices follow each other. -/
def Launch.batch (l : Launch) (n : Nat) : List SaveRec × Nat × Nat :=
  let s := l.saved.take n
  match l.todo with
  | (a, b) :: _ => (s, a, min (n - s.length) (b - a))
  | [] => (s, 0, 0)

/-- A launch without a batch of its pending list, which another pier holds now. -/
def Launch.handOut (l : Launch) (batch module room : Nat) (x : List SaveRec × Nat × Nat) : Launch :=
  { l with
    saved := l.saved.drop x.1.length
    todo := match l.todo with
      | (a, b) :: r => if a + x.2.2 < b then (a + x.2.2, b) :: r else r
      | [] => []
    away := l.away ++ [{ batch := batch, module := module, told := false, pages := x.1.flatMap (·.pages), room := room }] }

/-- The coordinator hands a batch to the queue processors of another pier of the span (R124): its records keep their places in the save
pool, and of the others as many may run as the pool has room for (R129). -/
def Main.handBatch (launch rank count : Nat) (m : Main) : Out :=
  match m.launchOf launch with
  | none => .refused (.noSubject "launch")
  | some l =>
    match l.coord, m.ctxOf l.ctx, m.recOf l.span with
    | .queue _ _, some c, some r =>
      match r.tableInForce[rank]? with
      | none => .refused (.noSubject "a pier of the span")
      | some dest =>
        let x := l.batch (min count 64)
        if l.spec.isLocal || dest == m.fab.module then .refused (.noSubject "another pier of the launch's core set")
        else if x.1.length + x.2.2 = 0 then .refused (.noSubject "a pending work group")
        else if !m.launchRuns l || !m.routed dest then .refused (.notReady "the launch")
        else
          let k := min x.2.2 (m.reserveRoom l)
          if x.1.length + k = 0 then .refused (.notReady "the save pool")
          else
            let n := m.cores.nextLaunch
            let room := x.1.length + k
            let m1 : Main := { m with cores := { m.cores with nextLaunch := n + 1 } }
            .next ((m1.modLaunch launch (fun y => { y.handOut n dest room x with reserve := m.reserveFor l k })).sendCtrl (.work dest (.work
              { module := m.fab.module, launch := n, ctx := c.num, span := l.span, weight := c.weight, spec := l.spec,
                saved := x.1, first := x.2.1, count := x.2.2, room := room })))
    | _, _, _ => .refused (.noSubject "a launch that this module coordinates")

/-- Pending work groups of a launch go to a core here, or to another pier. -/
def Main.admitOne (launch : Nat) (place : WorkPlace) (m : Main) : Out :=
  match place with
  | .core c => m.admitGroup launch c
  | .pier rank count => m.handBatch launch rank count

/-! ### Preemption (R115, R127, R128, R132) -/

/-- A work group asked to stop: its bundles issue nothing more. -/
def Main.preempt (wg : Nat) (m : Main) : Out :=
  match m.wgOf wg with
  | none => .refused (.noSubject "work group")
  | some w => .next (if w.state = .running then m.modWg wg (fun w => { w with state := .stopping }) else m)

/-- Whether an engine descriptor of a work group has yet to write core store (R115). -/
def Main.engineWrites (m : Main) (wg : Nat) : Bool :=
  (List.range m.eng.length).any (fun e => match m.eng[e]? with
    | some x => x.queue.any (fun d => d.wg == wg && dsDestCs (decide (64 ≤ e)) d.bytes)
    | none => false)

/-- Whether a stopping work group's operations have ended, with the release of span scope that comes before its record: its
remote stores and atomics are acknowledged (R70, R115, R127, R224, R229). -/
def Main.drained (m : Main) (w : WorkGroup) : Bool :=
  w.xfers.isEmpty && w.reads.isEmpty && w.bundles.all (fun b => b.pend.isEmpty && b.mma.isEmpty && b.rstOut == 0) &&
    !m.engineWrites w.id

/-- A bundle as its record holds it: waits are executed afresh, and kept release records are not saved (R127, R240). -/
def Bundle.parked (b : Bundle) : Bundle :=
  { b with waiting := none, ordOut := 0, kept := [], l2Wait := [] }

/-- The arrival masks as a record holds them: a bundle that waits in a barrier executes it afresh, and so has not arrived
(R127; DEDUCED, log 30). -/
def WorkGroup.unarrived (w : WorkGroup) : List (BitVec 64) :=
  w.bundles.foldl (fun ms b => match b.waiting with
    | some (.barrier id _) => modNth ms id (fun x => x &&& ~~~(1#64 <<< b.idx))
    | _ => ms) w.barriers

/-- The save record of a work group (R128), not yet in its place. -/
def Main.saveRecord (m : Main) (w : WorkGroup) (l : Launch) : SaveRec :=
  let size := l.spec.cstore * 16384
  { wg := { w with barriers := w.unarrived, bundles := w.bundles.map Bundle.parked }
    store := m.csRead w.core w.base size
    storePoison := (List.range (size / 64)).filter (fun row => m.csBad w.core (w.base + row * 64) 64)
    pages := [] }

/-- A record joins the pending list of the launch that this module coordinates (R127): it is written to free pages of the
save pool, or lies there already. None when the pool has no room. -/
def Main.keepRecord (m : Main) (l : Launch) (r : SaveRec) : Option Main :=
  let join (m : Main) (r : SaveRec) : Main := m.modLaunch l.id (fun x => { x with saved := x.saved ++ [r] })
  if r.pages.isEmpty then
    let bytes := r.record
    (m.poolTake l.ctx (bytes.length / 4096)).map (fun ps => join (m.writePages l.span ps bytes) { r with pages := ps })
  else some (join m r)

/-- The record is written and the work group's resources are free; a record of another module's launch goes to its
coordinator, whose context's pool it belongs in (R127, R129). -/
def Main.saveWritten (wg : Nat) (m : Main) : Out :=
  match m.wgOf wg with
  | none => .refused (.noSubject "work group")
  | some w =>
    match m.launchOf w.launch with
    | none => .refused (.noSubject "launch")
    | some l =>
      if w.state = .running || !m.drained w then .refused (.notReady "the work group")
      else
        let r := m.saveRecord w l
        let m1 := m.dropGroups (fun x => x.id == wg)
        match l.coord with
        | .remote module batch => .next ((m1.modLaunch l.id (fun l => { l with room := l.room - 1 })).sendCtrl (.work module (.saved batch r)))
        | .queue _ _ =>
          match m1.keepRecord l r with
          | some m2 => .next m2
          | none => .refused (.notReady "the save pool")

/-! ### The end of a launch (R126, R134-R138, R286) -/

/-- The status a launch completes with: an abort's, CONTEXT_LOST, the first failure, or OK (R137, R286, R468). -/
def Launch.status (l : Launch) : Status :=
  if l.killed = some .spanAborted then .spanAborted
  else if l.fatal then .contextLost
  else match l.killed with | some s => s | none => l.firstFail.getD .ok

/-- Whether nothing of a launch is left to do (R126). -/
def Main.launchOver (m : Main) (l : Launch) : Bool :=
  !m.cores.wgs.any (fun w => w.launch == l.id) && l.engines == 0 && l.rsts == 0 && l.away.isEmpty &&
    (l.killed.isSome || l.trap.isSome || (l.todo.isEmpty && l.saved.isEmpty))

/-- The 64 bytes of a trap record (R138). -/
def trapBytes (l : Launch) (t : TrapRec) : List Byte :=
  toBytes 2 l.status.code ++ toBytes 2 t.cause.code ++ toBytes 1 t.cls.code ++ toBytes 1 l.moreTraps ++ toBytes 1 t.lane ++
    toBytes 1 t.bundle ++ toBytes 4 l.spec.reqId.toNat ++ toBytes 4 t.pc ++ toBytes 8 t.wg ++ toBytes 8 t.word.toNat ++
    toBytes 2 t.coreRank ++ toBytes 2 t.spanRank ++ toBytes 2 t.dbcode ++ [t.flags] ++ toBytes 1 0 ++ toBytes 8 t.time ++
    toBytes 16 0

/-- The trap record and its event, for a launch that trapped. -/
def Main.trapWrite (m : Main) (q : QRef) (pidx : Nat) (x : Queue) (c : Context) (l : Launch) : Main :=
  match l.trap with
  | none => m
  | some t =>
    let (good, m1) := m.locWrite c x.traprec 0 (trapBytes l t) (.queue q)
    (if good then m1 else m1.haltQueue q .faultUnresolved).postCtx c.num 2 l.status (qDetail q.q pidx)

/-- DETAIL of a launch's record (R386, R387). -/
def launchDetail (c : Context) (l : Launch) : Nat :=
  seenEnergy c.fn l.energy + (match l.trap with | some t => t.cls.code | none => 0) * 2 ^ 32 + l.moreTraps * 2 ^ 40

/-- A launch leaves the module. -/
def Main.dropLaunch (m : Main) (id : Nat) : Main :=
  { m with cores := { m.cores with launches := m.cores.launches.filter (fun l => l.id != id) } }

/-- A launch of a queue of this module completes: trap record, events, completion record (R126, R134, R138). -/
def Main.finishLaunch (m : Main) (l : Launch) (q : QRef) (pidx : Nat) : Main :=
  match m.queueOf q, m.ctxOf l.ctx with
  | some x, some c =>
    match x.running.find? (fun p => p.pidx == pidx) with
    | some p =>
      let m1 := m.trapWrite q pidx x c l
      let m2 := if l.spec.evtInexact && l.flags &&& fINEXACT != 0 then m1.postCtx l.ctx 3 .ok (qDetail q.q pidx) else m1
      (m2.dropLaunch l.id).completePacket q p l.status l.flags (launchDetail c l)
    | none => m.dropLaunch l.id
  | _, _ => m.dropLaunch l.id

/-- What the coordinator learns of a batch as it ends here, with the unstarted work groups that it gets back. -/
def Launch.report (l : Launch) : WgReport :=
  { flags := l.flags, fail := l.firstFail, trap := l.trap, more := l.moreTraps, fatal := l.fatal, back := l.todo, energy := l.energy }

/-- A batch that a pier cannot finish goes back to its coordinator: the records that have not been resumed here, then its
end (R133). -/
def Main.handBack (m : Main) (launch : Nat) : Main :=
  match m.launchOf launch with
  | none => m
  | some l =>
    match l.coord with
    | .queue _ _ => m
    | .remote module batch =>
      (((l.saved ++ l.reading.map (·.2)).foldl (fun m r => m.sendCtrl (.work module (.saved batch r))) m).dropLaunch
        launch).sendCtrl (.work module (.report batch l.report))

/-- A launch completes: here, or with a report to the pier that coordinates it. -/
def Main.launchComplete (launch : Nat) (m : Main) : Out :=
  match m.launchOf launch with
  | none => .refused (.noSubject "launch")
  | some l =>
    if !m.launchOver l then .refused (.notReady "the launch")
    else
      match l.coord with
      | .queue q pidx => .next (m.finishLaunch l q pidx)
      | .remote module batch => .next ((m.dropLaunch launch).sendCtrl (.work module (.report batch l.report)))

/-! ### Batches from other piers (R124, R367) -/

/-- The number under which the module knows a context of another one. -/
def foreignCtx (module ctx : Nat) : Nat := (module + 1) * 65536 + ctx

/-- A batch arrives: its work groups are pending here, and the queue processor asks for a slot. -/
def Main.workBatch (b : WgBatch) (m : Main) : Out :=
  if (m.recOf b.span).isNone then .refused (.noSubject "span")
  else if m.fenced b.span then .refused (.notReady "the span's sagger")
  else
    .next (m.addLaunch (.remote b.module b.launch) (foreignCtx b.module b.ctx) b.span { b.spec with isLocal := false } b.saved
      b.first b.count 0 b.room m.time)

/-- The launch that has a batch on another pier. -/
def Main.awayOf (m : Main) (batch : Nat) : Option Launch :=
  m.cores.launches.find? (fun l => l.away.any (fun a => a.batch == batch))

/-- A coordinator elsewhere stops a batch: its work groups are discarded (R136). -/
def Main.stopBatch (module batch : Nat) (m : Main) : Main :=
  match m.cores.launches.find? (fun l => l.coord == .remote module batch) with
  | some l => m.discardWork l.id
  | none => m

/-- A record of a batch has come back: its place in the save pool is no longer kept for that pier. -/
def Launch.cameBack (l : Launch) (batch : Nat) : Launch :=
  { l with away := l.away.map (fun a => if a.batch = batch then { a with room := a.room - 1 } else a) }

/-- Pages of a batch are no longer read elsewhere. -/
def Launch.pagesRead (l : Launch) (batch : Nat) (pages : List Nat) : Launch :=
  { l with away := l.away.map (fun a => if a.batch = batch then { a with pages := a.pages.filter (fun p => !pages.contains p) }
    else a) }

/-- A record comes back from another pier; a launch that has ended discards it (R132). -/
def Main.savedBack (batch : Nat) (r : SaveRec) (m : Main) : Out :=
  match m.awayOf batch with
  | none => .next m
  | some l =>
    let m1 := m.modLaunch l.id (fun l => (l.pagesRead batch r.pages).cameBack batch)
    if !m.launchRuns l then .next m1
    else
      match m1.keepRecord l { r with wg := { r.wg with launch := l.id } } with
      | some m2 => .next m2
      | none => .refused (.notReady "the save pool")

/-- Ranges of unstarted work groups joined, ascending. -/
def joinRanges (back todo : List (Nat × Nat)) : List (Nat × Nat) :=
  back.foldl (fun l x => l.filter (fun y => decide (y.1 < x.1)) ++ [x] ++ l.filter (fun y => decide (x.1 ≤ y.1))) todo

/-- A launch with what another pier reports of a batch: the first trap recorded is kept, the others are counted, and the
energy measured there is the launch's too (R134, R137, R286, R387). -/
def Launch.reported (l : Launch) (batch : Nat) (r : WgReport) : Launch :=
  { l with
    away := l.away.filter (fun a => a.batch != batch)
    todo := joinRanges r.back l.todo
    flags := l.flags ||| r.flags
    firstFail := l.firstFail.orElse (fun _ => r.fail)
    fatal := l.fatal || r.fatal
    energy := l.energy + r.energy
    trap := l.trap.orElse (fun _ => r.trap)
    moreTraps := min 255 (l.moreTraps + r.more + (if l.trap.isSome && r.trap.isSome then 1 else 0)) }

/-- A batch has ended elsewhere; a trap there ends the launch, and one that is not recoverable loses the context (R136). -/
def Main.batchEnded (batch : Nat) (r : WgReport) (m : Main) : Main :=
  match m.awayOf batch with
  | none => m
  | some l =>
    let m1 := (m.modLaunch l.id (fun l => l.reported batch r)).modCtx l.ctx (fun c => { c with energy := c.energy + r.energy })
    if r.trap.isNone && !r.fatal then m1
    else
      let m2 := (if r.fatal then m1.keepRecords l.id else m1).discardWork l.id
      match r.fatal, l.origin with
      | true, some (q, p) => m2.loseContext l.ctx q.q p
      | _, _ => m2

/-- What a queue processor is told of a batch. -/
def Main.workMail (mail : WgMail) (m : Main) : Out :=
  match mail with
  | .work b => m.workBatch b
  | .stop module batch => .next (m.stopBatch module batch)
  | .saved batch r => m.savedBack batch r
  | .read batch pages =>
    .next (match m.awayOf batch with | some l => m.modLaunch l.id (fun l => l.pagesRead batch pages) | none => m)
  | .report batch r => .next (m.batchEnded batch r)

/-! ### Slots (R366-R369) -/

/-- Whether a slot that is being given up is free: its work groups are saved or gone, and no tracker entry carries its
number (R369 step 5). -/
def Main.slotEnded (m : Main) (i : Nat) (s : Slot) : Bool :=
  s.closing && !m.fab.entries.any (fun e => e.slot == i) &&
    !m.cores.wgs.any (fun w => match m.launchOf w.launch with | some l => l.ctx == s.ctx | none => false)

/-- One slot freed when it has ended; a home context waits again when it has work left. -/
def Main.freeSlot (m : Main) (i : Nat) : Main :=
  match m.objs.slots[i]? with
  | some (some s) =>
    if m.slotEnded i s then
      let m1 : Main := { m with objs := { m.objs with slots := m.objs.slots.set i none } }
      if s.home then
        m1.modCtx s.ctx (fun c =>
          if c.state = .resident then
            if m1.ctxReady s.ctx then { c with state := .waiting, waitFrom := some m1.time } else { c with state := .idle, waitFrom := none }
          else c)
      else m1
    else m
  | _ => m

/-- Every ended slot freed. -/
def Main.freeSlots (m : Main) : Main := (List.range 48).foldl Main.freeSlot m

/-- Contexts whose work here has ended give up their slots: foreign ones without a launch here, and home ones that are
idle while others wait. -/
def Main.retireForeign (m : Main) : Main :=
  { m with objs := { m.objs with slots := m.objs.slots.map (fun s =>
      match s with
      | some x => if !x.home && !m.cores.launches.any (fun l => l.ctx == x.ctx) then some { x with closing := true } else some x
      | none => none) } }

/-- The queues that resident contexts hold places for (R367). -/
def Main.residentQueues (m : Main) : Nat :=
  (m.objs.queues.filter (fun x => m.objs.slots.any (fun s => match s with | some y => y.ctx == x.ctx && y.home | none => false))).length

/-- Whether a context's queues find resident places; one of another module needs none (R367). -/
def Main.queuesFit (m : Main) (w : Nat × Nat × Bool) : Bool :=
  !w.2.2 || decide (m.residentQueues + (m.objs.queues.filter (fun x => x.ctx == w.2.1)).length ≤ 1024)

/-- Who waits for a slot, with since when and whether it is at home: contexts in WAITING, and contexts of other modules with
work here (R367, R368). -/
def Main.slotWaiters (m : Main) : List (Nat × Nat × Bool) :=
  let home := m.objs.ctxs.filterMap (fun c => if c.state = .waiting then some (c.waitFrom.getD 0, c.num, true) else none)
  let away := m.cores.launches.filterMap (fun l => match l.coord with
    | .remote _ _ =>
      if m.objs.slots.any (fun s => match s with | some x => x.ctx == l.ctx | none => false) then none
      else some (l.tstart, l.ctx, false)
    | .queue _ _ => none)
  home ++ away

/-- The waiter that has waited longest, the first listed on a tie. -/
def longest : List (Nat × Nat × Bool) → Option (Nat × Nat × Bool)
  | [] => none
  | x :: r => match longest r with
    | none => some x
    | some y => if x.1 ≤ y.1 then some x else some y

/-- A free slot granted (R368). -/
def Main.grantSlot (m : Main) (i : Nat) (w : Nat × Nat × Bool) : Main :=
  let slots := m.objs.slots.set i (some { ctx := w.2.1, home := w.2.2, closing := false })
  let m1 : Main := { m with objs := { m.objs with slots := slots } }
  if w.2.2 then
    m1.modCtx w.2.1 (fun c => { c with state := .resident, credit := c.weight, creditZero := none, waitFrom := none })
  else m1

/-- The resident context that is evicted for a waiter: one without work, else the one whose credit has been zero longest
(R368). -/
def Main.victim (m : Main) : Option Nat :=
  let home := m.objs.slots.filterMap (fun s => match s with
    | some x => if x.home && !x.closing then m.ctxOf x.ctx else none
    | none => none)
  match home.find? (fun c => !m.ctxBusy c.num) with
  | some c => some c.num
  | none => (longest (home.filterMap (fun c =>
      if c.credit = 0 then c.creditZero.map (fun t => (t, c.num, true)) else none))).map (fun x => x.2.1)

/-- The slot scheduler (R368): ended slots are freed, then the longest waiter whose queues find places takes a free one; when
none can, a context is told to give its slot up. -/
def Main.slotSchedule (m : Main) : Out :=
  let m1 := m.retireForeign.freeSlots
  let waiters := m1.slotWaiters
  match longest (waiters.filter m1.queuesFit), (List.range 48).find? (fun i => m1.objs.slots[i]? == some none) with
  | some w, some i => .next (m1.grantSlot i w)
  | _, _ =>
    if waiters.isEmpty then .next m1
    else match m1.victim with
      | some c => .next (m1.giveUp c)
      | none => .next m1

/-- LAUNCH (R119-R125, R129). -/
def execLaunch (q : QRef) (pkt : List Byte) (s : State) : Outcome := onMain (Main.launchPacket q pkt) s
/-- WORK_GROUP_ADMIT (R77, R123, R124, R131). -/
def execWorkGroupAdmit (launch : Nat) (place : WorkPlace) (s : State) : Outcome := onMain (Main.admitOne launch place) s
/-- PREEMPT (R127). -/
def execPreempt (wg : Nat) (s : State) : Outcome := onMain (Main.preempt wg) s
/-- SAVE_RECORD_WRITTEN (R127, R128). -/
def execSaveRecordWritten (wg : Nat) (s : State) : Outcome := onMain (Main.saveWritten wg) s
/-- WORK_GROUP_BATCH (R124, R131, R136, R137, R367). -/
def execWorkGroupBatch (mail : WgMail) (s : State) : Outcome := onMain (Main.workMail mail) s
/-- SLOT_SCHEDULE (R368). -/
def execSlotSchedule (s : State) : Outcome := onMain Main.slotSchedule s

end Sys2Proof.Machine
end

