-- ==== Sys2Proof/Machine/Teardown.lean ====
section
/-! DEFINITION. Counters that are freed, and the teardown of contexts (R292, R390, R391, R176). -/

namespace Sys2Proof.Machine

/-! ### Freeing a counter (R292) -/

/-- An LCWAIT on a counter that is freed ends as if its timeout had elapsed. -/
def Bundle.lcFreed (b : Bundle) (idx : Nat) (v : DWord) : Bundle :=
  match b.waiting with
  | some (.counter f _) => if (b.getU f.a.toNat).toNat % 2 ^ 14 = idx then b.endLcwait f false v else b
  | _ => b

/-- A counter freed: waits on it end, but for bundles that are being preempted (R127), and it is no longer allocated. -/
def Main.freeCounter (m : Main) (idx : Nat) : Main :=
  match m.counterOf idx with
  | none => m
  | some c =>
    let m1 := m.mapBundles (fun w b => if w.state = .running then b.lcFreed idx c.value else b)
    let m2 := (m1.counterWaiters idx).foldl (fun m w => m.completePacket w.1 w.2 .notPermitted 0 0) m1
    { m2 with objs := { m2.objs with counters := m2.objs.counters.filter (fun c => c.idx != idx) } }

/-! ### Teardown (R390) -/

/-- Packets that teardown lets run on: DMA and collective packets. -/
def runsOn (p : Packet) : Bool := pkType p.bytes == 2 || pkType p.bytes == 3

/-- A DMA packet of a context that is stalled on a page fault. -/
def DmaRun.stalled (d : DmaRun) (ctx : Nat) : Bool :=
  d.q.ctx == ctx && (match d.st with | .faulted _ _ => true | _ => false)

/-- Steps 1 to 3 begun: packets not started go, launches are killed, a packet stalled on a page fault is aborted once the transfers it
has started are complete, and its page request's place is given back. -/
def Main.beginTeardown (m : Main) (ctx : Nat) : Main :=
  match m.ctxOf ctx with
  | none => m
  | some c =>
    if c.state = .teardown then m
    else
      let asked := m.host.dmas.filter (fun d => d.stalled ctx && d.st.asked)
      let gone (d : DmaRun) : Bool := d.stalled ctx && d.reads.isEmpty
      let stalled := (m.host.dmas.filter gone).map (fun d => (d.q.q, d.pidx))
      let stop (d : DmaRun) : DmaRun := if d.stalled ctx then { d with failed := some .contextLost, st := .ready } else d
      let m1 := m.modCtx ctx (fun c => { c with state := .teardown, kept := [] })
      let keep (x : Queue) : Queue :=
        { x with avail := x.ridx, held := [],
                 running := x.running.filter (fun p => runsOn p && !stalled.contains (x.idx, p.pidx)) }
      let m2 : Main := { m1 with
        objs := { m1.objs with queues := modWhere m1.objs.queues (fun x => x.ctx == ctx) keep }
        host := { m1.host with dmas := (m1.host.dmas.filter (fun d => !gone d)).map stop } }
      let m3 := (asked.foldl (fun m d => m.pageEnd d.fn) m2).cutPuts (fun p => match p.owner with | .ring q => q.ctx == ctx | _ => false)
      let mine := (m2.cores.launches.filter (fun l => l.ctx == ctx)).map (·.id)
      mine.foldl (fun m l => (m.discardWork l).modLaunch l (fun x => { x with killed := some .contextLost })) m3

/-- Whether step 3 has ended, with the writes of the context's records and mirrors that wait for a translation, and no tracker entry
carries the context's slot (R369 step 5). -/
def Main.teardownReady (m : Main) (ctx : Nat) : Bool :=
  !m.host.puts.any (m.putConcerns ctx) &&
  !m.host.dmas.any (fun d => d.q.ctx == ctx) && !m.colls.any (fun r => r.q.ctx == ctx) &&
    !m.cores.launches.any (fun l => l.ctx == ctx && (l.engines != 0 || l.rsts != 0 || !l.away.isEmpty)) &&
    !(m.fab.entries.any (fun e => e.slot == m.slotOf ctx) || m.fab.waitReqs.any (fun e => e.slot == m.slotOf ctx))

/-- A partition register of a context cleared (R176). -/
def L2Part.forget (p : L2Part) (ctx : Nat) : L2Part :=
  { p with ctx := p.ctx.map (fun w => if w.toNat / 2 ^ 32 % 2 ^ 16 = ctx then w &&& ~~~ (1#64 <<< 63) else w) }

/-- Step 4: window segments and device translations of the context go (R348, R390). -/
def Main.dropMappings (m : Main) (c : Context) : Main :=
  let shared := m.objs.ctxs.any (fun x => x.num != c.num && x.fn == c.fn && x.span == c.span)
  let m1 := if shared then m
    else m.modFn c.fn (fun r => { r with segs := r.segs.filter (fun s => s.span != c.span) })
  let mine (e : AtcEntry) : Bool := e.fn == c.fn && e.pasid == c.pasid
  { m1 with host := { m1.host with
      ports := m1.host.ports.map (fun p => { p with cache := p.cache.filter (fun e => !mine e) })
      micro := m1.host.micro.filter (fun e => !mine e.2) } }

/-- The grants a context holds on the fences of this module leave (R399). -/
def Main.dropGrants (m : Main) (ctx : Nat) : Main :=
  let here := m.fab.module
  let m1 : Main := { m with objs := { m.objs with fences := m.objs.fences.map (fun f =>
    { f with grants := f.grants.filter (fun g => !(g.module == here && g.ctx == ctx)) }) } }
  (m1.objs.fences.map (·.handle)).foldl (fun m h => m.freeFence h) m1

/-- The fences that a context leaves behind have no owner any more: a later context of the same number is not theirs (R394). -/
def Main.disownFences (m : Main) (ctx : Nat) : Main :=
  { m with objs := { m.objs with fences := m.objs.fences.map (fun f => if f.owner = ctx then { f with owner := noCtx } else f) } }

/-- Steps 4 to 7: everything the context has goes, its slot and its number are free, and CTX_DESTROY is answered. -/
def Main.endTeardown (m : Main) (ctx : Nat) : Main :=
  match m.ctxOf ctx with
  | none => m
  | some c =>
    let m1 := (((m.dropMappings c).abandonOwned ctx).dropGrants ctx).disownFences ctx
    let m2 := ((m1.objs.counters.filter (fun x => x.ctx == ctx)).map (·.idx)).foldl Main.freeCounter m1
    let qs := (m2.objs.queues.filter (fun x => x.ctx == ctx)).map (fun x => (⟨ctx, x.idx⟩ : QRef))
    let m3 : Main := { m2 with
      l2 := m2.l2.map (fun p => p.forget ctx)
      cores := { m2.cores with launches := m2.cores.launches.filter (fun l => l.ctx != ctx), stays := m2.cores.stays.filter (fun x => x.ctx != ctx) }
      objs := { m2.objs with
        ctxs := m2.objs.ctxs.filter (fun x => x.num != ctx)
        queues := m2.objs.queues.filter (fun x => x.ctx != ctx)
        regions := m2.objs.regions.filter (fun x => x.ctx != ctx)
        slots := m2.objs.slots.map (fun s => match s with
          | some x => if x.ctx = ctx then none else some x
          | none => none) } }
    (qs.foldl (fun m q => m.answerHeld (.queue q) (Reply.good [])) m3).answerHeld (.teardown ctx) (Reply.good [])

/-- Every teardown that has nothing more to wait for ends. -/
def Main.settleTeardowns (m : Main) : Main :=
  ((m.objs.ctxs.filter (fun c => c.state == .teardown)).map (·.num)).foldl
    (fun m c => if m.teardownReady c then m.endTeardown c else m) m

/-- A function's reset ends when it has no context left and every invalidation it had received is complete (R361, R362). -/
def Main.settleFlr (m : Main) : Main :=
  { m with host := { m.host with fns := m.host.fns.map (fun r =>
    { r with inFlr := r.inFlr && (m.objs.ctxs.any (fun c => c.fn == r.fn) || m.host.invs.any (fun v => v.fn == r.fn)) }) } }

/-- What follows an answer or an end: engines go on, and teardowns that waited for it end. -/
def Main.after (m : Main) : Main := m.enginesGo.settleTeardowns.settleFlr

/-- A meaning whose end may be what engines or teardowns wait for. -/
def thenAfter (f : Main → Out) (m : Main) : Out :=
  match f m with
  | .next m1 => .next m1.after
  | r => r

/-- DESCRIPTOR_END (R139, R140). -/
def execDescriptorEnd (e : Nat) (s : State) : Outcome := onMain (thenAfter (Main.descriptorEnd e)) s
/-- LAUNCH_COMPLETE (R126). -/
def execLaunchComplete (launch : Nat) (s : State) : Outcome := onMain (thenAfter (Main.launchComplete launch)) s

end Sys2Proof.Machine
end

