-- ==== Sys2Proof/Machine/Dma.lean ====
section
/-! DEFINITION. Host movers: DMA packets, translations, page faults and invalidations (R349-R361, R377, R378,
R497-R502). -/

namespace Sys2Proof.Machine

/-! ### Security events (R515) -/

/-- A SECURITY event, at most one for a cause and slot in 10 ms; further ones are counted. -/
def Main.postSecurity (m : Main) (cause slot : Nat) (status : Status) (detail : Nat) : Main :=
  if m.sec.posted.any (fun x => x.1 == cause && x.2.1 == slot && decide (m.time < x.2.2 + 10000000)) then m.bump 5 4 0 1
  else
    let old := m.sec.posted.filter (fun x => !(x.1 == cause && x.2.1 == slot))
    let m1 : Main := { m with sec := { m.sec with posted := (cause, slot, m.time) :: old } }
    m1.post 0x70 7 (slot * 256 + cause) status detail

/-! ### Fields of a DMA packet (R377) -/

def dmDir (d : List Byte) : Nat := fieldAt d 2 1
def dmScope (d : List Byte) : Nat := fieldAt d 3 1
def dmRegion (d : List Byte) : Nat := fieldAt d 4 4
def dmHoff (d : List Byte) : Nat := fieldAt d 8 8
def dmSaddr (d : List Byte) : Nat := fieldAt d 0x10 8
def dmLen (d : List Byte) : Nat := fieldAt d 0x18 8
def dmFence (d : List Byte) : Nat := fieldAt d 0x20 4
def dmFval (d : List Byte) : DWord := BitVec.ofNat 64 (fieldAt d 0x28 8)

/-- Reserved bits and values, and the multiples of 16. -/
def dmaLegal (d : List Byte) : Bool :=
  fieldAt d 1 1 / 2 % 2 == 0 && fieldAt d 1 1 / 8 % 2 == 0 && decide (dmDir d ≤ 2) && decide (3 ≤ dmScope d) &&
  decide (dmScope d ≤ 5) && decide (dmSaddr d < 2 ^ 52) && decide (dmLen d < 2 ^ 40) && decide (16 ≤ dmLen d) &&
  dmLen d % 16 == 0 && dmHoff d % 16 == 0 && dmSaddr d % 16 == 0 && zeroAt d 0x24 4 && zeroAt d 0x30 16 &&
  (dmDir d != 2 || (dmRegion d == 0 && decide (dmHoff d < 2 ^ 52)))

/-- Whether FENCE names nothing or a fence that the context may signal. -/
def Main.fenceOk (m : Main) (ctx handle : Nat) : Bool :=
  handle == 0 || (match m.fenceOf handle with | some f => f.maySignal m.fab.module m.fab.module ctx | none => false)

/-- A glaze slot. -/
def Main.gslot (m : Main) (s : Nat) : GSlot :=
  nth m.sec.slots s { st := .retired, tenant := 0, gen := 0, ctr := 0, spent := true }

def Main.modGslot (m : Main) (s : Nat) (f : GSlot → GSlot) : Main :=
  { m with sec := { m.sec with slots := modNth m.sec.slots s f } }

/-- Whether the ranges of a packet and its region's permission allow it (R377). -/
def Main.dmaRanges (m : Main) (c : Context) (d : List Byte) : Bool :=
  m.mem.holdsRange c.span (dmSaddr d) (dmLen d) && m.fenceOk c.num (dmFence d) &&
    (if dmDir d = 2 then m.mem.holdsRange c.span (dmHoff d) (dmLen d)
     else match m.regionOf (dmRegion d) with
       | some r => r.ctx == c.num && decide (dmHoff d + dmLen d ≤ r.len) && (if dmDir d = 0 then r.read else r.write)
       | none => false)

/-- The slot of a packet's glazed region. -/
def Main.dmaGlaze (m : Main) (d : List Byte) : Option Nat :=
  if dmDir d = 2 then none else (m.regionOf (dmRegion d)).bind (·.glaze)

/-- Whether glaze allows a packet (R501, R505 step 1, R512 step 1). -/
def Main.glazeOk (m : Main) (slot : Nat) (d : List Byte) : Bool :=
  dmHoff d % 512 == 0 && dmLen d % 512 == 0 && (m.gslot slot).st == .assigned && !m.sec.blocked && m.sec.unlocking.isNone &&
    !(dmDir d == 1 && (m.gslot slot).spent)

/-- The versions of a glazed write reserved (R500): the first of them, none when the counter would be carried beyond
0xFFFF_FFFF. -/
def Main.reserveVersions (m : Main) (slot units : Nat) : Option Nat × Main :=
  let g := m.gslot slot
  if 0xFFFFFFFF < g.ctr + units then
    (none, (m.modGslot slot (fun g => { g with spent := true })).postSecurity 5 slot .ok 0)
  else
    let m1 := m.modGslot slot (fun g => { g with ctr := g.ctr + units })
    (some g.ctr, if g.ctr < 2 ^ 31 ∧ 2 ^ 31 ≤ g.ctr + units then m1.postSecurity 4 slot .ok (g.ctr + units) else m1)

/-! ### Translation (R353) -/

/-- The pages a transfer at a host address needs: the data's, and a glazed unit's tag entry's (R497). -/
def Region.needs (r : Region) (a : Nat) : List Nat :=
  match r.glaze with
  | none => [a]
  | some _ => [a, r.iova + r.len + 16 * ((a - r.iova) / 512)]

/-- An entry put into the micro-cache of an engine. -/
def Main.microPut (m : Main) (engine : Nat) (e : AtcEntry) : Main :=
  let mine := m.host.micro.filter (fun x => x.1 == engine)
  { m with host := { m.host with
      micro := m.host.micro.filter (fun x => x.1 != engine) ++ cachePut 256 mine (fun x => e.same x.2) (engine, e) } }

/-- A lookup: the micro-cache, then the port's cache. -/
def Main.lookup (m : Main) (engine : Nat) (fn : Fn) (pasid a : Nat) (write : Bool) : Option Main :=
  match m.host.micro.find? (fun x => x.1 == engine && x.2.grants fn pasid a write) with
  | some x => some (m.microPut engine x.2)
  | none =>
    match (m.host.ports[fn.port]?).bind (fun p => p.cache.find? (fun e => e.grants fn pasid a write)) with
    | some e => some ((m.atcPut fn.port e).microPut engine e)
    | none => none

/-- Every page looked up; the first that is missing. -/
def Main.lookupAll (m : Main) (engine : Nat) (fn : Fn) (pasid : Nat) (write : Bool) : List Nat → Option Nat × Main
  | [] => (none, m)
  | a :: r =>
    match m.lookup engine fn pasid a write with
    | some m1 => m1.lookupAll engine fn pasid write r
    | none => (some a, m)

/-! ### Transfers -/

/-- A DMA run with its packet and its context. -/
def Main.dmaAt (m : Main) (i : Nat) : Option (DmaRun × Packet × Context) :=
  match m.host.dmas[i]? with
  | none => none
  | some r =>
    match (m.queueOf r.q).bind (fun x => x.running.find? (fun p => p.pidx == r.pidx)), m.ctxOf r.q.ctx with
    | some p, some c => some (r, p, c)
    | _, _ => none

/-- Bytes of the transfer at a host address: to the end of its 4 KiB page and at most a read request, or one glazed unit (R338;
assumption log 8). -/
def pieceLen (glazed : Bool) (most a left : Nat) : Nat :=
  if glazed then min left 512 else min (min left most) (4096 - a % 4096)

/-- Max Read Request Size. -/
def FnRec.readMost (f : FnRec) : Nat := 128 * 2 ^ f.readReq

/-- A glazed unit written: ciphertext and tag entry (R498-R501). -/
def Main.sealUnit (m : Main) (ro : Bool) (fn : Fn) (pasid : Nat) (r : Region) (slot a ver : Nat) (data : List Byte) (bad : Bool) :
    Main :=
  let g := (m.gslot slot).gen
  let cipher := sealBytes slot g a data
  let tag := unitTag slot g a ver bad cipher
  let entry := tag.toNat + ver * 2 ^ 64 + b2n bad * 2 ^ 96
  let m1 := m.dataWrite ro fn pasid a cipher bad
  m1.dataWrite ro fn pasid (r.iova + r.len + 16 * ((a - r.iova) / 512)) (toBytes 16 entry) false

/-- One transfer to the host performed: whether a line of it was poisoned. -/
def Main.dmaOut (m : Main) (ro : Bool) (d : DmaRun) (c : Context) (r : Region) (pk : List Byte) (a n : Nat) : Bool × Main :=
  let m0 := m.bump 4 1 d.engine n
  let (ps, m1) := m0.spanPieces c.span (dmSaddr pk + d.next) n
  let bad := ps.any (fun p => p.2.2)
  match r.glaze with
  | some s => (bad, m1.sealUnit ro c.fn c.pasid r s a (d.ver + d.next / 512) (ps.flatMap (fun p => p.2.1)) bad)
  | none => (bad, ps.foldl (fun m p => m.dataWrite ro c.fn c.pasid (a + p.1) p.2.1 p.2.2) m1)

/-- The read requests that an engine has outstanding: a glazed unit takes two, its data's and its tag entry's (R349, R497). -/
def Main.readsOut (m : Main) (engine : Nat) : Nat :=
  ((List.range m.host.dmas.length).map (fun i => match m.dmaAt i with
    | some (d, p, _) => if d.engine = engine then d.reads.length * (if (m.dmaGlaze p.bytes).isSome then 2 else 1) else 0
    | none => 0)).sum

/-- The translations that an engine uses for some addresses. -/
def Main.usedFor (m : Main) (engine : Nat) (fn : Fn) (pasid : Nat) (write : Bool) (as : List Nat) : List (Nat × Nat) :=
  as.filterMap (fun a => (m.host.micro.find? (fun x => x.1 == engine && x.2.grants fn pasid a write)).map (fun x => (x.2.page, x.2.size)))

/-- Transfers of a packet between span and host go on until one must wait: for a translation, for a line at its home, or for room among
the 256 reads of its engine (R199, R349, R353-R355). -/
def Main.dmaMove : Nat → Nat → Main → Main
  | 0, _, m => m
  | fuel + 1, i, m =>
    match m.dmaAt i with
    | none => m
    | some (d, p, c) =>
      match m.regionOf (dmRegion p.bytes), m.fnOf c.fn with
      | some r, some f =>
        let write := dmDir p.bytes == 1
        let a := r.iova + dmHoff p.bytes + d.next
        let n := pieceLen r.glaze.isSome (if write then 4096 else f.readMost) a (dmLen p.bytes - d.next)
        if dmLen p.bytes ≤ d.next then m
        else if !m.fnReach c.fn then m.modDma i (fun d => { d with failed := some .faultUnresolved })
        else if write && m.spanBlocked c.span (dmSaddr p.bytes + d.next) n then m
        else if !write && decide (256 < m.readsOut d.engine + (if r.glaze.isSome then 2 else 1)) then m
        else
          match if f.ats then m.lookupAll d.engine c.fn c.pasid write (r.needs a) else (none, m) with
          | (some x, m1) => (m1.modDma i (fun d => { d with st := m.asks c.fn x })).bump 4 2 d.engine 1
          | (none, m1) =>
            if write then
              let (bad, m2) := m1.dmaOut f.relaxed d c r p.bytes a n
              Main.dmaMove fuel i (m2.modDma i (fun d =>
                { d with next := d.next + n, poisoned := d.poisoned || bad, retried := false }))
            else
              let used := if f.ats then m1.usedFor d.engine c.fn c.pasid write (r.needs a) else []
              Main.dmaMove fuel i (m1.modDma i (fun d => { d with
                reads := d.reads ++ [{ off := d.next, len := n, since := m.time, used := used, inv := [], drop := false }]
                next := d.next + n, retried := false }))
      | _, _ => m.modDma i (fun d => { d with failed := some .faultUnresolved })

/-- A span to span packet moved: every destination line takes its bytes and their poison. A byte whose source lies in the
destination has an open value (R378). -/
def Main.dmaCopy (m : Main) (c : Context) (pk : List Byte) : Bool × Main :=
  let src := dmHoff pk
  let dst := dmSaddr pk
  let (ps, m1) := (cutLines (dmLen pk / 128 + 2) dst (List.replicate (dmLen pk) 0)).foldl
    (fun (acc : List (Nat × List Byte × Bool) × Main) p =>
      let (d, bad, m2) := acc.2.spanRead c.span (src + (p.1 - dst)) p.2.length
      (acc.1 ++ [(p.1, d, bad)], m2)) ([], m)
  let (vals, m2) := m1.drawList (if src < dst + dmLen pk ∧ dst < src + dmLen pk then dmLen pk else 0)
  let byte (i : Nat) (b : Byte) : Byte :=
    if dst ≤ src + i ∧ src + i < dst + dmLen pk then BitVec.ofNat 8 (nth vals i 0) else b
  (ps.any (fun p => p.2.2), ps.foldl (fun m p =>
    m.spanWrite c.span p.1 ((p.2.1.zipIdx).map (fun x => byte (p.1 - dst + x.2) x.1)) p.2.2) m2)

/-- Whether an earlier packet of the same stream has bytes left to move (R349). -/
def Main.streamBusy (m : Main) (i : Nat) (d : DmaRun) : Bool :=
  (List.range i).any (fun j => match m.dmaAt j with
    | some (e, p, _) => e.q == d.q && e.engine == d.engine && e.failed.isNone && decide (e.next < dmLen p.bytes)
    | none => false)

/-- Whether a host mover is being reset (R360). -/
def Main.moverDown (m : Main) (e : Nat) : Bool := m.rcv.resets.any (fun r => r.eng == ⟨1, e⟩)

/-- Whether a line of a span-to-span packet waits at its home (R199, R215). -/
def Main.copyBlocked (m : Main) (c : Context) (pk : List Byte) : Bool :=
  m.spanBlocked c.span (dmHoff pk) (dmLen pk) || m.spanBlocked c.span (dmSaddr pk) (dmLen pk)

/-- One run tried; while the module's sagger is handled its stream stops at a transfer boundary (R474). -/
def Main.dmaTry (m : Main) (i : Nat) : Main :=
  match m.dmaAt i with
  | none => m
  | some (d, p, c) =>
    if d.st != .ready || d.failed.isSome || decide (dmLen p.bytes ≤ d.next) || m.moverDown d.engine || m.quiesced ||
      m.streamBusy i d then m
    else if dmDir p.bytes = 2 then
      if m.copyBlocked c p.bytes then m
      else
        let (bad, m1) := m.dmaCopy c p.bytes
        m1.modDma i (fun d => { d with next := dmLen p.bytes, poisoned := bad })
    else Main.dmaMove (dmLen p.bytes / 128 + 2) i m

/-- An engine's acknowledgements of invalidations as far as they are due: no transfer of it uses a withdrawn translation (R358). -/
def Main.ackInvs (m : Main) (engine : Nat) : Main :=
  let busy (v : InvRun) : Bool :=
    m.moverDown engine || m.host.dmas.any (fun d => d.engine == engine && d.fn == v.fn && d.reads.any (fun r => r.inv.contains v.itag))
  { m with host := { m.host with invs := m.host.invs.map (fun v =>
      if busy v then v else { v with engines := v.engines.filter (· != engine) }) } }

/-- Every engine's. -/
def Main.ackAll (m : Main) : Main := ((m.host.invs.flatMap (·.engines)).eraseDups).foldl Main.ackInvs m

/-- Every run tried, in order, after the acknowledgements that are due. -/
def Main.dmaPump (m : Main) : Main := (List.range m.host.dmas.length).foldl Main.dmaTry m.ackAll

/-! ### DMA (R349, R377) -/

/-- A run added. -/
def Main.addDma (m : Main) (q : QRef) (c : Context) (p : Packet) (engine ver : Nat) : Main :=
  { m with host := { m.host with dmas := m.host.dmas ++
      [{ q := q, pidx := p.pidx, fn := c.fn, engine := engine, next := 0, st := .ready, reads := [], poisoned := false, tagBad := 0,
         failed := none, late := [], retried := false, ver := ver }] } }

/-- A DMA packet starts on an engine. -/
def Main.dmaGo (q : QRef) (engine : Nat) (c : Context) (p : Packet) (m : Main) : Main :=
  if !m.dmaRanges c p.bytes then m.completePacket q p .notPermitted 0 0
  else
    match m.dmaGlaze p.bytes with
    | none => (m.addDma q c p engine 0).dmaPump
    | some s =>
      if !m.glazeOk s p.bytes then m.completePacket q p .notPermitted 0 0
      else if dmDir p.bytes = 1 then
        match m.reserveVersions s (dmLen p.bytes / 512) with
        | (none, m1) => m1.completePacket q p .notPermitted 0 0
        | (some v, m1) => (m1.addDma q c p engine v).dmaPump
      else (m.addDma q c p engine 0).dmaPump

/-- Whether the queue processor may choose an engine for a packet of a queue: one of the function's port, with a stream
free, not being reset (R349, R360). -/
def Main.engineFree (m : Main) (q : QRef) (x : Queue) (engine : Nat) : Bool :=
  let qs := ((m.host.dmas.filter (fun d => d.engine == engine)).map (·.q)).eraseDups
  decide (engine < 64) && engine / 32 == x.fn.port && (qs.contains q || decide (qs.length < 8)) && !m.moverDown engine

def Main.dmaPacket (q : QRef) (pkt : List Byte) (engine : Nat) (m : Main) : Out :=
  match m.queueOf q with
  | none => .refused (.noSubject "queue")
  | some x =>
    if !m.engineFree q x engine then .refused (.notReady "host mover")
    else Main.startPacket q pkt (· == 2) dmaLegal (Main.dmaGo q engine) m

/-! ### Ends (R352, R356, R378) -/

/-- The place of a run. -/
def Main.dmaIdx (m : Main) (q : QRef) (pidx : Nat) : Option Nat :=
  m.host.dmas.findIdx? (fun d => d.q == q && d.pidx == pidx)

/-- The destination range of a packet made undefined (R356). -/
def Main.undefine (m : Main) (c : Context) (pk : List Byte) : Main :=
  let (vals, m1) := m.drawList (dmLen pk)
  let data := vals.map (BitVec.ofNat 8)
  if dmDir pk = 1 then
    match m1.regionOf (dmRegion pk) with
    | some r => m1.hostWrite c.fn c.pasid (r.iova + dmHoff pk) data false
    | none => m1
  else m1.spanWrite c.span (dmSaddr pk) data false

/-- A fault that stays unresolved ends the packet (R356). -/
def Main.dmaFault (m : Main) (i : Nat) : Main :=
  match m.dmaAt i with
  | none => m
  | some (_, p, c) =>
    (m.undefine c p.bytes).modDma i (fun d =>
      { d with failed := some .faultUnresolved, st := .ready, reads := d.reads.map (fun r => { r with drop := true }), late := [] })

/-- The status a packet ends with (R352, R502). -/
def DmaRun.status (d : DmaRun) : Status :=
  match d.failed with
  | some s => s
  | none => if d.tagBad ≠ 0 then .glazeTagMismatch else if d.poisoned then .poisoned else .ok

/-- Whether nothing of a run is left to do. -/
def DmaRun.isOver (d : DmaRun) (len : Nat) : Bool := d.st == .ready && d.reads.isEmpty && (d.failed.isSome || decide (len ≤ d.next))

/-- A fence signalled by a packet that completed, after its release (R378, R379). -/
def Main.packetSignal (m : Main) (c : Context) (scope handle : Nat) (v : DWord) : Main :=
  if handle = 0 then m
  else (m.signalFence m.fab.module m.fab.module c.num handle v (if c.checked then some (m.modPos scope) else none)).2

/-- A DMA packet completes: release, fence, error event, record. -/
def Main.dmaComplete (q : QRef) (pidx : Nat) (m : Main) : Out :=
  match m.dmaIdx q pidx with
  | none => .refused (.noSubject "DMA packet")
  | some i =>
    match m.dmaAt i with
    | none => .refused (.noSubject "DMA packet")
    | some (d, p, c) =>
      if !d.isOver (dmLen p.bytes) then .refused (.notReady "transfers")
      else
        let s := d.status
        let m1 : Main := { m with host := { m.host with dmas := m.host.dmas.eraseIdx i } }
        let m2 := if s = .ok then m1.packetSignal c (dmScope p.bytes) (dmFence p.bytes) (dmFval p.bytes) else m1
        let m3 := if d.tagBad ≠ 0 then
            m2.postSecurity 6 ((m.dmaGlaze p.bytes).getD 0) .glazeTagMismatch (c.num * 2 ^ 32 + d.tagBad % 2 ^ 32)
          else m2
        let m4 := if s = .ok ∨ s = .spanAborted then m3 else m3.postCtx c.num 6 s (qDetail q.q pidx)
        .next ((m4.completePacket q p s 0 (seenEnergy c.fn p.energy)).dmaPump)

/-! ### Host reads (R352, R502) -/

/-- A glazed unit that was read: the tag decides what the span receives. -/
def Main.openUnit (m : Main) (i : Nat) (c : Context) (slot a sa : Nat) (data : List Byte) (tag : BitVec 128) (ep : Bool) :
    Main :=
  let g := (m.gslot slot).gen
  let ver := bits tag.toNat 95 64
  let bad := tag.getLsbD 96
  if unitTag slot g a ver bad data = tag.setWidth 64 then
    (m.spanWrite c.span sa (openBytes slot g a data) (bad || ep)).modDma i (fun d =>
      { d with poisoned := d.poisoned || bad || ep })
  else
    let (vals, m1) := m.drawList data.length
    (m1.spanWrite c.span sa (vals.map (BitVec.ofNat 8)) true).modDma i (fun d => { d with tagBad := d.tagBad + 1 })

/-- A read in flight of a run, by its place in the packet. -/
def DmaRun.readAt (d : DmaRun) (off : Nat) : Option ReadOut := d.reads.find? (fun r => r.off == off)

/-- A read has ended. -/
def Main.readOver (m : Main) (i off : Nat) : Main :=
  (m.modDma i (fun d => { d with reads := d.reads.filter (fun r => r.off != off) })).dmaPump

/-- A host read completes: its data are written, or of no use any more. -/
def Main.hostRead (q : QRef) (pidx off : Nat) (rc : ReadComp) (m : Main) : Out :=
  match m.dmaIdx q pidx with
  | none => .refused (.noSubject "DMA packet")
  | some i =>
    match m.dmaAt i with
    | none => .refused (.noSubject "DMA packet")
    | some (d, p, c) =>
      match d.readAt off, m.regionOf (dmRegion p.bytes) with
      | some x, some r =>
        match rc with
        | .rejected => .next ((m.modDma i (fun d => { d with failed := d.failed.orElse (fun _ => some .faultUnresolved) })).readOver i off)
        | .data bytes tag ep =>
          let sa := dmSaddr p.bytes + off
          if bytes.length ≠ x.len then .refused (.notReady "bytes of the transfer")
          else if x.drop then .next (m.readOver i off)
          else if m.spanBlocked c.span sa x.len then .refused (.notReady "a line's home")
          else
            let m0 := m.bump 4 0 d.engine x.len
            let a := r.iova + dmHoff p.bytes + off
            let m1 := if ep then m0.aerLog .poisoned c.fn a else m0
            let m2 := match r.glaze with
              | some s => m1.openUnit i c s a sa bytes tag ep
              | none => (m1.spanWrite c.span sa bytes ep).modDma i (fun d => { d with poisoned := d.poisoned || ep })
            .next (m2.readOver i off)
      | _, _ => .refused (.noSubject "a read in flight")

/-- What has been asked of the host for a packet does not come in time: a read's data, or a translation (R352). -/
def Main.readTimeout (q : QRef) (pidx : Nat) (off : Option Nat) (m : Main) : Out :=
  match m.dmaIdx q pidx with
  | none => .refused (.noSubject "DMA packet")
  | some i =>
    match m.dmaAt i with
    | none => .refused (.noSubject "DMA packet")
    | some (d, p, c) =>
      match off with
      | some off =>
        match d.readAt off, m.regionOf (dmRegion p.bytes), m.fnOf c.fn with
        | some x, some r, some f =>
          let m1 := (m.until (x.since + timeoutOf f.timeout)).aerLog .timeout c.fn (r.iova + dmHoff p.bytes + off)
          .next ((m1.modDma i (fun d => { d with failed := d.failed.orElse (fun _ => some .faultUnresolved) })).readOver i off)
        | _, _, _ => .refused (.noSubject "a read in flight")
      | none =>
        match d.st with
        | .translating due x =>
          let m1 := (m.until due).aerLog .timeout c.fn x
          .next ((m1.modDma i (fun d => { d with
            failed := d.failed.orElse (fun _ => some .faultUnresolved), st := .ready, late := [] })).dmaPump)
        | _ => .refused (.noSubject "a translation in flight")

/-! ### Translations and faults (R355, R356, R361) -/

/-- Whether an invalidation overlaps a range of a function and PASID. -/
def invOverlaps (v : AtsInv) (fn : Fn) (pasid a n : Nat) : Bool :=
  v.fn == fn && (v.all || (v.pasid.getD 0 == pasid && decide (a < v.base + v.len) && decide (v.base < a + n)))

/-- A page fault: the state it leaves, with a page request when the function has a place for it. -/
def Main.pageFault (m : Main) (f : FnRec) (set : DmaSt → Main → Main) : Main :=
  let ask := f.pri && decide (f.pageReqs < 512)
  let m1 := set (m.faultsNow ask) m
  if ask then m1.modFn f.fn (fun f => { f with pageReqs := f.pageReqs + 1 }) else m1

/-- Whether a translation must be asked for again: an invalidation that overlaps its page has come meanwhile (R361). -/
def outdated (late : List AtsInv) (fn : Fn) (pasid page size : Nat) : Bool := late.any (fun v => invOverlaps v fn pasid page size)

/-- What a Translation Completion says: the size of the page and its permissions. -/
def transPage : TransComp → Nat × Bool × Bool
  | .page s rd wr => (s, rd, wr)
  | .rejected => (4096, false, false)

/-- A Translation Completion for a DMA packet. A packet of a context in teardown that faults is aborted (R390 step 3). -/
def Main.translated (q : QRef) (pidx : Nat) (tc : TransComp) (m : Main) : Out :=
  match m.dmaIdx q pidx with
  | none => .refused (.noSubject "DMA packet")
  | some i =>
    match m.dmaAt i with
    | none => .refused (.noSubject "DMA packet")
    | some (d, p, c) =>
      match d.st, m.fnOf c.fn with
      | .translating _ x, some f =>
        let (size, rd, wr) := transPage tc
        let ends (s : Status) (m : Main) : Main :=
          (m.modDma i (fun d => { d with failed := d.failed.orElse (fun _ => some s), st := .ready, late := [] })).dmaPump
        if size < 4096 then .refused (.notReady "a page size")
        else if outdated d.late c.fn c.pasid (x / size * size) size then
          .next (m.modDma i (fun d => { d with late := [], st := m.asks c.fn x }))
        else if tc = .rejected then .next (ends .faultUnresolved m)
        else
          let e : AtcEntry := { fn := c.fn, pasid := c.pasid, page := x / size * size, size := size, rd := rd, wr := wr }
          let m0 := m.modDma i (fun d => { d with late := [] })
          let m1 := if rd || wr then (m0.atcPut c.fn.port e).microPut d.engine e else m0
          if (if dmDir p.bytes = 1 then wr else rd) then .next ((m1.modDma i (fun d => { d with st := .ready, retried := false })).dmaPump)
          else if c.state = .teardown then .next (ends .contextLost m1)
          else if d.retried || f.priStopped then .next ((m1.dmaFault i).dmaPump)
          else
            let m2 := m1.pageFault f (fun s m => m.modDma i (fun d => { d with st := s }))
            .next ((if f.pri && decide (f.pageReqs < 512) then m2.bump 4 3 d.engine 1 else m2).dmaPump)
      | _, _ => .refused (.noSubject "a translation in flight")

/-- A waiting access cannot be made: its queue is halted, its mirror disabled, its event queue in ERROR, its mailbox in ERROR (R373, R397,
R402, R429); of a command's buffer it is kept for the command (R406). -/
def Main.putFails (m : Main) (p : HostPut) : Main :=
  let m1 : Main := { m with host := { m.host with puts := m.host.puts.filter (fun x => x.num != p.num) } }
  (match p.owner with
   | .queue q => m1.haltQueue q .faultUnresolved
   | .ring q => m1.haltQueue q .faultUnresolved
   | .mirror h => m1.dropMirror h
   | .event i _ => (m1.modEq p.fn i EvQ.lose).eqFault p.fn i
   | .response _ => (m1.mbError p.fn 2).responseOver p.fn
   | .slot => m1.mbError p.fn 1
   | .buffer _ _ => m.modPut p.num (fun x => { x with st := .unresolved })).putsGo

/-- A waiting access, by its number. -/
def Main.putAt (m : Main) (n : Nat) : Option HostPut := m.host.puts.find? (fun p => p.num == n)

/-- A Translation Completion for an access that waits. -/
def Main.putTranslated (n : Nat) (tc : TransComp) (m : Main) : Out :=
  match m.putAt n with
  | none => .refused (.noSubject "an access that waits")
  | some p =>
    match p.st, m.fnOf p.fn with
    | .translating _ x, some f =>
      let (size, rd, wr) := transPage tc
      if size < 4096 then .refused (.notReady "a page size")
      else if outdated p.late p.fn p.pasid (x / size * size) size then
        .next (m.modPut n (fun p => { p with late := [], st := m.asks p.fn x }))
      else if tc = .rejected then .next (m.putFails p)
      else
        let e : AtcEntry := { fn := p.fn, pasid := p.pasid, page := x / size * size, size := size, rd := rd, wr := wr }
        let m0 := m.modPut n (fun p => { p with late := [] })
        let m1 := if rd || wr then m0.atcPut p.fn.port e else m0
        if (if p.owner.writes then wr else rd) then .next (m1.modPut n (fun p => { p with st := .ready })).putsGo
        else if p.retried || f.priStopped then .next (m1.putFails p)
        else .next (m1.pageFault f (fun s m => m.modPut n (fun p => { p with st := s })))
    | _, _ => .refused (.noSubject "a translation in flight")

/-- The completion of the Translation Request of an access that waits does not come in time (R352, R429). -/
def Main.putExpires (n : Nat) (m : Main) : Out :=
  match m.putAt n with
  | none => .refused (.noSubject "an access that waits")
  | some p =>
    match p.st with
    | .translating due x => .next (((m.until due).aerLog .timeout p.fn x).putFails p)
    | _ => .refused (.noSubject "a translation in flight")

/-- What a PRG Response does to its function: a place is free, and after Response Failure no request is made any more (R356). -/
def Main.prgEnd (m : Main) (fn : Fn) (code : PrgCode) : Main :=
  (if code = .failure then m.modFn fn (fun f => { f with priStopped := true }) else m).pageEnd fn

/-- A PRG Response for a DMA packet: after Success it asks for the translation again (R355). -/
def Main.prgResponse (q : QRef) (pidx : Nat) (code : PrgCode) (m : Main) : Out :=
  match m.dmaIdx q pidx with
  | none => .refused (.noSubject "DMA packet")
  | some i =>
    match m.dmaAt i with
    | some (d, p, c) =>
      match d.st, m.regionOf (dmRegion p.bytes) with
      | .faulted _ true, some r =>
        let m1 := m.prgEnd d.fn code
        if code = .success then
          let a := r.iova + dmHoff p.bytes + d.next
          let x := (m.lookupAll d.engine c.fn c.pasid (dmDir p.bytes == 1) (r.needs a)).1.getD a
          .next (m1.modDma i (fun d => { d with st := m.asks d.fn x, retried := true }))
        else .next ((m1.dmaFault i).dmaPump)
      | _, _ => .refused (.noSubject "a page request")
    | none => .refused (.noSubject "DMA packet")

/-- A PRG Response for an access that waits. -/
def Main.putPrg (n : Nat) (code : PrgCode) (m : Main) : Out :=
  match m.putAt n with
  | none => .refused (.noSubject "an access that waits")
  | some p =>
    if !p.st.asked then .refused (.noSubject "a page request")
    else
      let m1 := m.prgEnd p.fn code
      if code = .success then .next (m1.modPut n (fun p => { p with st := m.asks p.fn (m.putPlace p), retried := true }))
      else .next (m1.putFails p)

/-- The fault timeout has elapsed, which is module parameter 7, in ms, as it was when the fault began (R356, R414). -/
def Main.faultTimeout (q : QRef) (pidx : Nat) (m : Main) : Out :=
  match m.dmaIdx q pidx with
  | none => .refused (.noSubject "DMA packet")
  | some i =>
    match m.host.dmas[i]? with
    | some d =>
      match d.st with
      | .faulted due asked =>
        let m1 := m.until due
        .next (((if asked then m1.pageEnd d.fn else m1).dmaFault i).dmaPump)
      | _ => .refused (.noSubject "a page fault")
    | none => .refused (.noSubject "DMA packet")

/-- The same for an access that waits. -/
def Main.putTimeout (n : Nat) (m : Main) : Out :=
  match m.putAt n with
  | none => .refused (.noSubject "an access that waits")
  | some p =>
    match p.st with
    | .faulted due asked =>
      let m1 := m.until due
      .next ((if asked then m1.pageEnd p.fn else m1).putFails p)
    | _ => .refused (.noSubject "a page fault")

/-! ### Invalidations (R358-R361) -/

/-- Whether a Translation Request is in flight. -/
def DmaSt.inFlight : DmaSt → Bool
  | .translating _ _ => true
  | _ => false

/-- A run as an invalidation leaves it: its reads in flight that use a withdrawn translation delay the acknowledgement, and what it has
asked for is checked when it comes. -/
def DmaRun.withdraw (d : DmaRun) (v : AtsInv) (pasid : Nat) : DmaRun :=
  { d with
    reads := d.reads.map (fun r => if r.used.any (fun u => invOverlaps v d.fn pasid u.1 u.2) then { r with inv := v.itag :: r.inv } else r)
    late := if d.st.inFlight then d.late ++ [v] else d.late }

/-- Every run of the module. -/
def Main.withdrawRuns (m : Main) (v : AtsInv) : Main :=
  let pasid (d : DmaRun) : Nat := match m.ctxOf d.q.ctx with | some c => c.pasid | none => 0
  { m with host := { m.host with
      dmas := m.host.dmas.map (fun d => d.withdraw v (pasid d))
      puts := m.host.puts.map (fun p => if p.fn = v.fn ∧ p.st.inFlight = true then { p with late := p.late ++ [v] } else p) } }

/-- An Invalidation Request. -/
def Main.invalidate (v : AtsInv) (m : Main) : Out :=
  match m.fnOf v.fn with
  | none => .refused (.noSubject "function")
  | some _ =>
    let mine := m.host.invs.filter (fun x => x.fn == v.fn)
    if v.fn.port ≠ v.port ∨ mine.any (fun x => x.itag == v.itag) ∨ 32 ≤ mine.length then .refused (.notReady "invalidate queue")
    else
      let gone (e : AtcEntry) : Bool := invOverlaps v e.fn e.pasid e.page e.size
      let m1 : Main := { m with host := { m.host with
        ports := m.host.ports.map (fun p => { p with cache := p.cache.filter (fun e => !gone e) })
        micro := m.host.micro.filter (fun e => !gone e.2) } }
      let m2 := m1.withdrawRuns v
      let engines := (rangeFrom (v.port * 32) 32).filter (fun e => m2.moverDown e ||
        m2.host.dmas.any (fun d => d.engine == e && d.fn == v.fn && d.reads.any (fun r => r.inv.contains v.itag)))
      .next { m2 with host := { m2.host with invs := m2.host.invs ++
        [{ port := v.port, itag := v.itag, fn := v.fn, pasid := v.pasid, base := v.base, len := v.len, all := v.all,
           engines := engines, since := m2.time }] } }

/-- The Invalidation Completion is sent after the last acknowledgement. -/
def Main.invDone (port itag : Nat) (m : Main) : Out :=
  match m.host.invs.find? (fun v => v.port == port && v.itag == itag && v.engines.isEmpty) with
  | none =>
    if m.host.invs.any (fun v => v.port == port && v.itag == itag) then .refused (.notReady "acknowledgements")
    else .refused (.noSubject "invalidation")
  | some v => .next ({ m with host := { m.host with
      invs := m.host.invs.erase v, completed := m.host.completed ++ [(port, itag)] } } : Main).settleFlr

/-- DMA (R377). -/
def execDma (q : QRef) (pkt : List Byte) (engine : Nat) (s : State) : Outcome := onMain (Main.dmaPacket q pkt engine) s
/-- DMA_COMPLETE (R378). -/
def execDmaComplete (q : QRef) (pidx : Nat) (s : State) : Outcome := onMain (thenAfter (Main.dmaComplete q pidx)) s
/-- HOST_READ_COMPLETION (R352, R502). -/
def execHostReadCompletion (q : QRef) (pidx off : Nat) (rc : ReadComp) (s : State) : Outcome :=
  onMain (Main.hostRead q pidx off rc) s
/-- COMPLETION_TIMEOUT (R352). -/
def execCompletionTimeout (x : MoveRef) (read : Bool) (off : Nat) (s : State) : Outcome :=
  onMain (match x with | .packet q pidx => Main.readTimeout q pidx (if read then some off else none) | .put n => Main.putExpires n) s
/-- TRANSLATION_COMPLETION (R352, R353, R355). -/
def execTranslationCompletion (x : MoveRef) (tc : TransComp) (s : State) : Outcome :=
  onMain (match x with | .packet q pidx => Main.translated q pidx tc | .put n => Main.putTranslated n tc) s
/-- PRG_RESPONSE (R355, R356). -/
def execPrgResponse (x : MoveRef) (code : PrgCode) (s : State) : Outcome :=
  onMain (match x with | .packet q pidx => Main.prgResponse q pidx code | .put n => Main.putPrg n code) s
/-- FAULT_TIMEOUT (R356). -/
def execFaultTimeout (x : MoveRef) (s : State) : Outcome :=
  onMain (match x with | .packet q pidx => Main.faultTimeout q pidx | .put n => Main.putTimeout n) s
/-- ATS_INVALIDATION_REQUEST (R358). -/
def execAtsInvalidationRequest (inv : AtsInv) (s : State) : Outcome := onMain (Main.invalidate inv) s
/-- INVALIDATION_COMPLETION (R358). -/
def execInvalidationCompletion (port itag : Nat) (s : State) : Outcome := onMain (Main.invDone port itag) s

end Sys2Proof.Machine
end

