-- ==== Sys2Proof/Machine/Collect.lean ====
section
/-! DEFINITION. Collectives (R298-R305, R379): each pier sends its elements to the pier that owns a range, the owner
combines them and sends the results (assumption log 9). -/

namespace Sys2Proof.Machine

/-! ### Parameters (R299, R379) -/

def coOp (d : List Byte) : Nat := fieldAt d 2 1 / 16
def coRop (d : List Byte) : Nat := fieldAt d 2 1 / 4 % 4
def coStd (d : List Byte) : Bool := bit (fieldAt d 2 1) 1
def coMode (d : List Byte) : RMode := (RMode.ofCode (fieldAt d 3 1 / 16 % 8)).getD .rne
def coOvf (d : List Byte) : Bool := bit (fieldAt d 3 1) 3
def coScope (d : List Byte) : Nat := fieldAt d 3 1 % 8
def coId (d : List Byte) : Nat := fieldAt d 4 4
def coSrc (d : List Byte) : Nat := fieldAt d 8 8
def coDst (d : List Byte) : Nat := fieldAt d 0x10 8
def coCount (d : List Byte) : Nat := fieldAt d 0x18 8
def coItype (d : List Byte) : Nat := fieldAt d 0x20 1 / 16
def coOtype (d : List Byte) : Nat := fieldAt d 0x20 1 % 16
def coAnchor (d : List Byte) : Int := signed 10 (fieldAt d 0x22 2)
def coRoot (d : List Byte) : Nat := fieldAt d 0x24 2
def coLc (d : List Byte) : Nat := fieldAt d 0x26 2
def coFence (d : List Byte) : Nat := fieldAt d 0x28 4
def coFval (d : List Byte) : DWord := BitVec.ofNat 64 (fieldAt d 0x30 8)

/-- Whether a packet reduces. -/
def coReduces (d : List Byte) : Bool := decide (coOp d ≤ 2)

/-- Whether the element types are those of R300 and R301. Copies move elements of one size; MAX and MIN take the types of R300 in
either mode, and may keep their type (R302; assumption log 10). -/
def coTypes (d : List Byte) : Bool :=
  let long := [Elem.acc128, .e4m3, .e5m2, .int8, .fp16, .bf16, .fp32]
  if !coReduces d then
    (codeIn long (coItype d) || codeIn [.fp32, .bf16] (coItype d)) && rowBits (coItype d) == rowBits (coOtype d) &&
      (codeIn long (coOtype d))
  else if coStd d && coRop d == 0 then codeIn [.fp32, .bf16] (coItype d) && codeIn [.fp32, .bf16] (coOtype d)
  else codeIn long (coItype d) &&
    (codeIn [.acc128, .fp32, .bf16, .fp16, .e4m3, .e5m2] (coOtype d) || (coRop d != 0 && coOtype d == coItype d))

/-- Reserved bits and values of a packet (R5, R299, R379). -/
def collLegal (d : List Byte) : Bool :=
  fieldAt d 1 1 / 2 % 8 == 0 && fieldAt d 2 1 % 2 == 0 && fieldAt d 3 1 / 128 == 0 && decide (coOp d ≤ 5) &&
  (!coReduces d || decide (coRop d ≤ 2)) && decide (fieldAt d 3 1 / 16 % 8 ≤ 3) && decide (3 ≤ coScope d) &&
  decide (coScope d ≤ 5) && decide (coSrc d < 2 ^ 52) && decide (coDst d < 2 ^ 52) && coSrc d % 16 == 0 &&
  coDst d % 16 == 0 && decide (coCount d < 2 ^ 48) && decide (1 ≤ coCount d) && coTypes d && zeroAt d 0x21 1 &&
  fieldAt d 0x22 2 / 1024 == 0 && decide (coAnchor d ≠ -512) && decide (coRoot d < 2 ^ 13) && decide (coLc d < 2 ^ 14) &&
  zeroAt d 0x2C 4 && zeroAt d 0x38 8

/-- The parameters that every pier's packet must share (R298), in two slots. -/
def coParams (d : List Byte) : List Byte :=
  [nth d 2 0, nth d 3 0 &&& 0xF8] ++ (d.drop 0x18).take 16 ++ List.replicate 14 0

/-- Bytes of an element type; 16 of ACC128. -/
def elemBytes (code : Nat) : Nat := match Elem.ofCode code with | some e => e.bits / 8 | none => 0

/-! ### Elements -/

/-- The value of an input element (R302). -/
def coValue (d : List Byte) (code : Nat) : Num :=
  match Elem.ofCode (coItype d) with
  | some .acc128 => ((Acc.ofBits (BitVec.ofNat 128 code)).value (coAnchor d)).1
  | some e => e.value code
  | none => .zero

/-- A value as it enters a long accumulator that held nothing, clamped where it leaves the range (R38). -/
def coAcc (d : List Byte) (x : Num) : Acc × Byte :=
  let r := Acc.ofNum (coAnchor d) x
  let s := (Acc.fin 0).add r.1
  (s.1, r.2 ||| s.2)

/-- A value as a result element (R40). -/
def coResult (d : List Byte) (x : Num) : Nat × Byte :=
  match Elem.ofCode (coOtype d) with
  | some .acc128 => let r := coAcc d x; (r.1.toBits.toNat, r.2)
  | some e => e.convert (coMode d) (coOvf d) 0 x
  | none => (0, 0)

/-- An accumulator as a result element, stored as it stands or converted once with s = 1 (R40, R300). -/
def coOut (d : List Byte) (a : Acc) : Nat × Byte :=
  match Elem.ofCode (coOtype d) with
  | some .acc128 => (a.toBits.toNat, 0)
  | some e => convertAcc e (coMode d) (coOvf d) 0 a (coAnchor d) (.fin false 1 0)
  | none => (0, 0)

/-- An element as its long accumulator (R300). -/
def coEnter (d : List Byte) (code : Nat) : Acc × Byte :=
  match Elem.ofCode (coItype d) with
  | some .acc128 => (Acc.ofBits (BitVec.ofNat 128 code), 0)
  | some e => coAcc d (e.value code)
  | none => (.fin 0, 0)

/-- Whether partials travel as 16-byte N values. -/
def coLong (d : List Byte) : Bool := coOp d ≤ 2 && coRop d == 0 && !coStd d

/-- Bytes of a carried partial. -/
def coCarry (d : List Byte) : Nat := if coLong d then 16 else elemBytes (coItype d)

/-- An input element as it is carried, with the flags it raises. -/
def coSend (d : List Byte) (code : Nat) : List Byte × Byte :=
  if coLong d then let r := coEnter d code; (toBytes 16 r.1.toBits.toNat, r.2)
  else (toBytes (coCarry d) code, 0)

/-- The tree of R41 whose inner nodes below the root are rounded to BF16 when BF16 partials are carried; that conversion sets the flags
of R44 (R301). An inner partial that overflows becomes an infinity, whatever the packet's OVF (DESIGN CHOICE, assumption log 88). -/
def coTree (bf : Bool) : Nat → Bool → List Word → FRes
  | 0, _, _ => (0, 0)
  | _ + 1, _, [] => (0, 0)
  | _ + 1, _, [x] => (x, 0)
  | f + 1, top, l =>
    let h := powerBelow l.length
    let a := coTree bf f false (l.take h)
    let b := coTree bf f false (l.drop h)
    let r := fAdd .rne (f32 a.1) (f32 b.1)
    let fl := a.2 ||| b.2 ||| (r.2 &&& fINVALID)
    if bf && !top then
      let c := fmtBF16.convert .rne true 0 (f32 r.1)
      (BitVec.ofNat 32 (c.1 * 2 ^ 16), fl ||| c.2)
    else (r.1, fl)

/-- MAX or MIN of two accumulators in the order of N; the classes of NaN combine as in a sum (R39, R302; DEDUCED, assumption
log 10). -/
def accPick (max : Bool) (a b : Acc) : Acc :=
  if a = .nan ∨ b = .nan then .nan
  else if a = .clash ∨ b = .clash then .clash
  else
    match Num.cmp (a.value 0).1 (b.value 0).1 with
    | .lt => if max then b else a
    | _ => if max then a else b

/-- MAX or MIN of the partials: exact, and without a conversion where the type stays (R302). -/
def coPick (d : List Byte) (parts : List Nat) : Nat × Byte :=
  let max := coRop d == 1
  if codeIn [.acc128] (coItype d) then
    match parts.map (fun p => Acc.ofBits (BitVec.ofNat 128 p)) with
    | [] => (0, 0)
    | a :: r => coOut d (r.foldl (accPick max) a)
  else
    match parts.map (coValue d) with
    | [] => (0, 0)
    | a :: r =>
      let x := coResult d (r.foldl (if max then numMax else numMin) a)
      if coItype d = coOtype d then (x.1, 0) else x

/-- One result element from the partials of every rank, in rank order. The exact widening of a partial to FP32 sets no flag, while storing
a subnormal FP32 sum sets UNDERFLOW as every conversion does (R29, R301; DESIGN CHOICE, assumption log 100). -/
def coCombine (d : List Byte) (key : Nat) (parts : List Nat) : Nat × Byte :=
  if coLong d then
    match parts.map (fun p => Acc.ofBits (BitVec.ofNat 128 p)) with
    | [] => (0, 0)
    | a :: r =>
      let s := Acc.sum key a r
      let x := coOut d s.1
      (x.1, s.2 ||| x.2)
  else if coRop d = 0 then
    let ws := parts.map (fun p => (fmtFP32.convert .rne true 0 (coValue d p)).1)
    let t := coTree (elemBytes (coItype d) == 2) (ws.length + 1) true
      (ws.map (BitVec.ofNat 32))
    let x := coResult d (f32 t.1)
    (x.1, t.2 ||| x.2)
  else coPick d parts

/-! ### Ranges -/

/-- The first element of the range of a rank, of n elements over P piers. -/
def rangeStart (n p j : Nat) : Nat := j * n / p

namespace CollRun

def count (r : CollRun) : Nat := coCount r.packet
def size (r : CollRun) : Nat := r.piers.length

/-- The elements that rank j combines, as first and number. -/
def owned (r : CollRun) (j : Nat) : Nat × Nat :=
  if coOp r.packet = 1 then (if j = coRoot r.packet then (0, r.count) else (0, 0))
  else (rangeStart r.count r.size j, rangeStart r.count r.size (j + 1) - rangeStart r.count r.size j)

/-- The elements that rank j sends this pier as results. -/
def expected (r : CollRun) (j : Nat) : Nat :=
  match coOp r.packet with
  | 0 => (r.owned j).2
  | 3 => r.count / r.size
  | 4 => if r.rank ≠ coRoot r.packet ∧ j = (r.rank + r.size - 1) % r.size then r.count else 0
  | 5 => r.count / r.size
  | _ => 0

/-- The elements of a stage that have come from a rank. -/
def got (r : CollRun) (stage j size : Nat) : Nat :=
  ((r.parts.filter (fun p => p.stage == stage && p.rank == j)).map (fun p => p.data.length / size)).sum

/-- Whether rank j has said something of a stage. -/
def told (r : CollRun) (stage first j : Nat) : Bool :=
  r.parts.any (fun p => p.stage == stage && p.first == first && p.rank == j)

/-- Whether rank j runs the collective with the parameters of this pier, and has said that its results are complete. -/
def closed (r : CollRun) (j : Nat) : Bool := r.told 3 0 j && r.told 2 0 j

/-- The elements of the output that are written so far, first and number. -/
def written (r : CollRun) : List (Nat × Nat) :=
  let part := r.count / r.size
  let own : List (Nat × Nat) :=
    if !r.results then []
    else match coOp r.packet with
      | 0 => [r.owned r.rank]
      | 1 => [r.owned r.rank]
      | 2 => [(0, (r.owned r.rank).2)]
      | 4 => if r.rank = coRoot r.packet then [(0, r.count)] else []
      | _ => [(r.rank * part, part)]
  own ++ (r.parts.filter (fun p => p.stage == 1)).map (fun p => (p.first, p.data.length / elemBytes (coOtype r.packet)))

/-- The ranks of the other piers. -/
def others (r : CollRun) : List Nat := (List.range r.size).filter (· != r.rank)

/-- Whether every partial of this pier's range has come. -/
def combined (r : CollRun) : Bool :=
  r.others.all (fun j => r.got 0 j (coCarry r.packet) == (r.owned r.rank).2)

/-- Whether the collective has ended on this pier. -/
def isOver (r : CollRun) : Bool :=
  r.ended.isSome || (r.results && r.others.all (fun j =>
    r.closed j && r.got 1 j (elemBytes (coOtype r.packet)) == r.expected j))

end CollRun

/-! ### Messages (assumption log 9) -/

/-- The collective slot: COLL_ID, anchor, flags, stage, first element, elements. -/
def collSlot (d : List Byte) (flags : Byte) (stage first n : Nat) : List Byte :=
  toBytes 16 (coId d + fieldAt d 0x22 2 % 1024 * 2 ^ 32 + flags.toNat * 2 ^ 58 + stage * 2 ^ 66 + first * 2 ^ 68 + n * 2 ^ 116)

/-- A message of a collective to a rank. -/
def Main.collMsg (m : Main) (r : CollRun) (op j : Nat) (data : List Byte) (bad : Bool) : Msg :=
  { op := op, dest := nth r.piers j 0, src := m.fab.module, span := r.span, epoch := r.epoch, hops := 1, ord := false,
    tag := tagEcho 0 0 0 384 (m.slotOf r.q.ctx), data := data, poison := bad, rr := none }

/-- CFAIL with a status to every other pier (R304). -/
def Main.sendCfail (m : Main) (r : CollRun) (s : Status) : Main :=
  r.others.foldl (fun m j => m.send (m.collMsg r 0x51 j (toBytes 16 (coId r.packet + s.code * 2 ^ 32)) false)) m

/-- Elements cut into messages: each of one poison state and of at most 4,080 bytes; first, bytes, poison. -/
def cutElems (size : Nat) : Nat → List (List Byte × Bool) → List (Nat × List Byte × Bool)
  | _, [] => []
  | first, x :: r =>
    match cutElems size (first + 1) r with
    | [] => [(first, x.1, x.2)]
    | c :: cs =>
      if c.2.2 == x.2 && decide (c.2.1.length + size ≤ 4080) then (first, x.1 ++ c.2.1, x.2) :: cs
      else (first, x.1, x.2) :: c :: cs

/-- Elements sent to a rank. -/
def Main.sendElems (m : Main) (r : CollRun) (stage j size first : Nat) (es : List (List Byte × Bool)) : Main :=
  (cutElems size first es).foldl (fun m c =>
    m.send (m.collMsg r 0x50 j (collSlot r.packet r.flags stage c.1 (c.2.1.length / size) ++ c.2.1) c.2.2)) m

/-- A message without elements to every other rank: its stage, what its first element says, the data after its slot, poison. -/
def Main.tellRanks (m : Main) (r : CollRun) (stage first : Nat) (data : List Byte) (bad : Bool) : Main :=
  r.others.foldl (fun m j => m.send (m.collMsg r 0x50 j (collSlot r.packet r.flags stage first 0 ++ data) bad)) m

/-- The other ranks told the parameters of this one (R298). -/
def Main.sendOpen (m : Main) (r : CollRun) : Main := m.tellRanks r 3 0 (coParams r.packet) false

/-- The other ranks told that the results of this one are complete, its flags (R300), and whether one of them is poisoned (R304). -/
def Main.sendClose (m : Main) (r : CollRun) : Main := m.tellRanks r 2 0 [] r.poisoned

/-! ### Progress -/

def Main.modColl (m : Main) (i : Nat) (f : CollRun → CollRun) : Main := { m with colls := modNth m.colls i f }

/-- A number of elements of the input, with their poison. -/
def Main.collInput (m : Main) (span : Nat) (d : List Byte) (n : Nat) : List (Nat × Bool) × Main :=
  let size := elemBytes (coItype d)
  let (ps, m1) := m.spanPieces span (coSrc d) (n * size)
  (ps.flatMap (fun p => (List.range (p.2.1.length / size)).map (fun i => (fieldAt p.2.1 (i * size) size, p.2.2))), m1)

/-- Result elements written at a place of the output, except for a context that is torn down (R390). -/
def Main.collWrite (m : Main) (r : CollRun) (first : Nat) (data : List Byte) (bad : Bool) : Main :=
  match m.ctxOf r.q.ctx with
  | some c =>
    if c.state = .teardown then m
    else m.spanWrite r.span (coDst r.packet + first * elemBytes (coOtype r.packet)) data bad
  | none => m

/-- The element of a stage from a rank: its bytes and poison. -/
def CollRun.elem (r : CollRun) (j size e : Nat) : List Byte × Bool :=
  match r.parts.find? (fun p => p.stage == 0 && p.rank == j && decide (p.first ≤ e) &&
      decide (e < p.first + p.data.length / size)) with
  | some p => ((p.data.drop ((e - p.first) * size)).take size, p.bad)
  | none => (List.replicate size 0, false)

/-- The results of this pier's range: bytes, poison, and the flags they raise. -/
def CollRun.combine (r : CollRun) (key : Nat) : List (List Byte × Bool) × Byte :=
  let size := coCarry r.packet
  let o := r.owned r.rank
  let es := (rangeFrom o.1 o.2).map (fun e =>
    let ps := (List.range r.size).map (fun j => r.elem j size e)
    let x := coCombine r.packet (key + e * r.size) (ps.map (fun p => ofBytes p.1))
    ((toBytes (elemBytes (coOtype r.packet)) x.1, ps.any (·.2)), x.2))
  (es.map (·.1), (es.map (·.2)).foldl (· ||| ·) 0)

/-- Results of this pier written at home and sent to the piers that receive them (R303). -/
def Main.collReduce (m : Main) (i : Nat) (r : CollRun) : Main :=
  let (es, fl) := r.combine m.free
  let o := r.owned r.rank
  let r1 := { r with results := true, flags := r.flags ||| fl, poisoned := r.poisoned || es.any (·.2) }
  let m1 := ({ m with free := m.free + o.2 * r.size } : Main).modColl i (fun _ => r1)
  let size := elemBytes (coOtype r.packet)
  let at0 := if coOp r.packet = 2 then 0 else o.1
  let m2 := (cutElems size at0 es).foldl (fun m c => m.collWrite r1 c.1 c.2.1 c.2.2) m1
  (r1.others.foldl (fun m j => if coOp r.packet = 0 then m.sendElems r1 1 j size o.1 es else m) m2).sendClose r1

/-- A collective goes on when all partials of its range have come. -/
def Main.collTry (m : Main) (i : Nat) : Main :=
  match m.colls[i]? with
  | some r => if r.ended.isNone && !r.results && r.combined then m.collReduce i r else m
  | none => m

/-- The outputs that a run has written become undefined (R8, R298, R304). -/
def Main.collUndefine (m : Main) (r : CollRun) : Main :=
  r.written.foldl (fun m x =>
    let (vals, m1) := m.drawList (x.2 * elemBytes (coOtype r.packet))
    m1.collWrite r x.1 (vals.map (BitVec.ofNat 8)) false) m

/-- A collective ends on this pier with a status that is not this pier's own result, unless it has ended so before. -/
def Main.endColl (m : Main) (i : Nat) (s : Status) : Main :=
  match m.colls[i]? with
  | some r => if r.ended.isSome then m else (m.collUndefine r).modColl i (fun r => { r with ended := some s })
  | none => m

/-- A fault that this pier found: the collective ends here, and the others are told (R298, R304, R305). -/
def Main.failColl (m : Main) (i : Nat) (s : Status) : Main :=
  match m.colls[i]? with
  | some r => if r.ended.isSome then m else (m.sendCfail r s).endColl i s
  | none => m

/-! ### CDATA and CFAIL -/

/-- The run a message belongs to. -/
def Main.collIdx (m : Main) (span id : Nat) : Option Nat :=
  m.colls.findIdx? (fun r => r.span == span && r.collId == id)

/-- Elements that have come, or what a rank tells; results are written, and a broadcast goes on to the next rank. -/
def Main.collPart (m : Main) (i : Nat) (r : CollRun) (p : CollPart) (flags : Byte) : Main :=
  let r1 := { r with parts := r.parts ++ [p], flags := r.flags ||| flags, due := m.time + m.param 6 * 1000000,
                     poisoned := r.poisoned || (p.bad && p.stage != 0) }
  let m1 := m.modColl i (fun _ => r1)
  if p.stage = 1 then
    let m2 := m1.collWrite r1 p.first p.data p.bad
    let next := (r.rank + 1) % r.size
    if coOp r.packet = 4 ∧ next ≠ coRoot r.packet then
      let n := p.data.length / elemBytes (coOtype r.packet)
      m2.send (m2.collMsg r1 0x50 next (collSlot r.packet r1.flags 1 p.first n ++ p.data) p.bad)
    else m2
  else m1.collTry i

/-- A CDATA for a run. -/
def Main.collTake (m : Main) (i : Nat) (g : Msg) : Main :=
  match m.colls[i]? with
  | none => m
  | some r =>
    let v := ofBytes (g.data.take 16)
    match r.piers.findIdx? (· == g.src) with
    | none => m.bump 5 1 0 1
    | some j =>
      let stage := bits v 67 66
      let size := if stage = 0 then coCarry r.packet else elemBytes (coOtype r.packet)
      let p : CollPart := { stage := stage, rank := j, first := bits v 115 68,
                            data := (g.data.drop 16).take (bits v 127 116 * size), bad := g.poison }
      if stage = 2 ∧ p.first = 1 then m.modColl i (fun r => { r with parts := r.parts ++ [p] })
      else if r.ended.isSome then m
      else if g.epoch ≠ r.epoch then m.failColl i .epochStale
      else if bits v 41 32 ≠ fieldAt r.packet 0x22 2 % 1024 ∨ (stage = 3 ∧ (g.data.drop 16).take 32 ≠ coParams r.packet) then
        m.failColl i .notPermitted
      else m.collPart i r p (BitVec.ofNat 8 (bits v 65 58))

/-- A CFAIL for a run; a reserved status in it is taken as TRACKER_LOST (DESIGN CHOICE, assumption log 81). -/
def Main.collFail (m : Main) (i : Nat) (g : Msg) : Main :=
  m.endColl i ((Status.ofCode (fieldAt g.data 4 2)).getD .trackerLost)

/-- A message that has arrived is taken off. -/
def Main.takeMsg (m : Main) (g : Msg) : Option Main :=
  if m.fab.arrived.contains g then some { m with fab := { m.fab with arrived := m.fab.arrived.erase g } } else none

/-- A module says that a collective which is over here has completed there too (R298). -/
def Main.collDone (m : Main) (g : Msg) : Main :=
  let mine (u : CollUse) : Bool := u.span == g.span && u.id == fieldAt g.data 0 4
  let heard (u : CollUse) : CollUse := if mine u then { u with left := u.left.filter (· != g.src) } else u
  { m with collIds := (m.collIds.map heard).filter (fun u => !u.left.isEmpty) }

/-- Whether a COLL_ID is still in use by a collective of the span, here or on another of its piers (R298). -/
def Main.collBusy (m : Main) (span id : Nat) : Bool :=
  (m.collIdx span id).isSome || m.collIds.any (fun u => u.span == span && u.id == id &&
    u.left.any (fun x => match m.recOf span with | some r => r.piers.contains x || r.nextPiers.contains x | none => false))

/-- Whether lines of a run's output wait at their homes (R199, R215). -/
def Main.collWaits (m : Main) (i : Nat) : Bool :=
  m.fabricOut || match m.colls[i]? with
  | some r => r.ended.isNone && m.spanBlocked r.span (coDst r.packet) (coCount r.packet * elemBytes (coOtype r.packet))
  | none => false

/-- A collective message: to its run; a word of the end of one that is over here; or kept until the packet starts here. -/
def Main.collMessage (op : Nat) (f : Main → Nat → Main) (g : Msg) (m : Main) : Out :=
  if g.op ≠ op ∨ msgReserved g = true then .refused (.noSubject "a message of this kind")
  else match m.takeMsg g with
    | none => .refused (.noSubject "message")
    | some m1 =>
      match m1.collIdx g.span (fieldAt g.data 0 4) with
      | some i => if m1.collWaits i then .refused (.notReady "a line's home or the fabric processors") else .next (f m1 i)
      | none =>
        if m1.collIds.any (fun u => u.span == g.span && u.id == fieldAt g.data 0 4 && u.left.contains g.src) then
          .next (if g.op = 0x50 ∧ bits (ofBytes (g.data.take 16)) 67 66 = 2 ∧ bits (ofBytes (g.data.take 16)) 115 68 = 1 then
            m1.collDone g else m1)
        else .next { m1 with early := m1.early ++ [g] }

/-! ### COLLECTIVE -/

/-- Elements of this pier's input, and of its output. -/
def coSizes (d : List Byte) (p rank : Nat) : Nat × Nat :=
  match coOp d with
  | 0 => (coCount d, coCount d)
  | 1 => (coCount d, if rank = coRoot d then coCount d else 0)
  | 2 => (coCount d, coCount d / p)
  | 3 => (coCount d / p, coCount d)
  | 4 => (if rank = coRoot d then coCount d else 0, coCount d)
  | _ => (coCount d, coCount d)

/-- Whether a packet may start on this pier (R289, R298, R299). -/
def Main.collOk (m : Main) (c : Context) (d : List Byte) (p rank : Nat) : Bool :=
  let s := coSizes d p rank
  (decide (coOp d ≤ 1) || coOp d == 4 || coCount d % p == 0) && (!(coOp d == 1 || coOp d == 4) || decide (coRoot d < p)) &&
  m.mem.holdsRange c.span (coSrc d) (s.1 * elemBytes (coItype d)) &&
  m.mem.holdsRange c.span (coDst d) (s.2 * elemBytes (coOtype d)) && m.fenceOk c.num (coFence d) &&
  (match m.counterOf (coLc d) with | some k => k.ctx == c.num | none => false) && !m.collBusy c.span (coId d)

/-- What a pier sends as it starts (R299, R303). -/
def Main.collSends (m : Main) (i : Nat) (r : CollRun) (input : List (Nat × Bool)) : Main :=
  let d := r.packet
  let size := elemBytes (coOtype d)
  let raw (l : List (Nat × Bool)) : List (List Byte × Bool) := l.map (fun x => (toBytes size x.1, x.2))
  let here (m : Main) (first : Nat) (l : List (Nat × Bool)) : Main :=
    (cutElems size first (raw l)).foldl (fun m c => m.collWrite r c.1 c.2.1 c.2.2) m
  let part := r.count / r.size
  match coOp d with
  | 3 => r.others.foldl (fun m j => m.sendElems r 1 j size (r.rank * part) (raw input)) (here m (r.rank * part) input)
  | 4 =>
    if r.rank ≠ coRoot d then m
    else
      let m1 := here m 0 input
      if r.size = 1 then m1 else m1.sendElems r 1 ((r.rank + 1) % r.size) size 0 (raw input)
  | 5 =>
    let slice (j : Nat) : List (Nat × Bool) := (input.drop (j * part)).take part
    r.others.foldl (fun m j => m.sendElems r 1 j size (r.rank * part) (raw (slice j))) (here m (r.rank * part) (slice r.rank))
  | _ =>
    let carried (l : List (Nat × Bool)) : List (List Byte × Bool) := l.map (fun x => ((coSend d x.1).1, x.2))
    let range (j : Nat) : List (Nat × Bool) := (input.drop (r.owned j).1).take (r.owned j).2
    let own := (cutElems (coCarry d) (r.owned r.rank).1 (carried (range r.rank))).map (fun c =>
      ({ stage := 0, rank := r.rank, first := c.1, data := c.2.1, bad := c.2.2 } : CollPart))
    let m1 := m.modColl i (fun r => { r with parts := own ++ r.parts })
    (r.others.foldl (fun m j => m.sendElems r 0 j (coCarry d) (r.owned j).1 (carried (range j))) m1).collTry i

/-- The messages that came before the packet started (R304). -/
def Main.collEarly (m : Main) (i : Nat) (r : CollRun) : Main :=
  let mine (g : Msg) : Bool := g.span == r.span && fieldAt g.data 0 4 == r.collId
  let m1 : Main := { m with early := m.early.filter (fun g => !mine g) }
  (m.early.filter mine).foldl (fun m g => if g.op = 0x51 then m.collFail i g else m.collTake i g) m1

/-- Whether a packet has to wait: for lines of its input or output at their homes, or for the fabric processors (R199, R215, R480). -/
def Main.collHeld (m : Main) (c : Context) (d : List Byte) : Bool :=
  let i := coCount d * elemBytes (coItype d)
  let o := coCount d * elemBytes (coOtype d)
  m.fabricOut || (m.mem.holdsRange c.span (coSrc d) i && m.spanBlocked c.span (coSrc d) i) ||
    (m.mem.holdsRange c.span (coDst d) o && m.spanBlocked c.span (coDst d) o)

/-- A collective packet starts, or waits. -/
def Main.collGo (q : QRef) (c : Context) (p : Packet) (m : Main) : Main :=
  if m.collHeld c p.bytes then m.holdPacket q p else
  match m.recOf c.span with
  | none => m.completePacket q p .notPermitted 0 0
  | some s =>
    let piers := s.tableInForce
    let rank := m.spanRank c.span
    let r : CollRun :=
      { q := q, pidx := p.pidx, span := c.span, collId := coId p.bytes, epoch := s.inForce.epoch, rank := rank,
        piers := piers, packet := p.bytes, parts := [], results := false, flags := 0, poisoned := false, due := m.time + m.param 6 * 1000000,
        ended := none }
    if !m.collOk c p.bytes piers.length rank then m.completePacket q p .notPermitted 0 0
    else
      let i := m.colls.length
      let m1 : Main := { m with colls := m.colls ++ [r] }
      if (m.spanCores c.span).isEmpty then m1.failColl i .notPermitted
      else
        let (input, m2) := m1.collInput c.span p.bytes (coSizes p.bytes piers.length rank).1
        let fl := (input.map (fun x => (coSend p.bytes x.1).2)).foldl (· ||| ·) 0
        let reduces := coReduces p.bytes && (coOp p.bytes != 1 || rank == coRoot p.bytes)
        let r1 := { r with flags := fl, results := !reduces,
                           poisoned := !coReduces p.bytes && input.any (·.2) }
        let m3 := ((m2.modColl i (fun _ => r1)).sendOpen r1).collSends i r1 input
        (if reduces then m3 else m3.sendClose r1).collEarly i r1

def Main.collPacket (q : QRef) (pkt : List Byte) : Main → Out :=
  Main.startPacket q pkt (· == 3) collLegal (Main.collGo q)

/-! ### Ends -/

/-- The status a collective completes with. -/
def CollRun.status (r : CollRun) : Status := r.ended.getD (if r.poisoned then .poisoned else .ok)

/-- Whether a completion of a status advances the counter (R8, R290, R379; assumption log 11). -/
def countsOn (s : Status) : Bool := s != .notPermitted && s != .saggerClosed && s != .spanAborted

/-- The other ranks told that the collective has completed here, and its COLL_ID kept while it has not on all of them (R298). A wave
ends it everywhere (R471). -/
def Main.collRelease (m : Main) (r : CollRun) : Main :=
  if r.ended = some .spanAborted then m
  else
    let left := (r.others.filter (fun j => !r.told 2 1 j)).map (fun j => nth r.piers j 0)
    let m1 := m.tellRanks r 2 1 [] false
    if left.isEmpty then m1 else { m1 with collIds := m1.collIds ++ [{ span := r.span, id := r.collId, left := left }] }

/-- A collective completes on this pier: release, counter, fence, record (R379). -/
def Main.collComplete (q : QRef) (pidx : Nat) (m : Main) : Out :=
  match m.colls.findIdx? (fun r => r.q == q && r.pidx == pidx) with
  | none => .refused (.noSubject "collective")
  | some i =>
    match m.colls[i]?, m.ctxOf q.ctx, (m.queueOf q).bind (fun x => x.running.find? (fun p => p.pidx == pidx)) with
    | some r, some c, some p =>
      if !r.isOver then .refused (.notReady "stage messages")
      else
        let s := r.status
        let m1 : Main := ({ m with colls := m.colls.eraseIdx i } : Main).collRelease r
        let m2 := if countsOn s then m1.advanceCounter (coLc r.packet) 1 (m1.modPos (coScope r.packet)) else m1
        let m3 := if s = .ok then m2.packetSignal c (coScope r.packet) (coFence r.packet) (coFval r.packet) else m2
        .next (m3.completePacket q p s r.flags (seenEnergy c.fn p.energy))
    | _, _, _ => .refused (.noSubject "collective packet")

/-- The collective timer has elapsed, which is module parameter 6, in ms, as it was when the wait began (R304, R414). -/
def Main.collTimer (span id : Nat) (m : Main) : Out :=
  match m.collIdx span id with
  | none => .refused (.noSubject "collective")
  | some i =>
    match m.colls[i]? with
    | some r =>
      if r.isOver then .refused (.notReady "a stage message to wait for")
      else if m.collWaits i then .refused (.notReady "a line's home or the fabric processors")
      else .next ((m.until r.due).failColl i .trackerLost)
    | none => .refused (.noSubject "collective")

/-- COLLECTIVE (R298, R305, R379). -/
def execCollective (q : QRef) (pkt : List Byte) (s : State) : Outcome := onMain (Main.collPacket q pkt) s
/-- COLLECTIVE_COMPLETE (R290, R300-R303, R379). -/
def execCollectiveComplete (q : QRef) (pidx : Nat) (s : State) : Outcome :=
  onMain (thenAfter (Main.collComplete q pidx)) s
/-- CDATA (R300-R305). -/
def execCdata (g : Msg) (s : State) : Outcome := onMain (Main.collMessage 0x50 (fun m i => m.collTake i g) g) s
/-- CFAIL (R298, R304). -/
def execCfail (g : Msg) (s : State) : Outcome := onMain (Main.collMessage 0x51 (fun m i => m.collFail i g) g) s
/-- COLLECTIVE_TIMER_EXPIRY (R304). -/
def execCollectiveTimerExpiry (span collId : Nat) (s : State) : Outcome := onMain (Main.collTimer span collId) s

end Sys2Proof.Machine
end

