-- ==== Sys2Proof/Machine/Gatherer.lean ====
section
/-! DEFINITION. The Event Gatherer: banks, routes, delivery and the end of handling (R422-R427). Banks 0 to 11 are the private
ones of the processors, 12 to 15 the groups of the shared sources. -/

namespace Sys2Proof.Machine

/-- Whether an internal processor runs: the standby ones after the first cold step, the others once a start is complete, and
none while it is reset or switches its image (R422, R462, R476, R480, R487). -/
def Main.procUp (m : Main) (p : Nat) : Bool :=
  !m.procOut p && (p != 3 || m.rcv.stallMark.isNone) &&
    (match m.rcv.phase with
      | .running => true
      | .off => false
      | .held => false
      | .cold n => decide (2 ≤ n) && decide (3 ≤ p) && decide (p ≤ 5)
      | _ => decide (3 ≤ p) && decide (p ≤ 5))

/-- The target of a source of a bank (R425). -/
def Gatherer.target (g : Gatherer) (bank bit : Nat) : Nat :=
  if bank < 12 then bank
  else
    let r := (nth g.route ((bank - 12) * 64 + bit) 0x303).toNat
    if g.mode.getLsbD 0 then bits r 11 8 else bits r 3 0

def Main.modBank (m : Main) (bank : Nat) (f : EgBank → EgBank) : Main :=
  { m with eg := { m.eg with banks := modNth m.eg.banks bank f } }

/-- One source delivered, when it is pending, unmasked, not in service, and its target runs (R426, R427). -/
def Main.egDeliver (m : Main) (bank bit : Nat) : Main :=
  match m.eg.banks[bank]? with
  | none => m
  | some b =>
    let p := m.eg.target bank bit
    if b.pend.getLsbD bit && !b.mask.getLsbD bit && !b.serv.getLsbD bit && m.procUp p then
      let one : BitVec 64 := 1#64 <<< bit
      m.modBank bank (fun b => { b with pend := b.pend &&& ~~~one, serv := b.serv ||| one, owner := (bit, p) :: b.owner })
    else m

/-- Every source that may be delivered. -/
def Main.egSettle (m : Main) : Main :=
  (List.range 16).foldl (fun m b => (List.range 64).foldl (fun m i => m.egDeliver b i) m) m

/-- The sources of a bank leave service and level inputs are sampled again (R426). -/
def EgBank.finish (b : EgBank) (level : BitVec 64) (done : BitVec 64) : EgBank :=
  { b with
    serv := b.serv &&& ~~~done
    pend := b.pend ||| (b.serv &&& done &&& level &&& b.input)
    owner := b.owner.filter (fun x => !done.getLsbD x.1) }

/-- The sources of a bank in service at a processor. -/
def EgBank.ofProc (b : EgBank) (p : Nat) : BitVec 64 :=
  (b.owner.filter (fun x => x.2 == p)).foldl (fun a x => a ||| (1#64 <<< x.1)) 0

/-- A processor is reset: its private bank is cleared and masked, what is in service at it leaves service (R427). -/
def Main.egResetProc (m : Main) (p : Nat) : Main :=
  let clear (b : EgBank) : EgBank := { b with pend := 0, mask := BitVec.allOnes 64, serv := 0, owner := [] }
  (List.range 4).foldl (fun m g =>
    m.modBank (12 + g) (fun b => b.finish (Config.egLevel (12 + g)) (b.ofProc p))) (m.modBank p clear)

/-- Whether a processor may write a bank's window (R424). -/
def Main.egMayWrite (m : Main) (cpu bank : Nat) : Bool :=
  if bank < 12 then cpu == bank else cpu == 3 || (List.range 64).any (fun i => m.eg.target bank i == cpu)

/-- A write of a bank window by a processor; other writers are ignored and counted. -/
def Main.egWrite (cpu bank : Nat) (f : Main → EgBank → EgBank) (m : Main) : Out :=
  if 12 ≤ cpu ∨ 16 ≤ bank then .refused (.noSubject "processor or bank")
  else if !m.procUp cpu then .refused (.notReady "the processor")
  else if !m.egMayWrite cpu bank then .next (m.bump 5 3 0 1)
  else .next ((m.modBank bank (f m)).egSettle)

/-- The input of a source as it stands: its pending bit is set on the rise (R426). -/
def Main.egInput (m : Main) (source : Nat) (level : Bool) : Main :=
  let bit : BitVec 64 := 1#64 <<< (source % 64)
  (m.modBank (source / 64) (fun b =>
    if level then { b with pend := if (b.input &&& bit) = 0 then b.pend ||| bit else b.pend, input := b.input ||| bit }
    else { b with input := b.input &&& ~~~bit })).egSettle

/-- Whether a processor may finish sources of a bank: it may write its window, or it has received one of them before the
route changed (R427). -/
def Main.egMayFinish (m : Main) (cpu bank : Nat) : Bool :=
  m.egMayWrite cpu bank || (match m.eg.banks[bank]? with | some b => b.ofProc cpu != 0 | none => false)

/-- EG_DONE: accepted from the processor that received a source and from Elbor core 3. -/
def Main.egDone (cpu bank : Nat) (w : BitVec 64) (m : Main) : Out :=
  if 12 ≤ cpu ∨ 16 ≤ bank then .refused (.noSubject "processor or bank")
  else if !m.procUp cpu then .refused (.notReady "the processor")
  else if !m.egMayFinish cpu bank then .next (m.bump 5 3 0 1)
  else .next ((m.modBank bank (fun b =>
    b.finish (Config.egLevel bank) (if cpu = 3 then w else w &&& b.ofProc cpu))).egSettle)

/-- A write of EG_ROUTE or EG_MODE by a processor: only Elbor core 3's is taken (R424). -/
def Main.egCore3 (cpu : Nat) (f : Main → Main) (m : Main) : Out :=
  if 12 ≤ cpu then .refused (.noSubject "processor")
  else if !m.procUp cpu then .refused (.notReady "the processor")
  else if cpu ≠ 3 then .next (m.bump 5 3 0 1)
  else .next (f m).egSettle

/-- A target field as a write leaves it: a reserved value changes nothing (R5). -/
def routeField (old new : Nat) : Nat := if new < 12 then new else old

/-- EG_ROUTE of a shared source. -/
def Main.egRouteSet (cpu source : Nat) (w : Word) (m : Main) : Out :=
  if source < 768 ∨ 1024 ≤ source then .refused (.noSubject "a shared source")
  else
    let new (old : Word) : Word :=
      BitVec.ofNat 32 (routeField (bits old.toNat 11 8) (bits w.toNat 11 8) * 256 + routeField (bits old.toNat 3 0) (bits w.toNat 3 0))
    m.egCore3 cpu (fun m => { m with eg := { m.eg with route := modNth m.eg.route (source - 768) new } })

/-- EG_MODE set by what Elbor core 3 does of itself (R425). -/
def Main.egSetMode (m : Main) (static : Bool) : Main :=
  ({ m with eg := { m.eg with mode := if static then 1 else 0 } } : Main).egSettle

/-- A register of a bank window as it is read: SET and CLR read what EG_PEND or EG_MASK does, EG_DONE is WO (R3, R423). -/
def EgBank.read (b : EgBank) (level : BitVec 64) (off : Nat) : Nat :=
  if off = 0 ∨ off = 8 ∨ off = 0x10 then b.pend.toNat
  else if off = 0x18 ∨ off = 0x20 ∨ off = 0x28 then b.mask.toNat
  else if off = 0x30 then level.toNat
  else 0

/-- A register of the Event Gatherer as it is read, at an offset of R423: the windows of the private banks, those of the shared
groups, EG_ROUTE, EG_MODE; every other offset is reserved and reads as zero (R4). -/
def Gatherer.read (g : Gatherer) (off : Nat) : Nat :=
  let window (bank : Nat) : Nat :=
    match g.banks[bank]? with
    | some b => b.read (Config.egLevel bank) (off % 64)
    | none => 0
  if off < 0x300 then window (off / 64)
  else if off < 0x400 then 0
  else if off < 0x500 then window (12 + (off - 0x400) / 64)
  else if off < 0x800 then 0
  else if off < 0xC00 then (nth g.route ((off - 0x800) / 4) 0).toNat
  else if off = 0xC00 then g.mode.toNat
  else 0

/-- EG_PEND_SET (R423, R427). -/
def execEgPendSet (cpu bank : Nat) (w : BitVec 64) (s : State) : Outcome :=
  onMain (Main.egWrite cpu bank (fun _ b => { b with pend := b.pend ||| w })) s
/-- EG_PEND_CLR (R423, R427). -/
def execEgPendClr (cpu bank : Nat) (w : BitVec 64) (s : State) : Outcome :=
  onMain (Main.egWrite cpu bank (fun _ b => { b with pend := b.pend &&& ~~~w })) s
/-- EG_MASK_SET (R423, R427). -/
def execEgMaskSet (cpu bank : Nat) (w : BitVec 64) (s : State) : Outcome :=
  onMain (Main.egWrite cpu bank (fun _ b => { b with mask := b.mask ||| w })) s
/-- EG_MASK_CLR (R423, R427). -/
def execEgMaskClr (cpu bank : Nat) (w : BitVec 64) (s : State) : Outcome :=
  onMain (Main.egWrite cpu bank (fun _ b => { b with mask := b.mask &&& ~~~w })) s
/-- EG_DONE (R426, R427). -/
def execEgDone (cpu bank : Nat) (w : BitVec 64) (s : State) : Outcome := onMain (Main.egDone cpu bank w) s
/-- EG_ROUTE (R423, R427). -/
def execEgRoute (cpu source : Nat) (w : BitVec 32) (s : State) : Outcome := onMain (Main.egRouteSet cpu source w) s
/-- EG_MODE (R423-R425): bits 31 to 1 are reserved. -/
def execEgMode (cpu : Nat) (w : BitVec 32) (s : State) : Outcome :=
  onMain (Main.egCore3 cpu (fun m => { m with eg := { m.eg with mode := w &&& 1 } })) s

end Sys2Proof.Machine
end

