-- ==== Sys2Proof/Machine/Recovery.lean ====
section
/-! DEFINITION. Error records, engine resets, saggers and their escalation (R214-R216, R467-R486). -/

namespace Sys2Proof.Machine

/-! ### The sagger of an engine (R467, R479) -/

/-- The cluster of an engine: of a core, a gather engine, a sampler or a collective engine. -/
def engCluster (e : EngineId) : Option Nat :=
  if e.kind = 0 then some (e.num / 9)
  else if e.kind = 3 then
    if e.num < 288 then none
    else if e.num < 352 then some ((e.num - 288) / 2)
    else if e.num < 384 then some (e.num - 352)
    else if e.num < 448 then some ((e.num - 384) / 2)
    else none
  else none

/-- The sagger of a cluster: of the span that holds it, else the module's (R479). -/
def Main.clusterSagger (m : Main) (k : Nat) : Nat :=
  match nth m.comp.coreOwner k .idle with | .span s => s | _ => 0

/-- The sagger of an engine. -/
def Main.engSagger (m : Main) (e : EngineId) : Nat :=
  match engCluster e with | some k => m.clusterSagger k | none => 0

/-- Whether the reset of a sagger resets an engine; Elbor, Kiln and the Seal processor belong to none (R467). -/
def Main.inSagger (m : Main) (sagger : Nat) (e : EngineId) : Bool :=
  m.engSagger e == sagger && !(e.kind == 4 && decide (e.num < 6))

/-! ### Fencing a span's sagger (R468) -/

/-- The launches of a span end SPAN_ABORTED; their work groups and saved records go without a save, and the wave ends their
batches on other piers. -/
def Main.fenceLaunches (m : Main) (span : Nat) : Main :=
  ((m.cores.launches.filter (fun l => l.span == span && l.killed.isNone)).map (·.id)).foldl
    (fun m l => (m.discardWork l).modLaunch l (fun x => { x with killed := some .spanAborted, engines := 0, rsts := 0, away := [] })) m

/-- Descriptors of the span are discarded (R142), and what the span has outstanding no longer reaches anyone. -/
def Main.fenceEngines (m : Main) (span : Nat) : Main :=
  let drop (e : Engine) : Engine :=
    { queue := e.queue.filter (fun d => d.span != span)
      run := match e.queue with
        | d :: _ => if d.span = span then none else e.run
        | [] => none }
  { m with
    eng := m.eng.map drop
    fab := { m.fab with
      entries := m.fab.entries.map (fun e => if e.span = span then { e with who := .nobody } else e)
      waitReqs := m.fab.waitReqs.filter (fun w => w.span != span) } }

/-- Whether a run belongs to a context of a span. -/
def Main.dmaOfSpan (m : Main) (span : Nat) (d : DmaRun) : Bool :=
  match m.ctxOf d.q.ctx with | some c => c.span == span | none => false

/-- DMA packets of the span's contexts: the transfer in flight completes, the rest is aborted. -/
def Main.fenceDma (m : Main) (span : Nat) : Main :=
  let asked := m.host.dmas.filter (fun d => m.dmaOfSpan span d && d.st.asked)
  let stop (d : DmaRun) : DmaRun :=
    if m.dmaOfSpan span d then
      { d with failed := some .spanAborted, late := [], st := .ready }
    else d
  asked.foldl (fun m d => m.pageEnd d.fn) { m with host := { m.host with dmas := m.host.dmas.map stop } }

/-- Fence waits and counter waits in progress of the span's contexts complete SPAN_ABORTED. -/
def Main.fenceWaits (m : Main) (span : Nat) : Main :=
  let ws := m.objs.queues.flatMap (fun x =>
    if (match m.ctxOf x.ctx with | some c => c.span == span | none => false) then
      (x.running.filter (fun p => p.waiting && (pkType p.bytes == 5 || pkType p.bytes == 6))).map (fun p => ((⟨x.ctx, x.idx⟩ : QRef), p))
    else [])
  ws.foldl (fun m w => m.completePacket w.1 w.2 .spanAborted 0 0) m

/-- Collectives of the span end: SAGGER_CLOSED with CFAIL where the fence began, without one after a wave (R304). -/
def Main.fenceColls (m : Main) (span : Nat) (wave : Bool) : Main :=
  let m1 : Main := { m with collIds := m.collIds.filter (fun u => u.span != span) }
  (List.range m.colls.length).foldl (fun m i =>
    match m.colls[i]? with
    | some r => if r.span = span then (if wave then m.endColl i .spanAborted else m.failColl i .saggerClosed) else m
    | none => m) m1

/-- Every effect of fencing a span's sagger. -/
def Main.fenceSpan (m : Main) (span : Nat) (wave : Bool) : Main :=
  ((((m.fenceLaunches span).fenceEngines span).fenceDma span).fenceWaits span).fenceColls span wave

/-! ### The abort wave (R471) -/

/-- n of a span. -/
def Main.abortNum (m : Main) (span : Nat) : Nat :=
  match m.rcv.aborts.find? (fun x => x.1 == span) with | some x => x.2 | none => 0

def Main.setAbort (m : Main) (span n : Nat) : Main :=
  { m with rcv := { m.rcv with aborts := (span, n) :: m.rcv.aborts.filter (fun x => x.1 != span) } }

/-- The other piers of a span, of both epochs during a transition. -/
def Main.otherPiers (m : Main) (span : Nat) : List Nat :=
  match m.recOf span with
  | none => []
  | some r => ((if r.phase = .stable then r.piers else r.piers ++ r.nextPiers).eraseDups).filter (· != m.fab.module)

/-- The 16 bytes of an abort slot (R471). -/
def abortBits (x : AbortSlot) : BitVec 128 :=
  BitVec.ofNat 128 (x.time % 2 ^ 64 * 2 ^ 64 + x.abort % 2 ^ 16 * 2 ^ 48 + x.cause % 2 ^ 8 * 2 ^ 40 + x.origin % 2 ^ 13 * 2 ^ 27)

/-- The fields of an abort slot. -/
def abortSlot (v : BitVec 128) : AbortSlot :=
  { time := bits v.toNat 127 64, abort := bits v.toNat 63 48, cause := bits v.toNat 47 40, origin := bits v.toNat 39 27 }

/-- ABORT sent to every other pier of a span, with the fabric time of the fence. -/
def Main.sendWave (m : Main) (span fenced a cause : Nat) : Main :=
  (m.otherPiers span).foldl (fun m d =>
    m.sendCtrl (.abort d span (abortBits { time := fenced, abort := a, cause := cause, origin := m.fab.module }))) m

/-- The next abort number after n, 0 skipped. -/
def nextAbort (n : Nat) : Nat := if n % 2 ^ 16 = 0xFFFF then 1 else n % 2 ^ 16 + 1

/-- A core that fails its BIST at a start, or in the reset step of a sagger: the spare of its cluster takes its place at once when it
can (R12, R13, R463, R486). -/
def Main.admitWithout (m : Main) (core : Nat) : Main :=
  let u := nth m.cores.units core { good := false, inService := false, pos := 8, w := 0, lastSpan := 0 }
  let spare := core / 9 * 9 + 8
  let sp := nth m.cores.units spare { good := false, inService := true, pos := 8, w := 0, lastSpan := 0 }
  let units := modNth m.cores.units core (fun u => { u with good := false, inService := false })
  let take := u.inService && core != spare && sp.good && !sp.inService && !m.rcv.swaps.any (fun x => x.cluster == core / 9)
  { m with cores := { m.cores with
      units := if take then modNth units spare (fun x => { x with inService := true, pos := u.pos }) else units } }

/-- The swaps in progress end with a reset of the whole module: the spare takes the place of a core that has failed its BIST at once,
and a core that only a command replaces stays (R13, R486). -/
def Main.endSwaps (m : Main) : Main :=
  (m.rcv.swaps.filter (·.bad)).foldl (fun m x => m.admitWithout x.core) { m with rcv := { m.rcv with swaps := [] } }

/-! ### Handlings (R474, R482) -/

def Main.modHandling (m : Main) (sagger : Nat) (f : Handling → Handling) : Main :=
  { m with rcv := { m.rcv with handlings := modWhere m.rcv.handlings (fun h => h.sagger == sagger) f } }

/-- The handlings that have begun. -/
def Main.handled (m : Main) : List Handling := m.rcv.handlings.filter (fun h => h.step != .waiting)

/-- Whether a handling may begin: fewer than four run, and the module's waits for reset steps of spans (R482). -/
def Main.mayHandle (m : Main) (sagger : Nat) : Bool :=
  decide (m.handled.length < 4) && (sagger != 0 || !m.rcv.handlings.any (fun h => h.sagger != 0 && h.step == .reset))

/-- The module's sagger fenced: work groups are preempted, collectives end (R474). -/
def Main.fenceModule (m : Main) : Main :=
  let stop (w : WorkGroup) : WorkGroup := if w.state = .running then { w with state := .stopping } else w
  let m1 : Main := { m with cores := { m.cores with wgs := m.cores.wgs.map stop } }
  (List.range m1.colls.length).foldl (fun m i => m.failColl i .saggerClosed) m1

/-- A handling begins: its record, its 50 ms, and for a span the next abort number and its wave. A handling that a wave
began has its number already. -/
def Main.startHandling (m : Main) (h : Handling) (wave : Option Nat) : Main :=
  let m1 := (m.modHandling h.sagger (fun h => { h with step := .fence, since := m.time })).modErr h.recId
    (fun r => { r with st := .handling })
  if h.sagger = 0 then m1.fenceModule
  else
    match wave with
    | some a => (m1.setAbort h.sagger a).modErr h.recId (fun r => { r with abort := a })
    | none =>
      let a := nextAbort (m1.abortNum h.sagger)
      let cause := match m.rcv.errs.find? (fun r => r.id == h.recId) with | some r => r.cause | none => 0
      ((m1.setAbort h.sagger a).modErr h.recId (fun r => { r with abort := a })).sendWave h.sagger h.fenced a cause

/-- The number of the wave that began a handling; a wave is not forwarded (R472). -/
def Main.waveOf (m : Main) (h : Handling) : Option Nat :=
  match m.rcv.errs.find? (fun r => r.id == h.recId) with
  | some r => if r.cause = 0x34 then some (m.abortNum h.sagger) else none
  | none => none

/-- Handlings that wait begin, in arrival order, as far as they may. -/
def Main.startWaiting (m : Main) : Main :=
  (m.rcv.handlings.filter (fun h => h.step == .waiting)).foldl
    (fun m h => if m.mayHandle h.sagger then m.startHandling h (m.waveOf h) else m) m

/-- Whether a device reset may begin: not without power, held, or banked (R485). -/
def Main.resettable (m : Main) : Bool :=
  m.rcv.banking.isNone && (match m.rcv.phase with | .off => false | .held => false | .banked => false | _ => true)

/-- The error records copied to flash (R478). -/
def Main.flashErrs (m : Main) : Main := { m with rcv := { m.rcv with flashErrs := m.rcv.errs } }

/-- A device reset begins: every open record joins it, every handling ends, the records are copied to flash,
every sagger is fenced, EG_MODE is STATIC (R425, R478, R481, R482). A module that no reset leads out of its state only records the error. -/
def Main.deviceNow (m : Main) (e : ErrNew) (cold : Bool) : Main :=
  if m.rcv.dev.isSome then (m.openErr { e with parent := (m.rcv.dev.bind (·.recId)) } .joined).2
  else if !m.resettable then (m.openErr e .done).2
  else
    let id := m.rcv.nextErr
    let (_, m1) := (m.endSwaps.joinOthers true id).openErr e .handling
    let m2 : Main := { m1 with rcv := { m1.rcv with
      handlings := [], resets := [], dev := some { recId := some id, since := m1.time, cold := cold } } }
    (m2.comp.recs.map (·.id)).foldl (fun m s => m.fenceSpan s false) (m2.flashErrs.egSetMode true)

/-- An error of DEVICE severity. -/
def Main.deviceError (m : Main) (cause : Nat) (source : EngineId) (parent : Option Nat) (detail : Nat) (cold : Bool) : Main :=
  let e : ErrNew := { sev := .device, cause := cause, source := source, parent := parent, detail := detail }
  if m.errorsWait then m.putOff (.device cold) e else m.deviceNow e cold

/-- An error's record opened; with 256 open records it is counted and escalates (R478). -/
def Main.newErr (m : Main) (e : ErrNew) (st : ErrSt) : Nat × Main :=
  if m.errsFull then
    let m1 : Main := { m with rcv := { m.rcv with overflow := m.rcv.overflow + 1 } }
    (m.rcv.nextErr, m1.deviceNow { sev := .device, cause := 0x42, source := e.source } false)
  else m.openErr e st

/-- A CORRECTED error with POISON, or one that only leaves a record: opened and closed at once; the record of an overflow stays open
with its device reset (R478). -/
def Main.noteNow (m : Main) (e : ErrNew) : Main :=
  let (id, m1) := m.newErr e .handling
  if m.errsFull then m1 else m1.closeErr id .done e.status

def Main.noteErr (m : Main) (e : ErrNew) : Main := if m.errorsWait then m.putOff .note e else m.noteNow e

/-- The engine resets of a sagger that an error of higher severity preempts: their records are ESCALATED, and the sagger's
reset takes their place (R481, R482). -/
def Main.preemptResets (m : Main) (sagger : Nat) : List Nat × Main :=
  let mine := m.rcv.resets.filter (fun r => m.inSagger sagger r.eng)
  let m1 : Main := { m with rcv := { m.rcv with resets := m.rcv.resets.filter (fun r => !m.inSagger sagger r.eng) } }
  (mine.map (·.recId), mine.foldl (fun m r => m.closeErr r.recId .escalated .ok) m1)

/-- An error of SAGGER severity (R482): it joins the handling of its sagger, or begins one, or waits its turn with the
sagger fenced at once. -/
def Main.saggerNow (m0 : Main) (e0 : ErrNew) (scrub : Bool) (wave : Option Nat) : Main :=
  let sagger := e0.sagger
  let p := if m0.rcv.dev.isNone then m0.preemptResets sagger else ([], m0)
  let m := p.2
  let e : ErrNew := { e0 with parent := e0.parent.orElse (fun _ => p.1.head?), abort := wave.getD e0.abort }
  match m.rcv.dev, m.rcv.handlings.find? (fun h => h.sagger == sagger) with
  | some d, _ => (m.newErr { e with parent := d.recId } .joined).2
  | none, some h =>
    let m1 := (m.newErr { e with parent := some h.recId } .joined).2
    m1.modHandling sagger (fun h => { h with scrub := h.scrub || scrub })
  | none, none =>
    let go := m.mayHandle sagger
    let (id, m1) := m.newErr e (if go then .handling else .queued)
    if m1.rcv.dev.isSome then m1
    else
      let h : Handling := { sagger := sagger, recId := id, fenced := m.time, since := m.time, step := .waiting, scrub := scrub }
      let m2 : Main := { m1 with rcv := { m1.rcv with handlings := m1.rcv.handlings ++ [h] } }
      let m3 := if sagger = 0 then m2 else m2.fenceSpan sagger wave.isSome
      if go then m3.startHandling h wave
      else match wave with | some a => m3.setAbort sagger a | none => m3

/-- An error of SAGGER severity. -/
def Main.saggerError (m : Main) (sagger cause : Nat) (source : EngineId) (parent : Option Nat) (detail : Nat) (scrub : Bool)
    (wave : Option Nat) : Main :=
  let e : ErrNew := { sev := .sagger, cause := cause, sagger := sagger, source := source, parent := parent, detail := detail }
  if m.errorsWait then m.putOff (.sagger scrub wave) e else m.saggerNow e scrub wave

/-! ### Abort messages (R472, R473) -/

/-- The abort number that an ERR SAGGER_CLOSED slot or a wave carries is tested; `late` says that its time is before the
record's, less 1 µs. -/
def Main.takeAbort (m : Main) (span a : Nat) (source : EngineId) (late : Bool) : Main :=
  let n := m.abortNum span
  if (m.recOf span).isNone || a == 0 then m
  else if (if n = 0 then !late else decide (1 ≤ (a + 2 ^ 16 - n) % 2 ^ 16) && decide ((a + 2 ^ 16 - n) % 2 ^ 16 ≤ 0x7FFF)) then
    (m.saggerError span 0x34 source none a false (some a)).setAbort span a
  else m

/-- When the record of a span was created. -/
def Main.bornAt (m : Main) (span : Nat) : Nat :=
  match m.rcv.born.find? (fun x => x.1 == span) with | some x => x.2 | none => 0

/-- The receipts owed for a span sent. -/
def Main.payReceipts (m : Main) (span : Nat) : Main :=
  let mine := m.sec.owed.filter (fun x => x.1 == span)
  let m1 : Main := { m with sec := { m.sec with owed := m.sec.owed.filter (fun x => x.1 != span) } }
  mine.foldl (fun m x => m.sendCtrl (.pierReceipt x.2 span)) m1

/-- Whether a fence of a span is still to be completed: its handling has not reached its reset step, or waits with an error. -/
def Main.fencing (m : Main) (span : Nat) : Bool :=
  m.rcv.handlings.any (fun h => h.sagger == span && h.step != .reset) ||
    m.rcv.raised.any (fun r => r.err.sagger == span && r.err.sev == .sagger)

/-- An ABORT message; one with a reserved bit is discarded and counted (R253). A fence that a SAGGER_RESET or a revocation of another
pier began owes its origin a receipt, which is sent once the fence under that number is complete (R505). -/
def Main.abortMsg (span : Nat) (slot : BitVec 128) (m : Main) : Out :=
  if bits slot.toNat 26 0 ≠ 0 then .next (m.bump 5 1 0 1)
  else
    let sl := abortSlot slot
    let m1 := m.takeAbort span sl.abort ⟨4, 3⟩ (decide (sl.time + 1000 ≤ m.bornAt span))
    if (m.recOf span).isNone ∨ sl.abort = 0 ∨ m1.abortNum span ≠ sl.abort ∨ sl.cause ≠ 0x35 then .next m1
    else
      let m2 : Main := { m1 with sec := { m1.sec with owed := m1.sec.owed.filter (· != (span, sl.origin)) ++ [(span, sl.origin)] } }
      .next (if m2.fencing span then m2 else m2.payReceipts span)

/-! ### Dead agents (R214-R216) -/

/-- An agent dies: what it held is lost, invalidations to it count as acknowledged, its reclaim begins or waits; a fifth
that would wait escalates. -/
def Main.killAgent (m : Main) (agent : Nat) : Main :=
  if m.coh.dead.contains agent then m
  else
    let m1 : Main := { m with coh := { m.coh with
      dead := m.coh.dead ++ [agent], reclaim := m.coh.reclaim ++ [agent]
      copies := m.coh.copies.filter (fun c => c.agent != agent)
      invq := m.coh.invq.filter (fun q => q.1 != agent) } }
    if 5 < m1.coh.reclaim.length then m1.saggerError 0 0x32 ⟨5, agent⟩ none agent false none else m1

/-- One entry as the reclaim of an agent leaves it (R215). -/
def Main.reclaimEntry (m : Main) (agent : Nat) (e : DirEntry) : Main :=
  match e.st with
  | .shared =>
    match e.sharers with
    | .agents l =>
      let l1 := l.filter (· != agent)
      if l1.isEmpty then { m with coh := m.coh.dropEntry e.line }
      else { m with coh := m.coh.modEntry e.line (fun x => { x with sharers := .agents l1 }) }
    | .clusters _ => m
  | .ownedClean => if e.owner = agent then { m with coh := m.coh.dropEntry e.line } else m
  | .ownedDirty =>
    if e.owner = agent then ({ m with coh := m.coh.dropEntry e.line } : Main).loseLine e.line else m
  | .home => m

/-- Every line an agent holds written back or given up with its notice. -/
def Main.flushAgent (m : Main) (agent : Nat) : Main :=
  ((m.coh.copies.filter (fun c => c.agent == agent)).map (·.line)).foldl (fun m l => m.evict agent l) (m.drain agent)

/-! ### Engine resets (R475, R480, R481) -/

/-- Whether an engine is one that the table of R265 or R422 numbers. -/
def engValid (e : EngineId) : Bool :=
  match e.kind with
  | 0 => decide (e.num < 288)
  | 1 => decide (e.num < 64)
  | 2 => decide (e.num < 128)
  | 3 => decide (288 ≤ e.num) && decide (e.num < 448)
  | 4 => decide (e.num < 12) && e.num != 3 && e.num != 5
  | _ => false

/-- The cause of a stalled cone and its window in µs (R475, R479). -/
def coneCause (e : EngineId) : Nat × Nat :=
  match e.kind with
  | 0 => (0x10, 500000)
  | 1 => (0x11, 50000)
  | 2 => (0x18, 10000)
  | 3 => (if e.num < 384 then 0x12 else 0x13, 50000)
  | _ => if e.num ≤ 2 then (0x16, 100000) else if e.num = 4 then (0x17, 1000)
         else if e.num < 10 then (0x14, 10000) else (0x15, 10000)

/-- Whether a packet's transfers wait on a page request or an invalidation, with none in flight. -/
def DmaRun.onTimer (d : DmaRun) : Bool :=
  d.reads.isEmpty && (match d.st with | .faulted _ _ => true | .translating _ _ => !d.late.isEmpty | _ => false)

/-- Whether an engine has a fetch that waits for a tracker entry, or for the answer that the request timer bounds (R269). -/
def Main.fetching (m : Main) (issuer : Nat) : Bool :=
  let mine (w : Requester) : Bool := match w with
    | .gather x _ => 288 + x == issuer
    | .stream x _ => 288 + x == issuer
    | _ => false
  m.fab.waitReqs.any (fun w => mine w.who) || m.fab.entries.any (fun x => mine x.who)

/-- Whether a collective has something to do: a message of it has arrived, or only its completion is left. One that waits for stage
messages does so under the collective timer, which moves the cone (R304, R475). -/
def Main.collWorks (m : Main) (r : CollRun) : Bool :=
  r.isOver || m.fab.arrived.any (fun g => (g.op == 0x50 || g.op == 0x51) && g.span == r.span && fieldAt g.data 0 4 == r.collId)

/-- Whether an engine has work that moves its cone and waits on no other timer. -/
def Main.engWorks (m : Main) (e : EngineId) : Bool :=
  match e.kind with
  | 0 => m.cores.wgs.any (fun w => w.core == e.num)
  | 1 => m.host.dmas.any (fun d => d.engine == e.num && !d.onTimer)
  | 2 => m.laneActive e.num
  | 3 =>
    if e.num < 384 then
      (match m.eng[if e.num < 352 then e.num - 288 else 64 + (e.num - 352)]? with | some x => !x.queue.isEmpty | none => false) &&
        !m.fetching e.num
    else m.colls.any (fun r => m.collWorks r && some r.span == (engCluster e).map m.clusterSagger)
  | _ => true

/-- Queue processor k hands its queues to its partner (R123, R480). -/
def Main.handQueues (m : Main) (k : Nat) : Main :=
  let go (x : Queue) : Queue := if x.proc = k then { x with proc := if k % 2 = 0 then k + 1 else k - 1 } else x
  { m with objs := { m.objs with queues := m.objs.queues.map go } }

/-- The handling under way that an engine's error joins (R482): a device reset, that of its sagger, or its own reset. -/
def Main.engJoins (m : Main) (e : EngineId) : Option (Option Nat) :=
  match m.rcv.dev, m.rcv.handlings.find? (fun h => m.inSagger h.sagger e), m.rcv.resets.find? (fun r => r.eng == e) with
  | some d, _, _ => some d.recId
  | none, some h, _ => some (some h.recId)
  | none, none, some r => some (some r.recId)
  | none, none, none => none

/-- An engine reset begins: its record, and the engine is out of use; a queue processor's queues move to its partner (R123, R480). -/
def Main.resetNow (m : Main) (x : ErrNew) : Main :=
  let e := x.source
  match m.engJoins e with
  | some p => (m.newErr { x with parent := p } .joined).2
  | none =>
    let (id, m1) := m.newErr x .handling
    if m1.rcv.dev.isSome then m1
    else
      let m2 : Main := { m1 with rcv := { m1.rcv with resets := m1.rcv.resets ++ [{ eng := e, recId := id, since := m1.time }] } }
      if e.kind ≠ 4 then m2
      else (if 6 ≤ e.num ∧ e.num ≤ 9 then m2.handQueues (e.num - 6) else m2).egResetProc e.num

/-- An error of ENGINE severity. -/
def Main.beginReset (m : Main) (e : EngineId) (cause : Nat) (detail : Nat) : Main :=
  let x : ErrNew := { sev := .engine, cause := cause, sagger := m.engSagger e, source := e, detail := detail }
  if m.errorsWait then m.putOff .engine x else m.resetNow x

/-- One error that has waited is handled. -/
def Main.handleRaised (m : Main) (r : Raised) : Main :=
  match r.how with
  | .note => m.noteNow r.err
  | .engine => m.resetNow r.err
  | .sagger scrub wave => m.saggerNow r.err scrub wave
  | .device cold => m.deviceNow r.err cold

/-- The errors that have waited are handled, in arrival order (R476, R487). -/
def Main.takeRaised (m : Main) : Main := m.rcv.raised.foldl Main.handleRaised { m with rcv := { m.rcv with raised := [] } }

/-- The errors that have waited leave their records alone: what they would reset is reset already. -/
def Main.recordRaised (m : Main) : Main :=
  m.rcv.raised.foldl (fun m r => m.noteNow r.err) { m with rcv := { m.rcv with raised := [] } }

/-- The contexts of a core's work groups are lost, or end on this pier when they are another module's (R480). -/
def Main.loseCore (m : Main) (core : Nat) : Main :=
  let ids := ((m.cores.wgs.filter (fun w => w.core == core)).map (·.launch)).eraseDups
  ids.foldl (fun m id =>
    match m.launchOf id with
    | none => m
    | some l =>
      let m1 := m.modLaunch id (fun x => { x with fatal := true })
      match l.coord with
      | .queue q p => m1.loseContext l.ctx q.q p
      | .remote _ _ => (m1.discardWork id).modLaunch id (fun x => { x with killed := some .contextLost })) m

/-- Cores in an order in which spares come first: a spare that fails replaces no core. -/
def sparesFirst (cores : List Nat) : List Nat := cores.filter (fun c => c % 9 == 8) ++ cores.filter (fun c => c % 9 != 8)

/-- A core that fails its BIST is retired, and the spare of its cluster is swapped in when it can be (R486). -/
def Main.retireCore (m : Main) (core : Nat) : Main :=
  let m1 : Main := { m with cores := { m.cores with units := modNth m.cores.units core (fun u => { u with good := false }) } }
  let k := core / 9
  let spare := nth m.cores.units (k * 9 + 8) { good := false, inService := true, pos := 0, w := 0, lastSpan := 0 }
  if spare.inService || !spare.good || m.rcv.swaps.any (fun x => x.cluster == k) then
    { m1 with cores := { m1.cores with units := modNth m1.cores.units core (fun u => { u with inService := false }) } }
  else
    let stop (w : WorkGroup) : WorkGroup := if w.core / 9 = k ∧ w.state = .running then { w with state := .stopping } else w
    { m1 with
      cores := { m1.cores with wgs := m1.cores.wgs.map stop }
      rcv := { m1.rcv with swaps := m1.rcv.swaps ++ [{ cluster := k, core := core, since := m1.time, bad := true }] } }

/-- The running descriptor of an engine fails with POISONED; what it has outstanding no longer reaches it (R480). -/
def Main.failDescriptor (m : Main) (e : Nat) : Main :=
  let bad (r : RowRes) : RowRes := match r with
    | .todo _ _ => .failed .poisoned
    | .asked _ _ _ _ => .failed .poisoned
    | .data _ => .failed .poisoned
    | x => x
  let run (r : EngRun) : EngRun := match r with
    | .gather g => .gather { g with rows := g.rows.map bad }
    | .stream t => .stream { t with reqs := t.reqs.map (fun x => if x.st = .done then x else { x with st := .failed .poisoned }) }
    | .sample x => .sample { x with status := .poisoned }
    | .refused => .refused
  let mine (w : Requester) : Bool := match w with
    | .gather x _ => x == e
    | .stream x _ => x == e
    | _ => false
  let m1 := m.modEngine e (fun x => { x with run := x.run.map run })
  { m1 with fab := { m1.fab with
      entries := m1.fab.entries.map (fun x => if mine x.who then { x with who := .nobody } else x)
      waitReqs := m1.fab.waitReqs.filter (fun w => !mine w.who) } }

/-- Every transfer of a host mover is aborted, and its packets end FAULT_UNRESOLVED; the places of their page requests are free
(R355, R360). -/
def Main.abortMover (m : Main) (engine : Nat) : Main :=
  (List.range m.host.dmas.length).foldl (fun m i =>
    match m.host.dmas[i]? with
    | some d =>
      if d.engine ≠ engine then m
      else
        let m1 := if d.failed.isNone then m.dmaFault i else m
        let m2 := m1.modDma i (fun d => { d with st := .ready, reads := [], late := [] })
        if d.st.asked then m2.pageEnd d.fn else m2
    | none => m) m

/-- What a completed reset does to its engine (R480). -/
def Main.resetEffect (m : Main) (e : EngineId) (flushed bistOk : Bool) : Main :=
  match e.kind with
  | 0 =>
    let m1 := m.loseCore e.num
    let m2 := if flushed then m1.flushAgent (l1Agent e.num) else m1.killAgent (l1Agent e.num)
    if bistOk then m2 else m2.retireCore e.num
  | 1 => (m.abortMover e.num).ackInvs e.num
  | 3 =>
    if e.num < 352 then m.failDescriptor (e.num - 288)
    else if e.num < 384 then m.failDescriptor (64 + (e.num - 352))
    else (List.range m.colls.length).foldl (fun m i =>
      match m.colls[i]? with
      | some r => if some r.span = (engCluster e).map m.clusterSagger then m.failColl i .trackerLost else m
      | none => m) m
  | 4 => m.fabricBack
  | _ => m

/-- Elbor core 3 runs again: it reads the stall mark, writes its record and handles what has waited (R475, R476). -/
def Main.core3Back (m : Main) : Main :=
  let m1 := ({ m with rcv := { m.rcv with stallMark := none } } : Main).post 0x31 6 (3 * 4096 + 3) .ok 100000
  ((m1.noteErr { sev := .engine, cause := 0x19, source := ⟨4, 3⟩ }).takeRaised).egSettle

/-- A reset completes. -/
def Main.resetDone (e : EngineId) (flushed bistOk : Bool) (m : Main) : Out :=
  if e = ⟨4, 3⟩ ∧ m.rcv.stallMark.isSome then .next m.core3Back
  else match m.rcv.resets.find? (fun r => r.eng == e) with
  | none => .refused (.noSubject "engine reset")
  | some r =>
    let m1 : Main := { m with rcv := { m.rcv with resets := m.rcv.resets.erase r } }
    .next ((((m1.resetEffect e flushed bistOk).closeErr r.recId .done .ok).dmaPump).after.egSettle)

/-- A reset not finished 1 ms after it began escalates to its sagger (R481). -/
def Main.resetLate (e : EngineId) (m : Main) : Out :=
  match m.rcv.resets.find? (fun r => r.eng == e) with
  | none => .refused (.noSubject "engine reset")
  | some r =>
    let m1 := m.until (r.since + 1000000)
    let m2 : Main := { m1 with rcv := { m1.rcv with resets := m1.rcv.resets.erase r } }
    .next ((m2.closeErr r.recId .escalated .ok).saggerError (m.engSagger e) 0x40 e (some r.recId) 0 false none)

/-! ### The steps of a span's handling (R468-R470, R481) -/

/-- Whether a span's fence is complete: no tracker entry of it, and nothing of it busy. -/
def Main.fenceComplete (m : Main) (span : Nat) : Bool :=
  !m.fab.entries.any (fun e => e.span == span) &&
    !m.cores.wgs.any (fun w => match m.launchOf w.launch with | some l => l.span == span | none => false) &&
    !m.eng.any (fun e => e.queue.any (fun d => d.span == span)) &&
    !m.host.dmas.any (fun d => m.dmaOfSpan span d && !d.reads.isEmpty) && !m.colls.any (fun r => r.span == span && !r.isOver)

/-- The clusters that a span holds here. -/
def Main.spanClusters (m : Main) (span : Nat) : List Nat :=
  (List.range 32).filter (fun k => nth m.comp.coreOwner k .idle == .span span)

/-- Caches of a cluster written back and empty, and its cores' instruction caches empty (R470). -/
def Main.resetCluster (m : Main) (k : Nat) : Main :=
  let m1 := (rangeFrom (k * 10) 10).foldl Main.flushAgent m
  { m1 with cores := { m1.cores with icache := m1.cores.icache.filter (fun x => x.1 / 9 != k) } }

/-- Agents of a span's clusters that cannot flush die (R214, R470). -/
def Main.killAgents (m : Main) (span : Nat) (dead : List Nat) : Main :=
  (dead.filter (fun a => (m.spanClusters span).contains (a / 10))).foldl Main.killAgent m

/-- The fence is complete: the reset step runs, but for the agents named what the caches hold is written back. -/
def Main.fenceDone (span : Nat) (dead : List Nat) (m : Main) : Out :=
  match m.rcv.handlings.find? (fun h => h.sagger == span) with
  | none => .refused (.noSubject "handling")
  | some h =>
    if span = 0 ∨ h.step ≠ .fence then .refused (.noSubject "a fence of a span's sagger")
    else if !m.fenceComplete span then .refused (.notReady "fence")
    else
      let m1 := (m.spanClusters span).foldl Main.resetCluster (m.killAgents span dead)
      .next ((m1.modHandling span (fun h => { h with step := .reset })).payReceipts span)

/-- Extents in ZEROING will not exist: their EXT_CREATE is refused (R188). -/
def Main.refuseExtents (m : Main) (l : List Extent) : Main :=
  let gone := l.map (·.idx)
  let m1 : Main := { m with mem := { m.mem with
    zeroing := m.mem.zeroing.filter (fun z => match z.2 with | .extent i => !gone.contains i | _ => true)
    extents := m.mem.extents.filter (fun e => !gone.contains e.idx) } }
  gone.foldl (fun m i => m.answerHeld (.extent i) (Reply.refuse 0xFFFF)) m1

/-- Every extent of a span in ZEROING refused. -/
def Main.cancelExtents (m : Main) (span : Nat) : Main :=
  m.refuseExtents (m.mem.extents.filter (fun e => e.span == span && e.state == .zeroing))

/-- Every extent of a span destroyed and its channels zeroed, after every copy of their lines has gone (R213, R470 with SCRUB). -/
def Main.scrubSpan (m0 : Main) (span : Nat) : Main :=
  let m := m0.cancelExtents span
  let chans := (List.range 192).filter (fun c => nth m.comp.memOwner c .idle == .span span)
  let mine := m.mem.extents.filter (fun e => e.span == span)
  let m1 := m.walkLines (fun line => chans.contains (line * 128 / 2 ^ 32) || mine.any (fun e => e.ranges.any (inRange line)))
  let mem := chans.foldl (fun (x : Memory) c => x.zeroRange (c, 0, 0xC0000000)) m1.mem
  chans.foldl (fun m c => m.bump 2 4 c 0xC0000000)
    { m1 with mem := { mem with extents := mem.extents.filter (fun e => e.span != span) } }

/-- A handling ends: the sagger reopens, commands that waited are answered, and others may begin. -/
def Main.reopen (m : Main) (h : Handling) (s : Status) : Main :=
  let m1 : Main := { m with rcv := { m.rcv with handlings := m.rcv.handlings.erase h } }
  ((((m1.closeErr h.recId .done s).answerHeld (.reopen h.sagger) (Reply.good [])).startWaiting).after).flush

/-- The cores of a span's sagger that have failed their BIST in the reset step are retired; the swap is made within that step
(R13, R470, R486). -/
def Main.retireCores (m : Main) (span : Nat) (bad : List Nat) : Main :=
  (sparesFirst (bad.filter (fun c => (m.spanClusters span).contains (c / 9)))).foldl Main.admitWithout m

/-- The sagger reopens, without the cores named. -/
def Main.saggerReopen (span : Nat) (bad : List Nat) (m : Main) : Out :=
  match m.rcv.handlings.find? (fun h => h.sagger == span) with
  | none => .refused (.noSubject "handling")
  | some h =>
    if span = 0 ∨ h.step ≠ .reset then .refused (.notReady "reset step")
    else
      let m1 := m.retireCores span bad
      .next ((if h.scrub then m1.scrubSpan span else m1).reopen h .spanAborted)

/-- A handling that has not reopened 50 ms after it began escalates to a device reset. -/
def Main.saggerLate (span : Nat) (m : Main) : Out :=
  match m.rcv.handlings.find? (fun h => h.sagger == span) with
  | none => .refused (.noSubject "handling")
  | some h =>
    if h.step = .waiting then .refused (.notReady "a handling that has begun")
    else
      let m1 := (m.until (h.since + 50000000)).closeErr h.recId .escalated .ok
      .next (m1.deviceError 0x41 ⟨4, 3⟩ (some h.recId) span false)

/-! ### The module's sagger (R474, R483) -/

/-- Whether a quiesced module has come to rest. -/
def Main.atRest (m : Main) : Bool :=
  m.cores.wgs.isEmpty && m.eng.all (fun e => e.run.isNone) && !m.host.dmas.any (fun d => !d.reads.isEmpty) &&
    m.colls.all (·.isOver) && m.fab.entries.isEmpty

/-- Every cached line recalled. -/
def Main.recallAll (m : Main) : Main := m.walkLines (fun _ => true)

/-- Spare tracker banks in place of those that are missing of the sixteen, as far as there are any (R267, R483). -/
def replaceBanks (l : List BankState) : List BankState :=
  let n := min (16 - (l.filter (· == .active)).length) (l.filter (· == .spare)).length
  (l.foldl (fun (acc : List BankState × Nat) b =>
    if b == .spare && acc.2 != 0 then (acc.1 ++ [.active], acc.2 - 1) else (acc.1 ++ [b], acc.2)) ([], n)).1

/-- Wires that a remap replaces, in the order in which they failed: those that still find a spare of the 2,048 of their
direction leave, and the spares are in use (R10). -/
def remapWires : List (Nat × Nat) → List Nat → List (Nat × Nat) × List Nat
  | [], used => ([], used)
  | (d, w) :: r, used =>
    if nth used d 0 < 2048 then remapWires r (modNth used d (· + 1))
    else
      let x := remapWires r used
      ((d, w) :: x.1, x.2)

/-- Viaduct wires and control crossings remapped (R10, R168): a crossing works again unless no repair made it usable, and its four spare
reserved wires are not counted (DESIGN CHOICE, assumption log 102). -/
def Rcv.remap (r : Rcv) : Rcv :=
  let x := remapWires r.badWires r.spareWires
  { r with badWires := x.1, spareWires := x.2, crossings := [0, 1].map (fun c => !r.crossBad.contains c) }

/-- The module's sagger goes through its steps: a handling that waits begins, one that has come to rest is reset and
reopens. -/
def Main.moduleQuiesce (m : Main) : Out :=
  match m.rcv.handlings.find? (fun h => h.sagger == 0) with
  | none => .refused (.noSubject "handling of the module's sagger")
  | some h =>
    if h.step = .waiting then
      if m.mayHandle 0 then .next (m.startHandling h none) else .refused (.notReady "other handlings")
    else if !m.atRest then .refused (.notReady "the module's engines")
    else
      let m1 := m.recallAll
      let m2 : Main := { m1 with
        fab := { m1.fab with banks := replaceBanks m1.fab.banks }
        rcv := m1.rcv.remap }
      .next ((((([6, 7, 8, 9, 10, 11].foldl Main.egResetProc m2).reopen h .ok).dmaPump).fabricBack).egSettle)

/-- CONE_STALL (R475). -/
def Main.coneStall (e : EngineId) (m : Main) : Out :=
  if !engValid e then .refused (.noSubject "engine")
  else if !m.engWorks e then .refused (.notReady "an engine with work")
  else
    let c := coneCause e
    let kind := if e.kind = 4 then 3 else e.kind
    let m1 := m.post 0x31 6 (kind * 4096 + e.num) .ok c.2
    .next (if e.kind = 2 then m1 else m1.beginReset e c.1 0)

/-- INVALIDATION_ACK_TIMEOUT: an engine that has not acknowledged within 10 ms is reset (R360). -/
def Main.ackTimeout (engine : Nat) (m : Main) : Out :=
  match m.host.invs.find? (fun v => v.engines.contains engine) with
  | none => .refused (.noSubject "an acknowledgement to wait for")
  | some v => .next ((m.until (v.since + 10000000)).beginReset ⟨1, engine⟩ 0x11 0)

/-- ABORT (R472, R473). -/
def execAbort (span : Nat) (slot : BitVec 128) (s : State) : Outcome := onMain (Main.abortMsg span slot) s
/-- ENGINE_RESET_DONE (R360, R480). -/
def execEngineResetDone (e : EngineId) (flushed bistOk : Bool) (s : State) : Outcome :=
  onMain (Main.resetDone e flushed bistOk) s
/-- ENGINE_RESET_ESCALATION (R481). -/
def execEngineResetEscalation (e : EngineId) (s : State) : Outcome := onMain (Main.resetLate e) s
/-- SAGGER_FENCE_COMPLETE (R468, R470). -/
def execSaggerFenceComplete (span : Nat) (dead : List Nat) (s : State) : Outcome := onMain (Main.fenceDone span dead) s
/-- SAGGER_REOPEN (R470). -/
def execSaggerReopen (span : Nat) (bad : List Nat) (s : State) : Outcome := onMain (Main.saggerReopen span bad) s
/-- MODULE_QUIESCE (R474). -/
def execModuleQuiesce (s : State) : Outcome := onMain Main.moduleQuiesce s
/-- INVALIDATION_ACK_TIMEOUT (R360). -/
def execInvalidationAckTimeout (engine : Nat) (s : State) : Outcome := onMain (Main.ackTimeout engine) s
/-- AGENT_DEATH (R214, R216). -/
def execAgentDeath (agent : Nat) (s : State) : Outcome :=
  onMain (fun m => if agent < 320 then .next (m.killAgent agent) else .refused (.noSubject "agent")) s

end Sys2Proof.Machine
end

