-- ==== Sys2Proof/Machine/Faults.lean ====
section
/-! DEFINITION. Errors of the module's shared parts: directory, atomic buffers, tracker banks, Viaduct wires, crossings, the
Seal processor (R10, R168, R217, R269, R479, R483), and the request timer. -/

namespace Sys2Proof.Machine

/-- SAGGER_ESCALATION (R481). -/
def execSaggerEscalation (span : Nat) (s : State) : Outcome := onMain (Main.saggerLate span) s

/-- Twenty-four hours in ns. -/
def dayNs : Nat := 86400000000000

/-- A corrected error of a directory entry is logged; an uncorrectable one: every line of the slice that may lie in one of the two sets is
recalled; the fourth in a slice within 24 hours escalates (R217, R479). -/
def Main.dirError (home line : Nat) (corrected : Bool) (m : Main) : Out :=
  if homeOf line ≠ home then .refused (.noSubject "a line of this home")
  else if corrected then .next (m.log (.directory line))
  else
    let sets := dirSets line
    let hit (l : Nat) : Bool :=
      let s := dirSets l
      homeOf l == home && (s.1 == sets.1 || s.1 == sets.2 || s.2 == sets.1 || s.2 == sets.2)
    let m1 := m.walkLines hit
    let recent := m.rcv.dirErrs.filter (fun x => x.1 == home && decide (m.time < x.2 + dayNs))
    let m2 : Main := { m1 with
      rcv := { m1.rcv with dirErrs := (home, m.time) :: recent ++ m1.rcv.dirErrs.filter (fun x => x.1 != home) } }
    let m3 := m2.noteErr { sev := .engine, cause := 0x21, source := ⟨5, home⟩, detail := line }
    .next (if 3 ≤ recent.length then m3.deviceError 0x44 ⟨5, home⟩ none line false else m3)

/-- An uncorrectable line of an atomic buffer poisons that line in memory (R217). -/
def Main.bufError (home line : Nat) (m : Main) : Out :=
  match m.coh.bufOf line with
  | none => .refused (.noSubject "buffered line")
  | some _ =>
    if homeOf line ≠ home then .refused (.noSubject "a line of this home")
    else
      let m1 : Main := { m with mem := m.mem.poisonLine line, coh := (m.coh.dropBuf line).dropEntry line }
      .next ((m1.postMemory (line * 128 / 2 ^ 32) 1 (line * 128)).noteErr
        { sev := .corrected, cause := 0x01, poison := true, status := .poisoned, source := ⟨5, home⟩, detail := line * 128 })

/-- A tracked request whose timer has expired ends TRACKER_LOST (R269). -/
def Main.requestTimer (bank entry : Nat) (m : Main) : Out :=
  match m.fab.entries.find? (fun e => e.bank == bank && e.entry == entry) with
  | none => .refused (.noSubject "tracker entry")
  | some e => .next (((m.until e.deadline).finishTrack e (.fail .trackerLost)).after)

/-- Requests that wait are tried again; a free entry lets the oldest leave (R267). -/
def Main.entryFree (m : Main) : Out :=
  if m.fab.waitReqs.isEmpty then .refused (.noSubject "a waiting request")
  else if m.freeEntry.isNone then .refused (.notReady "tracker entry")
  else .next m.pump.after

/-- A tracker bank fails: its entries end TRACKER_LOST and the bank leaves the rotation (R483). -/
def Main.bankError (bank : Nat) (m : Main) : Out :=
  match m.fab.banks[bank]? with
  | none => .refused (.noSubject "tracker bank")
  | some b =>
    if b = .retired then .refused (.noSubject "an active or spare bank")
    else
      let m1 : Main := { m with fab := { m.fab with banks := m.fab.banks.set bank .retired } }
      let m2 := (m.fab.entries.filter (fun e => e.bank == bank)).foldl (fun m e => m.finishTrack e (.fail .trackerLost)) m1
      .next ((m2.noteErr { sev := .engine, cause := 0x20, source := ⟨5, bank⟩, detail := bank }).after)

/-- A Viaduct wire fails beyond correction (R10, R479): each direction has 43,008. It stays in service until a remap. -/
def Main.wireError (dir wire : Nat) (m : Main) : Out :=
  if 2 ≤ dir ∨ 43008 ≤ wire then .refused (.noSubject "Viaduct wire")
  else
    let m1 : Main := { m with rcv := { m.rcv with badWires := m.rcv.badWires.filter (· != (dir, wire)) ++ [(dir, wire)] } }
    .next (m1.saggerError 0 0x30 ⟨5, dir⟩ none wire false none)

/-- A control-network crossing fails (R168). -/
def Main.crossingError (x : Nat) (m : Main) : Out :=
  match m.rcv.crossings[x]? with
  | some true =>
    let m1 : Main := { m with rcv := { m.rcv with crossings := m.rcv.crossings.set x false } }
    .next (m1.saggerError 0 0x31 ⟨5, x⟩ none x false none)
  | _ => .refused (.noSubject "a working crossing")

/-- The Seal processor faults (R479). -/
def Main.sealFault (m : Main) : Out := .next (m.deviceError 0x44 ⟨4, 5⟩ none 0 false)

/-- A spare-core swap not finished within 50 ms (R486): a core that has failed its BIST is lost (R13), and the command that asked for the
swap has had no effect (DESIGN CHOICE, assumption log 93). -/
def Main.swapLate (k : Nat) (m : Main) : Out :=
  match m.rcv.swaps.find? (fun x => x.cluster == k) with
  | none => .refused (.noSubject "swap")
  | some x =>
    let m1 := m.until (x.since + 50000000)
    let m2 : Main := { m1 with
      cores := { m1.cores with units := modNth m1.cores.units x.core (fun u => { u with inService := u.inService && !x.bad }) }
      rcv := { m1.rcv with swaps := m1.rcv.swaps.erase x } }
    .next ((m2.answerHeld (.swap k) (Reply.refuse 0xFFFF)).saggerError (m.clusterSagger k) 0x40 ⟨0, x.core⟩ none k false none)

/-- Whether the cluster of a swap has come to rest: its work groups saved, its engines between descriptors. -/
def Main.clusterStill (m : Main) (k : Nat) : Bool :=
  !m.cores.wgs.any (fun w => w.core / 9 == k) &&
    [2 * k, 2 * k + 1, 64 + k].all (fun e => match m.eng[e]? with | some x => x.run.isNone | none => true)

/-- The spare takes the failed core's place under its rank, and the cluster resumes; a handover of the cluster, or a reset of its
sagger up to the reset step, comes first (R12, R333, R486). -/
def Main.swapDone (k : Nat) (m : Main) : Out :=
  match m.rcv.swaps.find? (fun x => x.cluster == k) with
  | none => .refused (.noSubject "swap")
  | some x =>
    let leaving := m.comp.recs.any (fun r => r.handovers.any (fun h => h.kind == .core && h.num == k && h.leave && !h.complete))
    let resetting := m.rcv.handlings.any (fun h => h.sagger == m.clusterSagger k && h.step != .reset)
    if !m.clusterStill k || leaving || resetting then .refused (.notReady "the cluster")
    else
      let place := match m.cores.units[x.core]? with | some u => u.pos | none => 8
      let m1 := (rangeFrom (k * 10) 9).foldl Main.flushAgent m
      let units := modNth (modNth m1.cores.units x.core (fun u => { u with good := false, inService := false, pos := 8 }))
        (k * 9 + 8) (fun u => { u with inService := true, pos := place })
      let m2 : Main := { m1 with
        cores := { m1.cores with units := units }
        rcv := { m1.rcv with swaps := m1.rcv.swaps.erase x } }
      .next (m2.answerHeld (.swap k) (Reply.good []))

/-- DIRECTORY_ENTRY_ERROR (R217). -/
def execDirectoryEntryError (home line : Nat) (corrected : Bool) (s : State) : Outcome := onMain (Main.dirError home line corrected) s
/-- ATOMIC_BUFFER_ERROR (R217). -/
def execAtomicBufferError (home line : Nat) (s : State) : Outcome := onMain (Main.bufError home line) s
/-- REQUEST_TIMER_EXPIRY (R269). -/
def execRequestTimerExpiry (bank entry : Nat) (s : State) : Outcome := onMain (Main.requestTimer bank entry) s
/-- TRACKER_ENTRY_FREE (R267, R324). -/
def execTrackerEntryFree (s : State) : Outcome := onMain Main.entryFree s
/-- TRACKER_BANK_ERROR (R483). -/
def execTrackerBankError (bank : Nat) (s : State) : Outcome := onMain (Main.bankError bank) s
/-- VIADUCT_WIRE_ERROR (R10, R479). -/
def execViaductWireError (dir wire : Nat) (s : State) : Outcome := onMain (Main.wireError dir wire) s
/-- CONTROL_CROSSING_FAILURE (R168, R479). -/
def execControlCrossingFailure (crossing : Nat) (s : State) : Outcome := onMain (Main.crossingError crossing) s
/-- SEAL_PROCESSOR_FAULT (R479). -/
def execSealProcessorFault (s : State) : Outcome := onMain Main.sealFault s
/-- SWAP_ESCALATION (R486). -/
def execSwapEscalation (cluster : Nat) (s : State) : Outcome := onMain (Main.swapLate cluster) s
/-- SPARE_SWAP_COMPLETE (R12, R486). -/
def execSpareSwapComplete (cluster : Nat) (s : State) : Outcome := onMain (Main.swapDone cluster) s

end Sys2Proof.Machine
end

