-- ==== Sys2Proof/Machine/Messages.lean ====
section
/-! DEFINITION. Requests of other piers served here, and their answers to this pier's (R253, R282-R291, R321-R323). -/

namespace Sys2Proof.Machine

/-! ### Answers (R265, R282) -/

/-- An answer to a request: its tag echo, back to its source. -/
def Main.respond (m : Main) (g : Msg) (op : Nat) (data : List Byte) (poison : Bool) : Main :=
  m.send { op := op, dest := g.src, src := m.fab.module, span := g.span, epoch := g.epoch, hops := 1, ord := false,
           tag := g.tag, data := data, poison := poison, rr := none }

/-- ERR with a status; SAGGER_CLOSED carries the abort number (R468). -/
def Main.respondErr (m : Main) (g : Msg) (s : Status) (abort : Nat) : Main :=
  m.respond g 0x24 (toBytes 16 (s.code + abort * 2 ^ 16)) false

/-! ### The request slot (R283) -/

def rqAddr (g : Msg) : Nat := fieldAt g.data 0 8 % 2 ^ 52
def rqBytes (g : Msg) : Nat := fieldAt g.data 0 8 / 2 ^ 52 + 1
def rqLc (g : Msg) : Nat := fieldAt g.data 8 2 / 4

/-- Reserved fields and the landing counter of a request. -/
def rqFields (g : Msg) (lands : Bool) : Bool :=
  decide (16 ≤ g.data.length) && fieldAt g.data 8 2 % 4 == 0 && zeroAt g.data 10 6 && (lands || rqLc g == 0)

/-- A request of 4, 8 or 16 bytes with its address aligned. -/
def rqSmall (g : Msg) : Bool := [4, 8, 16].contains (rqBytes g) && rqAddr g % rqBytes g == 0

/-- A bulk request: multiples of 16, inside one 4 KiB page. -/
def rqBulk (g : Msg) : Bool :=
  rqAddr g % 16 == 0 && rqBytes g % 16 == 0 && rqAddr g / 4096 == (rqAddr g + rqBytes g - 1) / 4096

/-- Whether a reserved field of a request slot is not zero (R253, R283). -/
def rqReserved (g : Msg) : Bool := fieldAt g.data 8 2 % 4 != 0 || !zeroAt g.data 10 6

/-! ### Where a request is served (R284, R321) -/

/-- What a target does with a request. -/
inductive Serve where
  | go
  | wait
  | moved (epoch : Nat) (loc : Option (Nat × Nat))
  | err (s : Status)
  deriving DecidableEq, Repr

/-- Whether an address lies in an extent that has left the span in this transition (R321). -/
def SpanRec.goneAt (r : SpanRec) (sa : Nat) : Bool :=
  r.gone.any (fun x => decide (x.1 * 0x200000 ≤ sa) && decide (sa < (x.1 + x.2) * 0x200000))

/-- Whether an address lies in an extent of another span on grains that the transition takes and that have not arrived (R321,
R331). -/
def Main.arriving (m : Main) (r : SpanRec) (sa : Nat) : Bool :=
  m.mem.extents.any (fun e => e.span != r.id && e.covers sa && (e.mask &&& r.shadow.mem &&& ~~~r.current.mem) != 0)

/-- Where a relocated rank is served under the next epoch: its module and rank (R321, R322). -/
def SpanRec.moveTo (r : SpanRec) : Option (Nat × Nat) :=
  if r.reloc.contains r.current.rank then
    match r.nextPiers[r.current.rank]? with
    | some mod => some (mod, r.current.rank)
    | none => none
  else none

/-- A request of the next epoch, served under the SHADOW (R312, R321). -/
def Main.serveNext (m : Main) (r : SpanRec) (sa : Nat) : Serve :=
  if !r.shadow.valid then .err .notPermitted
  else
    match m.mem.extentOf r.id sa with
    | some e => if (e.mask &&& r.shadow.mem) = 0 then .err .notPermitted else .go
    | none => if m.arriving r sa then .wait else .go

/-- A request of the epoch before the switch, in DRAIN (R321). -/
def Main.serveOld (m : Main) (r : SpanRec) (sa : Nat) : Serve :=
  match m.mem.extentOf r.id sa with
  | some e => if (e.mask &&& r.current.mem) = 0 then .err .notPermitted else .go
  | none => if r.goneAt sa then .moved r.shadow.epoch r.moveTo else .go

/-- A request tagged with an epoch, at an address, as the span's record has it (R284 step 3, R312, R321). -/
def Main.epochServe (m : Main) (r : SpanRec) (epoch sa : Nat) : Serve :=
  if epoch = r.current.epoch then
    if !r.current.valid then .err .notPermitted
    else if r.phase = .drain then m.serveOld r sa
    else .go
  else if r.phase ≠ .stable ∧ epoch = (r.current.epoch + 1) % 2 ^ 16 then m.serveNext r sa
  else .err .epochStale

/-- The checks of R284 steps 1 to 4. -/
def Main.serveCheck (m : Main) (g : Msg) (len : Nat) : Serve :=
  match m.recOf g.span with
  | none => .err .notPermitted
  | some r =>
    if m.fenced g.span then .err .saggerClosed
    else
      match m.epochServe r g.epoch (rqAddr g) with
      | .go => if m.mem.holdsRange g.span (rqAddr g) len then .go else .err .notPermitted
      | x => x

/-- The move notice (R322). -/
def moveSlot (epoch : Nat) (loc : Option (Nat × Nat)) : List Byte :=
  toBytes 16 (epoch * 2 ^ 40 + (match loc with | some (mod, rank) => 2 ^ 39 + mod * 2 ^ 26 + rank * 2 ^ 13 | none => 0))

/-- A request whose epoch is the next one, or ahead, and is not served is logged (R312). -/
def Main.logStale (m : Main) (g : Msg) : Main :=
  match m.recOf g.span with
  | some r => if (g.epoch + 65536 - r.current.epoch) % 65536 < 0x8000 then m.log (.epoch g.src g.span g.epoch) else m
  | none => m

/-- A core's request to its own pier leaves no older copy at the core (R219, R220). -/
def Main.ownSees (m : Main) (g : Msg) : Main :=
  let issuer := bits g.tag 20 12
  if g.src = m.fab.module ∧ issuer < 288 then
    (m.spanLines g.span (rqAddr g) (rqBytes g)).foldl (fun m l => m.applyOwn issuer l) m
  else m

/-- A request served, or answered, or kept waiting at the target (R284, R321); one with a reserved field that is not zero is counted
as discarded (R253). -/
def Main.serve (m : Main) (g : Msg) (legal : Bool) (go : Main → Main) : Main :=
  if !legal then (if rqReserved g then m.bump 5 1 0 1 else m).respondErr g .notPermitted 0
  else
    match m.serveCheck g (rqBytes g) with
    | .go => (go m).ownSees g
    | .wait => m.modRec g.span (fun r => { r with waiting := r.waiting ++ [g] })
    | .moved e loc => m.respond g 0x23 (moveSlot e loc) false
    | .err .saggerClosed => m.respondErr g .saggerClosed (if m.quiesced then 0 else m.abortNum g.span)
    | .err .epochStale => (m.logStale g).respondErr g .epochStale 0
    | .err s => m.respondErr g s 0

/-! ### The operations (R284, R289-R291) -/

/-- RD and BULKRD: bytes of UR reads, with the poison of their lines (R282, R284). -/
def Main.serveRead (m : Main) (g : Msg) (op : Nat) : Main :=
  let (d, bad, m1) := m.spanRead g.span (rqAddr g) (rqBytes g)
  m1.respond g op (if op = 0x20 then padSlots d else d) bad

/-- Whether a landing counter may be advanced by a write of a span: allocated to a context of it (R291). -/
def Main.lcLands (m : Main) (span idx : Nat) : Bool :=
  match m.counterOf idx with
  | some c => (match m.ctxOf c.ctx with | some x => x.span == span | none => false)
  | none => false

/-- The position of a request's issuer at this pier, as its release has it (R222, R240): a core of another pier, or one of
its engines. -/
def Main.landing (m : Main) : RelRec := m.modPos 3

/-- A write performed, line by line: in the atomic buffers when it carries a record, else as IWF or IWP (R191, R239, R284). -/
def Main.landWrite (m : Main) (g : Msg) (data : List Byte) : Main :=
  match g.rr with
  | some r =>
    (cutLines (data.length / 128 + 2) (rqAddr g) data).foldl (fun m p =>
      match m.mem.translate g.span p.1 with
      | some lpa => (m.placeHome (lpa / 128)).bufWrite (lpa / 128) (lpa % 128) p.2 g.poison (some r)
      | none => m) m
  | none => m.spanWrite g.span (rqAddr g) data g.poison

/-- WR and BULKWR: performed, counted, acknowledged (R231, R284, R290). -/
def Main.serveWrite (m : Main) (g : Msg) : Main :=
  if !m.lcLands g.span (rqLc g) then m.respondErr g .notPermitted 0
  else
    let m1 := m.landWrite g ((g.data.drop 16).take (rqBytes g))
    (m1.advanceCounter (rqLc g) (rqBytes g) m1.landing).respond g 0x22 [] false

/-- The operation of an ATOM. -/
def atomOpOf (op : Nat) : Option AtomOp :=
  [AtomOp.add, .smin, .smax, .umin, .umax, .and, .or, .xor, .exch, .cas, .fadd][op - 0x10]?

/-- The sizes an atomic has (R96): 4 or 8 bytes, FADD 4. -/
def atomSizeOk (op n : Nat) : Bool := n == 4 || (n == 8 && op != 0x1A)

/-- ATOM: performed at its home; a poisoned line makes it fail (R192, R284). -/
def Main.serveAtom (m : Main) (g : Msg) : Main :=
  match atomOpOf g.op, m.mem.translate g.span (rqAddr g) with
  | some op, some lpa =>
    let n := rqBytes g
    let (r, m1) := m.homeAT lpa op n ((g.data.drop 16).take n) ((g.data.drop (16 + n)).take n) g.rr
    if r.poison then m1.respondErr g .poisoned 0 else m1.respond g 0x21 (padSlots r.old) false
  | _, _ => m.respondErr g .notPermitted 0

/-- A request performed by its kind. -/
def Main.perform (m : Main) (g : Msg) : Main :=
  if g.op = 0x01 then m.serve g (rqFields g false && rqSmall g && g.data.length == 16) (fun m => m.serveRead g 0x20)
  else if g.op = 0x03 then m.serve g (rqFields g false && rqBulk g && g.data.length == 16) (fun m => m.serveRead g 0x40)
  else if g.op = 0x30 then
    m.serve g (rqFields g true && rqSmall g && g.data.length == 32) (fun m => m.serveWrite g)
  else if g.op = 0x31 then
    m.serve g (rqFields g true && rqBulk g && decide (rqBytes g ≤ 4080) && g.data.length == 16 + rqBytes g)
      (fun m => m.serveWrite g)
  else
    m.serve g (rqFields g false && rqSmall g && atomSizeOk g.op (rqBytes g) && g.data.length == 32) (fun m => m.serveAtom g)

/-- Whether a later request may be performed: no earlier ordered one of its channel, source and span waits, among those that have
arrived or at the span's target (R287, R321). -/
def Main.inOrder (m : Main) (g : Msg) : Bool :=
  let parked := match m.recOf g.span with | some r => r.waiting | none => []
  !g.ord || !((parked ++ m.fab.arrived.takeWhile (· != g)).any (fun x => x.ord && x.src == g.src && x.span == g.span &&
    opChannel x.op == opChannel g.op))

/-- Whether a request that has arrived has its place at every line that it waits for. -/
def Main.hasTurns (m : Main) (g : Msg) : Bool :=
  (m.spanLines g.span (rqAddr g) (rqBytes g)).all (fun l => m.coh.waiting.any (fun r => r == .turn (.message g) l))

/-- A request that has arrived is served, or takes its place at the homes of its lines (R208). -/
def Main.request (ok : Nat → Bool) (g : Msg) (m : Main) : Out :=
  if !ok g.op || msgReserved g then .refused (.noSubject "a message of this kind")
  else if !m.inOrder g then .refused (.notReady "an earlier ordered request")
  else match m.takeMsg g with
    | none => .refused (.noSubject "message")
    | some m1 =>
      if m.spanHeld (some (.message g)) g.span (rqAddr g) (rqBytes g) then
        if m.hasTurns g then .refused (.notReady "a line's home")
        else .next (m.takeTurns (.message g) (m.spanLines g.span (rqAddr g) (rqBytes g)))
      else .next (((m1.leaveTurns (.message g) (fun _ => true)).perform g).after)

/-! ### Answers that come here (R265, R284, R323, R484) -/

/-- The tracker entry that an answer matches (R268, R484). -/
def Main.matchTrack (m : Main) (g : Msg) : Option TrackEntry :=
  m.fab.entries.find? (fun e => e.bank == bits g.tag 39 35 && e.entry == bits g.tag 34 25 && e.gen == bits g.tag 24 21 &&
    nth m.fab.banks e.bank .retired != .retired)

/-- An orphan: counted by OP and discarded (R484). -/
def Main.orphan (m : Main) (g : Msg) : Main :=
  m.bump 6 0 g.op 1

/-- An answer that has arrived. -/
def Main.response (op : Nat) (f : Main → TrackEntry → Main) (g : Msg) (m : Main) : Out :=
  if g.op ≠ op ∨ msgReserved g = true then .refused (.noSubject "a message of this kind")
  else match m.takeMsg g with
    | none => .refused (.noSubject "message")
    | some m1 =>
      match m1.matchTrack g with
      | none => .next (m1.orphan g)
      | some e => .next ((f m1 e).after)

/-- A reissue to where the data has moved (R323); without a link grain of the span that leads there it does not leave (R266). -/
def Main.reissue (m : Main) (e : TrackEntry) (epoch dest : Nat) : Main :=
  let e1 := { e with reissued := true, retry := e.retry + 1, epoch := epoch, dest := dest,
                     deadline := m.time + m.param 4 * 1000 }
  let m1 : Main := { m with fab := { m.fab with
    entries := modWhere m.fab.entries (fun x => x.bank == e.bank && x.entry == e.entry) (fun _ => e1) } }
  let g := e1.msg m1.fab.module
  if dest ≠ m1.fab.module ∧ (m1.candidates g).isEmpty then m1.finishTrack e1 (.fail .notPermitted) else m1.send g

/-- MOVE; one with a reserved bit of its notice set is discarded and counted (R253, R322, R323). -/
def Main.moved (g : Msg) (m : Main) (e : TrackEntry) : Main :=
  let v := ofBytes g.data
  if bits v 127 56 ≠ 0 ∨ bits v 12 0 ≠ 0 then m.bump 5 1 0 1 else
  if !bit v 39 || e.retry == 3 then m.finishTrack e (.fail .epochStale)
  else m.reissue e (bits v 55 40) (bits v 38 26)

/-- ERR: the request ends with its status; SAGGER_CLOSED also tells of an abort (R472, R473). A reserved status ends it NOT_PERMITTED
(DESIGN CHOICE, assumption log 81: R6 tells only software what to make of one). -/
def Main.failed (g : Msg) (m : Main) (e : TrackEntry) : Main :=
  let s := (Status.ofCode (fieldAt g.data 0 2)).getD .notPermitted
  let m1 := m.finishTrack e (.fail s)
  if s = .saggerClosed then m1.takeAbort e.span (fieldAt g.data 2 2) ⟨4, 3⟩ false else m1

/-! ### Reserved messages (R253) -/

/-- A reserved message is discarded and counted; a request or landing is answered (R253). -/
def Main.reservedMsg (g : Msg) (m : Main) : Out :=
  if !msgReserved g then .refused (.noSubject "a reserved message")
  else match m.takeMsg g with
    | none => .refused (.noSubject "message")
    | some m1 =>
      let m2 := m1.bump 5 1 0 1
      match opChannel g.op with
      | some 0 => .next (m2.respondErr g .notPermitted 0)
      | some 3 => .next (m2.respondErr g .notPermitted 0)
      | _ => .next m2

/-! ### Fence signals of other piers (R234, R380, R396) -/

/-- The packet that a signal to another module waits in. -/
def Main.signalPacket (m : Main) (id : Nat) : Option (QRef × Packet) :=
  let q : QRef := ⟨id / 2 ^ 32 / 64, id / 2 ^ 32 % 64⟩
  (m.queueOf q).bind (fun x => (x.running.find? (fun p => p.pidx == id % 2 ^ 32 && p.waiting && pkType p.bytes == 4)).map
    (fun p => (q, p)))

/-- What a signal's packet can complete with on the target's word. -/
def signalAnswers : List Status := [.ok, .fenceAbandoned, .notPermitted]

/-- A signal is applied and acknowledged, the fence keeping its record when the signaller's context is in checked mode (R239); or the
answer to one of this module's completes its packet: TRACKER_LOST when the request timer has run out (R380). -/
def Main.fenceMsg (sig : FenceSignal) (m : Main) : Out :=
  match sig.answer with
  | some s =>
    match m.signalPacket sig.id with
    | some (q, p) =>
      if s = .trackerLost then .next ((m.until p.due).completePacket q p s 0 0)
      else if signalAnswers.contains s then .next (m.completePacket q p s 0 0)
      else .refused (.noSubject "an answer to a signal")
    | none => .refused (.noSubject "a signal that waits")
  | none =>
    let rr : RelRec := { scope := sig.scope, module := sig.sender, cluster := 0, core := 15, host := false, modLevel := true }
    let r := m.signalFence m.fab.module sig.sender sig.ctx sig.handle sig.value (if sig.checked then some rr else none)
    .next (r.2.sendCtrl (.fenceAck sig.sender sig.id r.1))

/-- RD (R284). -/
def execRd (g : Msg) (s : State) : Outcome := onMain (Main.request (· == 0x01) g) s
/-- BULKRD (R284). -/
def execBulkrd (g : Msg) (s : State) : Outcome := onMain (Main.request (· == 0x03) g) s
/-- ATOM (R284). -/
def execAtom (g : Msg) (s : State) : Outcome :=
  onMain (Main.request (fun o => decide (0x10 ≤ o) && decide (o ≤ 0x1A)) g) s
/-- WR (R231, R284, R290, R291). -/
def execWr (g : Msg) (s : State) : Outcome := onMain (Main.request (· == 0x30) g) s
/-- BULKWR (R231, R284, R290, R291). -/
def execBulkwr (g : Msg) (s : State) : Outcome := onMain (Main.request (· == 0x31) g) s
/-- RDATA (R285). -/
def execRdata (g : Msg) (s : State) : Outcome :=
  onMain (Main.response 0x20 (fun m e => m.finishTrack e (.data g.data g.poison)) g) s
/-- ADATA (R285). -/
def execAdata (g : Msg) (s : State) : Outcome :=
  onMain (Main.response 0x21 (fun m e => m.finishTrack e (.data g.data g.poison)) g) s
/-- WACK (R285). -/
def execWack (g : Msg) (s : State) : Outcome := onMain (Main.response 0x22 (fun m e => m.finishTrack e .ack) g) s
/-- MOVE (R323). -/
def execMove (g : Msg) (s : State) : Outcome := onMain (Main.response 0x23 (Main.moved g) g) s
/-- ERR (R285, R286, R472). -/
def execErr (g : Msg) (s : State) : Outcome := onMain (Main.response 0x24 (Main.failed g) g) s
/-- BDATA (R153, R296). -/
def execBdata (g : Msg) (s : State) : Outcome :=
  onMain (Main.response 0x40 (fun m e => m.finishTrack e (.data (g.data.take e.len) g.poison)) g) s
/-- RESERVED_MESSAGE (R253). -/
def execReservedMessage (g : Msg) (s : State) : Outcome := onMain (Main.reservedMsg g) s
/-- REMOTE_FENCE_SIGNAL (R380, R394, R396). -/
def execRemoteFenceSignal (sig : FenceSignal) (s : State) : Outcome := onMain (Main.fenceMsg sig) s

end Sys2Proof.Machine
end

