-- ==== Sys2Proof/Machine/Lanes.lean ====
section
/-! DEFINITION. Lanes, lasers, training and fabric time (R243-R279). -/

namespace Sys2Proof.Machine

namespace Lane

/-- The flits up to an acknowledged LSEQ leave the replay buffer (R254); the cone advances when there were any (R276). -/
def acked (l : Lane) (h : BitVec 128) (now : Nat) : Lane :=
  if fhAckv h then
    match l.replay.findIdx? (fun f => fhLseq f.flit.hdr == fhAck h) with
    | some i => { l with replay := l.replay.drop (i + 1), resends := 0, coneAt := now, waitAt := now }
    | none => l
  else l

/-- The credit returns of a header (R257). -/
def credited (l : Lane) (h : BitVec 128) : Lane :=
  (l.giveBack (bits h.toNat 59 57) (bits h.toNat 56 48)).giveBack (bits h.toNat 47 45) (bits h.toNat 44 36)

/-- What every good flit brings. -/
def heard (l : Lane) (h : BitVec 128) (now : Nat) : Lane := (l.acked h now).credited h

end Lane

/-! ### Unpacking (R251-R253) -/

/-- Slots of a payload. -/
def slotsOf (p : List Byte) : List (List Byte) := (List.range 15).map (fun i => (p.drop (16 * i)).take 16)

/-- Whether a message being received has all its data. -/
def Partial.full (p : Partial) : Bool := decide (bits p.hdr.toNat 53 45 * 16 ≤ p.data.length)

/-- One slot of a payload: the message being received, those received, each with its header. -/
def takeSlot (fl : Flit) (acc : Option Partial × List Partial) (x : List Byte × Nat) : Option Partial × List Partial :=
  let close (p : Partial) (done : List Partial) : Option Partial × List Partial :=
    if p.full then (none, done ++ [p]) else (some p, done)
  match acc.1 with
  | some p => close { p with data := p.data ++ x.1, poison := p.poison || fl.poison } acc.2
  | none =>
    if x.2 < fhFirst fl.hdr || fhFirst fl.hdr == 15 || ofBytes x.1 == 0 then acc
    else close { vc := fhVc fl.hdr, hdr := BitVec.ofNat 128 (ofBytes x.1), data := [], poison := fl.poison, rr := fl.rr } acc.2

/-- The messages that a flit completes, and what is left of one that goes on. A flit in which a message starts at slot 0 continues
none; of two that wait on a channel, after a lane was withdrawn, the one of that lane comes first (R251, R271). -/
def unpack (l : Lane) (fl : Flit) : List Partial × List Partial :=
  let vc := fhVc fl.hdr
  let cur := if fhFirst fl.hdr = 0 then none else l.incoming.find? (fun p => p.vc == vc)
  let r := ((slotsOf fl.payload).zipIdx).foldl (takeSlot fl) (cur, [])
  let rest := match cur with | some p => l.incoming.erase p | none => l.incoming
  (r.2, r.1.toList ++ rest)

/-- A message received on a lane: discarded when its header has a reserved bit, kept when it is at its destination, else sent on, those of
CTRL and ABORT too, on the channel on which they came; MGMT is link-local (R253, R256, R263). What CTRL, ABORT and MGMT messages tell this
module, their own rows say (assumption log 33). -/
def Main.received (m : Main) (i : Nat) (p : Partial) : Main :=
  let g := msgOf p.hdr p.data p.poison p.rr
  if bits p.hdr.toNat 44 40 ≠ 0 then
    let m1 := m.bump 5 1 0 1
    match opChannel g.op with
    | some 0 => m1.respondErr g .notPermitted 0
    | some 3 => m1.respondErr g .notPermitted 0
    | _ => m1
  else if msgReserved g then { m with fab := { m.fab with arrived := m.fab.arrived ++ [g] } }
  else if g.dest = m.fab.module then
    (if (opChannel g.op).isSome then { m with fab := { m.fab with arrived := m.fab.arrived ++ [g] } } else m)
  else
    match opChannel g.op with
    | some vc => if 4 ≤ g.hops then m.bump 5 1 0 1 else m.sendOn vc (some (i / 64)) { g with hops := g.hops + 1 }
    | none => if 4 ≤ g.hops ∨ p.vc < 5 ∨ p.vc = 7 then m.bump 5 1 0 1 else m.sendOn p.vc (some (i / 64)) { g with hops := g.hops + 1 }

/-- Whether a DATA flit is good: CRC and FEC (R250, R254). -/
def flitGood (fl : Flit) : Bool :=
  fl.fec != .uncorrectable && fhKind fl.hdr == 0 && fl.payload.length == 240 &&
    flitCrc (fl.hdr.toNat % 2 ^ 96) fl.payload == BitVec.ofNat 32 (fl.hdr.toNat / 2 ^ 96)

/-- What a good flit brings to a lane; a replay that has succeeded is logged (R255). -/
def Main.hear (m : Main) (i : Nat) (l : Lane) (h : BitVec 128) : Main :=
  let l1 := l.heard h m.time
  let m1 := m.modLane i (fun _ => l1)
  if l.resends ≠ 0 ∧ l1.resends = 0 then m1.log (.replay i) else m1

/-- The spare in progress of a lane. -/
def Main.sparingOf (m : Main) (i : Nat) : Option Sparing :=
  match m.fab.engines[i / 8]? with | some e => e.sparing.filter (fun s => s.lane == i) | none => none

/-- Whether an LSEQ is another one or comes after it, modulo 4,096. -/
def seqFrom (n x : Nat) : Bool := decide ((x % 4096 + 4096 - n % 4096) % 4096 < 2048)

/-- Whether the receiver of a lane takes flits from a physical lane: the one that serves it; during a hitless spare the old lane
until the LSEQ that the far end named, and the spare (R270 step 4). -/
def Main.takesFrom (m : Main) (i : Nat) (l : Lane) (phys : Nat) : Bool :=
  match m.sparingOf i with
  | some s =>
    if s.hitless && s.trained then phys == 8 || (phys == l.phys && s.cut.all (fun c => !seqFrom c l.rxSeq)) else phys == l.phys
  | none => phys == l.phys

/-- A codeword that FEC has corrected, or could not, counted (R254, R524). -/
def Main.countFec (m : Main) (i : Nat) (fec : Ecc) : Main :=
  match fec with
  | .clean => m
  | .corrected => m.bump 3 3 i 1
  | .uncorrectable => m.bump 3 4 i 1

/-- Whether a lane is one of an engine that is looped and lit (R522). -/
def Main.laneTests (m : Main) (i : Nat) : Bool :=
  match m.fab.engines[i / 8]? with | some e => e.loopback != 0 && e.laserOn | none => false

/-- A flit on a physical lane of a logical one. One that comes to a looped engine goes back as it is (R522). -/
def Main.dataFlit (i phys : Nat) (fl : Flit) (m0 : Main) : Out :=
  match m0.fab.lanes[i]? with
  | none => .refused (.noSubject "lane")
  | some l =>
    let m := m0.countFec i fl.fec
    if m.laneTests i then .next m
    else if l.st ≠ .active then .refused (.notReady "lane")
    else if !m.takesFrom i l phys then .refused (.noSubject "a physical lane that serves it")
    else if !flitGood fl || fhLseq fl.hdr != l.rxSeq then .next (m.modLane i (fun l => { l with nakSent := true }))
    else
      let (done, rest) := unpack l fl
      let m1 := (m.hear i l fl.hdr).modLane i (fun l =>
        { l with
          rxSeq := (l.rxSeq + 1) % 4096, rxAny := true, nakSent := false, incoming := rest,
          owed := modNth l.owed (fhVc fl.hdr) (· + 1) })
      .next ((done.foldl (fun m p => m.received i p) (m1.bump 3 1 i 1)).flush)

/-- An active lane's header taken, and what waits tried again. -/
def Main.onLane (m : Main) (i : Nat) (h : BitVec 128) (f : Main → Main) : Out :=
  match m.fab.lanes[i]? with
  | none => .refused (.noSubject "lane")
  | some l => if l.st ≠ .active then .refused (.notReady "lane") else .next ((f (m.hear i l h)).flush)

/-- CREDIT. -/
def Main.creditFlit (i : Nat) (h : BitVec 128) (m : Main) : Out :=
  if fhKind h ≠ 3 then .refused (.noSubject "a CREDIT flit") else m.onLane i h (fun m => m)

/-- IDLE: with a good CRC the cone advances (R276). In a loopback with IDLE flits a bad one counts as an uncorrectable codeword (R522;
DESIGN CHOICE, assumption log 95). -/
def Main.idleFlit (i : Nat) (h : BitVec 128) (good : Bool) (m : Main) : Out :=
  if fhKind h ≠ 1 then .refused (.noSubject "an IDLE flit")
  else if m.laneTests i then .next (if good || (m.optOf (i / 8)).pattern != 0 then m else m.countFec i .uncorrectable)
  else if good then m.onLane i h (fun m => m.modLane i (fun l => { l with coneAt := m.time }))
  else if m.laneActive i then .next m else .refused (.notReady "lane")

/-! ### Groups -/

/-- The ACTIVE lanes of a group. -/
def Main.activeIn (m : Main) (g : Group) : List Nat := (bitsSet 128 g.lanes.toNat).filter m.laneActive

/-- The lanes that ordered requests of a span take to a module from here: those of NH0 (R264, R266). -/
def Main.pinned (m : Main) (dest span : Nat) : List Nat :=
  match m.fab.routes.find? (fun r => r.dest == dest) with
  | some r =>
    match r.hops with
    | h :: _ => m.groupLanes h.1 { op := 0x01, dest := dest, src := m.fab.module, span := span, epoch := 0, hops := 1, ord := true,
                                   tag := 0, data := [], poison := false, rr := none }
    | [] => []
  | none => []

/-- The neighbour that NH0 leads to. -/
def Main.firstNeighbour (m : Main) (dest : Nat) : Nat :=
  match (m.fab.routes.find? (fun r => r.dest == dest)).bind (·.hops.head?) with
  | some h => (match m.fab.groups.find? (fun g => g.num == h.1) with | some g => g.neighbour | none => 0)
  | none => 0

/-- A change of the fabric, with the event of each span that had ordered requests outstanding on a route whose pinned lanes are no
longer the same (R264, R288). -/
def Main.keepingOrder (f : Main → Main) (m : Main) : Main :=
  let m1 := f m
  let lost := m.fab.entries.filter (fun e => e.ord && m.pinned e.dest e.span != m1.pinned e.dest e.span)
  ((lost.map (·.span)).eraseDups).foldl (fun m s =>
    m.postFabric s 8 (match lost.find? (fun e => e.span == s) with | some e => m.firstNeighbour e.dest | none => 0)) m1

/-- Messages of a lane's transmitter that are not begun go back to the forwarding stage, on the lane's half when they are in transit;
link-local ones do not (R256, R272). -/
def Main.giveBack (m : Main) (i : Nat) (which : Msg → Bool) : Main :=
  match m.fab.lanes[i]? with
  | none => m
  | some l =>
    let back (x : Nat × Msg × Nat) : Bool := x.2.2 == 0 && x.1 != 7 && which x.2.1
    let m1 := m.modLane i (fun l => { l with txq := l.txq.filter (fun x => !back x) })
    { m1 with fab := { m1.fab with outbox := m1.fab.outbox ++ (l.txq.filter back).map (fun x =>
      (x.1, if x.2.1.src = m.fab.module then none else some (i / 64), x.2.1)) } }

/-- A lane's transmitter and receiver emptied, once what is not begun has gone back. -/
def Main.emptyLane (m : Main) (i : Nat) : Main :=
  (m.giveBack i (fun _ => true)).modLane i (fun l => { l with txq := [], replay := [], resend := [], held := [], incoming := [] })

/-- A group leaves service: what its lanes had unacknowledged is discarded, what waits for it may take another way (R272). -/
def Main.groupOut (m : Main) (g : Group) : Main :=
  let m1 := (bitsSet 128 g.lanes.toNat).foldl Main.emptyLane m
  m1.postFabric g.num 3 g.neighbour

/-! ### Failing lanes (R270-R273) -/

/-- Whether a spare is available to a lane: it reaches the same neighbour, and what is known of its far end is the engine on which the
lane's far end lies (R245, R273). -/
def Main.spareFree (m : Main) (i : Nat) : Bool :=
  let e := m.optOf (i / 8)
  e.spare == .standby && e.spareUsed.isNone && e.sparing.isNone &&
    (match m.laneGroup i, m.fab.lanes[i]? with
      | some g, some l => g.spares.getLsbD (i / 8) &&
        e.spareFar.all (fun x => x.module == g.neighbour && x.engine == l.farEngine)
      | _, _ => false)

/-- A spare begun: both ends train, and exchange their identities (R270, R271, R275). -/
def Main.beginSpare (m : Main) (i : Nat) (hitless : Bool) (ask : CtrlMsg) : Main :=
  ((m.modOpt (i / 8) (fun o => { o with
    sparing := some { lane := i, hitless := hitless, known := false, trained := false, lseq := none, cut := none } })).sendFabric i ask).sendFabric i
      (.identity i)

/-- A withdrawn lane's flits put before the new traffic of the lowest of the lanes that may carry each (R271, R517); those that no lane of
the group may carry are discarded, as when the group leaves service (R272). -/
def Main.resendOn (m : Main) (act : List Nat) (x : OutFlit) : Main :=
  match act.find? (m.drillAllows x.span) with
  | some j => m.modLane j (fun t => { t with resend := t.resend ++ [x] })
  | none => m

/-- A lane withdrawn from a group that keeps others: what the far end has not accepted of its flits goes first on the lowest of them,
in LSEQ order, with what waited behind it and what is left of the messages begun; what it was receiving goes on the lane whose far end
is the lowest; the far end learns what was accepted here (R271). How much the far end reports to have accepted is open (assumption
log 73). -/
def Main.moveFlits (m : Main) (i j : Nat) (act : List Nat) : Main :=
  match m.fab.lanes[i]? with
  | none => m
  | some l =>
    let (v, m0) := m.draw
    let begun := (l.txq.filter (fun x => x.2.2 != 0)).flatMap (fun x => outFlits x.1 x.2.1 x.2.2)
    let lost := l.replay.drop (v % (l.replay.length + 1)) ++ l.resend ++ begun ++ l.held.flatMap (·.2)
    let far (x : Nat) : Nat := match m.fab.lanes[x]? with | some t => t.farEngine * 8 + t.farLane | none => 0
    let k := act.foldl (fun a x => if far x < far a then x else a) j
    let m1 := (lost.foldl (fun m x => m.resendOn act x) m0).modLane k (fun t => { t with incoming := l.incoming ++ t.incoming })
    (m1.emptyLane i).sendCtrl (.accepted i ((l.rxSeq + 4095) % 4096))

/-- A failed lane without a spare: it is withdrawn, or its group leaves service (R271). -/
def Main.withdraw (m : Main) (i : Nat) : Main :=
  let m1 := m.modLane i (fun l => { l with st := .failed })
  match m1.laneGroup i with
  | none => m1
  | some g =>
    match m1.activeIn g with
    | j :: r => (m1.moveFlits i j (j :: r)).postFabric i 2 g.neighbour
    | [] => m1.groupOut g

/-- A lane that has failed stops: its spare trains for it. -/
def Main.stopLane (m : Main) (i : Nat) : Main := m.modLane i (fun l => { l with st := .training })

/-- What the abrupt failure of a lane does to it (R271). A spare that trains for it goes on as an abrupt one, and takes over when it has
trained (R273). -/
def Main.dropLane (m : Main) (i : Nat) : Main :=
  let m0 := m.noteErr { sev := .engine, cause := 0x18, source := ⟨2, i⟩ }
  match m0.sparingOf i with
  | some s =>
    if s.trained ∧ m0.laneDark i = false ∧ m0.procOut (fabProc i) = false then m0.useSpare i
    else (m0.stopLane i).modOpt (i / 8) (fun o => { o with sparing := some { s with hitless := false } })
  | none => if m0.spareFree i then (m0.stopLane i).beginSpare i false (.spareRequest i true) else m0.withdraw i

/-- A lane fails abruptly (R271, R288). -/
def Main.failLane (m : Main) (i : Nat) : Main := Main.keepingOrder (fun m => m.dropLane i) m

/-- NAK: what it acknowledges leaves, and the first flit left is sent again; when 8 resends of it have not been accepted the lane has
failed (R254, R255). -/
def Main.nakFlit (i : Nat) (h : BitVec 128) (m : Main) : Out :=
  if fhKind h ≠ 2 then .refused (.noSubject "a NAK flit")
  else
    (m.bump 3 2 i 1).onLane i h (fun m =>
      match m.fab.lanes[i]? with
      | none => m
      | some l =>
        if l.replay.isEmpty then m
        else if 8 ≤ l.resends then m.failLane i
        else m.modLane i (fun l => { l with resends := l.resends + 1, waitAt := m.time, last := l.replay.getLast?.map (·.flit) }))

/-- LANE_ACK_TIMEOUT (R255). -/
def Main.ackLate (i : Nat) (m : Main) : Out :=
  match m.fab.lanes[i]? with
  | none => .refused (.noSubject "lane")
  | some l =>
    if l.st ≠ .active ∨ l.replay.isEmpty then .refused (.notReady "unacknowledged flits")
    else if 8 ≤ l.resends then .next ((m.failLane i).flush)
    else .next (((m.until (l.waitAt + 100000)).failLane i).flush)

/-- A receiver loses signal. -/
def Main.signalLoss (i : Nat) (m : Main) : Out :=
  if m.laneActive i then .next ((m.failLane i).flush) else .refused (.notReady "lane")

/-- A degrading lane asks for its spare (R270). -/
def Main.degrade (m : Main) (i : Nat) : Main := if m.spareFree i then m.beginSpare i true (.spareRequest i false) else m

/-- A gauge set (R524). -/
def Main.gauge (m : Main) (group counter inst v : Nat) : Main :=
  { m with tele := (teleId group counter inst, v) :: m.tele.filter (fun x => x.1 != teleId group counter inst) }

/-- The end of a 100 ms window: the lane is degrading when its error ratio exceeds the threshold, module parameter 5
(R270, R414); of a looped lane it is only counted (R522). -/
def Main.berWindow (i : Nat) (ber : Word) (m : Main) : Out :=
  if m.laneTests i then .next (m.gauge 3 5 i ber.toNat)
  else if !m.laneActive i || m.procOut (fabProc i) then .refused (.notReady "lane")
  else
    let m1 := m.gauge 3 5 i ber.toNat
    .next (if (f32 (BitVec.ofNat 32 (m.param 5))).lt (f32 ber) then m1.degrade i else m1)

/-- Received optical power below the alarm level. -/
def Main.powerAlarm (i uw : Nat) (m : Main) : Out :=
  if !m.laneActive i || m.procOut (fabProc i) then .refused (.notReady "lane") else .next ((m.gauge 3 6 i uw).degrade i)

/-- The far end asks for a spare, abruptly when its lane has failed; it is granted when there is one (R270 step 1, R271). A spare that
this end has begun for the lane is the same one, abrupt when either end's is (R273). -/
def Main.spareAsked (i : Nat) (abrupt : Bool) (m : Main) : Out :=
  if m.procOut (fabProc i) then .refused (.notReady "the fabric processor")
  else
    match m.sparingOf i with
    | some s =>
      let m1 := m.sendFabric i (.spareGrant i)
      .next (if abrupt && s.hitless then (m1.stopLane i).modOpt (i / 8) (fun o => { o with sparing := some { s with hitless := false } }) else m1)
    | none =>
      if !m.laneActive i then .refused (.notReady "lane")
      else if !m.spareFree i then .next m
      else .next ((if abrupt then m.stopLane i else m).beginSpare i (!abrupt) (.spareGrant i))

/-- Both spares are trained, their identities known: an abrupt spare takes the lane over, after a laser takeover; a hitless one names
the LSEQ from which on this module sends on the spare, and learns the far end's, not during a replay or a takeover (R270, R271, R273). -/
def Main.spareTrained (i named : Nat) (m : Main) : Out :=
  match m.sparingOf i, m.fab.lanes[i]? with
  | some s, some l =>
    let set (m : Main) (s : Sparing) : Main := m.modOpt (i / 8) (fun o => { o with sparing := some s })
    if s.trained then .refused (.noSubject "a spare that trains")
    else if m.procOut (fabProc i) then .refused (.notReady "the fabric processor")
    else if !s.known then .refused (.notReady "the identity exchange")
    else if s.hitless then
      if l.resends ≠ 0 ∨ m.laneDark i = true then .refused (.notReady "a replay or a takeover")
      else .next (((set m { s with trained := true, lseq := some l.txSeq, cut := some (named % 4096) }).modLane i (fun l =>
        { l with txPhys := 8 })).sendCtrl (.named i l.txSeq))
    else if m.laneDark i then .next (set m { s with trained := true })
    else .next ((m.useSpare i).flush)
  | _, _ => .refused (.noSubject "a spare that trains")

/-- A hitless spare's switch is over: what was sent before the named LSEQ has been acknowledged, and the far end's named flit has come;
the old lane is switched off (R270 steps 4 and 5). Not during a replay or a laser takeover (R273). -/
def Main.hitless (i : Nat) (m : Main) : Out :=
  match m.sparingOf i, m.fab.lanes[i]? with
  | some s, some l =>
    if !s.hitless ∨ !s.trained then .refused (.noSubject "a trained spare")
    else if m.procOut (fabProc i) then .refused (.notReady "the fabric processor")
    else if l.resends ≠ 0 ∨ m.laneDark i = true then .refused (.notReady "a replay or a takeover")
    else if !(l.replay.all (fun f => s.lseq.all (fun n => seqFrom n (fhLseq f.flit.hdr)))) ∨ !(s.cut.all (fun c => seqFrom c l.rxSeq)) then
      .refused (.notReady "the named flits")
    else .next ((((m.useSpare i).log (.spare i)).postFabric i 1 (m.laneNeighbour i)).flush)
  | _, _ => .refused (.noSubject "a trained spare")

/-! ### Lasers and latches (R247, R248) -/

/-- The logical lanes of an engine. -/
def engineLanes (e : Nat) : List Nat := rangeFrom (e * 8) 8

/-- Every lane of an engine is lost, its spare with it (R247, R271, R288, R522). -/
def Main.loseLanes (m : Main) (e : Nat) : Main :=
  let lost := (engineLanes e).filter (fun i => match m.fab.lanes[i]? with
    | some l => l.st == .active || (l.st == .training && (m.sparingOf i).isSome)
    | none => false)
  let off (m : Main) : Main := m.modOpt e (fun o => { o with takeover := false, spare := .off, sparing := none })
  (engineLanes e).foldl (fun m i => m.modLane i (fun l => { l with st := .off }))
    (Main.keepingOrder (fun m => lost.foldl Main.dropLane (off m)) m)

/-- An engine goes dark. -/
def Main.darken (m : Main) (e : Nat) : Main := (m.modOpt e (fun o => { o with laserOn := false })).loseLanes e

/-- A connector opens. -/
def Main.latchOpen (e : Nat) (m : Main) : Out :=
  if 16 ≤ e then .refused (.noSubject "engine")
  else .next (((m.modOpt e (fun o => { o with latchClosed := false })).darken e).flush)

/-- A connector closes. -/
def Main.latchClose (e : Nat) (m : Main) : Out :=
  if 16 ≤ e then .refused (.noSubject "engine")
  else if (m.optOf e).latchClosed then .refused (.notReady "an open latch")
  else .next (m.modOpt e (fun o => { o with latchClosed := true, closedAt := m.time }))

/-- The source lit again after 1 s closed; the lanes start to retrain. Not while LASER_SHUTDOWN holds the engine, while the
optical rails are off, or without a source. -/
def Main.relight (e : Nat) (m : Main) : Out :=
  if 16 ≤ e then .refused (.noSubject "engine")
  else
    let o := m.optOf e
    if !o.latchClosed || o.laserOn || o.shutdown || !m.rcv.mainRails || (o.sourceFailed && !o.onRedundant) then
      .refused (.notReady "the laser source")
    else
      let m1 := (m.until (o.closedAt + 1000000000)).modOpt e (fun o => { o with laserOn := true, spare := .calibrating })
      .next ((engineLanes e).foldl (fun m i => m.modLane i (fun l =>
        { l with st := if o.loopback = 0 then .calibrating else .off })) m1)

/-- A source fails: the pair's redundant source takes over, or the engine's lanes are lost. The takeover's event names the engine's first
lane (R248; DESIGN CHOICE, assumption log 105). -/
def Main.sourceFails (e : Nat) (m : Main) : Out :=
  if 16 ≤ e then .refused (.noSubject "engine")
  else
    let o := m.optOf e
    let pair := if e % 2 = 0 then e + 1 else e - 1
    let m1 := m.modOpt e (fun o => { o with sourceFailed := true })
    if o.onRedundant || (m.optOf pair).onRedundant then .next ((m1.darken e).flush)
    else
      .next ((m1.modOpt e (fun o => { o with onRedundant := true, takeover := o.laserOn })).postFabric (e * 8) 9
        (m.laneNeighbour (e * 8)))

/-- A takeover ends; the lanes go on with a replay, and an abrupt spare that has trained takes its lane over (R273). -/
def Main.takeoverDone (e : Nat) (m : Main) : Out :=
  if !(m.optOf e).takeover || 16 ≤ e then .refused (.noSubject "takeover")
  else
    let m1 := m.modOpt e (fun o => { o with takeover := false })
    .next ((match (m1.optOf e).sparing with
      | some s => if s.trained && !s.hitless && !m1.procOut (fabProc s.lane) then m1.useSpare s.lane else m1
      | none => m1).flush)

/-! ### Training (R274, R275) -/

/-- A lane begins to train, and this end tells its identity (R275). -/
def Main.trainLane (m : Main) (i : Nat) : Main :=
  match m.fab.lanes[i]? with
  | some l =>
    if l.st = .calibrating ∨ l.st = .failed ∨ l.st = .miswired then
      (m.modLane i (fun l => { l with st := .training })).sendCtrl (.identity i)
    else m
  | none => m

/-- An engine's lanes have been calibrated again: they train, and its spare is ready. -/
def Main.retrained (e : Nat) (m : Main) : Out :=
  let o := m.optOf e
  if 16 ≤ e ∨ !o.laserOn ∨ o.loopback ≠ 0 ∨ m.procOut (fabProc (e * 8)) then .refused (.notReady "engine")
  else
    let m1 := m.modOpt e (fun o => { o with spare := if o.spareUsed.isSome then .active else .standby })
    .next ((engineLanes e).foldl Main.trainLane m1)

/-- A lane comes up: the link starts afresh. -/
def Lane.fresh (l : Lane) (far : LaneEnd) (trip now : Nat) : Lane :=
  { (Lane.reset 0) with
    phys := l.phys, txPhys := l.phys, st := .active, farModule := far.module, farEngine := far.engine, farLane := far.lane,
    roundTrip := trip, coneAt := now, waitAt := now }

/-- The identity exchange of a spare that trains for a lane. It reaches the spare of the engine on which the lane's far end lies; or it
reaches another engine's, and stays for a lane that lies there; or it is miswired. In both of these the lane goes on if it is only
degrading (R245, R273, R275). -/
def Main.spareIdentity (m : Main) (i : Nat) (s : Sparing) (tx rx : LaneEnd) (trip : Nat) : Main :=
  let far := match m.fab.lanes[i]? with | some l => l.farEngine | none => 0
  let wired := tx = rx ∧ tx.module = m.laneNeighbour i ∧ tx.lane = 8
  if wired ∧ tx.engine = far then
    (m.modOpt (i / 8) (fun o => { o with spareFar := some tx, spareTrip := trip, sparing := some { s with known := true } })).modLane i
      (fun l => { l with roundTrip := trip })
  else
    let end_ (m : Main) : Main :=
      let m1 := m.modOpt (i / 8) (fun o =>
        { o with spareFar := some tx, spareTrip := trip, spare := if wired then .standby else .miswired, sparing := none })
      let m2 := if wired then m1 else m1.postFabric i 5 tx.module
      if s.hitless then m2 else m2.withdraw i
    Main.keepingOrder end_ m

/-- The training exchange decides a lane's state. -/
def Main.identity (i : Nat) (tx rx : LaneEnd) (trip : Nat) (m : Main) : Out :=
  match m.fab.lanes[i]? with
  | none => .refused (.noSubject "lane")
  | some l =>
    if m.procOut (fabProc i) then .refused (.notReady "the fabric processor")
    else match m.sparingOf i with
    | some s =>
      if s.known then .refused (.notReady "a lane that trains") else .next ((m.spareIdentity i s tx rx trip).flush)
    | none =>
    if l.st ≠ .training ∧ l.st ≠ .calibrating then .refused (.notReady "a lane that trains")
    else
      match m.laneGroup i with
      | none => .next (m.modLane i (fun l =>
          { l with st := .training, farModule := tx.module, farEngine := tx.engine, farLane := tx.lane, roundTrip := trip }))
      | some g =>
        if tx = rx ∧ tx.module = g.neighbour then
          let m1 := Main.keepingOrder (fun m => m.modLane i (fun l => l.fresh tx trip m.time)) m
          .next ((if (m.activeIn g).isEmpty && m.rcv.phase == .running then m1.postFabric g.num 4 g.neighbour else m1).flush)
        else .next ((m.modLane i (fun l => { l with st := .miswired, farModule := tx.module, farEngine := tx.engine,
                                                    farLane := tx.lane, roundTrip := trip })).postFabric i 5 tx.module)

/-- Whether the fabric manager may write a map: each lane in one group, hop counts of 1 to 4 (R261, R262). -/
def mapLegal (f : FabricMap) : Bool :=
  f.groups.all (fun g => decide (g.1 < 128)) &&
  (List.range 128).all (fun i => decide ((f.groups.filter (fun g => g.2.2.2.getLsbD i)).length ≤ 1)) &&
  f.routes.all (fun r => decide (r.2.2.length ≤ 4) && r.2.2.all (fun h => decide (h.1 < 128) && decide (1 ≤ h.2) &&
    decide (h.2 ≤ 4)) && (r.2.1 == r.2.2.isEmpty))

/-- The fabric manager installs its map as it brings the domain up; while the domain is up nothing of it changes (R22). -/
def Main.mapWrite (f : FabricMap) (m : Main) : Out :=
  if m.rcv.phase ≠ .running then .refused (.notReady "the fabric processors")
  else if m.fab.mapped then .refused (.notReady "a domain that is not up")
  else if !mapLegal f then .refused (.notReady "a map that R261 and R262 allow")
  else
    let m1 : Main := { m with fab := { m.fab with
      module := f.module, mapped := true, root := f.root
      groups := f.groups.map (fun g => { num := g.1, neighbour := g.2.1, spares := g.2.2.1, lanes := g.2.2.2 })
      routes := f.routes.map (fun r => { dest := r.1, self := r.2.1, hops := r.2.2 }) } }
    .next (Main.keepingOrder (fun _ => m1) m).flush

/-- A neighbour that banks: its groups leave service at once (R485). -/
def Main.bankingNotice (module : Nat) (m : Main) : Out :=
  let gs := m.fab.groups.filter (fun g => g.neighbour == module && !(m.activeIn g).isEmpty)
  .next (Main.keepingOrder (fun m => gs.foldl (fun m g =>
    ((m.activeIn g).foldl (fun m i => m.modLane i (fun l => { l with st := .failed })) m).groupOut g) m) m).flush

/-- CONE_STALL of a lane, whose cone has not advanced within its window: the lane fails (R276); every other engine is reset (R475). -/
def Main.stall (e : EngineId) (m : Main) : Out :=
  let at_ := match m.fab.lanes[e.num]? with | some l => l.coneAt + (coneCause e).2 * 1000 | none => 0
  match (if e.kind = 2 ∧ m.laneActive e.num = true then m.until at_ else m).coneStall e with
  | .next m1 => .next (if e.kind = 2 then (m1.failLane e.num).flush else m1)
  | r => r

/-! ### Fabric time (R277-R279) -/

/-- The hops to the root through a neighbour, by the route to it. -/
def Main.rootHops (m : Main) (neighbour : Nat) : Option Nat :=
  match m.fab.routes.find? (fun r => r.dest == m.fab.root) with
  | none => none
  | some r => r.hops.findSome? (fun h =>
      if m.fab.groups.any (fun g => g.num == h.1 && g.neighbour == neighbour) then some h.2 else none)

/-- Whether a neighbour is the timing neighbour: none reaches the root in fewer hops. -/
def Main.timingNeighbour (m : Main) (n : Nat) : Bool :=
  match m.rootHops n with
  | none => false
  | some h => m.fab.groups.all (fun g => match m.rootHops g.neighbour with | some k => decide (h ≤ k) | none => true)

/-- Time is locked; leaving HOLDOVER is reported (R278). -/
def Main.lockTime (m : Main) : Main :=
  let m1 : Main := { m with fab := { m.fab with timeState := .locked } }
  if m.fab.timeState = .holdover then m1.postFabric 0 7 0 else m1

/-- An offset found: before the module has joined the counter is stepped; afterwards it is steered and never steps
(R277, R278). -/
def Main.offsetTime (m : Main) (off : Int) (inBound : Bool) : Main :=
  if m.fab.timeState = .unlocked then ({ m with time := ((m.time : Int) + off).toNat } : Main).lockTime
  else if inBound then m.lockTime
  else m

/-- Whether FTIME_SYNC supplies time. -/
def Fab.syncing (f : Fab) : Bool := f.syncOn && !f.syncLost

/-- A two-way exchange with a neighbour; it is answered, and steers when it is the timing neighbour's. -/
def Main.timeExchange (n : Nat) (off : Int) (inBound : Bool) (m : Main) : Out :=
  if !m.fab.groups.any (fun g => g.neighbour == n && !(m.activeIn g).isEmpty) then .refused (.noSubject "neighbour")
  else
    let m1 := m.sendCtrl (.timeReply n)
    if m.fab.root = m.fab.module ∨ m.fab.syncing ∨ !m.timingNeighbour n then .next m1
    else
      let m2 := m1.offsetTime off inBound
      .next { m2 with fab := { m2.fab with lastHeard := m2.time } }

/-- No timing neighbour for 10 ms (R278). Its event names lane 0 and module 0 (DESIGN CHOICE, assumption log 105). -/
def Main.holdover (m : Main) : Out :=
  if m.fab.timeState ≠ .locked ∨ m.fab.root = m.fab.module ∨ m.fab.syncing then .refused (.notReady "link exchanges")
  else
    let m1 := m.until (m.fab.lastHeard + 10000000)
    .next (({ m1 with fab := { m1.fab with timeState := .holdover } } : Main).postFabric 0 6 0)

/-- An edge of FTIME_SYNC (R279). -/
def Main.ftimeEdge (off : Int) (spaced : Bool) (m : Main) : Out :=
  if !m.fab.syncOn then .next m
  else
    let m1 := if spaced then m.offsetTime off true else m
    .next { m1 with fab := { m1.fab with lastSync := m1.time, syncLost := false } }

/-- Three seconds without an edge. -/
def Main.ftimeLost (m : Main) : Out :=
  if !m.fab.syncing then .refused (.notReady "FTIME_SYNC")
  else
    let m1 := m.until (m.fab.lastSync + 3000000000)
    .next { m1 with fab := { m1.fab with syncLost := true, lastHeard := m1.time } }

/-- DATA_FLIT (R250-R254, R257, R263). -/
def execDataFlit (lane phys : Nat) (fl : Flit) (s : State) : Outcome := onMain (Main.dataFlit lane phys fl) s
/-- NAK (R254). -/
def execNak (lane : Nat) (hdr : BitVec 128) (s : State) : Outcome := onMain (Main.nakFlit lane hdr) s
/-- CREDIT (R257). -/
def execCredit (lane : Nat) (hdr : BitVec 128) (s : State) : Outcome := onMain (Main.creditFlit lane hdr) s
/-- IDLE (R250, R276). -/
def execIdle (lane : Nat) (hdr : BitVec 128) (crcGood : Bool) (s : State) : Outcome :=
  onMain (Main.idleFlit lane hdr crcGood) s
/-- LANE_ACK_TIMEOUT (R255). -/
def execLaneAckTimeout (lane : Nat) (s : State) : Outcome := onMain (Main.ackLate lane) s
/-- LANE_SIGNAL_LOSS (R271). -/
def execLaneSignalLoss (lane : Nat) (s : State) : Outcome := onMain (Main.signalLoss lane) s
/-- BER_WINDOW (R270). -/
def execBerWindow (lane : Nat) (ber : BitVec 32) (s : State) : Outcome := onMain (Main.berWindow lane ber) s
/-- RX_POWER_ALARM (R270). -/
def execRxPowerAlarm (lane microwatts : Nat) (s : State) : Outcome := onMain (Main.powerAlarm lane microwatts) s
/-- SPARE_REQUEST (R270). -/
def execSpareRequest (ask : SpareAsk) (s : State) : Outcome := onMain (Main.spareAsked ask.lane ask.abrupt) s
/-- SPARE_TRAINED (R270, R271). -/
def execSpareTrained (lane named : Nat) (s : State) : Outcome := onMain (Main.spareTrained lane named) s
/-- HITLESS_SPARE (R270, R273). -/
def execHitlessSpare (lane : Nat) (s : State) : Outcome := onMain (Main.hitless lane) s
/-- LANE_RETRAIN (R274). -/
def execLaneRetrain (engine : Nat) (s : State) : Outcome := onMain (Main.retrained engine) s
/-- CONNECTOR_LATCH_OPEN (R247). -/
def execConnectorLatchOpen (engine : Nat) (s : State) : Outcome := onMain (Main.latchOpen engine) s
/-- CONNECTOR_LATCH_CLOSE (R247). -/
def execConnectorLatchClose (engine : Nat) (s : State) : Outcome := onMain (Main.latchClose engine) s
/-- LASER_RELIGHT (R247). -/
def execLaserRelight (engine : Nat) (s : State) : Outcome := onMain (Main.relight engine) s
/-- LASER_SOURCE_FAILURE (R248). -/
def execLaserSourceFailure (engine : Nat) (s : State) : Outcome := onMain (Main.sourceFails engine) s
/-- LASER_TAKEOVER_DONE (R248). -/
def execLaserTakeoverDone (engine : Nat) (s : State) : Outcome := onMain (Main.takeoverDone engine) s
/-- IDENTITY_EXCHANGE (R260, R275). -/
def execIdentityExchange (lane : Nat) (tx rx : LaneEnd) (roundTrip : Nat) (s : State) : Outcome :=
  onMain (Main.identity lane tx rx roundTrip) s
/-- FABRIC_MAP_WRITE (R261, R262, R277). -/
def execFabricMapWrite (fm : FabricMap) (s : State) : Outcome := onMain (Main.mapWrite fm) s
/-- BANKING_NOTICE (R272, R485). -/
def execBankingNotice (module : Nat) (s : State) : Outcome := onMain (Main.bankingNotice module) s
/-- CONE_STALL (R276, R475). -/
def execConeStall (e : EngineId) (s : State) : Outcome :=
  match onMain (Main.stall e) s with
  | .next t => .next (if e = ⟨4, 4⟩ then { t with power := { t.power with loc := min t.power.loc 56 } } else t)
  | o => o
/-- TIME_EXCHANGE (R277, R278). -/
def execTimeExchange (neighbour : Nat) (offset : Int) (inBound : Bool) (s : State) : Outcome :=
  onMain (Main.timeExchange neighbour offset inBound) s
/-- HOLDOVER (R278). -/
def execHoldover (s : State) : Outcome := onMain Main.holdover s
/-- FTIME_SYNC (R279). -/
def execFtimeSync (offset : Int) (spaced : Bool) (s : State) : Outcome := onMain (Main.ftimeEdge offset spaced) s
/-- FTIME_SYNC_LOSS (R279). -/
def execFtimeSyncLoss (s : State) : Outcome := onMain Main.ftimeLost s
/-- FTIME_SYNC_ENABLE (R279). -/
def execFtimeSyncEnable (on : Bool) (s : State) : Outcome :=
  onMain (fun m => .next { m with fab := { m.fab with syncOn := on, syncLost := false, lastSync := m.time } }) s

end Sys2Proof.Machine
end

