-- ==== Sys2Proof/Machine/Homes.lean ====
section
/-! DEFINITION. The requests that homes serve, by themselves: those of caching agents with the copies they bring, those of
uncached agents, invalidations, forwards and range recalls (R203-R213). -/

namespace Sys2Proof.Machine

/-! ### What a unit read finds (R189, R190) -/

/-- An error record for a line that is poisoned (R479). -/
def poisonErr (line : Nat) : ErrNew :=
  { sev := .corrected, cause := 0x01, poison := true, status := .poisoned, source := ⟨5, line * 128 / 2 ^ 32⟩,
    detail := line * 128 }

/-- A read of a line of memory with what its check bits say: a corrected error is counted and logged with the channel, the
physical channel and the offset, an uncorrectable one poisons the line, is recorded and posted (R189, R190, R197). -/
def Main.eccRead (m : Main) (line : Nat) (ecc : Ecc) : Main :=
  let c := line * 128 / 2 ^ 32
  let chan (f : Channel → Channel) : Main := { m with mem := { m.mem with channels := modNth m.mem.channels c f } }
  match ecc with
  | .clean => m
  | .corrected =>
    let phys := (m.mem.channels[c]?.bind (·.phys)).getD c
    ((chan (fun x => { x with corrected := x.corrected ++ [m.time] })).bump 2 2 c 1).log (.memory c phys (line * 128 % 2 ^ 32))
  | .uncorrectable =>
    let m1 := (chan (fun x => { x with uncorrectable := x.uncorrectable ++ [m.time] })).bump 2 3 c 1
    let m2 : Main := { m1 with mem := m1.mem.poisonLine line }
    (m2.postMemory c 1 (line * 128)).noteErr (poisonErr line)

/-- Whether a home serves a line from memory: not from its buffer, not from an owner in M (R209). -/
def Main.fromMemory (m : Main) (line : Nat) : Bool :=
  match m.coh.entryOf line with
  | some e => e.st == .shared || e.st == .ownedClean
  | none => true

/-- The error check of a request that reads memory. -/
def Main.eccServe (m : Main) (line : Nat) (ecc : Ecc) : Main := if m.fromMemory line then m.eccRead line ecc else m

/-- What an agent, and the other caches of its core, have queued for a line applied (R219). -/
def Main.applyAgent (m : Main) (agent line : Nat) : Main :=
  if isL2 agent then m.applyFor agent line else m.applyOwn (agent / 10 * 9 + agent % 10) line

/-- A request served at its home (R209). -/
def Main.serveHome (m : Main) : HomeReq → Main
  | .rd agent line ecc ctx =>
    let (st, s, m1) := ((m.eccServe line ecc).applyAgent agent line).homeRD agent line
    m1.fill (newCopy agent line st s) ctx
  | .rdx agent line ecc =>
    let (s, m1) := (if (m.coh.upgrades agent line).isSome then m else m.eccServe line ecc).homeRDX agent line
    let m2 : Main := { m1 with coh := m1.coh.dropCopy agent line }
    (m2.applyAgent agent line).fill (newCopy agent line .m s) none
  | .ur line ecc => ((m.eccServe line ecc).homeUR line).2
  | .iw line off data poison => m.homeWrite line off data poison
  | .turn _ _ => m
  | .atom lpa op size x new =>
    ((m.bump 1 4 (homeOf (lpa / 128)) 1).homeAT lpa op size (toBytes size x.toNat) (toBytes size new.toNat) none).2

/-- Whether a request has lost its sense while it waited: its agent has died or has the line meanwhile. -/
def Main.lapsed (m : Main) : HomeReq → Bool
  | .rd agent line _ _ => m.coh.dead.contains agent || (m.coh.copyOf agent line).isSome
  | .rdx agent line _ => m.coh.dead.contains agent || (match m.coh.copyOf agent line with | some c => c.st != .s | none => false)
  | _ => false

/-- Whether the sender of a kept place still waits to be executed. -/
def Main.turnLives (m : Main) : TurnOf → Bool
  | .bundle wg idx => (match m.bundleOf { wg := wg, idx := idx, ecc := .clean } with | some b => b.waiting == some .line | none => false)
  | .message g => m.fab.arrived.contains g
  | .window fn off len => m.host.winWaits.contains ⟨fn, off, len⟩

/-- A request arrives at the home of a line that memory backs: it is served, or waits in its turn where 1,024 do not wait yet
(R208). -/
def Main.atHome (m : Main) (r : HomeReq) : Out :=
  if !m.mem.backed (r.line * 128) then .refused (.noSubject "a line of memory")
  else if m.mustWait r.line then
    if 1024 ≤ (m.coh.waiting.filter (fun x => homeOf x.line == homeOf r.line)).length then .refused (.notReady "room at the line's home")
    else .next (m.waitHome r)
  else .next (m.serveHome r)

/-- The requests that wait served in their turn, as far as their lines allow; a place is kept while its sender waits (R208, R216). -/
def Main.wakeHomes (m : Main) : Main :=
  let one (m : Main) (r : HomeReq) : Main :=
    match r.turnOf with
    | some who => if m.turnLives who then m.waitHome r else m.settleBusy r.line
    | none =>
      if m.mustWait r.line then m.waitHome r
      else (if m.lapsed r then m else m.serveHome r).settleBusy r.line
  m.coh.waiting.foldl one { m with coh := { m.coh with waiting := [] } }

/-- What waited for lines goes on: requests at homes, host movers and engines. -/
def Main.linesGo (m : Main) : Main := (m.wakeHomes.dmaPump).after

/-- Whether a line lies in an extent of the span that holds an agent's cluster (R171, R205). -/
def Main.inOwnExtent (m : Main) (agent line : Nat) : Bool :=
  m.mem.extents.any (fun e => nth m.comp.coreOwner (agentCluster agent) .idle == .span e.span && e.held &&
    e.ranges.any (inRange line))

/-! ### Requests of caching agents -/

/-- RD on a miss: the copy comes in the state the home grants (R205, R209); a core's fill of an L2 names its context (R173). -/
def Main.readMiss (agent line : Nat) (ecc : Ecc) (ctx : Option Nat) (m : Main) : Out :=
  if 320 ≤ agent ∨ m.coh.dead.contains agent ∨ (m.coh.copyOf agent line).isSome then .refused (.noSubject "an agent's miss")
  else if isL2 agent && !m.inOwnExtent agent line then .refused (.noSubject "a line of the cluster's span")
  else m.atHome (.rd agent line ecc ctx)

/-- RDX on a store miss or an upgrade from S: the L1 holds the line in M (R209). -/
def Main.ownMiss (agent line : Nat) (ecc : Ecc) (m : Main) : Out :=
  let upgrade : Bool := match m.coh.copyOf agent line with | some c => c.st == .s | none => true
  if 320 ≤ agent ∨ isL2 agent ∨ m.coh.dead.contains agent ∨ !upgrade then .refused (.noSubject "an L1's store miss")
  else m.atHome (.rdx agent line ecc)

/-- A notice of an agent about a copy it holds in one of some states. -/
def Main.noticeOf (agent line : Nat) (ok : CopyState → Bool) (go : Main → Main) (m : Main) : Out :=
  match m.coh.copyOf agent line with
  | none => .refused (.noSubject "an agent's copy")
  | some c => if ok c.st then .next (go m) else .refused (.noSubject "a copy in that state")

/-! ### Requests of uncached agents -/

/-- UR (R212). -/
def Main.readUncached (line : Nat) (ecc : Ecc) (m : Main) : Out :=
  m.atHome (.ur line ecc)

/-- IWF or IWP of bytes within a line (R212). -/
def Main.writeUncached (line off : Nat) (data : List Byte) (whole : Bool) (m : Main) : Out :=
  if (whole && (off != 0 || data.length != 128)) || data.isEmpty || decide (128 < off + data.length) then
    .refused (.noSubject "bytes of a line")
  else m.atHome (.iw line off data false)

/-- AT of one location (R96, R209). -/
def Main.atomUncached (lpa : Nat) (op : AtomOp) (size : Nat) (x new : BitVec 64) (m : Main) : Out :=
  if (size != 4 && size != 8) || lpa % size != 0 || (op == .fadd && size == 8) then .refused (.noSubject "an atomic's location")
  else m.atHome (.atom lpa op size x new)

/-! ### Invalidations and forwards (R209, R210) -/

/-- An invalidation: an owner acts on it at once, writes back and gives its copy up; a sharer acknowledges it as it enters its queue, and
the home no longer counts it (R210). A dead agent's counts as acknowledged (R215). -/
def Main.queueInv (agent line : Nat) (m : Main) : Out :=
  if 320 ≤ agent then .refused (.noSubject "agent")
  else
    let m1 : Main := if m.coh.dead.contains agent then m
      else { m with coh := { m.coh with invq := m.coh.invq ++ [(agent, line)] } }
    match m1.coh.entryOf line with
    | none => .next m1
    | some e =>
      if (e.st == .ownedClean || e.st == .ownedDirty) && e.owner == agent && !m.coh.dead.contains agent then
        let m2 := m.takeFromOwner e
        .next { m2 with coh := m2.coh.dropEntry line }
      else if e.st == .shared && e.sharers.has agent then
        let sh := m1.coh.removeSharer e.sharers agent line
        .next (if sh.isEmpty then { m1 with coh := m1.coh.dropEntry line }
          else { m1 with coh := m1.coh.modEntry line (fun e => { e with sharers := sh }) })
      else .next m1

/-- An owner answers a forward: an owner in M writes back; it keeps the line in S or E, or gives it up, and the home's
entry follows. Whoever asked is served by its own request. -/
def Main.forwardTo (line : Nat) (kind : FwdKind) (m : Main) : Out :=
  match m.coh.entryOf line with
  | none => .refused (.noSubject "an owned line")
  | some e =>
    if e.st == .shared || e.st == .home then .refused (.noSubject "an owned line")
    else if m.mustWait line then .refused (.notReady "the line's home")
    else
      let m1 := m.writeBackCopy e.owner line
      match kind with
      | .shared =>
        let c1 := m1.coh.modCopy e.owner line (fun c => { c with st := .s, poison := c.backMark, written := [] })
        .next { m1 with coh := c1.modEntry line (fun x => { x with st := .shared, sharers := x.sharers.clear.add e.owner }) }
      | .own => .next { m1 with coh := (m1.coh.dropCopy e.owner line).dropEntry line }
      | .uncached =>
        let c1 := m1.coh.modCopy e.owner line (fun c => { c with st := .e, poison := c.backMark, written := [] })
        .next { m1 with coh := c1.modEntry line (fun x => { x with st := .ownedClean }) }

/-! ### Range recalls (R213) -/

/-- Whether a line lies in granules of a channel. -/
def inGranules (x : Nat × Nat × Nat) (line : Nat) : Bool := inRange line (x.1, x.2.1 * 0x200000, x.2.2 * 0x200000)

/-- The agents begin to walk their tags for granules of a channel. -/
def Main.recallRange (x : Nat × Nat × Nat) (m : Main) : Out :=
  if 192 ≤ x.1 ∨ x.2.2 = 0 ∨ 1536 < x.2.1 + x.2.2 then .refused (.noSubject "granules")
  else .next { (m.walkLines (inGranules x)) with coh := { (m.walkLines (inGranules x)).coh with walks := m.coh.walks ++ [x] } }

/-- Every agent has finished its walk; the recall of a dead agent completes with its reclaim (R216). -/
def Main.recallDone (x : Nat × Nat × Nat) (m : Main) : Out :=
  if !m.coh.walks.contains x then .refused (.noSubject "a recall in progress")
  else if !m.coh.reclaim.isEmpty then .refused (.notReady "the reclaim of a dead agent")
  else
    let m1 := m.walkLines (inGranules x)
    .next { m1 with coh := { m1.coh with walks := m1.coh.walks.erase x } }

/-! ### The end of a reclaim (R215, R216) -/

/-- The walk for the dead agent whose turn it is ends, and the requests that waited are served (R215, R216). Its mesh port opens again with
that, whether or not the agent has been reset (DESIGN CHOICE, assumption log 103). -/
def Main.reclaimDone (m : Main) : Out :=
  match m.coh.reclaim with
  | [] => .refused (.noSubject "a reclaim")
  | a :: r =>
    let m1 := (m.coh.dir.filter (fun e => e.owner == a || e.sharers.has a)).foldl (fun m e => m.reclaimEntry a e) m
    .next ({ m1 with coh := { m1.coh with dead := m1.coh.dead.filter (· != a), reclaim := r } } : Main).linesGo

/-- RECLAIM_COMPLETE (R215, R216). -/
def execReclaimComplete (s : State) : Outcome := onMain Main.reclaimDone s
/-- READ_SHARED (R209). -/
def execReadShared (agent line : Nat) (ecc : Ecc) (ctx : Option Nat) (s : State) : Outcome :=
  onMain (Main.readMiss agent line ecc ctx) s
/-- RDX (R209). -/
def execRdx (agent line : Nat) (ecc : Ecc) (s : State) : Outcome := onMain (Main.ownMiss agent line ecc) s
/-- DIRTY_NOTICE (R211). -/
def execDirtyNotice (agent line : Nat) (s : State) : Outcome :=
  onMain (Main.noticeOf agent line (· == .e) (fun m => m.homeDN agent line)) s
/-- WRITE_BACK (R209). -/
def execWriteBack (agent line : Nat) (s : State) : Outcome :=
  onMain (Main.noticeOf agent line (· == .m) (fun m => m.evict agent line)) s
/-- EVICTION_NOTICE (R211). -/
def execEvictionNotice (agent line : Nat) (s : State) : Outcome :=
  onMain (Main.noticeOf agent line (· != .m) (fun m => m.evict agent line)) s
/-- UNCACHED_READ (R212). -/
def execUncachedRead (line : Nat) (ecc : Ecc) (s : State) : Outcome := onMain (Main.readUncached line ecc) s
/-- IWF (R209). -/
def execIwf (line : Nat) (bytes : List Byte) (s : State) : Outcome := onMain (Main.writeUncached line 0 bytes true) s
/-- IWP (R209). -/
def execIwp (line off : Nat) (bytes : List Byte) (s : State) : Outcome := onMain (Main.writeUncached line off bytes false) s
/-- HOME_ATOMIC (R209). -/
def execHomeAtomic (lpa : Nat) (op : AtomOp) (size : Nat) (x new : BitVec 64) (s : State) : Outcome :=
  onMain (Main.atomUncached lpa op size x new) s
/-- INVALIDATION (R210). -/
def execInvalidation (agent line : Nat) (s : State) : Outcome := onMain (Main.queueInv agent line) s
/-- FORWARD (R209). -/
def execForward (line : Nat) (kind : FwdKind) (s : State) : Outcome := onMain (Main.forwardTo line kind) s
/-- RANGE_RECALL (R213). -/
def execRangeRecall (channel first count : Nat) (s : State) : Outcome := onMain (Main.recallRange (channel, first, count)) s
/-- RANGE_RECALL_COMPLETE (R213). -/
def execRangeRecallComplete (channel first count : Nat) (s : State) : Outcome :=
  onMain (Main.recallDone (channel, first, count)) s

end Sys2Proof.Machine
end

