-- ==== Sys2Proof/Machine/Channels.lean ====
section
/-! DEFINITION. Patrol scrub, failing channels and their retirement (R179, R180, R193-R202). -/

namespace Sys2Proof.Machine

/-- The channels of the pool, by local number (R180). -/
def poolLocals : List Nat := [10, 11, 22, 23, 34, 35, 46, 47, 58, 59, 70, 71, 82, 83, 94, 95]

/-- Whether a logical channel belongs to the pool by number. -/
def inPool (c : Nat) : Bool := poolLocals.contains (c % 96)

/-- The memory stop of a channel, 8 per half (R179). -/
def memStop (c : Nat) : Nat := c / 96 * 8 + c % 96 / 12

def Main.chan (m : Main) (c : Nat) : Channel :=
  nth m.mem.channels c { state := .retired, phys := none, corrected := [], uncorrectable := [], failed := false, due := false,
                         repl := none, copied := false }

def Main.modChan (m : Main) (c : Nat) (f : Channel → Channel) : Main :=
  { m with mem := { m.mem with channels := modNth m.mem.channels c f } }

def Main.setMemOwner (m : Main) (c : Nat) (o : Owner) : Main :=
  { m with comp := { m.comp with memOwner := modNth m.comp.memOwner c (fun _ => o) } }

/-- Whether a line lies on a granule of an extent: allocated. -/
def Main.allocated (m : Main) (line : Nat) : Bool := m.mem.extents.any (fun e => e.ranges.any (inRange line))

/-- Whether reads of a channel may have found these: its allocated lines (R193, R199). -/
def Main.readable (m : Main) (c : Nat) (found : List (Nat × Ecc)) : Bool :=
  found.all (fun x => x.1 * 128 / 2 ^ 32 == c && m.allocated x.1)

/-- What a pass over a channel's lines found; those already poisoned stay so (R189, R190, R193, R199). -/
def Main.foundOn (m : Main) (found : List (Nat × Ecc)) : Main :=
  found.foldl (fun m x => if m.mem.bad x.1 then m else m.eccRead x.1 x.2) m

/-- Patrol scrub of a channel: what it found on lines of its allocated granules; lines already poisoned stay (R193). -/
def Main.patrol (c : Nat) (found : List (Nat × Ecc)) (m : Main) : Out :=
  if 192 ≤ c ∨ (m.chan c).state = .retired ∨ m.readable c found = false then
    .refused (.noSubject "allocated lines of a channel")
  else .next (m.foundOn found)

/-! ### Retirement (R197-R202) -/

/-- The errors of a list within the last 24 hours. -/
def lastDay (now : Nat) (l : List Nat) : Nat := (l.filter (fun t => decide (now < t + dayNs))).length

/-- Whether the module requires a channel's retirement (R197). -/
def Main.mustRetire (m : Main) (c : Nat) : Bool :=
  let x := m.chan c
  x.failed || decide (m.param 2 < lastDay m.time x.corrected) || decide (m.param 3 < lastDay m.time x.uncorrectable)

/-- Whether a prepared transition has reserved an idle channel (R318). -/
def Main.reserved (m : Main) (p : Nat) : Bool :=
  m.comp.recs.any (fun r => r.phase != .stable && r.shadow.mem.getLsbD p && !r.current.mem.getLsbD p)

/-- The replacement of a channel: an IDLE pool channel that no transition has reserved and that is not itself to be retired, on the same
stop, then the same half, then the other, lowest first (R198, R318). -/
def Main.replacementOf (m : Main) (c : Nat) : Option Nat :=
  let free := (List.range 192).filter (fun p => inPool p && p != c && (m.chan p).state == .idle &&
    nth m.comp.memOwner p .held == .idle && !m.reserved p && !(m.chan p).due && !(m.chan p).failed)
  match free.find? (fun p => memStop p == memStop c), free.find? (fun p => p / 96 == c / 96), free with
  | some p, _, _ => some p
  | none, some p, _ => some p
  | none, none, p :: _ => some p
  | none, none, [] => none

/-- A pool number that no physical channel serves any more, or a replacement that failed (R196, R202). -/
def Main.retireNumber (m : Main) (p : Nat) : Main :=
  (m.modChan p (fun x => { x with state := .retired, phys := none, repl := none, due := false })).setMemOwner p .held

/-- The channel map's swap: the logical number is served by the replacement's physical channel (R199). -/
def Main.swapMap (m : Main) (c p : Nat) (st : ChState) : Main :=
  let phys := (m.chan p).phys
  let m1 := (m.modChan c (fun x => { x with
    state := st, phys := phys, corrected := [], uncorrectable := [], failed := false, due := false, repl := none, copied := false })).retireNumber p
  ({ m1 with mem := { m1.mem with retired := m1.mem.retired + 1 } } : Main).postMemory c 5 0

/-- Whether another channel of the same stop is being retired (R202). -/
def Main.stopBusy (m : Main) (c : Nat) : Bool :=
  (List.range 192).any (fun x => x != c && memStop x == memStop c && (m.chan x).repl.isSome)

/-- Whether a channel is between a PREPARE of its span that moves it and the end of its handover: its retirement waits (R333). An
idle channel that a transition has reserved is not retired before it has joined (R318). -/
def Main.moving (m : Main) (c : Nat) : Bool :=
  m.comp.recs.any (fun r => r.phase != .stable && r.current.mem.getLsbD c && !r.shadow.mem.getLsbD c &&
    !r.handovers.any (fun h => h.kind == .memory && h.num == c && h.leave && h.complete)) ||
  (nth m.comp.memOwner c .held == .idle && m.reserved c)

/-- Retirement of a channel that is due: an IDLE one swaps at once and its replacement is zeroed; a BOUND one is copied to a
reserved replacement while its stop has no other; without a replacement it is DEGRADED (R198, R199, R201, R202). -/
def Main.tryRetire (m : Main) (c : Nat) : Main :=
  let x := m.chan c
  let idle := nth m.comp.memOwner c .held == .idle
  if !x.due || x.repl.isSome || x.state == .retired || x.state == .zeroing || m.moving c then m
  else
    match m.replacementOf c with
    | none =>
      if x.state = .degraded then m
      else (m.modChan c (fun x => { x with state := .degraded })).postMemory c 3 0
    | some p =>
      if idle then
        let m1 := ((m.postMemory c 4 0).swapMap c p .zeroing).setMemOwner c .held
        { m1 with mem := { m1.mem with zeroing := m1.mem.zeroing ++ [(c, .release)] } }
      else if m.stopBusy c then m
      else
        let m1 := (m.modChan c (fun x => { x with state := .evacuating, due := false, repl := some p })).modChan p
          (fun x => { x with state := .zeroing })
        (m1.setMemOwner p .held).postMemory c 4 0

/-- Every channel whose retirement is due tried, in order of logical number; a CH_RETIRE is answered when its retirement
has begun. -/
def Main.settleRetire (m : Main) : Main :=
  (List.range 192).foldl (fun m c =>
    let m1 := m.tryRetire c
    if (m1.chan c).due then m1 else m1.answerHeld (.retire c) (Reply.good [])) m

/-- A channel's retirement asked for. -/
def Main.askRetire (m : Main) (c : Nat) : Main := (m.modChan c (fun x => { x with due := true })).settleRetire

/-- Whether a channel can be retired: it is served and its retirement is not in progress. -/
def Main.retirable (m : Main) (c : Nat) : Bool :=
  decide (c < 192) && (m.chan c).state != .retired && (m.chan c).repl.isNone && (m.chan c).phys.isSome

def Main.retirementRequired (c : Nat) (m : Main) : Out :=
  if !m.retirable c || !m.mustRetire c then .refused (.noSubject "a channel to retire")
  else .next (m.askRetire c)

/-- The copy to the replacement has ended, with what it met: new requests to the channel are held (R199). -/
def Main.copyDone (c : Nat) (found : List (Nat × Ecc)) (m : Main) : Out :=
  if (m.chan c).state = .evacuating ∧ (m.chan c).repl.isSome ∧ (m.chan c).copied = false ∧ m.readable c found = true then
    .next ((m.foundOn found).modChan c (fun x => { x with copied := true }))
  else .refused (.noSubject "a channel whose contents are copied")

/-- The granules of a channel that no extent has hold the zeros of the replacement after the swap (R195, R200). -/
def Main.zeroUnallocated (m : Main) (c : Nat) : Main :=
  let free (line : Nat) : Bool := line * 128 / 2 ^ 32 == c && !m.allocated line
  { m with mem := { m.mem with
      cells := m.mem.cells.filter (fun x => !free (x.1 / 128)), poison := m.mem.poison.filter (fun l => !free l) } }

/-- Accepted requests have completed: the map swaps and the channel leaves EVACUATING (R199). -/
def Main.mapSwap (c : Nat) (m : Main) : Out :=
  match (m.chan c).repl with
  | none => .refused (.noSubject "a channel to swap")
  | some p =>
    if (m.chan c).copied then .next (((m.zeroUnallocated c).swapMap c p .bound).linesGo.settleRetire) else .refused (.notReady "the copy")

/-- Every line of a channel's allocated granules poisoned (R200). -/
def Main.poisonChannel (m : Main) (c : Nat) : Main :=
  let lines := (m.mem.extents.flatMap (·.ranges)).filter (fun r => r.1 == c) |>.flatMap
    (fun r => rangeFrom ((r.1 * 2 ^ 32 + r.2.1) / 128) (r.2.2 / 128))
  { m with mem := { m.mem with poison := lines.foldl (fun l x => insertSorted x l) m.mem.poison } }

/-- A reserved replacement fails during the copy: the copy starts anew on another before any other channel gets it, or the channel is
DEGRADED (R202). -/
def Main.replacementFails (m : Main) (c p : Nat) : Main :=
  let m1 := (m.retireNumber p).modChan c (fun x => { x with repl := none, copied := false, due := true, state := .bound })
  let m2 : Main := { m1 with mem := { m1.mem with retired := m1.mem.retired + 1 } }
  ((m2.postMemory c 6 0).tryRetire c).linesGo.settleRetire

/-- CHANNEL_FAILURE: the lines that are allocated are lost, and the channel is retired (R200, R479). -/
def Main.channelFails (c : Nat) (m : Main) : Out :=
  if 192 ≤ c ∨ (m.chan c).state = .retired then .refused (.noSubject "a channel")
  else
    match (List.range 192).find? (fun x => (m.chan x).repl == some c) with
    | some x => .next (m.replacementFails x c)
    | none =>
      let m1 := (m.poisonChannel c).modChan c (fun x => { x with failed := true })
      let m2 := m1.noteErr { sev := .corrected, cause := 0x03, poison := true, status := .poisoned, source := ⟨5, c⟩, detail := c }
      .next (if (m.chan c).repl.isSome then m2 else m2.askRetire c)

/-- PATROL_SCRUB (R193). -/
def execPatrolScrub (channel : Nat) (found : List (Nat × Ecc)) (s : State) : Outcome := onMain (Main.patrol channel found) s
/-- RETIREMENT_REQUIRED (R197). -/
def execRetirementRequired (channel : Nat) (s : State) : Outcome := onMain (Main.retirementRequired channel) s
/-- EVACUATION_COPY_DONE (R199). -/
def execEvacuationCopyDone (channel : Nat) (found : List (Nat × Ecc)) (s : State) : Outcome :=
  onMain (Main.copyDone channel found) s
/-- CHANNEL_MAP_SWAP (R199). -/
def execChannelMapSwap (channel : Nat) (s : State) : Outcome := onMain (Main.mapSwap channel) s
/-- CHANNEL_FAILURE (R200). -/
def execChannelFailure (channel : Nat) (s : State) : Outcome := onMain (Main.channelFails channel) s

end Sys2Proof.Machine
end

