-- ==== Sys2Proof/Machine/Window.lean ====
section
/-! DEFINITION. The memory window, resets of functions and ports, and the event-queue registers with rows of their own
(R337-R339, R344-R348, R354-R356, R362, R428-R432, R536). -/

namespace Sys2Proof.Machine

/-! ### The memory window (R344-R347) -/

/-- The segment of a window offset (R346). -/
def FnRec.segOf (r : FnRec) (w : Nat) : Option Segment :=
  r.segs.find? (fun s => decide (s.wbase * 0x200000 ≤ w) && decide (w < (s.wbase + s.len) * 0x200000))

/-- A window offset in a segment, as a span address. -/
def Segment.addr (s : Segment) (w : Nat) : Nat := s.sbase * 0x200000 + w - s.wbase * 0x200000

/-- What an access of the window meets. -/
inductive WinHit where
  | none
  | closed
  | mem (s : Segment)
  deriving DecidableEq, Repr

/-- The segment of an access whose bytes all lie in one segment and in extents, or why there is none. -/
def Main.window (m : Main) (r : FnRec) (w len : Nat) : WinHit :=
  match r.segOf w with
  | .none => .none
  | some s =>
    if !r.memEnable || r.bar2 < w + len || (s.wbase + s.len) * 0x200000 < w + len then .none
    else if m.fenced s.span then .closed
    else if m.mem.holdsRange s.span (s.addr w) len then .mem s else .none

/-- The completion of a window read. -/
def Main.windowDone (m : Main) (fn : Fn) (off : Nat) (st : WinSt) (data : List Byte) (ep : Bool) : Main :=
  { m with host := { m.host with winReads := m.host.winReads ++ [{ fn := fn, off := off, st := st, data := data, ep := ep }] } }

/-- A window read of a function performed, or waiting in its turn at its lines' homes (R208, R346, R347). -/
def Main.windowGo (m : Main) (r : FnRec) (fn : Fn) (off len : Nat) : Main :=
  let who : TurnOf := .window fn off len
  let served : Main := { m.leaveTurns who (fun _ => true) with host := { m.host with winWaits := m.host.winWaits.filter (fun x => x != ⟨fn, off, len⟩) } }
  match m.window r off len with
  | .none => served.windowDone fn off .unsupported [] false
  | .closed => served.windowDone fn off .aborted [] false
  | .mem s =>
    if m.spanHeld (some who) s.span (s.addr off) len then
      if m.host.winWaits.contains ⟨fn, off, len⟩ then m
      else
        let m1 := m.takeTurns who (m.spanLines s.span (s.addr off) len)
        { m1 with host := { m1.host with winWaits := m1.host.winWaits ++ [⟨fn, off, len⟩] } }
    else
      let (data, bad, m1) := served.spanRead s.span (s.addr off) len
      m1.windowDone fn off .ok data bad

/-- The window reads that wait go on as their lines allow. -/
def Main.settleWindows (m : Main) : Main :=
  m.host.winWaits.foldl (fun m x => match m.fnOf x.fn with | some r => m.windowGo r x.fn x.off x.len | none => m) m

/-- A window read: its completion; an AtomicOp request is answered Unsupported Request (R346, R347). -/
def Main.windowRead (fn : Fn) (off len : Nat) (atomic : Bool) (m : Main) : Out :=
  match m.fnOf fn with
  | none => .refused (.noSubject "function")
  | some r =>
    if !m.fnReach fn ∨ len = 0 then .refused (.noSubject "an access of a function")
    else
      if atomic then .next (m.windowDone fn off .unsupported [] false)
      else if m.host.winWaits.contains ⟨fn, off, len⟩ then .refused (.notReady "a read of the same bytes that waits")
      else .next (m.windowGo r fn off len)

/-- A window write: performed, line by line as the homes serve it, or discarded and logged. -/
def Main.windowWrite (fn : Fn) (off : Nat) (bytes : List Byte) (poisoned : Bool) (m : Main) : Out :=
  match m.fnOf fn with
  | none => .refused (.noSubject "function")
  | some r =>
    if !m.fnReach fn ∨ bytes = [] then .refused (.noSubject "an access of a function")
    else
      let unsupported : Main := m.aerLog .unsupported fn off
      match m.window r off bytes.length with
      | .none => .next unsupported
      | .closed => .next (m.aerLog .aborted fn off)
      | .mem s =>
        if !s.wr then .next unsupported
        else .next (m.spanWrite s.span (s.addr off) bytes poisoned)

/-- A segment withdrawn (R344, R348). -/
def Main.dropSegment (m : Main) (fn : Fn) (idx : Nat) : Main :=
  m.modFn fn (fun r => { r with segs := r.segs.filter (fun s => s.idx != idx) })

/-- A function's window takes a new size: segments that end beyond it go, with an event each. -/
def Main.resizeWindow (size : Nat) (m : Main) (fn : Fn) : Main :=
  match m.fnOf fn with
  | none => m
  | some r =>
    let m1 := m.modFn fn (fun r => { r with bar2 := size })
    (r.segs.filter (fun s => decide (size < (s.wbase + s.len) * 0x200000))).foldl (fun m s =>
      (m.dropSegment fn s.idx).postFunction fn 0x11 (fnSubject fn) s.idx) m1

/-- The VFs of a port. -/
def vfsOf (port : Nat) : List Fn := (rangeFrom 1 63).map (fun i => ⟨port, i⟩)

/-- BAR2_RESIZE: of a PF, or of every VF of a PF at once (R338, R344). -/
def Main.bar2Resize (fn : Fn) (size : Nat) (m : Main) : Out :=
  let top := if fn.idx = 0 then 40 else 36
  if (m.fnOf fn).isNone ∨ !(rangeFrom 30 (top - 29)).any (fun k => size == 2 ^ k) then .refused (.noSubject "a window size")
  else .next ((if fn.idx = 0 then [fn] else vfsOf fn.port).foldl (Main.resizeWindow size) m)

/-! ### Resets of functions and ports (R362, R420) -/

/-- The caches hold no translation of a function (R354). -/
def Main.dropTranslations (m : Main) (fn : Fn) : Main :=
  { m with host := { m.host with
      ports := m.host.ports.map (fun p => { p with cache := p.cache.filter (fun e => e.fn != fn) })
      micro := m.host.micro.filter (fun e => e.2.fn != fn) } }

/-- A function reset begins: its contexts are torn down, its segments and event queues are freed, its mailbox is OFF while the commands
in progress complete, its PCIe controls are reset, its translations and the accesses that wait for one are dropped. -/
def Main.resetFn (m : Main) (fn : Fn) : Main :=
  let m1 := (((m.objs.ctxs.filter (fun c => c.fn == fn)).map (·.num)).foldl Main.beginTeardown m).dropTranslations fn
  let run (d : DmaRun) : DmaRun := if d.fn = fn then { d with st := .ready, late := [] } else d
  let m2 := ({ m1 with host := { m1.host with
      puts := m1.host.puts.filter (fun p => p.fn != fn), dmas := m1.host.dmas.map run
      winWaits := m1.host.winWaits.filter (fun x => x.fn != fn) } } : Main).modFn fn (fun r =>
    { FnRec.reset fn with present := r.present, bar2 := r.bar2, inFlr := true })
  m2.modBox (.fn fn) Mailbox.flr

/-- FLR. -/
def Main.flr (fn : Fn) (m : Main) : Out :=
  if !m.fnReach fn then .refused (.noSubject "function") else .next ((m.resetFn fn).dmaPump.after)

/-- VF Enable cleared: every VF is reset and gone. -/
def Main.clearVfs (m : Main) (port : Nat) : Main :=
  ((vfsOf port).filter (fun f => match m.fnOf f with | some r => r.present | none => false)).foldl
    (fun m f => (m.resetFn f).modFn f (fun r => { r with present := false })) m

def Main.vfEnableClear (port : Nat) (m : Main) : Out :=
  if !m.fnReach ⟨port, 0⟩ || !(vfsOf port).any (fun f => match m.fnOf f with | some r => r.present | none => false) then
    .refused (.noSubject "VFs")
  else .next ((m.clearVfs port).dmaPump.after)

def Main.modPort (m : Main) (port : Nat) (f : Port → Port) : Main :=
  { m with host := { m.host with ports := modNth m.host.ports port f } }

/-- A port goes down: its functions are reset, what cannot be sent is dropped. -/
def Main.portDown (m : Main) (port : Nat) : Main :=
  let m1 := (m.resetFn ⟨port, 0⟩).clearVfs port
  let m2 := (List.range m1.host.dmas.length).foldl (fun m i =>
    match m.host.dmas[i]? with
    | some d => if d.fn.port = port ∧ d.failed.isNone then m.dmaFault i else m
    | none => m) m1
  let m3 := m2.modPort port (fun p => { p with linkUp := false, numVfs := 0, cache := [] })
  let stop (d : DmaRun) : DmaRun := if d.fn.port = port then { d with reads := [], st := .ready, late := [] } else d
  { m3 with host := { m3.host with
      dmas := m3.host.dmas.map stop
      invs := m3.host.invs.filter (fun v => v.port != port), doe := m3.host.doe.filter (fun d => d.1 != port) } }

/-- PERST#, or link down. -/
def Main.perst (port : Nat) (m : Main) : Out :=
  if 2 ≤ port then .refused (.noSubject "port")
  else .next (((m.portDown port).modPort port (fun p => { p with perst := true })).after)

/-- PERST# deasserted: the port trains, once the main rails are up (R536). -/
def Main.perstRelease (port : Nat) (m : Main) : Out :=
  if 2 ≤ port then .refused (.noSubject "port")
  else .next (m.modPort port (fun p => { p with perst := false, linkUp := m.rcv.mainRails }))

/-- PRI Enable set again: page requests are sent anew (R356). -/
def Main.priEnable (fn : Fn) (m : Main) : Out :=
  if !m.fnReach fn then .refused (.noSubject "function")
  else .next ((m.modFn fn (fun r => { r with pri := true, priStopped := false })).askWaiting fn)

/-- A vector unmasked: what is pending is sent (R431). -/
def Main.unmask (m : Main) (fn : Fn) (v : Nat) : Main :=
  match m.fnOf fn with
  | none => m
  | some r =>
    let m1 := m.modFn fn (fun r => { r with masked := r.masked.filter (· != v), pendVec := r.pendVec.filter (· != v) })
    if r.pendVec.contains v then m1.sendMsix fn v else m1

/-- The vectors of a function (R338). -/
def vectors (fn : Fn) : Nat := if fn.idx = 0 then 128 else 16

def Main.msixUnmask (fn : Fn) (v : Nat) (m : Main) : Out :=
  if !m.fnReach fn ∨ vectors fn ≤ v then .refused (.noSubject "a vector of a function") else .next (m.unmask fn v)

/-- A response object of a port's DOE mailbox: vendor 0x0001, the type, the length in 4-byte words, the data (assumption log 13). -/
def Main.doeSend (m : Main) (port type : Nat) (body : List Byte) : Main :=
  let n := ceilDiv body.length 4
  let object := toBytes 4 (1 + type * 2 ^ 16) ++ toBytes 4 (n + 2) ++ padTo (n * 4) body
  { m with host := { m.host with doe := m.host.doe ++ [(port, object)] } }

/-- DOE Discovery (R338): protocols 0, DOE Discovery, and 1, SPDM, with PCI-SIG's vendor number; a further index is none. -/
def Main.doeDiscovery (port index : Nat) (m : Main) : Out :=
  if !m.fnReach ⟨port, 0⟩ then .refused (.noSubject "a PF's DOE mailbox")
  else
    let body := if index = 0 then toBytes 4 0x01000001 else if index = 1 then toBytes 4 0x00010001 else toBytes 4 0x0000FFFF
    .next (m.doeSend port 0 body)

/-! ### Event-queue registers (R428-R432) -/

/-- A write of an event-queue register of a function. -/
def Main.onEq (m : Main) (fn : Fn) (q : Nat) (f : EvQ → Main) : Out :=
  if !m.fnReach fn then .refused (.noSubject "function")
  else match m.eqOf fn q with
    | none => .refused (.noSubject "event queue")
    | some x => .next (f x)

/-- EN set from 0 to 1 in OFF. -/
def EvQ.start (x : EvQ) : EvQ :=
  if !x.en && x.state == .off then
    { x with en := true, state := .run, armed := true, head := 0, tail := 0, lost := 0, lostFull := 0, lostSince := 0 }
  else { x with en := true }

/-- A write of W to EQ_HEAD: accepted up to TAIL; a slot freed in a full queue that lost events takes the overflow record
first. -/
def Main.eqHeadWrite (m : Main) (fn : Fn) (q : Nat) (w : Word) (x : EvQ) : Main :=
  if (w - x.head).toNat ≤ (x.tail - x.head).toNat then
    let m1 := m.modEq fn q (fun x => { x with head := w, armed := true })
    let m2 := if w != x.head && x.lostFull != 0 && x.state == .run && x.en then
        match m1.eqOf fn q with
        | some y => (m1.eqPut fn q y { type := 0x12, cls := 1, subject := q, status := .ok, detail := y.lostSince % 2 ^ 32,
                                       time := m1.time }).modEq fn q (fun y => { y with lostFull := 0, lostSince := 0 })
        | none => m1
      else m1
    m2.eqNotify fn q
  else m

/-- EN of an event queue cleared: what waits behind a write in progress is lost, and the queue is OFF once that has ended (R429). -/
def Main.eqStop (m : Main) (fn : Fn) (q : Nat) (x : EvQ) : Main :=
  let mine (p : HostPut) : Bool := p.fn == fn && (match p.owner with | .event k _ => k == q | _ => false)
  let waits := m.host.puts.filter mine
  let m1 : Main := { m with host := { m.host with puts := m.host.puts.filter (fun p => !mine p) ++ waits.take 1 } }
  m1.modEq fn q (fun y => { (List.range (waits.length - 1)).foldl (fun y _ => y.lose) y with
    en := false, state := if waits.isEmpty then .off else x.state })

/-- WINDOW_READ (R346). -/
def execWindowRead (fn : Fn) (off len : Nat) (atomic : Bool) (s : State) : Outcome :=
  onMain (Main.windowRead fn off len atomic) s
/-- WINDOW_WRITE (R346). -/
def execWindowWrite (fn : Fn) (off : Nat) (bytes : List Byte) (poisoned : Bool) (s : State) : Outcome :=
  onMain (Main.windowWrite fn off bytes poisoned) s
/-- FLR (R362). -/
def execFlr (fn : Fn) (s : State) : Outcome := onMain (Main.flr fn) s
/-- PERST (R362). -/
def execPerst (port : Nat) (s : State) : Outcome := onMain (Main.perst port) s
/-- PERST_RELEASE (R536). -/
def execPerstRelease (port : Nat) (s : State) : Outcome := onMain (Main.perstRelease port) s
/-- BAR2_RESIZE (R344). -/
def execBar2Resize (fn : Fn) (size : Nat) (s : State) : Outcome := onMain (Main.bar2Resize fn size) s
/-- VF_ENABLE_CLEAR (R362). -/
def execVfEnableClear (port : Nat) (s : State) : Outcome := onMain (Main.vfEnableClear port) s
/-- PRI_ENABLE (R356). -/
def execPriEnable (fn : Fn) (s : State) : Outcome := onMain (Main.priEnable fn) s
/-- MSIX_UNMASK (R431). -/
def execMsixUnmask (fn : Fn) (vector : Nat) (s : State) : Outcome := onMain (Main.msixUnmask fn vector) s
/-- DOE_DISCOVERY (R338). -/
def execDoeDiscovery (port index : Nat) (s : State) : Outcome := onMain (Main.doeDiscovery port index) s
/-- EQ_CTL_EN_SET (R429). -/
def execEqCtlEnSet (fn : Fn) (q : Nat) (s : State) : Outcome :=
  onMain (fun m => m.onEq fn q (fun _ => m.modEq fn q EvQ.start)) s
/-- EQ_CTL_EN_CLEAR (R429). -/
def execEqCtlEnClear (fn : Fn) (q : Nat) (s : State) : Outcome :=
  onMain (fun m => m.onEq fn q (m.eqStop fn q)) s
/-- EQ_HEAD (R430-R432). -/
def execEqHead (fn : Fn) (q : Nat) (w : BitVec 32) (s : State) : Outcome :=
  onMain (fun m => m.onEq fn q (m.eqHeadWrite fn q w)) s
/-- EQ_ERR_CLEAR (R429). -/
def execEqErrClear (fn : Fn) (q : Nat) (w : BitVec 32) (s : State) : Outcome :=
  onMain (fun m => m.onEq fn q (fun _ => m.modEq fn q (fun x => { x with err := x.err && !w.getLsbD 0 }))) s

end Sys2Proof.Machine
end

