-- ==== Sys2Proof/Machine/Mailbox.lean ====
section
/-! DEFINITION. The Elbor mailboxes: rings, classes, saturation, responses, and what every ECS command goes through
(R400-R421). -/

namespace Sys2Proof.Machine

/-! ### Callers (R412) -/

/-- Whether a mailbox is an admin mailbox, an instance mailbox or the BMC's. -/
inductive Caller where
  | admin | inst | bmc
  deriving DecidableEq, Repr

def callerOf : Mbx → Caller
  | .fn f => if f.idx = 0 then .admin else .inst
  | .bmc => .bmc

/-- The opcodes that an instance mailbox may send (R412). -/
def instOps : List Nat :=
  [0x000, 0x001, 0x002, 0x200, 0x201, 0x202, 0x210, 0x211, 0x212, 0x220, 0x221, 0x222, 0x223, 0x224, 0x230,
   0x240, 0x241, 0x242, 0x300, 0x301, 0x302, 0x310, 0x311, 0x320, 0x321, 0x403, 0x506, 0x600, 0x702]

/-- The opcodes that the BMC may not send (R412). -/
def notBmcOps : List Nat :=
  [0x200, 0x201, 0x203, 0x210, 0x211, 0x220, 0x221, 0x222, 0x223, 0x230, 0x240, 0x241, 0x242, 0x300, 0x301, 0x310, 0x311,
   0x320, 0x321, 0x800]

/-- Whether a kind of mailbox may send an opcode. -/
def maySend (c : Caller) (op : Nat) : Bool :=
  match c with
  | .admin => true
  | .inst => instOps.contains op
  | .bmc => !notBmcOps.contains op

/-- NOSTALE. -/
def MbCmd.noStale (c : MbCmd) : Bool := bit (fieldAt c.bytes 2 1) 0

/-! ### What is served (R400, R421) -/

def Main.running (m : Main) : Bool := m.rcv.phase == .running
def Main.banked (m : Main) : Bool := m.rcv.phase == .banked

/-- READY of a function (R341, R462, R421). -/
def Main.ready (m : Main) (fn : Fn) : Bool := m.fnReach fn && (m.running || (m.banked && fn.idx == 0))

/-- HI_STATUS of a function (R341). -/
def Main.hiStatus (m : Main) (fn : Fn) : Nat := b2n (m.ready fn) + 2 * b2n m.banked

/-- Whether Elbor core 3 runs: from the end of the first cold step, and not while it is reset (R462, R476). -/
def Main.core3Up (m : Main) : Bool :=
  m.rcv.stallMark.isNone && (match m.rcv.phase with | .off => false | .held => false | .cold n => decide (2 ≤ n) | _ => true)

/-- Whether a mailbox is served; the commands in progress of a function that has been reset still are (R362). -/
def Main.served (m : Main) (mb : Mbx) : Bool :=
  match mb with
  | .fn f => m.ready f || ((m.running || (m.banked && f.idx == 0)) &&
      (match m.boxOf mb with | some b => b.waiting.any MbCmd.orphan || b.held.any (·.cmd.orphan) | none => false))
  | .bmc => m.core3Up

/-- What the banked state answers from core 3: SAFETY commands, ERR_READ, and the identity, power, security and firmware
queries. -/
def bankedOps : List Nat := [0x000, 0x001, 0x401, 0x403, 0x404, 0x500, 0x505, 0x600, 0x702, 0x801]

/-! ### Saturation (R415-R417) -/


/-- The backlog: commands of cores 0 and 1 that have not begun. -/
def Main.backlog (m : Main) : Nat := (m.elbor.boxes.flatMap (fun b => b.waiting.filter MbCmd.backlogged)).length

/-- Elbor becomes saturated above B and stays so down to 3B/4. -/
def Main.saturate (m : Main) : Main :=
  let n := m.backlog
  let b := m.param 8
  { m with elbor := { m.elbor with saturated := decide (b < n) || (m.elbor.saturated && !decide (4 * n ≤ 3 * b)) } }

/-- RETRY_US: the rate is what was completed in the last 10 ms, as commands per second. -/
def Main.retryUs (m : Main) : Nat :=
  let done := (m.elbor.finished.filter (fun t => decide (m.time < t + 10000000))).length
  if done = 0 then 100000 else max 100 (min 100000 (m.backlog * 1000000 / (done * 100)))

/-- Commands that are never answered BUSY for load. -/
def neverBusy (op : Nat) : Bool := op == 0x103 || op == 0x104 || op == 0x201

/-- Whether a command that arrives is answered BUSY. -/
def Main.busyNow (m : Main) (c : MbCmd) : Bool :=
  m.elbor.saturated && (match c.cls with
    | some .query => c.noStale
    | some .control => !neverBusy c.op
    | some .compose => !neverBusy c.op
    | _ => false)

/-- Whether a QUERY is answered from a snapshot: it met saturation, or has waited 100 ms. -/
def Main.snapshotDue (m : Main) (c : MbCmd) : Bool :=
  c.cls == some .query && !c.noStale && (c.stale || decide (c.since + 100000000 ≤ m.time))

def Reply.busy (us : Nat) : Reply := { status := .busy, aux := us }

/-! ### Mailbox registers and rings (R401-R403) -/

/-- A write of a mailbox register of a function. -/
def Main.onBox (fn : Fn) (f : Mailbox → Main → Main) (m : Main) : Out :=
  if !m.fnReach fn then .refused (.noSubject "function")
  else match m.boxOf (.fn fn) with
    | some b => .next (f b m)
    | none => .refused (.noSubject "mailbox")

/-- EN set. -/
def Main.mbEnable (fn : Fn) : Main → Out :=
  Main.onBox fn (fun b m => m.modBox (.fn fn) (fun x =>
    if !b.en && b.state == .off then { x with en := true, state := .run, pidx := 0, cidx := 0 } else { x with en := true }))

/-- EN cleared. -/
def Main.mbDisable (fn : Fn) : Main → Out :=
  Main.onBox fn (fun _ m => m.modBox (.fn fn) (fun x => ({ x with en := false } : Mailbox).settle))

/-- A write of W to MB_PIDX. -/
def Main.mbProduce (fn : Fn) (w : Word) : Main → Out :=
  Main.onBox fn (fun b m =>
    if b.state ≠ .run ∨ w = b.pidx then m
    else if (w - b.pidx).toNat ≤ 64 ∧ (w - b.cidx).toNat ≤ 64 then m.modBox (.fn fn) (fun x => { x with pidx := w })
    else m.mbError fn 0)

/-- A write of ones to MB_ERR. -/
def Main.mbClearErr (fn : Fn) (w : Word) : Main → Out :=
  Main.onBox fn (fun _ m => m.modBox (.fn fn) (fun x => { x with err := x.err &&& (7 - w.toNat % 8) }))

/-- Whether the response of an earlier command of a slot has not been written. -/
def Main.slotBusy (m : Main) (fn : Fn) (b : Mailbox) (i : Nat) : Bool :=
  b.waiting.any (fun c => !c.orphan && c.idx % 64 == i % 64) || b.held.any (fun h => !h.cmd.orphan && h.cmd.idx % 64 == i % 64) ||
    b.ready.any (fun r => r.idx % 64 == i % 64) ||
    m.host.puts.any (fun p => p.fn == fn && (match p.owner with | .response k => k % 64 == i % 64 | _ => false))

/-- Where slot i of a mailbox lies. -/
def Mailbox.slotAt (b : Mailbox) (i : Nat) : Nat := b.base.toNat + 512 * (i % 64)

/-- The mailbox reads its next slot, once its page is translated: the command waits, or is answered BUSY at once (R353, R402, R403). -/
def Main.slotRead (fn : Fn) (slot : List Byte) (ok : Bool) (m : Main) : Out :=
  match m.boxOf (.fn fn) with
  | none => .refused (.noSubject "mailbox")
  | some b =>
    if !m.ready fn || !b.en || b.state != .run || b.cidx == b.pidx then .refused (.noSubject "a slot to read")
    else if m.slotBusy fn b b.cidx.toNat then .refused (.notReady "the response to the slot's earlier command")
    else
      match m.needPage fn 0 (b.slotAt b.cidx.toNat) .slot with
      | .wait m0 => .next m0
      | .lost m0 => .next (m0.mbError fn 1)
      | .have m0 =>
        if !ok then .next (m0.mbError fn 1)
        else if slot.length ≠ 256 then .refused (.noSubject "a command of 256 bytes")
        else
          let c : MbCmd := { idx := b.cidx.toNat, bytes := slot, since := m.time, stale := m.elbor.saturated }
          let m1 := m0.modBox (.fn fn) (fun x =>
            { x with cidx := x.cidx + 1, inflight := x.inflight + 1, waiting := x.waiting ++ [c] })
          if m.busyNow c then .next (m1.reply (.fn fn) c (.busy m.retryUs)) else .next m1.saturate

/-- What stands before an ECS command or response in its MCTP message: type 0x7E, the PCI Vendor ID, the byte 0x01 (R407). -/
def mctpHead : List Byte := [0x7E] ++ (toBytes 2 (Config.vendorId % 2 ^ 16)).reverse ++ [0x01]

/-- A response written to its slot, or kept until the slot's page is translated; or sent to the BMC under the tag of its command (R353,
R402, R405, R407). -/
def Main.respondMb (mb : Mbx) (ok : Bool) (m : Main) : Out :=
  match m.boxOf mb with
  | none => .refused (.noSubject "mailbox")
  | some b =>
    match b.ready with
    | [] => .refused (.noSubject "a response")
    | r :: rest =>
      let m1 := m.modBox mb (fun x => { x with ready := rest })
      match mb with
      | .bmc => .next (if ok then m1.mctpSend Config.bmcEid r.idx false (mctpHead ++ r.bytes ++ r.out) else m1)
      | .fn fn =>
        let at_ := b.slotAt r.idx + 0x100
        let o : PutOwner := .response r.idx
        if !ok || !m.fnReach fn then .next ((m1.mbError fn 2).responseOver fn)
        else match (if (m1.putsOf fn o).isEmpty then m1.pageOf fn 0 at_ true else none) with
          | some m2 => .next (m2.responseWrite fn at_ r.bytes)
          | none => .next (m1.addPut fn 0 at_ r.bytes o at_)

/-- A challenge for DEBUG_UNLOCK drawn anew (R511). -/
def Main.newChallenge (m : Main) : Main :=
  let (v, m1) := m.draw
  { m1 with sec := { m1.sec with challenge := v % 2 ^ 256 } }

/-! ### What every command goes through (R404-R411, R415-R421) -/

/-- A command as its meaning sees it: the mailbox, the command, its input, and whether it has begun before and waited for something. -/
structure EcsIn where
  mb : Mbx
  cmd : MbCmd
  input : Option (List Byte)
  begun : Bool := false
  deriving DecidableEq, Repr

/-- What a command comes to: an answer, a wait for something that ends later, or for another command on its object. -/
inductive Ans where
  | done (r : Reply) (s : State)
  | hold (why : HeldFor) (s : State)
  | again
  deriving DecidableEq, Repr

/-- An answer without an effect. -/
def Ans.no (s : State) (argOff : Nat) : Ans := .done (.refuse argOff) s
/-- An answer with an effect on Main. -/
def Ans.main (s : State) (r : Reply) (m : Main) : Ans := .done r { s with main := m }

namespace EcsIn

/-- A field of the command. -/
def arg (i : EcsIn) (off len : Nat) : Nat := fieldAt i.cmd.bytes off len

/-- The bytes that a length field of the input says, when the caller gave them (R404, R407). -/
def inLen (i : EcsIn) : Nat := i.arg 0x10 4
def outLen (i : EcsIn) : Nat := i.arg 0x14 4

/-- Whether an input was given, and whether an output buffer was. -/
def hasIn (i : EcsIn) : Bool := (i.mb == .bmc || bit (i.arg 2 1) 1) && i.inLen != 0
def hasOut (i : EcsIn) : Bool := i.mb == .bmc || bit (i.arg 2 1) 2

/-- The bytes of the input. -/
def data (i : EcsIn) : List Byte := (i.input.getD []).take i.inLen

/-- The first byte of a field that has a bit set above the lowest n (R5). -/
def high (i : EcsIn) (off len n : Nat) : Option Nat :=
  ((List.range len).find? (fun k => (i.arg (off + k) 1) * 256 ^ k / 2 ^ n != 0 && decide (n < 8 * k + 8))).map (· + off)

/-- The first byte of the arguments that is reserved and not zero, where `named` lists the fields. -/
def reserved (i : EcsIn) (named : List (Nat × Nat)) : Option Nat :=
  (rangeFrom 0x20 224).find? (fun o => i.arg o 1 != 0 && !named.any (fun f => decide (f.1 ≤ o) && decide (o < f.1 + f.2)))

/-- The lowest of some offsets. -/
def lowest (l : List (Option Nat)) : Option Nat :=
  l.foldl (fun a x => match a, x with
    | none, x => x
    | a, none => a
    | some a, some x => some (min a x)) none

/-- An offset where a check has failed. -/
def fails (bad : Bool) (off : Nat) : Option Nat := if bad then some off else none

/-- The first bad byte of the header (R404, R407). -/
def header (i : EcsIn) : Option Nat :=
  let top := if i.mb = .bmc then 65536 else 1048576
  lowest [fails (i.arg 1 1 / 16 != 0) 1, fails (i.arg 2 1 / 8 != 0) 2, fails (i.arg 3 1 != 0) 3,
    fails (i.mb == .bmc && i.arg 8 8 != 0) 8, fails (decide (top < i.inLen)) 0x10, fails (decide (top < i.outLen)) 0x14,
    fails (i.mb == .bmc && i.arg 0x18 8 != 0) 0x18]

end EcsIn

/-- Whether a mailbox may name a span: an instance mailbox only what is bound to its VF (R409). -/
def Main.mayName (m : Main) (mb : Mbx) (span : Nat) : Bool :=
  match mb with
  | .fn f => f.idx == 0 || m.elbor.bound.contains (f, span)
  | .bmc => true

/-- Whether a mailbox may name a context (R409). -/
def mayUse (mb : Mbx) (c : Context) : Bool :=
  match mb with
  | .fn f => f.idx == 0 || c.fn == f
  | .bmc => true

/-- What a row's command is: one whose row is taken again, one that waits, or a message of the BMC that arrives. -/
inductive Taken where
  | again
  | waits
  | arrives
  deriving DecidableEq, Repr

/-- The command that a row names. Of the BMC a row with the 256 bytes of a message is an arrival, and one without bytes names a
command received before. -/
def Main.take (m : Main) (mb : Mbx) (c : Cmd) : Option (MbCmd × Taken) :=
  match m.boxOf mb with
  | none => none
  | some b =>
    if mb = .bmc ∧ c.bytes ≠ [] then
      if c.bytes.length = 256 ∧ c.idx < 8 then
        some ({ idx := c.idx, bytes := c.bytes, since := m.time, stale := m.elbor.saturated, input := c.input }, .arrives)
      else none
    else
      match b.held.find? (fun h => h.cmd.idx == c.idx && h.why == .again) with
      | some h => some (h.cmd, .again)
      | none => (b.waiting.find? (fun x => x.idx == c.idx)).map (fun x => (x, .waits))

/-- Whether it is a command's turn: the first of its class in its mailbox, no command of a higher class of the same
cores waiting, and none of its class waiting longer (R410, R415). -/
def Main.turn (m : Main) (mb : Mbx) (c : MbCmd) : Bool :=
  match c.cls with
  | none => true
  | some k =>
    let boxes := m.elbor.boxes.filter (fun b => m.served b.mb)
    let all := boxes.flatMap (·.waiting)
    (match (boxes.find? (fun b => b.mb == mb)).bind (fun b => b.waiting.find? (fun x => x.cls == some k)) with
      | some x => x.idx == c.idx
      | none => true) &&
    all.all (fun x => match x.cls with
      | some j => !(j.core3 == k.core3 && (decide (k.rank < j.rank) || (j == k && decide (x.since < c.since))))
      | none => true)

/-- Whether the cores that serve a class run: not in the pause of an activation, core 3 not in reset, one of cores 0 and
1 not; core 3 serves alone in the banked state (R421, R476, R480, R487). -/
def Main.coresUp (m : Main) (c : MbCmd) : Bool :=
  m.elbor.paused.isNone && (match c.cls with
    | some k =>
      if k.core3 || m.banked then m.core3Up
      else m.running && !(m.rcv.resets.any (fun r => r.eng == ⟨4, 0⟩) && m.rcv.resets.any (fun r => r.eng == ⟨4, 1⟩))
    | none => true)

/-- A BMC message whose tag is in flight. -/
def Main.tagBusy (m : Main) (idx : Nat) : Bool :=
  match m.boxOf .bmc with
  | some b => b.held.any (fun h => h.cmd.idx == idx) || b.ready.any (fun r => r.idx == idx) || b.waiting.any (fun c => c.idx == idx)
  | none => false

/-- The first page of a range of a buffer that is not translated. -/
def Main.pageMissing (m : Main) (fn : Fn) (a n : Nat) (write : Bool) : Option Nat :=
  ((a :: (rangeFrom (a / 4096 + 1) (n / 4096 + 1)).map (· * 4096)).filter (fun x => decide (x < a + n))).find?
    (fun x => (m.pageOf fn 0 x write).isNone)

/-- The buffer of a command: every page of it is there, one is waited for, or one cannot be had (R353, R356, R406). -/
def Main.needBuffer (m : Main) (i : EcsIn) (a n : Nat) (write : Bool) : PageRes :=
  match i.mb with
  | .bmc => .have m
  | .fn f => if i.cmd.orphan then .have m else m.needPage f 0 ((m.pageMissing f a n write).getD a) (.buffer i.cmd.idx write)

/-- An answer given: its output is written before the effect takes hold, or the command has no effect (R406). -/
def State.answer (s0 : State) (i : EcsIn) (outOk : Bool) (r : Reply) (s : State) : State :=
  let say (s : State) (r : Reply) : State := { s with main := (s.main.reply i.mb i.cmd r).saturate }
  if r.out.isEmpty then say s r
  else if !i.hasOut || decide (i.outLen < r.out.length) then say s0 (.refuse 0x14)
  else if !outOk then say s0 { status := .faultUnresolved }
  else
    match s0.main.needBuffer i (i.arg 0x18 8) r.out.length true with
    | .wait m => { s0 with main := m }
    | .lost m => say { s0 with main := m } { status := .faultUnresolved }
    | .have _ =>
      match i.mb with
      | .bmc => say s r
      | .fn f => say (if i.cmd.orphan then s else { s with main := s.main.hostWrite f 0 (i.arg 0x18 8) r.out false }) r

/-- What is refused before the arguments are looked at also ends a DEBUG_UNLOCK (R511): a challenge is drawn anew and the failure is
posted (R515). -/
def State.unlockFails (i : EcsIn) (s : State) : State :=
  if i.cmd.op = 0x603 then { s with main := s.main.newChallenge.postSecurity 8 0 .ok 0 } else s

/-- What a command comes to once it has begun: refused to its caller, for its header, for its input, or its own meaning. -/
def State.begin_ (s : State) (i : EcsIn) (body : EcsIn → State → Ans) : Ans :=
  let m := s.main
  if m.banked && !bankedOps.contains i.cmd.op then .done { status := .banked } s
  else if !maySend (callerOf i.mb) i.cmd.op then .no (s.unlockFails i) 0xFFFF
  else
    match i.header with
    | some o => .no (s.unlockFails i) o
    | none => if i.hasIn && i.input.isNone then .done { status := .faultUnresolved } (s.unlockFails i) else body i s

/-- A command that begins now. -/
def State.beginNow (s : State) (i : EcsIn) (outOk : Bool) (body : EcsIn → State → Ans) : State :=
  match s.begin_ i body with
  | .done r s1 => s.answer i outOk r s1
  | .hold why s1 => { s1 with main := (s1.main.hold i.mb i.cmd why).saturate }
  | .again => { s with main := (s.main.hold i.mb i.cmd .again).saturate }

/-- A command begins once its input can be read: the pages of BUF_IN are translated (R406). -/
def State.beginRead (s : State) (i : EcsIn) (outOk : Bool) (body : EcsIn → State → Ans) : State :=
  if !i.hasIn then s.beginNow i outOk body
  else
    match s.main.needBuffer i (i.arg 8 8) i.inLen false with
    | .wait m => { s with main := m }
    | .lost m => ({ s with main := m } : State).beginNow { i with input := none } outOk body
    | .have m => ({ s with main := m } : State).beginNow i outOk body

/-- An ECS command: one that waits begins in its turn; a message of the BMC is discarded when its tag is in flight, answered BUSY in
saturation, begins at once in its turn, or waits (R407, R415-R417). -/
def State.ecs (ops : Nat → Bool) (body : EcsIn → State → Ans) (mb : Mbx) (c : Cmd) (s : State) : Outcome :=
  match s.main.take mb c with
  | none => .refused (.noSubject "a command that waits")
  | some (cmd, how) =>
    let i : EcsIn := { mb := mb, cmd := cmd, input := if mb = .bmc then cmd.input else c.input, begun := how == .again }
    if !ops cmd.op then .refused (.noSubject "a command of this opcode")
    else if !s.main.served mb then .refused (.notReady "the mailbox")
    else if how = .arrives then
      if s.main.tagBusy c.idx then .next s
      else if s.main.busyNow cmd then .next (s.answer i c.outOk (.busy s.main.retryUs) s)
      else if !s.main.coresUp cmd || s.main.snapshotDue cmd || !s.main.turn mb cmd then
        .next { s with main := (s.main.modBox .bmc (fun b => { b with waiting := b.waiting ++ [cmd] })).saturate }
      else .next (s.beginRead i c.outOk body)
    else if !s.main.coresUp cmd then .refused (.notReady "the mailbox")
    else if how = .waits ∧ s.main.turn mb cmd = false then .refused (.notReady "its turn")
    else if how = .waits ∧ s.main.snapshotDue cmd = true then .refused (.notReady "a snapshot answers it")
    else .next (s.beginRead i c.outOk body)

/-- A command of one opcode. -/
def State.ecsOp (op : Nat) (body : EcsIn → State → Ans) : Mbx → Cmd → State → Outcome := State.ecs (· == op) body

/-- MB_CTL_EN_SET (R402). -/
def execMbCtlEnSet (fn : Fn) (s : State) : Outcome := onMain (Main.mbEnable fn) s
/-- MB_CTL_EN_CLEAR (R402). -/
def execMbCtlEnClear (fn : Fn) (s : State) : Outcome := onMain (Main.mbDisable fn) s
/-- MB_PIDX (R403). -/
def execMbPidx (fn : Fn) (w : BitVec 32) (s : State) : Outcome := onMain (Main.mbProduce fn w) s
/-- MB_ERR_CLEAR (R402). -/
def execMbErrClear (fn : Fn) (w : BitVec 32) (s : State) : Outcome := onMain (Main.mbClearErr fn w) s
/-- MAILBOX_SLOT_READ (R403). -/
def execMailboxSlotRead (fn : Fn) (slot : List Byte) (ok : Bool) (s : State) : Outcome := onMain (Main.slotRead fn slot ok) s
/-- MAILBOX_RESPONSE (R405). -/
def execMailboxResponse (mb : Mbx) (ok : Bool) (s : State) : Outcome := onMain (Main.respondMb mb ok) s

/-- A command whose opcode no row has (R411, R412): NOT_PERMITTED at its opcode. -/
def reservedOp (i : EcsIn) (s : State) : Ans := if i.cmd.opcode < 4096 then .no s 0 else .no s 1

/-- RESERVED_COMMAND (R412). -/
def execReservedCommand (mb : Mbx) (c : Cmd) (s : State) : Outcome :=
  State.ecs (fun op => (classOf op).isNone) reservedOp mb c s

end Sys2Proof.Machine
end

