-- ==== Sys2Proof/Machine/Registers.lean ====
section
/-! DEFINITION. The registers of the host interface that have no row of their own: how BAR0 is laid out, what a write does and
what a read returns (R3-R5, R338-R341, R344, R345, R351, R354, R362, R401, R428). -/

namespace Sys2Proof.Machine

/-! ### Writes of registers without a row of their own (R3-R5) -/

/-- A field of a register written, or kept where the value is reserved. -/
def keepUnless (ok : Bool) (new old : Nat) : Nat := if ok then new else old

/-- A vector register written (R401, R428): VEN, and VECTOR where the function has the vector. -/
def writeVec (fn : Fn) (old : Word) (v : Nat) : Word :=
  BitVec.ofNat 32 (bits v 31 31 * 2 ^ 31 + keepUnless (decide (v % 128 < vectors fn)) (v % 128) (old.toNat % 128))

/-- A write to the 64-bit base register at an offset: whole, or one half; bits 11 to 0 are reserved. -/
def writeBase (old : DWord) (off size v : Nat) : DWord :=
  let x := old.toNat
  let y := if size = 8 then v % 2 ^ 64 else if off % 8 = 0 then x / 2 ^ 32 * 2 ^ 32 + v % 2 ^ 32 else v % 2 ^ 32 * 2 ^ 32 + x % 2 ^ 32
  BitVec.ofNat 64 (y / 4096 * 4096)

/-- A mailbox register (R401, R402). -/
def Mailbox.write (b : Mailbox) (fn : Fn) (off size v : Nat) : Mailbox :=
  if off = 8 ∨ off = 12 then (if b.state = .off then { b with base := writeBase b.base off size v } else b)
  else if off = 0x18 then { b with vec := writeVec fn b.vec v }
  else b

/-- An event-queue register (R428, R429). -/
def EvQ.write (x : EvQ) (fn : Fn) (off size v : Nat) : EvQ :=
  if off = 8 ∨ off = 12 then (if x.state = .off then { x with base := writeBase x.base off size v } else x)
  else if off = 0x10 then
    (if x.state = .off then { x with log2n := keepUnless (decide (6 ≤ v % 32) && decide (v % 32 ≤ 16)) (v % 32) x.log2n } else x)
  else if off = 0x14 then { x with vec := writeVec fn x.vec v }
  else if off = 0x20 then { x with cls := BitVec.ofNat 8 (if fn.idx = 0 then v % 256 / 2 * 2 else bits v 1 1 * 2) }
  else x

/-- ATS enabled or disabled; then the caches hold nothing for the function, PRI is not used, and what waited for a translation goes on
with Untranslated requests (R354). -/
def Main.setAts (m : Main) (fn : Fn) (on : Bool) : Main :=
  let m1 := m.modFn fn (fun r => { r with ats := on, pageReqs := if on then r.pageReqs else 0 })
  if on then m1
  else
    let m2 := m1.dropTranslations fn
    let run (d : DmaRun) : DmaRun := if d.fn = fn then { d with st := .ready, late := [] } else d
    let put (p : HostPut) : HostPut := if p.fn = fn then { p with st := .ready, late := [] } else p
    (({ m2 with host := { m2.host with dmas := m2.host.dmas.map run, puts := m2.host.puts.map put } } : Main).dmaPump).putsGo

/-- SR-IOV control at offset 8: VF Enable in bit 0, VF Memory Space Enable in bit 3; NumVFs at offset 0x10. -/
def Main.sriov (m : Main) (port off v : Nat) : Main :=
  let p := nth m.host.ports port { linkUp := false, perst := false, numVfs := 0, cache := [] }
  if off = 8 then
    let m1 := if bit v 0 then
        ((vfsOf port).filter (fun f => decide (f.idx ≤ p.numVfs))).foldl (fun m f => m.modFn f (fun r => { r with present := true })) m
      else m.clearVfs port
    (vfsOf port).foldl (fun m f => m.modFn f (fun r => { r with memEnable := bit v 3 && r.present })) m1
  else if off = 0x10 then m.modPort port (fun p => { p with numVfs := keepUnless (decide (v % 2 ^ 16 ≤ 63)) (v % 2 ^ 16) p.numVfs })
  else m

/-- The entry of a vector written: Message Address at 0 and 4, whose lowest two bits are 0, and Message Data at 8 (PCIe). -/
def VecEntry.write (e : VecEntry) (off size v : Nat) : VecEntry :=
  let x := e.addr.toNat
  if off = 0 ∧ size = 8 then { e with addr := BitVec.ofNat 64 (v / 4 * 4) }
  else if off = 0 then { e with addr := BitVec.ofNat 64 (x / 2 ^ 32 * 2 ^ 32 + v % 2 ^ 32 / 4 * 4) }
  else if off = 4 then { e with addr := BitVec.ofNat 64 (v % 2 ^ 32 * 2 ^ 32 + x % 2 ^ 32) }
  else if off = 8 ∧ size = 4 then { e with data := BitVec.ofNat 32 v }
  else e

/-- Function Mask of the MSI-X Message Control written: what is pending is sent when it is cleared (PCIe, R431). -/
def Main.functionMask (m : Main) (f : Fn) (on : Bool) : Main :=
  let m1 := m.modFn f (fun r => { r with fnMask := on })
  match m1.fnOf f with
  | some r => if on then m1 else (r.pendVec.filter (fun v => !r.masked.contains v)).foldl (fun m v => m.unmask f v) m1
  | none => m1

/-- The AER capability written (PCIe): status bits are cleared by ones, masks and severities take the value. -/
def AerRegs.write (r : AerRegs) (off v : Nat) : AerRegs :=
  let w := BitVec.ofNat 32 v
  if off = 4 then { r with status := r.status &&& ~~~w }
  else if off = 8 then { r with mask := w }
  else if off = 0xC then { r with sev := w }
  else if off = 0x10 then { r with corStatus := r.corStatus &&& ~~~w }
  else if off = 0x14 then { r with corMask := w }
  else r

/-- The AER capability read (PCIe). -/
def AerRegs.read (r : AerRegs) (off : Nat) : Nat :=
  if off = 4 then r.status.toNat
  else if off = 8 then r.mask.toNat
  else if off = 0xC then r.sev.toNat
  else if off = 0x10 then r.corStatus.toNat
  else if off = 0x14 then r.corMask.toNat
  else if off = 0x18 then r.first
  else if 0x1C ≤ off ∧ off < 0x2C then fieldAt r.header (off - 0x1C) 4
  else 0

/-- The mask bit of a vector written (R431). -/
def Main.vecControl (m : Main) (f : Fn) (vec v : Nat) : Main :=
  if bit v 0 then m.modFn f (fun r => { r with masked := insertSorted vec r.masked }) else m.unmask f vec

/-- Device Control at 8, with Enable Relaxed Ordering, Max Payload Size and Max Read Request Size, and Completion Timeout Value at 0x28: a
value that R338 does not support changes nothing (PRESUMED, PCIe; assumption log 41). -/
def FnRec.devWrite (r : FnRec) (off v : Nat) : FnRec :=
  if off = 8 then
    { r with
      relaxed := bit v 4
      payload := keepUnless (decide (bits v 7 5 ≤ 2)) (bits v 7 5) r.payload
      readReq := keepUnless (decide (bits v 14 12 ≤ 5)) (bits v 14 12) r.readReq }
  else if off = 0x28 then
    { r with timeout := keepUnless ([0, 1, 2, 5, 6, 9, 10, 13, 14].contains (v % 16)) (v % 16) r.timeout }
  else r

/-! ### The layout of BAR0 (R340) -/

/-- What a byte of BAR0 belongs to: a block at an offset of its own, the pending-bit array, a doorbell page, or nothing. -/
inductive BarPlace where
  | block (blk : RegBlock) (off : Nat)
  | pendingBits (off : Nat)
  | doorbell (page off : Nat)
  | reserved
  deriving DecidableEq, Repr

/-- A PF's BAR0. -/
def pfPlace (f : Fn) (off : Nat) : BarPlace :=
  if off < 0x1000 then .block (.identity f) off
  else if off < 0x2000 then .block (.mailbox f) (off - 0x1000)
  else if off < 0x10000 then .reserved
  else if off < 0x11000 then .block (.eventQueue f ((off - 0x10000) / 64)) (off % 64)
  else if off < 0x20000 then .reserved
  else if off < 0x24000 then .block (.segments f) (off - 0x20000)
  else if off < 0x30000 then .reserved
  else if off < 0x30800 then .block (.msix f ((off - 0x30000) / 16)) (off % 16)
  else if off < 0x31000 then .reserved
  else if off < 0x31010 then .pendingBits (off - 0x31000)
  else if off < 0x400000 then .reserved
  else if off < 0x800000 then .doorbell ((off - 0x400000) / 4096) (off % 4096)
  else .reserved

/-- A VF's BAR0. -/
def vfPlace (f : Fn) (off : Nat) : BarPlace :=
  if off < 0x1000 then .block (.identity f) off
  else if off < 0x2000 then .block (.mailbox f) (off - 0x1000)
  else if off < 0x2200 then .block (.eventQueue f ((off - 0x2000) / 64)) (off % 64)
  else if off < 0x4000 then .reserved
  else if off < 0x4400 then .block (.segments f) (off - 0x4000)
  else if off < 0x6000 then .reserved
  else if off < 0x6100 then .block (.msix f ((off - 0x6000) / 16)) (off % 16)
  else if off < 0x7000 then .reserved
  else if off < 0x7008 then .pendingBits (off - 0x7000)
  else if off < 0x80000 then .reserved
  else if off < 0xC0000 then .doorbell ((off - 0x80000) / 4096) (off % 4096)
  else .reserved

/-- A function's BAR0. -/
def barPlace (f : Fn) (off : Nat) : BarPlace := if f.idx = 0 then pfPlace f off else vfPlace f off

/-- The size of BAR0: 32 MiB on a PF, 1 MiB on a VF. -/
def barSize (f : Fn) : Nat := if f.idx = 0 then 0x2000000 else 0x100000

/-- The register that an access names: by its block, or by where it lies in BAR0. -/
def regPlace (blk : RegBlock) (off : Nat) : BarPlace :=
  match blk with
  | .bar0 f => barPlace f off
  | blk => .block blk off

/-! ### Writes -/

/-- A write to a block: RO and reserved registers ignore it. -/
def Main.blockWrite (m : Main) (blk : RegBlock) (off size v : Nat) : Main :=
  match blk with
  | .mailbox f => m.modBox (.fn f) (fun b => b.write f off size v)
  | .eventQueue f q => m.modEq f q (fun x => x.write f off size v)
  | .identity _ => m
  | .segments _ => m
  | .msix f vec =>
    if off = 12 then m.vecControl f vec v
    else if off = 8 ∧ size = 8 then
      (m.modFn f (fun r => { r with vecs := modNth r.vecs vec (fun e => e.write 8 4 (v % 2 ^ 32)) })).vecControl f vec (v / 2 ^ 32)
    else m.modFn f (fun r => { r with vecs := modNth r.vecs vec (fun e => e.write off size v) })
  | .command f => if f.idx = 0 ∧ off = 4 then m.modFn f (fun r => { r with memEnable := bit v 1 }) else m
  | .devControl f => m.modFn f (fun r => r.devWrite off v)
  | .atsControl f => m.setAts f (bit v 15)
  | .sriov port => m.sriov port off v
  | .msixCap f => if off = 0 then m.functionMask f (bit v 30) else m
  | .aer f => m.modFn f (fun r => { r with aer := r.aer.write off v })
  | .bar0 _ => m

/-- A write to a register at its place; one to the rest of a doorbell page is ignored and counted (R342). -/
def Main.placeWrite (m : Main) (p : BarPlace) (size v : Nat) : Main :=
  match p with
  | .block blk off => m.blockWrite blk off size v
  | .doorbell _ _ => m.ignoreDoorbell
  | _ => m

/-- The function whose registers a block holds. -/
def regFn : RegBlock → Fn
  | .mailbox f => f
  | .eventQueue f _ => f
  | .identity f => f
  | .segments f => f
  | .msix f _ => f
  | .command f => f
  | .devControl f => f
  | .atsControl f => f
  | .sriov port => ⟨port, 0⟩
  | .msixCap f => f
  | .aer f => f
  | .bar0 f => f

/-- Whether a register has a row of its own: MB_CTL, MB_PIDX and MB_ERR, EQ_CTL, EQ_HEAD and EQ_ERR, DB. -/
def ownRow : BarPlace → Bool
  | .block (.mailbox _) off => off == 0 || off == 0x10 || off == 0x1C
  | .block (.eventQueue _ _) off => off == 0 || off == 0x18 || off == 0x28
  | .doorbell _ off => off == 0
  | _ => false

/-- Whether a block has the queue or vector that is named. -/
def Main.blockThere (m : Main) : BarPlace → Bool
  | .block (.eventQueue f q) _ => (m.eqOf f q).isSome
  | .block (.msix f v) _ => decide (v < vectors f)
  | _ => true

/-- Whether an access takes one register: four bytes, or eight of a 64-bit register or of none. -/
def oneRegister (p : BarPlace) (off size : Nat) : Bool :=
  off % size == 0 && (size == 4 || (size == 8 && (match p with
    | .block (.mailbox _) off => off == 8 || decide (0x20 ≤ off)
    | .block (.eventQueue _ _) off => off == 8 || decide (0x30 ≤ off)
    | .block (.identity _) off => decide (0x10 ≤ off)
    | .block (.segments _) _ => true
    | .block (.msix _ _) _ => true
    | .block _ _ => false
    | _ => true)))

/-- REGISTER_WRITE. -/
def Main.registerWrite (blk : RegBlock) (off size : Nat) (v : BitVec 64) (m : Main) : Out :=
  let p := regPlace blk off
  if !m.fnReach (regFn blk) || ownRow p || !oneRegister p off size || !m.blockThere p then
    .refused (.noSubject "a register without a row of its own")
  else .next ((m.placeWrite p size v.toNat).after)

/-! ### Reads (R3, R4): four bytes at a time; WO and reserved registers and fields read as zero -/

/-- The half of a 64-bit register that an offset names. -/
def halfAt (x off : Nat) : Nat := if off % 8 = 0 then x % 2 ^ 32 else x / 2 ^ 32 % 2 ^ 32

/-- The identity registers (R341). -/
def Main.idRead (m : Main) (f : Fn) (off : Nat) : Nat :=
  if off = 0 then 0x0C900100 + (if f.idx = 0 then 0 else 1)
  else if off = 4 then m.hiStatus f
  else if off = 8 then f.port * 256 + f.idx
  else if off = 0x10 ∨ off = 0x14 then halfAt (seenTime f m.time) off
  else 0

/-- The mailbox registers (R401). -/
def Mailbox.read (b : Mailbox) (off : Nat) : Nat :=
  if off = 0 then b2n b.en
  else if off = 4 then b.inflight % 2 ^ 16 * 2 ^ 16 + b.state.code
  else if off = 8 ∨ off = 0xC then halfAt b.base.toNat off
  else if off = 0x10 then b.pidx.toNat
  else if off = 0x14 then b.cidx.toNat
  else if off = 0x18 then b.vec.toNat
  else if off = 0x1C then b.err
  else 0

/-- The event-queue registers (R428). -/
def EvQ.read (x : EvQ) (off : Nat) : Nat :=
  if off = 0 then b2n x.en
  else if off = 4 then b2n x.armed * 4 + x.state.code
  else if off = 8 ∨ off = 0xC then halfAt x.base.toNat off
  else if off = 0x10 then x.log2n
  else if off = 0x14 then x.vec.toNat
  else if off = 0x18 then x.head.toNat
  else if off = 0x1C then x.tail.toNat
  else if off = 0x20 then x.cls.toNat
  else if off = 0x24 then x.lost
  else if off = 0x28 then b2n x.err
  else 0

/-- The two 8-byte halves of a window segment entry (R345). -/
def Segment.low (s : Segment) : Nat := 2 ^ 63 + b2n s.wr * 2 ^ 62 + s.span * 2 ^ 40 + s.wbase * 2 ^ 21
def Segment.high (s : Segment) : Nat := s.sbase * 2 ^ 21 + s.len

/-- The window segment table (R345); an entry that is not valid reads as zero (DESIGN CHOICE,
assumption log 89). -/
def FnRec.segRead (r : FnRec) (off : Nat) : Nat :=
  match r.segs.find? (fun s => s.idx == off / 16) with
  | some s => if off % 16 < 8 then halfAt s.low off else halfAt s.high off
  | none => 0

/-- An MSI-X table entry (PCIe). -/
def FnRec.vecRead (r : FnRec) (v off : Nat) : Nat :=
  let e := nth r.vecs v { addr := 0, data := 0 }
  if off < 8 then halfAt e.addr.toNat off
  else if off = 8 then e.data.toNat
  else b2n (r.masked.contains v)

/-- The MSI-X pending-bit array (PCIe). -/
def FnRec.pbaRead (r : FnRec) (off : Nat) : Nat :=
  ((List.range 32).map (fun i => b2n (r.pendVec.contains (off * 8 + i)) * 2 ^ i)).sum

/-- The configuration header as far as R339 gives it: Vendor ID and Device ID, Memory Space Enable, class code (PCIe). -/
def FnRec.headRead (r : FnRec) (off : Nat) : Nat :=
  if off = 0 then Config.vendorId % 2 ^ 16 + (if r.fn.idx = 0 then 0x0C90 else 0x0C91) * 2 ^ 16
  else if off = 4 then (if r.fn.idx = 0 then b2n r.memEnable * 2 else 0)
  else if off = 8 then 0x120000 * 256 + Config.revision % 256
  else 0

/-- The SR-IOV capability as far as R338 gives it: 63 VFs, First VF Offset 1, VF Stride 1 (PCIe). -/
def Main.sriovRead (m : Main) (port off : Nat) : Nat :=
  let vfs := (vfsOf port).filterMap m.fnOf
  if off = 8 then b2n (vfs.any (·.present)) + b2n (vfs.any (·.memEnable)) * 8
  else if off = 0xC then 63 * 2 ^ 16 + 63
  else if off = 0x10 then (nth m.host.ports port { linkUp := false, perst := false, numVfs := 0, cache := [] }).numVfs
  else if off = 0x14 then 2 ^ 16 + 1
  else if off = 0x18 then 0x0C91 * 2 ^ 16
  else 0

/-- What four bytes of a block read. -/
def Main.blockRead (m : Main) (blk : RegBlock) (off : Nat) : Nat :=
  let ofFn (f : Fn) (g : FnRec → Nat) : Nat := (((m.fnOf f).map g).getD 0)
  match blk with
  | .mailbox f => ((m.boxOf (.fn f)).map (fun b => b.read off)).getD 0
  | .eventQueue f q => ((m.eqOf f q).map (fun x => x.read off)).getD 0
  | .identity f => m.idRead f off
  | .segments f => ofFn f (fun r => r.segRead off)
  | .msix f v => ofFn f (fun r => r.vecRead v off)
  | .command f => ofFn f (fun r => r.headRead off)
  | .devControl f => ofFn f (fun r =>
      if off = 8 then b2n r.relaxed * 16 + r.payload * 32 + r.readReq * 4096 else if off = 0x28 then r.timeout else 0)
  | .atsControl f => ofFn f (fun r => b2n r.ats * 2 ^ 15)
  | .sriov port => m.sriovRead port off
  | .msixCap f => ofFn f (fun r =>
      if off = 0 then 0x11 + (vectors f - 1) * 2 ^ 16 + b2n r.fnMask * 2 ^ 30 + 2 ^ 31 else 0)
  | .aer f => ofFn f (fun r => r.aer.read off)
  | .bar0 _ => 0

/-- What four bytes of a register read at their place. -/
def Main.placeRead (m : Main) (f : Fn) (p : BarPlace) : Nat :=
  match p with
  | .block blk off => m.blockRead blk off
  | .pendingBits off => ((m.fnOf f).map (fun r => r.pbaRead off)).getD 0
  | .doorbell _ _ => 0
  | .reserved => 0

/-- A register read: four bytes, or eight of a 64-bit register in one (R341). -/
def Main.registerRead (m : Main) (blk : RegBlock) (off size : Nat) : Nat :=
  let one (o : Nat) : Nat := m.placeRead (regFn blk) (regPlace blk o)
  if size = 8 then one off + one (off + 4) * 2 ^ 32 else one off

/-- REGISTER_WRITE (R3). -/
def execRegisterWrite (blk : RegBlock) (off size : Nat) (value : BitVec 64) (s : State) : Outcome :=
  onMain (Main.registerWrite blk off size value) s

end Sys2Proof.Machine
end

