-- ==== Sys2Proof/Machine/EcsAdmin.lean ====
section
/-! DEFINITION. ECS commands on the module as a whole: identity, status, telemetry, the fabric tables, parameters, bindings,
the lasers, debug reads (R413, R414, R513, R524, R544). -/

namespace Sys2Proof.Machine

/-- A result of fields at response offsets from 0x20 on. -/
def fields (l : List (Nat × List Byte)) : List Byte :=
  l.foldl (fun a x => putAt a (x.1 - 0x20) x.2) (List.replicate 224 0)

/-- A command that only reads. -/
def reads (f : EcsIn → State → Reply) : EcsIn → State → Ans := fun i s => .done (f i s) s

/-- A VF that an instance mailbox belongs to. -/
def EcsIn.vf (i : EcsIn) : Option Fn :=
  match i.mb with
  | .fn f => if f.idx = 0 then none else some f
  | .bmc => none

/-- Fabric time as a caller sees it (R513). -/
def EcsIn.seen (i : EcsIn) (t : Nat) : Nat := if i.vf.isSome then t / 1000 * 1000 else t

/-! ### IDENTIFY, MODULE_STATUS (R413) -/

/-- PLY-CX9-M54, filled up with zeros to 16 characters. -/
def partNumber : List Byte :=
  [0x50, 0x4C, 0x59, 0x2D, 0x43, 0x58, 0x39, 0x2D, 0x4D, 0x35, 0x34, 0, 0, 0, 0, 0]

/-- The serial number as 16 bytes. -/
def serialBytes : List Byte := (Config.serial ++ List.replicate 16 0).take 16

/-- The cores in service of a cluster, and whether it is degraded (R12, R13). -/
def Main.activeCores (m : Main) (k : Nat) : Nat := (((m.cores.units.drop (k * 9)).take 9).filter (·.inService)).length

/-- The version of the image that a component runs (R487). -/
def FwComp.version (f : FwComp) : Nat := if f.onB then f.verB else f.verA

/-- The component that an internal processor runs: Elbor, Kiln, Seal, queue and fabric processors (R422, R487). -/
def procComponent (p : Nat) : Nat := if p < 4 then 0 else if p = 4 then 1 else if p = 5 then 2 else if p < 10 then 3 else 4

/-- Whether a command has an output buffer. -/
def EcsIn.wantsOut (i : EcsIn) : Bool := i.hasOut && i.outLen != 0

/-- IDENTIFY. The firmware versions, four bytes for each processor of R422, go to BUF_OUT, where one is given. -/
def identifyReply (i : EcsIn) (s : State) : Reply :=
  match i.reserved [] with
  | some o => .refuse o
  | none =>
    let m := s.main
    let active := ((List.range 32).map m.activeCores).sum
    let spare := (m.cores.units.zipIdx.filter (fun u => u.2 % 9 == 8 && u.1.good && !u.1.inService)).length
    let degraded := ((List.range 32).map (fun k => if m.activeCores k < 8 then 2 ^ k else 0)).sum
    let vers := (List.range 12).flatMap (fun p => match m.sec.fw[procComponent p]? with
      | some f => toBytes 4 f.version
      | none => toBytes 4 0)
    { status := .ok
      result := fields [(0x20, partNumber), (0x30, serialBytes), (0x40, toBytes 1 1), (0x41, toBytes 1 0),
        (0x44, toBytes 2 active), (0x46, toBytes 2 spare), (0x48, toBytes 4 degraded), (0x4C, toBytes 1 m.mem.retired)]
      out := if i.wantsOut then vers else [] }

/-- The values of the time states (R413). -/
def TimeState.code : TimeState → Nat
  | .unlocked => 0 | .locked => 1 | .holdover => 2

/-- The spans that a caller may see. -/
def Main.visibleSpans (m : Main) (i : EcsIn) : List SpanRec := m.comp.recs.filter (fun r => m.mayName i.mb r.id)

def statusReply (i : EcsIn) (s : State) : Reply :=
  match i.reserved [] with
  | some o => .refuse o
  | none =>
    let m := s.main
    let hi := match i.mb with
      | .fn f => m.hiStatus f
      | .bmc => b2n m.running + 2 * b2n m.banked
    .good (fields [(0x20, toBytes 4 hi), (0x24, toBytes 1 m.fab.timeState.code), (0x28, toBytes 8 (i.seen m.time)),
      (0x30, toBytes 1 (m.visibleSpans i).length)])

/-! ### TELEMETRY_READ (R513, R524) -/

/-- The counters of a group and the instances of each; 0 where the group has none. -/
def teleShape (group : Nat) : Nat × Nat :=
  if group = 1 then (10, 32) else if group = 2 then (5, 192) else if group = 3 then (8, 128) else if group = 4 then (4, 64)
  else if group = 5 then (5, 1) else if group = 6 then (1, 256) else (0, 0)

/-- Whether the catalogue lists an ID. -/
def teleListed (id : Nat) : Bool :=
  let x := teleShape (bits id 31 24)
  decide (bits id 23 16 < x.1) && decide (bits id 15 0 < x.2)

/-- The ID after one: INSTANCE steps first, then COUNTER, then GROUP. -/
def teleNext (id : Nat) : Nat :=
  let x := teleShape (bits id 31 24)
  if teleListed id && bits id 15 0 + 1 == x.2 then
    (if bits id 23 16 + 1 < x.1 then teleId (bits id 31 24) (bits id 23 16 + 1) 0 else (bits id 31 24 + 1) % 256 * 2 ^ 24)
  else (id + 1) % 2 ^ 32

/-- n IDs from one on. -/
def teleIds : Nat → Nat → List Nat
  | 0, _ => []
  | n + 1, id => id :: teleIds n (teleNext id)

/-- Whether a caller may see a counter: an instance mailbox those of its spans' grains. -/
def Main.teleVisible (m : Main) (i : EcsIn) (id : Nat) : Bool :=
  let mine (o : Owner) : Bool := match o with | .span sp => m.mayName i.mb sp | _ => false
  match i.vf with
  | none => true
  | some _ =>
    if bits id 31 24 = 1 then mine (nth m.comp.coreOwner (bits id 15 0) .idle)
    else if bits id 31 24 = 2 then mine (nth m.comp.memOwner (bits id 15 0) .idle)
    else if bits id 31 24 = 3 then mine (nth m.comp.linkOwner (bits id 15 0) .idle)
    else false

/-- The value of a counter. How many lookups miss an extent cache depends on which entries it keeps, which R187 leaves open: EXT_MISS is a
free value (assumption log 99). -/
def Main.teleValue (m : Main) (id : Nat) : Nat :=
  if id = teleId 5 0 0 then m.fab.entries.length
  else if bits id 31 16 = 0x108 then Config.extMisses id m.free m.time % 2 ^ 64
  else match m.tele.find? (fun x => x.1 == id) with | some x => x.2 | none => 0

def telemetryReply (i : EcsIn) (s : State) : Reply :=
  let n := i.arg 0x24 2
  match EcsIn.lowest [i.reserved [(0x20, 4), (0x24, 2)], EcsIn.fails (n == 0 || decide (4096 < n)) 0x24] with
  | some o => .refuse o
  | none =>
    let one (id : Nat) : Nat :=
      if !teleListed id then 2 ^ 64 - 1 else if s.main.teleVisible i id then s.main.teleValue id else 0
    { status := .ok, result := fields [(0x20, toBytes 2 n)],
      out := (teleIds n (i.arg 0x20 4)).flatMap (fun id => toBytes 8 (one id)) }

/-! ### FABRIC_QUERY (R544, R261, R262, R268, R274) -/

/-- The values of the lane states (R544). -/
def LaneState.code : LaneState → Nat
  | .off => 0 | .calibrating => 1 | .training => 2 | .active => 3 | .standby => 4 | .miswired => 5 | .failed => 6

/-- A lane's entry; while its engine is looped it reports OFF (R522). A spare that serves a lane is in that lane's group (DEDUCED,
assumption log 95). -/
def Main.laneEntry (m : Main) (i : Nat) : List Byte :=
  let row (logical engine phys st trip : Nat) (grp : Nat) : List Byte :=
    toBytes 1 logical ++ toBytes 1 engine ++ toBytes 1 phys ++ toBytes 1 st ++ toBytes 4 trip ++ toBytes 4 (trip / 10) ++
      toBytes 1 grp ++ toBytes 3 0
  if i < 128 then
    match m.fab.lanes[i]? with
    | some l =>
      let grp := match m.laneGroup i with | some g => g.num | none => 0xFF
      row i (i / 8) l.phys (if (m.optOf (i / 8)).loopback = 0 then l.st.code else 0) l.roundTrip grp
    | none => []
  else
    let o := m.optOf (i - 128)
    let grp := match o.spareUsed.bind m.laneGroup with | some g => g.num | none => 0xFF
    row 0xFF (i - 128) 8 (if o.loopback = 0 then o.spare.code else 0) o.spareTrip grp

/-- A lane group's entry (R261). -/
def Main.groupEntry (m : Main) (i : Nat) : List Byte :=
  match m.fab.groups.find? (fun g => g.num == i) with
  | some g =>
    let inserv := b2n (!(m.activeIn g).isEmpty)
    toBytes 8 (2 ^ 63 + inserv * 2 ^ 62 + g.neighbour * 2 ^ 49 + g.spares.toNat) ++ toBytes 16 g.lanes.toNat ++ toBytes 8 0
  | none => List.replicate 32 0

/-- A route's entry (R262). -/
def Main.routeEntry (m : Main) (i : Nat) : List Byte :=
  match m.fab.routes.find? (fun r => r.dest == i) with
  | some r =>
    let hops := (r.hops.zipIdx.map (fun h => (h.1.1 * 8 + h.1.2) * 2 ^ (10 * h.2))).sum
    toBytes 8 (2 ^ 63 + (r.hops.length - 1) * 2 ^ 61 + b2n r.self * 2 ^ 60 + hops)
  | none => List.replicate 8 0

/-- The GEN of a free tracker entry. -/
def Main.genOf (m : Main) (i : Nat) : Nat := match m.fab.gens.find? (fun g => g.1 == i) with | some g => g.2 | none => 0

/-- A tracker entry (R268); a retired bank's are zero. -/
def Main.trackerEntry (m : Main) (i : Nat) : List Byte :=
  if m.fab.banks[i / 1024]? = some .retired then List.replicate 32 0
  else
    match m.fab.entries.find? (fun e => e.bank * 1024 + e.entry == i) with
    | some e =>
      toBytes 8 (2 ^ 63 + b2n e.reissued * 2 ^ 60 + e.gen * 2 ^ 56 + e.retry * 2 ^ 54 + e.dest * 2 ^ 41 + e.span * 2 ^ 21 +
          e.epoch * 2 ^ 5) ++
        toBytes 8 (e.issuer * 2 ^ 55 + e.slot * 2 ^ 49 + e.op * 2 ^ 41 + ceilDiv e.len 16 * 2 ^ 32) ++
        toBytes 8 (e.addr % 2 ^ 52) ++
        toBytes 8 (e.deadline / 1000 % 2 ^ 32 * 2 ^ 32 + e.lc * 2 ^ 18 + b2n e.ord * 2 ^ 17)
    | none => toBytes 8 (m.genOf i * 2 ^ 56) ++ List.replicate 24 0

/-- The time entry. -/
def Main.timeEntry (m : Main) (i : EcsIn) : List Byte :=
  toBytes 1 m.fab.timeState.code ++ toBytes 1 (b2n m.fab.syncing) ++ toBytes 2 m.fab.root ++ toBytes 8 (i.seen m.time) ++
    toBytes 4 0

/-- A table's length, and an entry of it. -/
def Main.fabTable (m : Main) (i : EcsIn) (t : Nat) : Option (Nat × (Nat → List Byte)) :=
  if t = 0 then some (144, m.laneEntry)
  else if t = 1 then some (128, m.groupEntry)
  else if t = 2 then some (8192, m.routeEntry)
  else if t = 3 then some (18432, m.trackerEntry)
  else if t = 4 then some (1, fun _ => m.timeEntry i)
  else none

/-- Up to count entries from a first index on, with the index after the last one. -/
def listPart (len : Nat) (entry : Nat → List Byte) (first count : Nat) : Reply :=
  let n := min count (len - first)
  { status := .ok
    result := fields [(0x20, toBytes 4 n), (0x24, toBytes 4 (if first + n < len then first + n else 0xFFFFFFFF))]
    out := (rangeFrom first n).flatMap entry }

def fabricReply (i : EcsIn) (s : State) : Reply :=
  let t := s.main.fabTable i (i.arg 0x20 1)
  match EcsIn.lowest [i.reserved [(0x20, 1), (0x24, 4), (0x28, 4)], EcsIn.fails t.isNone 0x20] with
  | some o => .refuse o
  | none =>
    match t with
    | none => .refuse 0x20
    | some (len, entry) =>
      if len ≤ i.arg 0x24 4 then .refuse 0x24 else listPart len entry (i.arg 0x24 4) (i.arg 0x28 4)

/-! ### Parameters (R414) -/

/-- The range of a parameter. -/
def paramRange (id : Nat) : Option (Nat × Nat) :=
  if id = 1 then some (6, 168) else if id = 2 then some (1, 65535) else if id = 3 then some (1, 255)
  else if id = 4 then some (500, 100000) else if id = 5 then some (0x322BCC77, 0x3A83126F)
  else if id = 6 then some (1, 10000) else if id = 7 then some (10, 10000) else if id = 8 then some (64, 1024) else none

def setParam (i : EcsIn) (s : State) : Ans :=
  let id := i.arg 0x20 2
  let v := i.arg 0x28 8
  let out := match paramRange id with | some r => decide (v < r.1) || decide (r.2 < v) | none => false
  match EcsIn.lowest [i.reserved [(0x20, 2), (0x28, 8)], EcsIn.fails (paramRange id).isNone 0x20, EcsIn.fails out 0x28] with
  | some o => .no s o
  | none => .main s (.good []) ({ s.main with params := modNth s.main.params (id - 1) (fun _ => v) } : Main).saturate

def getParamReply (i : EcsIn) (s : State) : Reply :=
  match EcsIn.lowest [i.reserved [(0x20, 2)], EcsIn.fails (paramRange (i.arg 0x20 2)).isNone 0x20] with
  | some o => .refuse o
  | none => .good (fields [(0x20, toBytes 8 (s.main.param (i.arg 0x20 2)))])

/-! ### FN_BIND (R409, R413) -/

def fnBind (i : EcsIn) (s : State) : Ans :=
  let m := s.main
  let vf : Fn := ⟨i.arg 0x20 1, i.arg 0x21 1⟩
  let span := i.arg 0x24 4
  let unbind := bit (i.arg 0x22 1) 0
  let there := match m.fnOf vf with | some r => r.present && vf.idx != 0 | none => false
  match EcsIn.lowest [i.reserved [(0x20, 3), (0x24, 4)], EcsIn.fails (decide (1 < vf.port)) 0x20, EcsIn.fails (!there) 0x21,
      i.high 0x22 1 1, i.high 0x24 4 20, EcsIn.fails (!unbind && (m.recOf span).isNone) 0x24] with
  | some o => .no s o
  | none =>
    let rest := m.elbor.bound.filter (· != (vf, span))
    if unbind then
      if m.objs.ctxs.any (fun c => c.fn == vf && c.span == span) then .no s 0xFFFF
      else .main s (.good []) { m with elbor := { m.elbor with bound := rest } }
    else .main s (.good []) { m with elbor := { m.elbor with bound := rest ++ [(vf, span)] } }

/-! ### LASER_SHUTDOWN (R247, R544) -/

/-- The engines held off. -/
def Main.heldOff (m : Main) : Nat := ((List.range 16).map (fun e => if (m.optOf e).shutdown then 2 ^ e else 0)).sum

def laserShutdown (i : EcsIn) (s : State) : Ans :=
  let named := bitsSet 16 (i.arg 0x20 2)
  match EcsIn.lowest [i.reserved [(0x20, 3)], EcsIn.fails (decide (1 < i.arg 0x22 1)) 0x22] with
  | some o => .no s o
  | none =>
    let act (m : Main) (e : Nat) : Main :=
      if i.arg 0x22 1 = 0 then (m.modOpt e (fun o => { o with shutdown := true })).darken e
      else m.modOpt e (fun o => { o with shutdown := false })
    let m1 := (named.foldl act s.main).flush
    .main s (.good (fields [(0x20, toBytes 2 m1.heldOff)])) m1

/-! ### DEBUG_READ (R128, R544) -/

def debugReply (i : EcsIn) (s : State) : Reply :=
  let m := s.main
  let kind := i.arg 0x20 1
  let ctx := m.ctxOf (i.arg 0x24 4)
  let items := match ctx with | some c => if c.state = .lost ∧ c.debug then c.kept.map SaveRec.record else [] | none => []
  match EcsIn.lowest [i.reserved [(0x20, 1), (0x24, 4), (0x28, 4), (0x2C, 4)], EcsIn.fails (decide (1 < kind)) 0x20,
      EcsIn.fails (kind == 1 && i.vf.isSome) 0x20, if kind = 0 then i.high 0x24 4 16 else none,
      EcsIn.fails (kind == 0 && i.vf.isNone && ctx.isNone) 0x24] with
  | some o => .refuse o
  | none =>
    if kind = 1 then
      (if 18432 ≤ i.arg 0x28 4 then .refuse 0x28 else listPart 18432 m.trackerEntry (i.arg 0x28 4) (i.arg 0x2C 4))
    else
      match ctx with
      | none => .refuse 0xFFFF
      | some c =>
        if !mayUse i.mb c || (i.vf.isSome && !c.debug) then .refuse 0xFFFF
        else listPart items.length (fun k => let r := nth items k []; toBytes 4 r.length ++ r) (i.arg 0x28 4) (i.arg 0x2C 4)

/-- IDENTIFY (R413). -/
def execIdentify (mb : Mbx) (c : Cmd) (s : State) : Outcome := State.ecsOp 0x000 (reads identifyReply) mb c s
/-- MODULE_STATUS (R413). -/
def execModuleStatus (mb : Mbx) (c : Cmd) (s : State) : Outcome := State.ecsOp 0x001 (reads statusReply) mb c s
/-- TELEMETRY_READ (R524). -/
def execTelemetryRead (mb : Mbx) (c : Cmd) (s : State) : Outcome := State.ecsOp 0x002 (reads telemetryReply) mb c s
/-- FABRIC_QUERY (R544). -/
def execFabricQuery (mb : Mbx) (c : Cmd) (s : State) : Outcome := State.ecsOp 0x003 (reads fabricReply) mb c s
/-- SET_PARAM (R414). -/
def execSetParam (mb : Mbx) (c : Cmd) (s : State) : Outcome := State.ecsOp 0x004 setParam mb c s
/-- GET_PARAM (R414). -/
def execGetParam (mb : Mbx) (c : Cmd) (s : State) : Outcome := State.ecsOp 0x005 (reads getParamReply) mb c s
/-- FN_BIND (R413). -/
def execFnBind (mb : Mbx) (c : Cmd) (s : State) : Outcome := State.ecsOp 0x006 fnBind mb c s
/-- LASER_SHUTDOWN (R544). -/
def execLaserShutdown (mb : Mbx) (c : Cmd) (s : State) : Outcome := State.ecsOp 0x404 laserShutdown mb c s
/-- DEBUG_READ (R544). -/
def execDebugRead (mb : Mbx) (c : Cmd) (s : State) : Outcome := State.ecsOp 0x506 (reads debugReply) mb c s

end Sys2Proof.Machine
end

