-- ==== Sys2Proof/Machine/EcsContexts.lean ====
section
/-! DEFINITION. ECS commands of the context group: contexts, queues, fences, L2 partitions, landing counters (R172-R176, R289,
R292, R363-R399, R413). -/

namespace Sys2Proof.Machine

/-- An outcome with what follows it on Main. -/
def settling (f : Main → Main) (r : Outcome) : Outcome :=
  match r with
  | .next s => .next { s with main := f s.main }
  | r => r

/-- A command answered SAGGER_CLOSED; one that has begun and waits goes on waiting until the sagger reopens (R420). -/
def Ans.closed (i : EcsIn) (s : State) : Ans := if i.begun then .again else .done { status := .saggerClosed } s

/-- Whether a command of an instance mailbox names a host region or a landing counter of another VF's context (R409). -/
def Main.foreign (m : Main) (i : EcsIn) (regions counters : List Nat) : Bool :=
  match i.vf with
  | none => false
  | some fn =>
    let other (ctx : Nat) : Bool := match m.ctxOf ctx with | some c => c.fn != fn | none => false
    regions.any (fun h => match m.regionOf h with | some r => other r.ctx | none => false) ||
      counters.any (fun k => match m.counterOf k with | some c => other c.ctx | none => false)

/-- A command on the context at 0x20 (R389, R390, R409, R413, R420): the caller, the arguments, the context's state, the
sagger of its span, then its meaning. -/
def onCtx (i : EcsIn) (s : State) (named : List (Nat × Nat)) (query needs : Bool) (bad : Context → List (Option Nat))
    (go : Context → Ans) : Ans :=
  match s.main.ctxOf (i.arg 0x20 2) with
  | none => if i.vf.isSome then .no s 0xFFFF else .no s 0x20
  | some c =>
    if !mayUse i.mb c then .no s 0xFFFF
    else
      match EcsIn.lowest ([i.reserved ((0x20, 4) :: named), i.high 0x20 4 16] ++ bad c) with
      | some o => .no s o
      | none =>
        if !query && (c.state == .lost || c.state == .teardown) then .no s 0xFFFF
        else if needs && s.main.fenced c.span then .closed i s
        else go c

/-- No further argument check. -/
def noBad (_ : Context) : List (Option Nat) := []

/-! ### Contexts (R365, R366, R388) -/

/-- Whether an open transition of an extent's span releases or passes a memory grain that holds it (R130). -/
def Main.leaves (m : Main) (e : Extent) : Bool :=
  match m.recOf e.span with
  | some r => r.phase != .stable && (e.mask &&& r.current.mem &&& ~~~r.shadow.mem) != 0
  | none => false

/-- The extents that CTX_CREATE names for the save pool. -/
def Main.poolNamed (m : Main) (i : EcsIn) (span n : Nat) : List (Nat × Option Extent) :=
  (List.range n).map (fun k =>
    (0x40 + 8 * k, m.mem.extents.find? (fun e => e.span == span && e.covers (i.arg (0x40 + 8 * k) 8))))

def ctxCreate (i : EcsIn) (s : State) : Ans :=
  let m := s.main
  match i.mb with
  | .bmc => .no s 0xFFFF
  | .fn fn =>
    let span := i.arg 0x20 4
    let n := i.arg 0x26 1
    let pool := m.poolNamed i span (min n 16)
    let eqs := match m.fnOf fn with | some r => r.eqs.length | none => 0
    if !m.mayName i.mb span then .no s 0xFFFF
    else
      match EcsIn.lowest ([i.reserved [(0x20, 4), (0x24, 1), (0x25, 1), (0x26, 1), (0x28, 4), (0x2C, 2), (0x30, 8),
          (0x40, 8 * min n 16)], i.high 0x20 4 20, EcsIn.fails (m.recOf span).isNone 0x20, i.high 0x25 1 2,
          EcsIn.fails (n == 0 || decide (16 < n)) 0x26, i.high 0x28 4 20, EcsIn.fails (decide (eqs ≤ i.arg 0x2C 2)) 0x2C] ++
          pool.map (fun x => EcsIn.fails (match x.2 with | some e => e.state == .moving || m.leaves e | none => true) x.1)) with
      | some o => .no s o
      | none =>
        if m.fenced span then .closed i s
        else if pool.any (fun x => match x.2 with | some e => e.state == .zeroing | none => false) then .again
        else
          match lowestFree (m.objs.ctxs.map (·.num)) 65536 with
          | none => .no s 0xFFFF
          | some num =>
            let c : Context :=
              { num := num, span := span, fn := fn, pasid := i.arg 0x28 4, seed := BitVec.ofNat 64 (i.arg 0x30 8)
                weight := if i.arg 0x24 1 = 0 then 16 else i.arg 0x24 1
                checked := bit (i.arg 0x25 1) 0, debug := bit (i.arg 0x25 1) 1
                pool := (pool.filterMap (fun x => x.2.map (·.base))).eraseDups, evq := i.arg 0x2C 2, state := .idle
                credit := 0, creditZero := none, waitFrom := none, jobs := 0, energy := 0, kept := [] }
            .main s (.good (fields [(0x20, toBytes 4 num)])) { m with objs := { m.objs with ctxs := m.objs.ctxs ++ [c] } }

def ctxDestroy (i : EcsIn) (s : State) : Ans :=
  onCtx i s [] true false noBad (fun c =>
    .hold (.teardown c.num) { s with main := s.main.beginTeardown c.num })

/-- The slots a context holds on this module. -/
def Main.slotCount (m : Main) (ctx : Nat) : Nat :=
  (m.objs.slots.filter (fun x => match x with | some y => y.ctx == ctx | none => false)).length

/-- A stay put among others in the order in which they began. -/
def insertStay (x : Nat × Nat) : List (Nat × Nat) → List (Nat × Nat)
  | [] => [x]
  | y :: r => if x.1 ≤ y.1 then x :: y :: r else y :: insertStay x r

/-- How much of the time up to an end some intervals, in the order of their beginnings, cover. -/
def covered (l : List (Nat × Nat)) : Nat :=
  (l.foldl (fun (a : Nat × Nat) x => (max a.1 x.2, a.2 + (x.2 - max a.1 x.1))) (0, 0)).2

/-- For how long in the last 100 ms a core had a work group of a context. -/
def Main.occupied (m : Main) (ctx core : Nat) : Nat :=
  let mine := m.cores.stays.filter (fun s => s.ctx == ctx && s.core == core)
  covered ((mine.map (fun s => (max s.start (m.time - 100000000), s.stop.getD m.time))).foldr insertStay [])

/-- The utilisation of a core grain by a context, in 1/65,536: the share of the last 100 ms in which its cores had a work group of the
context (R388). A core's cycles are taken as its time, whatever its pace in between (DESIGN CHOICE, log 44). -/
def Main.utilisation (m : Main) (ctx k : Nat) : Nat :=
  let cs := m.clusterCores k
  (cs.map (m.occupied ctx)).sum * 65536 / (max 1 cs.length * 100000000)

/-- CTX_QUERY. The counts of queues and fences and the bytes of host regions follow the fields whose places the command set gives
(R388; DESIGN CHOICE, log 40). -/
def ctxQuery (i : EcsIn) (s : State) : Ans :=
  onCtx i s [] true false noBad (fun c =>
    let m := s.main
    let entry (k : Nat) : List Byte := toBytes 2 k ++ toBytes 2 0 ++ toBytes 4 (m.utilisation c.num k)
    let e := if i.vf.isSome then ctxEnergy c else roundEnergy ⟨0, 0⟩ c.energy
    .done
      { status := .ok
        result := fields [(0x20, toBytes 1 c.state.code), (0x24, toBytes 4 (m.slotCount c.num)), (0x28, toBytes 8 c.jobs),
          (0x30, toBytes 8 e), (0x38, toBytes 8 (m.poolReserved c.num)), (0x40, toBytes 8 ((m.poolUsed c.num).length * 4096)),
          (0x48, toBytes 4 (m.objs.queues.filter (fun x => x.ctx == c.num)).length),
          (0x4C, toBytes 4 (m.objs.fences.filter (fun x => x.owner == c.num)).length),
          (0x50, toBytes 8 ((m.objs.regions.filter (fun x => x.ctx == c.num)).map (·.len)).sum)]
        out := if i.wantsOut then (m.spanClusters c.span).flatMap entry else [] }
      s)

def ctxEvict (i : EcsIn) (s : State) : Ans :=
  onCtx i s [] false true noBad (fun c =>
    .main s (.good []) (if c.state = .resident then s.main.giveUp c.num else s.main))

/-! ### Queues (R123, R340, R364, R370-R373) -/

/-- The first byte of a location's 16 that does not serve: its kind, its region, its offset or address. -/
def Main.badLoc (m : Main) (i : EcsIn) (c : Context) (off size : Nat) (write : Bool) : Option Nat :=
  let a := i.arg (off + 8) 8
  let rest : Option Nat :=
    if i.arg off 1 = 0 then
      match m.regionOf (i.arg (off + 4) 4) with
      | none => some (off + 4)
      | some r =>
        if r.ctx != c.num || r.glaze.isSome || !(if write then r.write else r.read) then some (off + 4)
        else EcsIn.fails (a % 64 != 0 || decide (r.len < a + size)) (off + 8)
    else EcsIn.fails (a % 64 != 0 || !m.mem.holdsRange c.span a size) (off + 8)
  EcsIn.lowest [EcsIn.fails (decide (1 < i.arg off 1)) off, i.high (off + 1) 3 0, rest]

/-- A location. -/
def EcsIn.loc (i : EcsIn) (off : Nat) : Loc :=
  if i.arg off 1 = 0 then .region (i.arg (off + 4) 4) (i.arg (off + 8) 8) else .span (i.arg (off + 8) 8)

/-- The queue processor of a new queue: of the half of the span's lowest cluster the one with the fewest queues (R123). -/
def Main.pickProc (m : Main) (span : Nat) : Nat :=
  let count (p : Nat) : Nat := (m.objs.queues.filter (fun x => x.proc == p)).length
  let least (l : List Nat) (d : Nat) : Nat := l.foldl (fun a p => if count p < count a then p else a) d
  match m.spanClusters span with
  | [] => least [1, 2, 3] 0
  | k :: _ => if k < 16 then least [1] 0 else least [3] 2

/-- The doorbell pages of a function. -/
def pageCount (fn : Fn) : Nat := if fn.idx = 0 then 1024 else 64

def queueCreate (i : EcsIn) (s : State) : Ans :=
  let m := s.main
  let slots := 2 ^ i.arg 0x24 1
  if m.foreign i (([0x30, 0x40, 0x50, 0x60].filter (fun o => i.arg o 1 == 0)).map (fun o => i.arg (o + 4) 4)) [] then .no s 0xFFFF
  else onCtx i s [(0x24, 1), (0x25, 1), (0x30, 64)] false true
    (fun c => [EcsIn.fails (decide (i.arg 0x24 1 < 4) || decide (16 < i.arg 0x24 1)) 0x24, EcsIn.fails (decide (1 < i.arg 0x25 1)) 0x25,
      m.badLoc i c 0x30 (64 * min slots 65536) false, m.badLoc i c 0x40 (32 * min slots 65536) true, m.badLoc i c 0x50 16 true,
      m.badLoc i c 0x60 64 true])
    (fun c =>
      let mine := m.objs.queues.filter (fun x => x.ctx == c.num)
      let home := m.objs.slots.any (fun x => match x with | some y => y.ctx == c.num && y.home | none => false)
      match lowestFree (mine.map (·.idx)) 64, lowestFree ((m.objs.queues.filter (fun x => x.fn == c.fn)).map (·.page)) (pageCount c.fn) with
      | some idx, some page =>
        if home && decide (1024 ≤ m.residentQueues) then .no s 0xFFFF
        else
          let q : Queue :=
            { ctx := c.num, idx := idx, fn := c.fn, page := page, ring := i.loc 0x30, slots := slots, cring := i.loc 0x40
              status := i.loc 0x50, traprec := i.loc 0x60, cevt := bit (i.arg 0x25 1) 0, proc := m.pickProc c.span
              avail := 0, ridx := 0, done := 0, doneOut := [], halted := false, destroying := false, running := [], held := [],
              lastLaunch := none }
          .main s (.good (fields [(0x20, toBytes 1 idx), (0x24, toBytes 2 page)]))
            { m with objs := { m.objs with queues := m.objs.queues ++ [q] } }
      | _, _ => .no s 0xFFFF)

/-- The queue at 0x24. -/
def Main.queueNamed (m : Main) (i : EcsIn) (c : Context) : Option Queue := m.queueOf ⟨c.num, i.arg 0x24 1⟩

def queueDestroy (i : EcsIn) (s : State) : Ans :=
  let m := s.main
  onCtx i s [(0x24, 1)] false true (fun c => [EcsIn.fails (m.queueNamed i c).isNone 0x24]) (fun c =>
    let q : QRef := ⟨c.num, i.arg 0x24 1⟩
    if (match m.queueNamed i c with | some x => x.destroying | none => false) then .again
    else .hold (.queue q) { s with main :=
      ((m.modQueue q (fun x => { x with avail := x.ridx, destroying := true })).cutPuts (fun p => p.owner == .ring q)).restWaiting c.num })

/-- Every queue that is being destroyed and has nothing running goes. -/
def Main.settleQueues (m : Main) : Main :=
  (m.objs.queues.map (fun x => (⟨x.ctx, x.idx⟩ : QRef))).foldl (fun m q => m.dropQueue q) m

def queueQuery (i : EcsIn) (s : State) : Ans :=
  let m := s.main
  onCtx i s [(0x24, 1)] true false (fun c => [EcsIn.fails (m.queueNamed i c).isNone 0x24]) (fun c =>
    match m.queueNamed i c with
    | some x => .done (.good (fields [(0x20, toBytes 1 (b2n x.halted)), (0x24, toBytes 4 x.avail.toNat),
        (0x28, toBytes 4 x.ridx.toNat), (0x2C, toBytes 4 x.done.toNat)])) s
    | none => .no s 0x24)

/-! ### Fences (R364, R392-R399) -/

/-- Whether an instance mailbox may name a fence: one that a context of its VF owns or holds a grant on (R409). -/
def Main.mayFence (m : Main) (i : EcsIn) (handle : Nat) : Bool :=
  match i.vf, m.fenceOf handle with
  | none, _ => true
  | some fn, some f => m.objs.ctxs.any (fun c => c.fn == fn &&
      (f.owner == c.num || f.grants.any (fun g => g.module == m.fab.module && g.ctx == c.num)))
  | some _, none => false

/-- A command on the fence at 0x24, which the context may use as `may` says. -/
def onFence (i : EcsIn) (s : State) (named : List (Nat × Nat)) (query : Bool) (bad : List (Option Nat))
    (may : Fence → Context → Bool) (go : Context → Fence → Ans) : Ans :=
  let handle := i.arg 0x24 4
  let good (c : Context) : Bool := match s.main.fenceOf handle with | some f => may f c | none => false
  onCtx i s ((0x24, 4) :: named) query false
    (fun c => if s.main.mayFence i handle then EcsIn.fails (!good c) 0x24 :: bad else [])
    (fun c =>
      match s.main.mayFence i handle, s.main.fenceOf handle with
      | true, some f => go c f
      | _, _ => .no s 0xFFFF)

/-- The grant of a context of this module. -/
def Main.granted (m : Main) (f : Fence) (c : Context) : Bool := f.grants.any (fun g => g.module == m.fab.module && g.ctx == c.num)

def fenceCreate (i : EcsIn) (s : State) : Ans :=
  let m := s.main
  let kind := i.arg 0x30 1
  let mirror : Option Nat :=
    if kind = 2 then none
    else if kind != 0 then some 0x30
    else
      match m.regionOf (i.arg 0x34 4) with
      | none => some 0x34
      | some r => if r.ctx != i.arg 0x20 4 || !r.write || r.glaze.isSome then some 0x34
                  else EcsIn.fails (decide (r.len < i.arg 0x38 8 + 16)) 0x38
  if m.foreign i (if kind = 0 then [i.arg 0x34 4] else []) [] then .no s 0xFFFF
  else onCtx i s [(0x28, 8), (0x30, 16)] false false (fun _ => [mirror, i.high 0x31 3 0]) (fun c =>
    if 4096 ≤ (m.objs.fences.filter (fun f => f.owner == c.num)).length then .no s 0xFFFF
    else
      match lowestFree (m.objs.fences.map (·.index)) 262144 with
      | none => .no s 0xFFFF
      | some idx =>
        let g := match m.objs.fenceGens.find? (fun x => x.1 == idx) with | some x => x.2 | none => 1
        let f : Fence :=
          { gen := g, index := idx, owner := c.num, value := BitVec.ofNat 64 (i.arg 0x28 8), live := true, grants := [], regress := 0
            rr := none, mirror := if kind = 0 then some (i.loc 0x30) else none, mirrorOn := kind == 0 }
        let m1 : Main := { m with objs := { m.objs with fences := m.objs.fences ++ [f] } }
        .main s (.good (fields [(0x20, toBytes 4 f.handle)])) (m1.writeMirror f.handle))

def fenceDestroy (i : EcsIn) (s : State) : Ans :=
  let m := s.main
  onFence i s [] false [] (fun f c => f.owner == c.num || m.granted f c) (fun c f =>
    let m1 := if f.owner = c.num then m.abandonFence f.handle
      else m.modFence f.handle (fun f => { f with grants := f.grants.filter (fun g => !(g.module == m.fab.module && g.ctx == c.num)) })
    .main s (.good []) (m1.freeFence f.handle))

def fenceGrant (i : EcsIn) (s : State) : Ans :=
  let m := s.main
  let g : Grant := { module := i.arg 0x28 2, ctx := i.arg 0x2C 4, wait := bit (i.arg 0x30 1) 0, signal := bit (i.arg 0x30 1) 1 }
  let remove := bit (i.arg 0x30 1) 7
  let badRights := i.arg 0x30 1 / 4 % 32 != 0 || (!remove && ((!g.wait && !g.signal) || (g.wait && g.module != m.fab.module)))
  onFence i s [(0x28, 2), (0x2C, 4), (0x30, 1)] false [i.high 0x28 2 13, i.high 0x2C 4 16, EcsIn.fails badRights 0x30]
    (fun f c => f.owner == c.num) (fun _ f =>
      let rest := f.grants.filter (fun x => !(x.module == g.module && x.ctx == g.ctx))
      if remove then .main s (.good []) ((m.modFence f.handle (fun f => { f with grants := rest })).freeFence f.handle)
      else if 32 ≤ rest.length then .no s 0xFFFF
      else .main s (.good []) (m.modFence f.handle (fun f => { f with grants := rest ++ [g] })))

/-- The host as the agent that signals (R222, R396). -/
def Main.hostPos (m : Main) : RelRec :=
  { scope := 5, module := m.fab.module, cluster := 0, core := 15, host := true, modLevel := true }

def fenceSignal (i : EcsIn) (s : State) : Ans :=
  let m := s.main
  let here := m.fab.module
  onFence i s [(0x28, 8)] false [] (fun f c => f.maySignal here here c.num) (fun c f =>
    let r := m.signalFence here here c.num f.handle (BitVec.ofNat 64 (i.arg 0x28 8)) (if c.checked then some m.hostPos else none)
    .main s { status := r.1 } r.2)

def fenceQuery (i : EcsIn) (s : State) : Ans :=
  let m := s.main
  onFence i s [] true [] (fun f c => f.owner == c.num || m.granted f c) (fun _ f =>
    let mir := if f.mirror.isNone then 0 else if f.mirrorOn then 1 else 2
    .done (.good (fields [(0x20, toBytes 8 f.value.toNat), (0x28, toBytes 1 (b2n !f.live)), (0x29, toBytes 1 mir),
      (0x2C, toBytes 4 f.regress)])) s)

/-! ### L2 partitions (R172-R176) -/

/-- A context's entry in one cluster's registers: set, put into a free entry, or removed; none when no entry is free. -/
def L2Part.assign (p : L2Part) (ctx ways : Nat) : Option L2Part :=
  let word : DWord := BitVec.ofNat 64 (2 ^ 63 + ctx * 2 ^ 32 + ways)
  let mine (w : DWord) : Bool := w.getLsbD 63 && w.toNat / 2 ^ 32 % 2 ^ 16 == ctx
  let ctxs : Option (List DWord) :=
    if ways = 0 then some (p.ctx.map (fun w => if mine w then 0 else w))
    else
      match p.ctx.findIdx? mine, p.ctx.findIdx? (fun w => !w.getLsbD 63) with
      | some k, _ => some (p.ctx.set k word)
      | none, some k => some (p.ctx.set k word)
      | none, none => none
  ctxs.map (fun l => { p with ctl := if l.any (fun w => w.getLsbD 63) then 1 else 0, ctx := l })

def ctxL2part (i : EcsIn) (s : State) : Ans :=
  let m := s.main
  let ks := bitsSet 32 (i.arg 0x24 4)
  onCtx i s [(0x24, 4), (0x28, 2)] false true
    (fun c => [(ks.find? (fun k => !(m.spanClusters c.span).contains k)).map (fun k => 0x24 + k / 8), i.high 0x28 2 12])
    (fun c =>
      let one (k : Nat) : Option L2Part := (nth m.l2 k L2Part.reset).assign c.num (i.arg 0x28 2)
      if ks.any (fun k => (one k).isNone) then .no s 0xFFFF
      else .main s (.good []) { m with l2 := ks.foldl (fun l k => match one k with | some p => l.set k p | none => l) m.l2 })

/-! ### Landing counters (R289, R292) -/

def lcAlloc (i : EcsIn) (s : State) : Ans :=
  let m := s.main
  let n := i.arg 0x24 2
  onCtx i s [(0x24, 2)] false true (fun _ => [EcsIn.fails (n == 0 || decide (1024 < n)) 0x24]) (fun c =>
    let used := m.objs.counters.map (·.idx)
    let free := ((List.range (min 16384 (used.length + n))).filter (fun k => !used.contains k)).take n
    if m.fabricOut then .again
    else if free.length < n then .no s 0xFFFF
    else
      let new := free.map (fun k => ({ idx := k, ctx := c.num, value := 0, last := none } : Counter))
      .main s
        { status := .ok
          result := fields [(0x20, toBytes 2 n), (0x24, (free.take 100).flatMap (toBytes 2))]
          out := if 100 < n then free.flatMap (toBytes 2) else [] }
        { m with objs := { m.objs with counters := m.objs.counters ++ new } })

/-- Whether a counter is the context's. -/
def Main.ownsCounter (m : Main) (c : Context) (k : Nat) : Bool :=
  match m.counterOf k with | some x => x.ctx == c.num | none => false

def lcSet (i : EcsIn) (s : State) : Ans :=
  let m := s.main
  let k := i.arg 0x24 2
  if m.foreign i [] [k] then .no s 0xFFFF
  else onCtx i s [(0x24, 2), (0x28, 8)] false true (fun c => [EcsIn.fails (!m.ownsCounter c k) 0x24]) (fun _ =>
    let m1 := m.modCounter k (fun x => { x with value := BitVec.ofNat 64 (i.arg 0x28 8) })
    .main s (.good []) ((m1.counterWaiters k).foldl (fun m w => m.wakeCounterPacket k w) m1))

def lcFree (i : EcsIn) (s : State) : Ans :=
  let m := s.main
  let n := i.arg 0x24 2
  let idxs := if n ≤ 96 then (List.range n).map (fun k => i.arg (0x28 + 2 * k) 2)
    else (List.range n).map (fun k => fieldAt i.data (2 * k) 2)
  if m.foreign i [] idxs then .no s 0xFFFF
  else onCtx i s [(0x24, 2), (0x28, if n ≤ 96 then 2 * n else 0)] false true (fun c =>
      [EcsIn.fails (n == 0) 0x24, if n ≤ 96 then (idxs.findIdx? (fun k => !m.ownsCounter c k)).map (fun k => 0x28 + 2 * k) else none])
    (fun c =>
      if 96 < n ∧ i.data.length < 2 * n then .no s 0x10
      else
        match idxs.findIdx? (fun k => !m.ownsCounter c k) with
        | some k => .done { status := .notPermitted, argOff := 8, bufOff := 2 * k } s
        | none => .main s (.good []) (idxs.foldl Main.freeCounter m))

/-- CTX_CREATE (R364, R365). -/
def execCtxCreate (mb : Mbx) (c : Cmd) (s : State) : Outcome := State.ecsOp 0x200 ctxCreate mb c s
/-- CTX_DESTROY (R390, R391). -/
def execCtxDestroy (mb : Mbx) (c : Cmd) (s : State) : Outcome :=
  settling (fun m => m.dmaPump.after) (State.ecsOp 0x201 ctxDestroy mb c s)
/-- CTX_QUERY (R388). -/
def execCtxQuery (mb : Mbx) (c : Cmd) (s : State) : Outcome := State.ecsOp 0x202 ctxQuery mb c s
/-- CTX_EVICT (R364, R369). -/
def execCtxEvict (mb : Mbx) (c : Cmd) (s : State) : Outcome := State.ecsOp 0x203 ctxEvict mb c s
/-- QUEUE_CREATE (R370, R371). -/
def execQueueCreate (mb : Mbx) (c : Cmd) (s : State) : Outcome := State.ecsOp 0x210 queueCreate mb c s
/-- QUEUE_DESTROY (R364). -/
def execQueueDestroy (mb : Mbx) (c : Cmd) (s : State) : Outcome :=
  settling Main.settleQueues (State.ecsOp 0x211 queueDestroy mb c s)
/-- QUEUE_QUERY (R364). -/
def execQueueQuery (mb : Mbx) (c : Cmd) (s : State) : Outcome := State.ecsOp 0x212 queueQuery mb c s
/-- FENCE_CREATE (R392, R393). -/
def execFenceCreate (mb : Mbx) (c : Cmd) (s : State) : Outcome := State.ecsOp 0x220 fenceCreate mb c s
/-- FENCE_DESTROY (R398, R399). -/
def execFenceDestroy (mb : Mbx) (c : Cmd) (s : State) : Outcome := State.ecsOp 0x221 fenceDestroy mb c s
/-- FENCE_GRANT (R394). -/
def execFenceGrant (mb : Mbx) (c : Cmd) (s : State) : Outcome := State.ecsOp 0x222 fenceGrant mb c s
/-- FENCE_SIGNAL (R396). -/
def execFenceSignal (mb : Mbx) (c : Cmd) (s : State) : Outcome := State.ecsOp 0x223 fenceSignal mb c s
/-- FENCE_QUERY (R397). -/
def execFenceQuery (mb : Mbx) (c : Cmd) (s : State) : Outcome := State.ecsOp 0x224 fenceQuery mb c s
/-- CTX_L2PART (R172-R175). -/
def execCtxL2part (mb : Mbx) (c : Cmd) (s : State) : Outcome := State.ecsOp 0x230 ctxL2part mb c s
/-- LC_ALLOC (R289). -/
def execLcAlloc (mb : Mbx) (c : Cmd) (s : State) : Outcome := State.ecsOp 0x240 lcAlloc mb c s
/-- LC_SET (R289). -/
def execLcSet (mb : Mbx) (c : Cmd) (s : State) : Outcome := State.ecsOp 0x241 lcSet mb c s
/-- LC_FREE (R289, R292). -/
def execLcFree (mb : Mbx) (c : Cmd) (s : State) : Outcome := State.ecsOp 0x242 lcFree mb c s

end Sys2Proof.Machine
end

