-- ==== Sys2Proof/Machine/EcsExtents.lean ====
section
/-! DEFINITION. ECS commands of the extent group: extents, channel retirement, window segments, host regions (R182-R188, R196,
R344, R345, R348, R363, R412, R413, R496). -/

namespace Sys2Proof.Machine

/-- A command on the span at 0x20: the caller, the arguments, the span's record. -/
def onSpan (i : EcsIn) (s : State) (named : List (Nat × Nat)) (bad : List (Option Nat)) (go : Nat → Ans) : Ans :=
  let span := i.arg 0x20 4
  if !s.main.mayName i.mb span then .no s 0xFFFF
  else
    match EcsIn.lowest ([i.reserved ((0x20, 4) :: named), i.high 0x20 4 20, EcsIn.fails (s.main.recOf span).isNone 0x20] ++ bad) with
    | some o => .no s o
    | none => go span

/-! ### Extents (R182-R188) -/

/-- The granule offset after an extent's last granule in a channel. -/
def Extent.stop (e : Extent) : Nat := e.choff + e.len / e.nch

/-- The extents with granules in a channel of a set. -/
def Main.sharing (m : Main) (mask : BitVec 192) : List Extent := m.mem.extents.filter (fun e => (e.mask &&& mask) != 0)

/-- Whether granules [g, g + n) of a set of channels belong to no extent and lie in the channels. -/
def Main.granulesFree (m : Main) (mask : BitVec 192) (g n : Nat) : Bool :=
  decide (g + n ≤ 1536) && (m.sharing mask).all (fun e => decide (g + n ≤ e.choff) || decide (e.stop ≤ g))

/-- The lowest granule offset at which n granules fit. -/
def Main.lowestFit (m : Main) (mask : BitVec 192) (n : Nat) : Option Nat :=
  let tries := (0 :: (m.sharing mask).map Extent.stop).filter (fun g => m.granulesFree mask g n)
  tries.foldl (fun a g => match a with | none => some g | some b => some (min b g)) none

/-- An extent put into the table, which is kept in the order of its indices. -/
def insertExtent (e : Extent) : List Extent → List Extent
  | [] => [e]
  | x :: r => if e.idx < x.idx then e :: x :: r else x :: insertExtent e r

/-- Two extents overlap in span address. -/
def Extent.overlaps (a b : Extent) : Bool := decide (a.base < b.base + b.len) && decide (b.base < a.base + a.len)

/-- The span that an accepted transition gives a channel of another span to (R331). -/
def Main.channelTo (m : Main) (span c : Nat) : Option Nat :=
  (m.comp.recs.find? (fun r => r.id != span && r.phase != .stable && r.shadow.mem.getLsbD c && !r.current.mem.getLsbD c)).map (·.id)

/-- Where an open transition of its span takes a channel: it stays, it passes to a span, or it goes to none. -/
def Main.channelGoes (m : Main) (span c : Nat) : Owner :=
  match m.recOf span with
  | some r => if r.phase = .stable ∨ r.shadow.mem.getLsbD c = true then .span span
    else match m.channelTo span c with | some t => .span t | none => .idle
  | none => .span span

/-- Whether open transitions would take the channels of an extent apart (R183). -/
def Main.splits (m : Main) (span : Nat) (chans : List Nat) : Bool :=
  match chans with
  | [] => false
  | c :: r => r.any (fun x => m.channelGoes span x != m.channelGoes span c)

/-- The extents of a span on this pier, with those that its open transition brings it (R184). -/
def Main.extentsOf (m : Main) (span : Nat) : List Extent :=
  let taken := match m.recOf span with | some r => if r.phase = .stable then 0 else r.shadow.mem &&& ~~~r.current.mem | none => 0
  m.mem.extents.filter (fun e => e.span == span || (e.mask &&& taken) != 0)

/-- Whether one more extent at a place would overlap those of a span, or be one too many for it (R184). -/
def Main.crowds (m : Main) (span base len : Nat) : Bool × Bool :=
  let mine := m.extentsOf span
  (mine.any (fun e => decide (base < (e.base + e.len) * 0x200000) && decide (e.base * 0x200000 < base + len * 0x200000)),
    decide (4096 ≤ mine.length))

def extCreate (i : EcsIn) (s : State) : Ans :=
  let m := s.main
  let span := i.arg 0x20 4
  let base := i.arg 0x28 8
  let len := i.arg 0x30 4
  let choff := i.arg 0x34 2
  let mask : BitVec 192 := BitVec.ofNat 192 (i.arg 0x38 24)
  let chans := bitsSet 192 mask.toNat
  let goes := match chans with | c :: _ => m.channelGoes span c | [] => .idle
  let here := m.crowds span base len
  let there := match goes with | .span t => m.crowds t base len | _ => (false, false)
  let overlap := here.1 || there.1
  let foreign := (chans.find? (fun c => nth m.comp.memOwner c .idle != .span span)).map (fun c => 0x38 + c / 8)
  let badLen := len == 0 || decide (294912 < len) || (!chans.isEmpty && len % chans.length != 0)
  onSpan i s [(0x28, 8), (0x30, 4), (0x34, 2), (0x38, 24)]
    [EcsIn.fails (base % 0x200000 != 0 || decide (2 ^ 52 < base + len * 0x200000) || overlap) 0x28, EcsIn.fails badLen 0x30,
     EcsIn.fails chans.isEmpty 0x38, foreign, if m.splits span chans then some 0x38 else none,
     EcsIn.fails (choff != 0xFFFF && !badLen && !m.granulesFree mask choff (len / chans.length)) 0x34]
    (fun span =>
      if m.fenced span then .closed i s
      else
        let n := len / chans.length
        let at_ := if choff = 0xFFFF then m.lowestFit mask n else some choff
        match at_, lowestFree (m.mem.extents.map (·.idx)) 65536 with
        | some g, some idx =>
          if here.2 || there.2 then .no s 0xFFFF
          else
            let e : Extent :=
              { idx := idx, state := .zeroing, span := span, base := base / 0x200000, choff := g, len := len, mask := mask }
            .hold (.extent idx) { s with main := { m with mem := { m.mem with
              extents := insertExtent e m.mem.extents, zeroing := m.mem.zeroing ++ [(idx, .extent idx)] } } }
        | _, _ => .no s 0xFFFF)

/-- Whether a context's save pool names an extent (R130). -/
def Main.inPools (m : Main) (e : Extent) : Bool := m.objs.ctxs.any (fun c => c.span == e.span && c.pool.contains e.base)

/-- An extent destroyed: its lines are recalled, then it is not VALID (R188, R213). A recall of lines whose agent has died
completes with its reclaim, for which the commands wait (R216). -/
def Main.dropExtent (m : Main) (e : Extent) : Main :=
  let m1 := m.walkLines (fun line => e.ranges.any (inRange line))
  { m1 with mem := { m1.mem with extents := m1.mem.extents.filter (fun x => x.idx != e.idx) } }

def extDestroy (i : EcsIn) (s : State) : Ans :=
  let m := s.main
  let e := m.mem.extents.find? (fun e => e.span == i.arg 0x20 4 && e.base * 0x200000 == i.arg 0x28 8)
  onSpan i s [(0x28, 8)] [EcsIn.fails e.isNone 0x28] (fun span =>
    match e with
    | none => .no s 0x28
    | some e =>
      if m.fenced span then .closed i s
      else if e.state = .zeroing ∨ m.coh.reclaim ≠ [] then .again
      else if m.inPools e then .no s 0xFFFF
      else .main s (.good []) (m.dropExtent e))

/-- The values of STATE (R186). -/
def ExtState.code : ExtState → Nat
  | .zeroing => 0 | .active => 1 | .moving => 2

/-- An extent table entry (R185). -/
def Extent.entry (e : Extent) : List Byte :=
  toBytes 8 (2 ^ 63 + e.state.code * 2 ^ 61 + e.span * 2 ^ 40) ++ toBytes 8 (e.base * 2 ^ 21) ++
    toBytes 8 (e.choff * 2 ^ 32 + e.nch * 2 ^ 19 + e.len) ++ toBytes 8 0 ++ toBytes 24 e.mask.toNat ++ toBytes 8 0

def extQueryReply (i : EcsIn) (s : State) : Reply :=
  let m := s.main
  let span := i.arg 0x20 4
  if !m.mayName i.mb span then .refuse 0xFFFF
  else
    match EcsIn.lowest [i.reserved [(0x20, 4)], i.high 0x20 4 20, EcsIn.fails (m.recOf span).isNone 0x20] with
    | some o => .refuse o
    | none =>
      let mine := m.mem.extents.filter (fun e => e.span == span)
      let byte (c : Nat) : Byte :=
        BitVec.ofNat 8 ((m.chan c).state.code + 128 * b2n (nth m.comp.memOwner c .idle == .span span))
      { status := .ok, result := fields [(0x20, toBytes 2 mine.length)]
        out := mine.flatMap Extent.entry ++ (List.range 192).map byte }

/-! ### CH_RETIRE (R197-R202) -/

def chRetire (i : EcsIn) (s : State) : Ans :=
  let m := s.main
  let c := i.arg 0x20 1
  match EcsIn.lowest [i.reserved [(0x20, 1)], EcsIn.fails (decide (192 ≤ c) || (m.chan c).state == .retired) 0x20] with
  | some o => .no s o
  | none =>
    if (m.chan c).repl.isSome then .done (.good []) s
    else if (List.range 192).any (fun x => (m.chan x).repl == some c) then .no s 0xFFFF
    else .hold (.retire c) { s with main := m.modChan c (fun x => { x with due := true }) }

/-! ### Window segments (R344, R345, R348) -/

/-- The segments that a function's table holds. -/
def segCount (fn : Fn) : Nat := if fn.idx = 0 then 1024 else 64

def winMap (i : EcsIn) (s : State) : Ans :=
  let m := s.main
  let span := i.arg 0x20 4
  let wbase := i.arg 0x24 4
  let len := i.arg 0x28 4
  let sbase := i.arg 0x30 8
  match i.mb with
  | .bmc => .no s 0xFFFF
  | .fn fn =>
    match m.fnOf fn with
    | none => .no s 0xFFFF
    | some r =>
      let overlap := r.segs.any (fun x => decide (x.wbase < wbase + len) && decide (wbase < x.wbase + x.len))
      let holds := m.objs.ctxs.any (fun c => c.fn == fn && c.span == span)
      if !m.mayName i.mb span then .no s 0xFFFF
      else
        match EcsIn.lowest [i.reserved [(0x20, 4), (0x24, 4), (0x28, 4), (0x30, 8), (0x38, 1)], i.high 0x20 4 20,
            EcsIn.fails (!holds) 0x20, i.high 0x24 4 19, EcsIn.fails overlap 0x24,
            EcsIn.fails (len == 0 || decide (524288 < len) || decide (r.bar2 < (wbase + len) * 0x200000)) 0x28,
            EcsIn.fails (sbase % 0x200000 != 0 || decide (2 ^ 52 ≤ sbase)) 0x30, EcsIn.fails (decide (1 < i.arg 0x38 1)) 0x38] with
        | some o => .no s o
        | none =>
          match lowestFree (r.segs.map (·.idx)) (segCount fn) with
          | none => .no s 0xFFFF
          | some k =>
            let seg : Segment :=
              { idx := k, wr := bit (i.arg 0x38 1) 0, span := span, wbase := wbase, sbase := sbase / 0x200000, len := len }
            .main s (.good (fields [(0x20, toBytes 2 k)])) (m.modFn fn (fun r => { r with segs := r.segs ++ [seg] }))

def winUnmap (i : EcsIn) (s : State) : Ans :=
  let m := s.main
  match i.mb with
  | .bmc => .no s 0xFFFF
  | .fn fn =>
    let there := match m.fnOf fn with | some r => r.segs.any (fun x => x.idx == i.arg 0x20 2) | none => false
    match EcsIn.lowest [i.reserved [(0x20, 2)], EcsIn.fails (!there) 0x20] with
    | some o => .no s o
    | none => .main s (.good []) (m.dropSegment fn (i.arg 0x20 2))

/-! ### Host regions (R363, R412, R496) -/

/-- Whether a glaze slot may glaze a region of a context (R496). -/
def Main.slotServes (m : Main) (c : Context) (slot : Nat) : Bool :=
  (m.gslot slot).st == .assigned && m.tenantOf c.span == some (BitVec.ofNat 32 (m.gslot slot).tenant) &&
    !m.sec.blocked

/-- The handle of a new region. -/
def Main.newHandle (m : Main) : Nat :=
  let next (h : Nat) : Nat := (h - 1) % 0xFFFFFFFF + 1
  (((rangeFrom m.objs.nextRegion (m.objs.regions.length + 1)).map next).find? (fun h => (m.regionOf h).isNone)).getD 0

def regionRegister (i : EcsIn) (s : State) : Ans :=
  let m := s.main
  let iova := i.arg 0x28 8
  let len := i.arg 0x30 8
  let slot := i.arg 0x3C 2
  let glazed := slot != 0xFFFF
  onCtx i s [(0x28, 8), (0x30, 8), (0x38, 1), (0x3C, 2)] false false
    (fun c => [EcsIn.fails (iova % 4096 != 0) 0x28,
      EcsIn.fails (len == 0 || decide (2 ^ 64 < iova + len) || (glazed && len % 4096 != 0)) 0x30, i.high 0x38 1 2,
      EcsIn.fails (glazed && decide (256 ≤ slot)) 0x3D, EcsIn.fails (glazed && decide (slot < 256) && !m.slotServes c slot) 0x3C])
    (fun c =>
      if 256 ≤ (m.objs.regions.filter (fun r => r.ctx == c.num)).length ∨ 65536 ≤ m.objs.regions.length then .no s 0xFFFF
      else
        let h := m.newHandle
        let r : Region :=
          { handle := h, ctx := c.num, iova := iova, len := len, read := bit (i.arg 0x38 1) 0, write := bit (i.arg 0x38 1) 1
            glaze := if glazed then some slot else none }
        .main s (.good (fields [(0x20, toBytes 4 h)]))
          { m with objs := { m.objs with regions := m.objs.regions ++ [r], nextRegion := h + 1 } })

/-- Whether a location lies in a region. -/
def Loc.inRegion (l : Loc) (h : Nat) : Bool := match l with | .region x _ => x == h | .span _ => false

/-- Whether a packet or a mirror names a region (R397, R412). -/
def Main.regionUsed (m : Main) (ctx h : Nat) : Bool :=
  m.objs.queues.any (fun q => q.ctx == ctx &&
    (q.running ++ q.held).any (fun p => pkType p.bytes == 2 && dmDir p.bytes != 2 && dmRegion p.bytes == h)) ||
  m.objs.fences.any (fun f => match f.mirror with | some l => l.inRegion h | none => false)

def regionRelease (i : EcsIn) (s : State) : Ans :=
  let m := s.main
  let h := i.arg 0x24 4
  if m.foreign i [h] [] then .no s 0xFFFF
  else onCtx i s [(0x24, 4)] false false
    (fun c => [EcsIn.fails (match m.regionOf h with | some r => r.ctx != c.num | none => true) 0x24])
    (fun c =>
      if m.regionUsed c.num h then .no s 0xFFFF
      else .main s (.good []) { m with objs := { m.objs with regions := m.objs.regions.filter (fun r => r.handle != h) } })

/-- EXT_CREATE (R182-R188). -/
def execExtCreate (mb : Mbx) (c : Cmd) (s : State) : Outcome := State.ecsOp 0x300 extCreate mb c s
/-- EXT_DESTROY (R188). -/
def execExtDestroy (mb : Mbx) (c : Cmd) (s : State) : Outcome := State.ecsOp 0x301 extDestroy mb c s
/-- EXT_QUERY (R185, R196). -/
def execExtQuery (mb : Mbx) (c : Cmd) (s : State) : Outcome := State.ecsOp 0x302 (reads extQueryReply) mb c s
/-- CH_RETIRE (R197-R202). -/
def execChRetire (mb : Mbx) (c : Cmd) (s : State) : Outcome :=
  settling Main.settleRetire (State.ecsOp 0x303 chRetire mb c s)
/-- WIN_MAP (R345). -/
def execWinMap (mb : Mbx) (c : Cmd) (s : State) : Outcome := State.ecsOp 0x310 winMap mb c s
/-- WIN_UNMAP (R348). -/
def execWinUnmap (mb : Mbx) (c : Cmd) (s : State) : Outcome := State.ecsOp 0x311 winUnmap mb c s
/-- REGION_REGISTER (R363, R496). -/
def execRegionRegister (mb : Mbx) (c : Cmd) (s : State) : Outcome := State.ecsOp 0x320 regionRegister mb c s
/-- REGION_RELEASE (R412). -/
def execRegionRelease (mb : Mbx) (c : Cmd) (s : State) : Outcome := State.ecsOp 0x321 regionRelease mb c s

end Sys2Proof.Machine
end

