-- ==== Sys2Proof/Machine/Compose.lean ====
section
/-! DEFINITION. Composition: records, grains, transitions and their handovers (R14, R306-R333), and zeroing (R194, R195). -/

namespace Sys2Proof.Machine

/-! ### Grains (R14, R309) -/

/-- A grain. -/
abbrev Grain := GrainKind × Nat

/-- Whether a grain set names a grain. -/
def GrainSet.has (s : GrainSet) (g : Grain) : Bool :=
  match g.1 with
  | .core => s.cores.getLsbD g.2
  | .memory => s.mem.getLsbD g.2
  | .link => s.links.getLsbD g.2

/-- Every grain of a module. -/
def allGrains : List Grain :=
  (List.range 32).map (fun k => (.core, k)) ++ (List.range 192).map (fun c => (.memory, c)) ++
    (List.range 128).map (fun i => (.link, i))

/-- The grains of a set that another does not name. -/
def GrainSet.only (a b : GrainSet) : List Grain := allGrains.filter (fun g => a.has g && !b.has g)

/-- The command offset of the byte that names a grain (R405, R413). -/
def grainOff (g : Grain) : Nat :=
  match g.1 with
  | .core => 0x40 + g.2 / 8
  | .memory => 0x48 + g.2 / 8
  | .link => 0x60 + g.2 / 8

def Main.ownerOf (m : Main) (g : Grain) : Owner :=
  match g.1 with
  | .core => nth m.comp.coreOwner g.2 .held
  | .memory => nth m.comp.memOwner g.2 .held
  | .link => nth m.comp.linkOwner g.2 .held

def Main.setOwner (m : Main) (g : Grain) (o : Owner) : Main :=
  match g.1 with
  | .core => { m with comp := { m.comp with coreOwner := modNth m.comp.coreOwner g.2 (fun _ => o) } }
  | .memory => { m with comp := { m.comp with memOwner := modNth m.comp.memOwner g.2 (fun _ => o) } }
  | .link => { m with comp := { m.comp with linkOwner := modNth m.comp.linkOwner g.2 (fun _ => o) } }

/-- The open transition of another span that takes a grain (R331). -/
def Main.taker (m : Main) (span : Nat) (g : Grain) : Option SpanRec :=
  m.comp.recs.find? (fun r => r.id != span && r.phase != .stable && r.shadow.has g && !r.current.has g)

/-- Whether a grain is idle and no prepared transition of another span has reserved it (R14, R318). -/
def Main.grainFree (m : Main) (span : Nat) (g : Grain) : Bool := m.ownerOf g == .idle && (m.taker span g).isNone

/-- An idle grain bound to a span; a DEGRADED channel stays DEGRADED (R196). -/
def Main.bindGrain (m : Main) (span : Nat) (g : Grain) : Main :=
  let m1 := m.setOwner g (.span span)
  match g.1 with
  | .memory => m1.modChan g.2 (fun x => if x.state = .idle then { x with state := .bound } else x)
  | _ => m1

/-- The core store of a cluster's cores zeroed, with whatever else its cores held (R327). -/
def Main.clearCluster (m : Main) (k : Nat) : Main :=
  let mine (c : Nat) : Bool := c / 9 == k
  { m with cores := { m.cores with
      units := m.cores.units.zipIdx.map (fun u => if mine u.2 then { u.1 with lastSpan := 0 } else u.1)
      store := Cells.clear m.cores.store (csKey (k * 9) 0) (9 * 2 ^ 21)
      rowPoison := m.cores.rowPoison.filter (fun r => !mine (r / 2 ^ 15)) } }

/-- A cluster's caches recalled and its partition registers reset (R176, R213, R327). -/
def Main.emptyCluster (m : Main) (k : Nat) : Main :=
  let m1 := m.resetCluster k
  { m1 with l2 := m1.l2.set k L2Part.reset }

/-- A channel released: to be zeroed before it becomes IDLE (R195, R329). -/
def Main.releaseChannel (m : Main) (c : Nat) : Main :=
  let m1 := (m.modChan c (fun x => { x with state := .zeroing })).setOwner (.memory, c) .held
  { m1 with mem := { m1.mem with zeroing := m1.mem.zeroing ++ [(c, .release)] } }

/-- A grain that goes to no span (R195, R327, R329, R330). -/
def Main.releaseGrain (m : Main) (g : Grain) : Main :=
  match g.1 with
  | .core => ((m.emptyCluster g.2).clearCluster g.2).setOwner g .idle
  | .memory => m.releaseChannel g.2
  | .link => m.setOwner g .idle

/-! ### Drills that lose their lanes or their record (R521) -/

/-- The lanes of a span that leave it leave its drills; an armed drill without lanes is ENDED. -/
def Main.drillsLose (m : Main) (span : Nat) (lanes : BitVec 128) : Main :=
  let one (d : Drill) : Drill :=
    if d.st = .armed ∧ d.span = span then
      let l := d.links &&& ~~~lanes
      { d with links := l, st := if l = 0 then .ended else .armed }
    else d
  { m with drills := m.drills.map one }

/-- A record freed. -/
def Main.freeRec (m : Main) (span : Nat) : Main :=
  let m1 : Main := { m with
    comp := { m.comp with recs := m.comp.recs.filter (fun r => r.id != span) }
    collIds := m.collIds.filter (fun u => u.span != span) }
  m1.drillsLose span (BitVec.allOnes 128)

/-! ### Records as commands give them (R307, R309, R315, R413) -/

/-- A BUSY answer. -/
def Ans.busy (s : State) (us : Nat) : Ans := .done { status := .busy, aux := us } s

/-- The retry hint of an open transition (R313). -/
def Main.transitionHint (m : Main) (r : SpanRec) : Nat :=
  if r.committed then max 100 (ceilDiv (r.closeT + 10000 - m.time) 1000) else 1000

/-- The numbers of the input, two bytes each. -/
def EcsIn.words (i : EcsIn) (n : Nat) : List Nat := (List.range n).map (fun k => fieldAt i.data (2 * k) 2)

/-- The first byte of a pier table that fails: reserved bits, a module listed twice, one without a route, or this module
where it leaves (R307, R315). -/
def Main.badTable (m : Main) (leave : Bool) (t : List Nat) : Option Nat :=
  t.zipIdx.findSome? (fun x =>
    if x.1 / 2 ^ 13 != 0 then some (2 * x.2 + 1)
    else if (t.take x.2).contains x.1 || (x.1 != m.fab.module && !m.routed x.1) || (leave && x.1 == m.fab.module) then some (2 * x.2)
    else none)

/-- A grain set as a command gives it. -/
def EcsIn.grains (i : EcsIn) (valid : Bool) : GrainSet :=
  { valid := valid, epoch := i.arg 0x28 2, rank := i.arg 0x2A 2, piersM1 := i.arg 0x2C 2, cores := BitVec.ofNat 32 (i.arg 0x40 4)
    mem := BitVec.ofNat 192 (i.arg 0x48 24), links := BitVec.ofNat 128 (i.arg 0x60 16) }

/-- An input byte that fails. -/
def Ans.badInput (s : State) (off : Nat) : Ans := .done { status := .notPermitted, argOff := 8, bufOff := off } s

/-- A record added: its creation time is noted, and it has handled no abort (R471, R473). -/
def Main.addRec (m : Main) (r : SpanRec) : Main :=
  { m with
    comp := { m.comp with recs := m.comp.recs ++ [r] }
    rcv := { m.rcv with
      born := (r.id, m.time) :: m.rcv.born.filter (fun x => x.1 != r.id)
      aborts := m.rcv.aborts.filter (fun x => x.1 != r.id) } }

/-- The fields that SPAN_CREATE and COMPOSE_PREPARE share. -/
def spanFields : List (Nat × Nat) :=
  [(0x20, 4), (0x24, 4), (0x28, 2), (0x2A, 2), (0x2C, 2), (0x2E, 1), (0x30, 4), (0x40, 4), (0x48, 24), (0x60, 16)]

/-- The checks they share: the span, the pier count, the drain timer, the length of the input, this module's rank. -/
def Main.spanChecks (m : Main) (i : EcsIn) (nreloc : Nat) (leave : Bool) : List (Option Nat) :=
  let n := i.arg 0x2C 2 + 1
  [i.high 0x20 4 20, EcsIn.fails (i.arg 0x20 4 == 0) 0x20, i.high 0x2C 2 13,
   EcsIn.fails (decide (i.arg 0x30 4 < 20) || decide (10000 < i.arg 0x30 4)) 0x30,
   EcsIn.fails (!i.hasIn || i.data.length != 2 * (n + nreloc)) 0x10,
   EcsIn.fails (!leave && (i.words n)[i.arg 0x2A 2]? != some m.fab.module) 0x2A]

/-! ### SPAN_CREATE, SPAN_DESTROY (R314) -/

/-- SPAN_CREATE. A one-pier span whose grains hold no core grain is accepted: R315 has no refusal for it, though R15 says that a span
holds at least one core grain (DESIGN CHOICE, assumption log 86). -/
def spanCreate (i : EcsIn) (s : State) : Ans :=
  let m := s.main
  let span := i.arg 0x20 4
  let table := i.words (i.arg 0x2C 2 + 1)
  let set := i.grains true
  let taken := (set.only GrainSet.none).map (fun g => EcsIn.fails (!m.grainFree span g) (grainOff g))
  match m.recOf span with
  | some r => if r.phase = .stable then .no s 0xFFFF else .busy s (m.transitionHint r)
  | none =>
    match EcsIn.lowest ([i.reserved spanFields, i.high 0x2E 1 1] ++ m.spanChecks i 0 false ++ taken), m.badTable false table with
    | some o, _ => .no s o
    | none, some o => .badInput s o
    | none, none =>
      if 40 ≤ m.comp.recs.length then .no s 0xFFFF
      else
        let r : SpanRec :=
          { id := span, tenant := BitVec.ofNat 32 (i.arg 0x24 4), phase := .stable, switchT := 0, closeT := 0, drainUs := i.arg 0x30 4
            late := false, drill := bit (i.arg 0x2E 1) 0, committed := false, current := set, shadow := GrainSet.none, piers := table
            nextPiers := [], reloc := [], handovers := [], gone := [], waiting := [] }
        .main s (.good []) ((set.only GrainSet.none).foldl (fun m g => m.bindGrain span g) (m.addRec r))

/-- Every extent of a span destroyed: those in ZEROING are refused, the lines of the others recalled (R188, R213). -/
def Main.dropExtents (m : Main) (span : Nat) : Main :=
  let m1 := m.cancelExtents span
  (m1.mem.extents.filter (fun e => e.span == span)).foldl Main.dropExtent m1

/-- Every grain a span owns. -/
def Main.grainsOf (m : Main) (span : Nat) : List Grain := allGrains.filter (fun g => m.ownerOf g == .span span)

/-- What this pier has not finished of other modules' launches goes back to them (R133). -/
def Main.handBackAll (m : Main) (span : Nat) : Main :=
  ((m.cores.launches.filter (fun l => l.span == span)).map (·.id)).foldl Main.handBack m

/-- Work that other modules' launches have here for a span ends with it. -/
def Main.endWork (m : Main) (span : Nat) : Main :=
  let m1 := m.fenceSpan span true
  let m2 := m1.dropGroups (fun w => match m1.launchOf w.launch with | some l => l.span == span | none => false)
  { m2 with cores := { m2.cores with launches := m2.cores.launches.filter (fun l => l.span != span) } }

def spanDestroy (i : EcsIn) (s : State) : Ans :=
  let m := s.main
  match EcsIn.lowest [i.reserved [(0x20, 4)], i.high 0x20 4 20, EcsIn.fails (m.recOf (i.arg 0x20 4)).isNone 0x20],
      m.recOf (i.arg 0x20 4) with
  | some o, _ => .no s o
  | none, none => .no s 0x20
  | none, some r =>
    if r.phase ≠ .stable then .busy s (m.transitionHint r)
    else if m.objs.ctxs.any (fun c => c.span == r.id) then .no s 0xFFFF
    else if m.coh.reclaim ≠ [] then .again
    else if (List.range 192).any (fun c => m.ownerOf (.memory, c) == .span r.id && (m.chan c).state == .evacuating) then
      let (v, m1) := m.draw
      .done { status := .busy, aux := 100 + v % 99901 } { s with main := m1 }
    else
      let m1 := ((m.handBackAll r.id).endWork r.id).dropExtents r.id
      .main s (.good []) (((m1.grainsOf r.id).foldl Main.releaseGrain m1).freeRec r.id)

/-! ### COMPOSE_PREPARE (R315, R318) -/

/-- Whether a grain that a SHADOW takes may be taken: idle and not reserved, or released by an open transition of another
span that no third one takes; a memory grain only of the same tenant (R315). -/
def Main.mayTake (m : Main) (span : Nat) (tenant : Word) (g : Grain) : Bool :=
  (m.taker span g).isNone && (match m.ownerOf g with
    | .idle => true
    | .held => false
    | .span x => x == span || (match m.recOf x with
      | some r => r.phase != .stable && !r.shadow.has g && (g.1 != .memory || r.tenant == tenant)
      | none => false))

/-- Whether a lane's engine is looped (R522). -/
def Main.laneLooped (m : Main) (g : Grain) : Bool := g.1 == .link && (m.optOf (g.2 / 8)).loopback != 0

/-- Whether the extents of a transition stay whole, apart from each other and from those the span has, and few enough
(R183, R184, R315). -/
def Main.extentsFit (m : Main) (span : Nat) (current shadow : GrainSet) : Bool :=
  let taken := shadow.mem &&& ~~~current.mem
  let mine := m.mem.extents.filter (fun e => e.span == span)
  let kept := mine.filter (fun e => (e.mask &&& shadow.mem) != 0)
  let incoming := m.mem.extents.filter (fun e => e.span != span && (e.mask &&& taken) != 0)
  let all := mine ++ incoming
  kept.all (fun e => (e.mask &&& ~~~shadow.mem) == 0) && incoming.all (fun e => (e.mask &&& ~~~taken) == 0) &&
    decide (all.length ≤ 4096) && incoming.all (fun e => all.all (fun x => x.idx == e.idx || !e.overlaps x))

/-- Whether what spans that already wait for memory grains would be given with some of them still fits them (R183, R184). -/
def Main.takersFit (m : Main) (span : Nat) (given : BitVec 192) : Bool :=
  (m.comp.recs.filter (fun t => t.id != span && t.phase != .stable && (t.shadow.mem &&& ~~~t.current.mem &&& given) != 0)).all
    (fun t => m.extentsFit t.id t.current t.shadow)

/-- The record that a COMPOSE_PREPARE meets: the span's, or a joining pier's with nothing under E (R310, R312). -/
def Main.joinRec (m : Main) (i : EcsIn) : SpanRec :=
  (m.recOf (i.arg 0x20 4)).getD
    { id := i.arg 0x20 4, tenant := BitVec.ofNat 32 (i.arg 0x24 4), phase := .stable, switchT := 0, closeT := 0
      drainUs := i.arg 0x30 4, late := false, drill := bit (i.arg 0x2E 1) 0, committed := false
      current := { GrainSet.none with epoch := (i.arg 0x28 2 + 65535) % 65536 }, shadow := GrainSet.none, piers := [], nextPiers := []
      reloc := [], handovers := [], gone := [], waiting := [] }

/-- The first relocated rank that is not in both tables with different modules (R311, R315). A joining pier knows the next
table only. -/
def badReloc (r : SpanRec) (table reloc : List Nat) : Option Nat :=
  reloc.findIdx? (fun k => match r.piers[k]?, table[k]? with
    | some a, some b => a == b
    | none, some _ => r.current.valid
    | _, none => true)

/-- Whether an extent is being passed: its grain leaves under a switched transition and another takes it (R186, R328). -/
def Main.passing (m : Main) (e : Extent) : Bool :=
  m.comp.recs.any (fun r => r.id == e.span && r.phase == .drain &&
    (bitsSet 192 e.mask.toNat).any (fun c => r.current.mem.getLsbD c && !r.shadow.mem.getLsbD c && (m.taker r.id (.memory, c)).isSome))

/-- The extents that are passed are in MOVING, the others of those held in ACTIVE (R328). -/
def Main.markMoving (m : Main) : Main :=
  let mark (e : Extent) : Extent :=
    if e.state = .zeroing then e else { e with state := if m.passing e then .moving else .active }
  { m with mem := { m.mem with extents := m.mem.extents.map mark } }

def composePrepare (i : EcsIn) (s : State) : Ans :=
  let m := s.main
  let r := m.joinRec i
  let joins := (m.recOf r.id).isNone
  let leave := bit (i.arg 0x2E 1) 1
  let n := i.arg 0x2C 2 + 1
  let nreloc := i.arg 0x34 1
  let table := i.words n
  let reloc := (i.words (n + nreloc)).drop n
  let shadow := i.grains (!leave)
  let takes := shadow.only r.current
  let gives := r.current.only shadow
  let least := i.arg 0x35 1
  let args := [i.reserved ((0x34, 1) :: (0x35, 1) :: spanFields), i.high 0x2E 1 2,
    EcsIn.fails (i.arg 0x24 4 != r.tenant.toNat) 0x24, EcsIn.fails (i.arg 0x28 2 != (r.current.epoch + 1) % 65536) 0x28,
    EcsIn.fails (decide (64 < nreloc)) 0x34, EcsIn.fails (least == 0 || decide (8 < least)) 0x35,
    EcsIn.fails (takes.any (fun g => g.1 == .core && decide (m.activeCores g.2 < least))) 0x35] ++ m.spanChecks i nreloc leave ++
    (if leave then [i.high 0x2A 2 0, i.high 0x40 4 0, i.high 0x48 24 0, i.high 0x60 16 0] else []) ++
    takes.map (fun g => EcsIn.fails (!m.mayTake r.id r.tenant g) (grainOff g)) ++
    (allGrains.filter shadow.has).map (fun g => EcsIn.fails (m.laneLooped g) (grainOff g)) ++
    [EcsIn.fails (!m.extentsFit r.id r.current shadow || !m.takersFit r.id (r.current.mem &&& ~~~shadow.mem)) 0x48]
  if r.phase ≠ .stable then .busy s (m.transitionHint r)
  else
    match EcsIn.lowest args, m.badTable leave table, badReloc r table reloc with
    | some o, _, _ => .no s o
    | none, some o, _ => .badInput s o
    | none, none, some k => .badInput s (2 * (n + k))
    | none, none, none =>
      let (v, m1) := m.draw
      let leaving := m.mem.extents.filter (fun e => e.span == r.id && gives.any (fun g => g.1 == .memory && e.mask.getLsbD g.2))
      if (takes ++ gives).any (fun g => g.1 == .memory && (m.chan g.2).state == .evacuating) then
        .done { status := .busy, aux := 100 + v % 99901 } { s with main := m1 }
      else if leaving.any (fun e => e.state == .zeroing) then
        .done { status := .busy, aux := 100 + v % (2 ^ 32 - 100) } { s with main := m1 }
      else if leaving.any m.inPools || (joins && (leave || decide (40 ≤ m.comp.recs.length))) then .no s 0xFFFF
      else
        let r1 : SpanRec := { r with
          phase := .prepare, shadow := shadow, nextPiers := table, reloc := reloc, drainUs := i.arg 0x30 4, switchT := 0, closeT := 0
          late := false, committed := false, handovers := [], gone := [] }
        .main s (.good []) (if joins then m.addRec r1 else m.modRec r.id (fun _ => r1)).markMoving

/-! ### Handovers (R327-R331) -/

/-- Whether the handovers of a span wait: for its sagger (R333), or for the reclaim of a dead agent, with which its recalls
complete (R216). -/
def Main.handoverHeld (m : Main) (span : Nat) : Bool := m.fenced span || !m.coh.reclaim.isEmpty

/-- A handover of a span complete. -/
def Main.handed (m : Main) (span : Nat) (g : Grain) (leave : Bool) : Main :=
  m.modRec span (fun r => { r with
    handovers := modWhere r.handovers (fun h => h.kind == g.1 && h.num == g.2 && h.leave == leave) (fun h => { h with complete := true }) })

/-- One request that waited at a span's target served again; it waits on while its lines do, or an earlier ordered one of its source
(R199, R208, R321). -/
def Main.serveAgain (m : Main) (g : Msg) : Main :=
  match m.recOf g.span with
  | none => m.perform g
  | some r =>
    if (g.ord && r.waiting.any (fun x => x.ord && x.src == g.src && opChannel x.op == opChannel g.op)) ||
        m.spanBlocked g.span (rqAddr g) (rqBytes g) then
      m.modRec g.span (fun r => { r with waiting := r.waiting ++ [g] })
    else m.perform g

/-- Requests that waited at a span's target served again, in the order in which they came (R321). -/
def Main.serveList (m : Main) (span : Nat) (l : List Msg) : Main :=
  l.foldl Main.serveAgain (m.modRec span (fun r => { r with waiting := [] }))

/-- Those that wait. -/
def Main.serveWaiting (m : Main) (span : Nat) : Main :=
  match m.recOf span with
  | none => m
  | some r => m.serveList span r.waiting

/-- Every request that waits at a target, as lines become free. -/
def Main.serveAll (m : Main) : Main :=
  ((m.comp.recs.filter (fun r => !r.waiting.isEmpty)).map (·.id)).foldl Main.serveWaiting m

/-- A grain's ownership passes: to the span that takes it, where it arrives, or to no span (R327, R329-R331). -/
def Main.passGrain (m : Main) (span : Nat) (g : Grain) : Main :=
  match m.taker span g with
  | some t => (((m.setOwner g (.span t.id)).handed t.id g false).handed span g true)
  | none => (m.releaseGrain g).handed span g true

/-- Whether a leaving cluster has come to rest: its work groups are saved, its engines' descriptors have ended and the span's
collectives have completed here (R305, R327). -/
def Main.clusterEmpty (m : Main) (span k : Nat) : Bool :=
  !m.cores.wgs.any (fun w => w.core / 9 == k) && !m.colls.any (fun r => r.span == span) &&
    [2 * k, 2 * k + 1, 64 + k].all (fun e => match m.eng[e]? with | some x => x.queue.isEmpty | none => true)

/-- The next allocation of a cluster's core store finds it of another span, and zeroes it (R62). -/
def Main.leaveStore (m : Main) (k : Nat) : Main :=
  { m with cores := { m.cores with
      units := m.cores.units.zipIdx.map (fun u => if u.2 / 9 = k then { u.1 with lastSpan := 0 } else u.1) } }

/-- A core grain handed over: caches recalled, partitions reset, and its cores cleared unless it passes within a tenant, when
the store is zeroed as it is allocated (R62, R327). -/
def Main.handCore (m : Main) (r : SpanRec) (k : Nat) : Main :=
  let m1 := (m.emptyCluster k).leaveStore k
  let same := match m.taker r.id (.core, k) with | some t => t.tenant == r.tenant | none => false
  (if same then m1 else m1.clearCluster k).passGrain r.id (.core, k)

/-- Every core handover that has nothing more to wait for completes. -/
def Main.settleHandovers (m : Main) : Main :=
  (m.comp.recs.flatMap (fun r => (r.handovers.filter (fun h => h.kind == .core && h.leave && !h.complete)).map (fun h => (r, h.num)))).foldl
    (fun m x => if m.handoverHeld x.1.id || !m.clusterEmpty x.1.id x.2 then m else m.handCore x.1 x.2) m

/-- The channels that extents tie to a set of channels, n times over. -/
def Main.tied (m : Main) : Nat → BitVec 192 → BitVec 192
  | 0, s => s
  | n + 1, s => m.tied n (m.mem.extents.foldl (fun a e => if (e.mask &&& a) = 0 then a else a ||| e.mask) s)

/-- An extent that leaves its span: given to the span that takes its channels, or destroyed (R328, R329). -/
def Main.passExtent (m : Main) (span : Nat) (e : Extent) : Main :=
  let m1 := m.modRec span (fun r => { r with gone := r.gone ++ [(e.base, e.len)] })
  match (bitsSet 192 e.mask.toNat).findSome? (fun c => m.taker span (.memory, c)) with
  | some t =>
    let m2 := m1.walkLines (fun line => e.ranges.any (inRange line))
    { m2 with mem := { m2.mem with extents := modWhere m2.mem.extents (fun x => x.idx == e.idx) (fun x => { x with span := t.id, state := .active }) } }
  | none => m1.dropExtent e

/-- The lines of a channel recalled (R329). -/
def Main.recallChannel (m : Main) (c : Nat) : Main := m.walkLines (fun line => line * 128 / 2 ^ 32 == c)

/-- A memory grain handed over, with the channels that its extents tie to it (R183, R328, R329). -/
def Main.handMemory (m : Main) (span c : Nat) : Main :=
  let set := m.tied m.mem.extents.length (1 <<< c)
  let m1 := (m.mem.extents.filter (fun e => e.span == span && (e.mask &&& set) != 0)).foldl (fun m e => m.passExtent span e) m
  let chans := bitsSet 192 set.toNat
  let m2 := chans.foldl (fun m c => (m.recallChannel c).passGrain span (.memory, c)) m1
  (m2.comp.recs.map (·.id)).foldl Main.serveWaiting m2

/-- Whether an extent that goes with a channel is still being zeroed: its handover waits until EXT_CREATE has been answered
(R188; DESIGN CHOICE, assumption log 77). -/
def Main.zeroingOn (m : Main) (span c : Nat) : Bool :=
  let set := m.tied m.mem.extents.length (1 <<< c)
  m.mem.extents.any (fun e => e.span == span && (e.mask &&& set) != 0 && e.state == .zeroing)

/-- A memory grain's handover, after which a retirement that waited for it may begin (R333). -/
def Main.memoryHandover (span c : Nat) (m : Main) : Out :=
  match m.recOf span with
  | none => .refused (.noSubject "span")
  | some r =>
    if !r.handovers.any (fun h => h.kind == .memory && h.num == c && h.leave && !h.complete) then
      .refused (.noSubject "a memory grain that leaves")
    else if m.handoverHeld span then .refused (.notReady "the span's sagger")
    else if m.zeroingOn span c then .refused (.notReady "an extent that is zeroed")
    else .next (((m.handMemory span c).settleHandovers).settleRetire.after)

/-! ### SWITCH (R319) -/

/-- The work groups of a cluster's cores stop (R327). -/
def Main.stopCluster (m : Main) (k : Nat) : Main :=
  { m with cores := { m.cores with wgs := m.cores.wgs.map (fun w =>
      if w.core / 9 = k ∧ w.state = .running then { w with state := .stopping } else w) } }

/-- One grain of a SHADOW that the span did not hold: an idle one joins, another one's handover is awaited. -/
def Main.takeGrain (m : Main) (span : Nat) (g : Grain) : Main :=
  let here := m.ownerOf g == .idle || m.ownerOf g == .span span
  let m1 := if m.ownerOf g = .idle then m.bindGrain span g else m
  m1.modRec span (fun r => { r with handovers := r.handovers ++ [{ kind := g.1, num := g.2, leave := false, complete := here }] })

/-- One grain of the CURRENT that leaves: its handover begins; a link grain's is complete (R330). -/
def Main.giveGrain (m : Main) (span : Nat) (g : Grain) : Main :=
  let m1 := m.modRec span (fun r => { r with handovers := r.handovers ++ [{ kind := g.1, num := g.2, leave := true, complete := false }] })
  match g.1 with
  | .core => m1.stopCluster g.2
  | .link => m1.passGrain span g
  | .memory => m1

/-- The switch in one step; a change of the link grains that carry ordered requests is told (R288). -/
def Main.switchSpan (m : Main) (r : SpanRec) : Main :=
  let m3 := Main.keepingOrder (fun m =>
    let m1 := m.modRec r.id (fun r => { r with phase := .drain })
    let m2 := (r.shadow.only r.current).foldl (fun m g => m.takeGrain r.id g) m1
    ((r.current.only r.shadow).foldl (fun m g => m.giveGrain r.id g) m2).markMoving) m
  (((m3.drillsLose r.id (r.current.links &&& ~~~r.shadow.links)).flush).pump).settleHandovers

def Main.switchTime (span : Nat) (m : Main) : Out :=
  match m.recOf span with
  | none => .refused (.noSubject "span")
  | some r =>
    if r.phase ≠ .prepare ∨ r.committed = false then .refused (.noSubject "an armed switch")
    else .next (((m.until r.switchT).switchSpan r).after)

/-! ### COMMIT, ABORT (R316, R317) -/

/-- Whether every grain that a SHADOW takes from another span is released by a transition committed with no later CLOSE_T. -/
def Main.giversReady (m : Main) (r : SpanRec) (close : Nat) : Bool :=
  (r.shadow.only r.current).all (fun g => match m.ownerOf g with
    | .span x => x == r.id || (match m.recOf x with | some y => y.committed && decide (y.closeT ≤ close) | none => false)
    | _ => true)

/-- The span and the epoch of a COMMIT or an ABORT; one that names another transition than the open one is BUSY (R313). -/
def openCommand (i : EcsIn) (s : State) (named : List (Nat × Nat)) (go : SpanRec → Ans) : Ans :=
  match s.main.recOf (i.arg 0x20 4), EcsIn.lowest [i.reserved ((0x20, 4) :: (0x28, 2) :: named), i.high 0x20 4 20] with
  | _, some o => .no s o
  | none, none => .no s 0x20
  | some r, none =>
    if r.phase = .stable then .no s 0xFFFF
    else if i.arg 0x28 2 ≠ r.shadow.epoch then .busy s (s.main.transitionHint r)
    else if r.phase ≠ .prepare ∨ r.committed = true then .no s 0xFFFF
    else go r

def composeCommit (i : EcsIn) (s : State) : Ans :=
  openCommand i s [(0x30, 8)] (fun r =>
    let m := s.main
    let t := i.arg 0x30 8
    let close := t + r.drainUs * 1000
    if !m.giversReady r close then .no s 0xFFFF
    else
      let late := decide (t ≤ m.time + 10000)
      let m1 := m.modRec r.id (fun r => { r with committed := true, switchT := t, closeT := close, late := late })
      .main s (.good (fields [(0x20, toBytes 1 (b2n late)), (0x28, toBytes 8 close)])) (if late then m1.switchSpan r else m1))

/-- COMPOSE_ABORT: grains that have come already go to no span, as long as none is being evacuated (R202, R317); an extent that lies on
them and on grains that stay is not torn apart (R183). -/
def composeAbort (i : EcsIn) (s : State) : Ans :=
  openCommand i s [] (fun r =>
    let m := s.main
    if (r.current.only r.shadow).any (fun g => match m.taker r.id g with | some t => t.committed | none => false) then .no s 0xFFFF
    else if m.coh.reclaim ≠ [] then .again
    else
      let stray := (m.grainsOf r.id).filter (fun g => !r.current.has g)
      let torn (e : Extent) : Bool := e.span == r.id && (e.mask &&& r.current.mem) != 0 &&
        stray.any (fun g => g.1 == .memory && e.mask.getLsbD g.2)
      if m.mem.extents.any torn then .no s 0xFFFF
      else if stray.any (fun g => g.1 == .memory && (m.chan g.2).state == .evacuating) then
        let (v, m1) := m.draw
        .done { status := .busy, aux := 100 + v % 99901 } { s with main := m1 }
      else
      let lost := m.mem.extents.filter (fun e => e.span == r.id && (e.mask &&& r.current.mem) == 0)
      let m1 := stray.foldl Main.releaseGrain (lost.foldl Main.dropExtent (m.refuseExtents (lost.filter (·.state == .zeroing))))
      let settle (r : SpanRec) : SpanRec :=
        { r with phase := .stable, shadow := GrainSet.none, nextPiers := [], reloc := [], handovers := [], waiting := [] }
      let m2 := if r.current.valid then m1.modRec r.id settle else m1.freeRec r.id
      .main s (.good []) (m2.markMoving.serveList r.id r.waiting))

/-! ### CLOSE (R321, R325) -/

/-- The tracker entries of a span that an epoch tags end with EPOCH_STALE. -/
def Main.endEpoch (m : Main) (span epoch : Nat) : Main :=
  (m.fab.entries.filter (fun e => e.span == span && e.epoch == epoch)).foldl (fun m e => m.finishTrack e (.fail .epochStale)) m

/-- A transition closed. -/
def Main.closeSpan (m : Main) (r : SpanRec) : Main :=
  let settle (r : SpanRec) : SpanRec :=
    { r with
      phase := .stable, switchT := 0, closeT := 0, late := false, committed := false, current := r.shadow, shadow := GrainSet.none
      piers := r.nextPiers, nextPiers := [], reloc := [], handovers := [], gone := [] }
  let m1 := if r.shadow.valid then m.modRec r.id settle else (m.handBackAll r.id).freeRec r.id
  ((m1.endEpoch r.id r.current.epoch).pump).post 0x40 4 r.id .ok
    (r.shadow.epoch * 2 ^ 32 + (if r.shadow.valid then 0 else 2) + b2n r.late)

/-- The close of a pier that leaves: its entries tagged E end, and its record stays in DRAIN for its tail (R321, R325). -/
def Main.closeLeaving (m : Main) (r : SpanRec) : Main := (m.endEpoch r.id r.current.epoch).pump

/-- A transition that may close: its time and every handover of the pier have passed. -/
def Main.closeAt (span : Nat) (tail : Bool) (m0 : Main) : Out :=
  let m := m0.settleHandovers
  match m.recOf span with
  | none => .refused (.noSubject "span")
  | some r =>
    if r.phase ≠ .drain ∨ (tail = true ∧ r.shadow.valid = true) then .refused (.noSubject "a transition to close")
    else if !r.handovers.all (·.complete) then .refused (.notReady "handovers")
    else if tail then .next (((m.until (r.closeT + 10000)).closeSpan r).settleRetire.after)
    else
      let m1 := m.until r.closeT
      .next ((if r.shadow.valid then (m1.closeSpan r).settleRetire else m1.closeLeaving r).after)

/-- A handover still running 50 ms after CLOSE_T (R331). -/
def Main.handoverLate (span : Nat) (m : Main) : Out :=
  match m.recOf span with
  | none => .refused (.noSubject "span")
  | some r =>
    if r.phase ≠ .drain ∨ !r.handovers.any (fun h => h.leave && !h.complete) then .refused (.noSubject "a handover that runs")
    else .next ((m.until (r.closeT + 50000000)).saggerError span 0x33 ⟨4, 2⟩ none 0 false none)

/-! ### Queries (R309, R314, R413) -/

/-- A grain set's 96 bytes. -/
def GrainSet.bytes (s : GrainSet) : List Byte :=
  toBytes 8 (b2n s.valid * 2 ^ 63 + s.epoch * 2 ^ 32 + s.rank) ++ toBytes 8 (s.piersM1 * 2 ^ 32 + s.cores.toNat) ++
    toBytes 24 s.mem.toNat ++ toBytes 16 s.links.toNat ++ toBytes 40 0

/-- A record's 256 bytes. -/
def SpanRec.bytes (r : SpanRec) : List Byte :=
  toBytes 8 (2 ^ 63 + r.phase.code * 2 ^ 60 + r.id * 2 ^ 40 + r.tenant.toNat) ++ toBytes 8 r.switchT ++ toBytes 8 r.closeT ++
    toBytes 8 (r.drainUs * 2 ^ 32 + r.reloc.length * 2 ^ 8 + b2n r.late * 2 + b2n r.drill) ++ toBytes 32 0 ++
    r.current.bytes ++ r.shadow.bytes

/-- The numbers of the kinds of grain in a handover's eight bytes. -/
def GrainKind.num : GrainKind → Nat
  | .core => 0 | .memory => 1 | .link => 2

def Handover.bytes (h : Handover) : List Byte :=
  toBytes 1 h.kind.num ++ toBytes 1 (b2n !h.leave) ++ toBytes 2 h.num ++ toBytes 1 (b2n h.complete) ++ toBytes 3 0

def spanQueryReply (i : EcsIn) (s : State) : Reply :=
  match s.main.recOf (i.arg 0x20 4), EcsIn.lowest [i.reserved [(0x20, 4)], i.high 0x20 4 20] with
  | _, some o => .refuse o
  | none, none => .refuse 0x20
  | some r, none =>
    { status := .ok
      result := fields [(0x20, toBytes 1 r.phase.code), (0x22, toBytes 2 r.current.epoch)]
      out := r.bytes ++ (r.piers ++ r.nextPiers ++ r.reloc).flatMap (toBytes 2) ++ r.handovers.flatMap Handover.bytes }

def spanListReply (i : EcsIn) (s : State) : Reply :=
  match i.reserved [] with
  | some o => .refuse o
  | none =>
    { status := .ok
      result := fields [(0x20, toBytes 2 s.main.comp.recs.length)]
      out := s.main.comp.recs.flatMap (fun r => toBytes 4 r.id ++ toBytes 1 r.phase.code ++ toBytes 1 0 ++ toBytes 2 r.current.epoch) }

/-! ### Zeroing (R188, R194, R195) -/

/-- A zeroing engine has finished a channel, which becomes IDLE, or a new extent, which becomes ACTIVE. Copies made since the
last recall go first (R213); nothing of an extent that is held is written (R195). -/
def Main.zeroed (job : ZeroJob) (m : Main) : Out :=
  match job with
  | .channel c =>
    if !m.mem.zeroing.contains (c, .release) then .refused (.noSubject "a channel that is zeroed")
    else if !m.coh.reclaim.isEmpty then .refused (.notReady "the reclaim of a dead agent")
    else if m.mem.extents.any (fun e => e.held && e.mask.getLsbD c) then .refused (.notReady "an extent that is held")
    else
      let m0 := m.recallChannel c
      let mem := m0.mem.zeroRange (c, 0, 0xC0000000)
      let m1 : Main := { m0 with mem := { mem with zeroing := mem.zeroing.erase (c, .release) } }
      .next ((((m1.modChan c (fun x => { x with state := .idle })).setOwner (.memory, c) .idle).bump 2 4 c 0xC0000000).settleRetire)
  | .extent i =>
    match m.mem.extents.find? (fun e => e.idx == i && e.state == .zeroing) with
    | none => .refused (.noSubject "an extent that is zeroed")
    | some e =>
      if !m.coh.reclaim.isEmpty then .refused (.notReady "the reclaim of a dead agent")
      else
      let m0 := m.walkLines (fun line => e.ranges.any (inRange line))
      let mem := e.ranges.foldl Memory.zeroRange m0.mem
      let m1 := ({ m0 with mem := { mem with
        extents := modWhere mem.extents (fun x => x.idx == i) (fun x => { x with state := .active })
        zeroing := mem.zeroing.erase (i, .extent i) } } : Main).markMoving
      let m2 := e.ranges.foldl (fun m r => m.bump 2 4 r.1 r.2.2) m1
      .next (m2.answerHeld (.extent i) (Reply.good (fields [(0x20, toBytes 2 i), (0x24, toBytes 2 e.choff)])))

/-- SPAN_CREATE (R314). -/
def execSpanCreate (mb : Mbx) (c : Cmd) (s : State) : Outcome := State.ecsOp 0x100 spanCreate mb c s
/-- SPAN_DESTROY (R314). -/
def execSpanDestroy (mb : Mbx) (c : Cmd) (s : State) : Outcome :=
  settling (fun m => m.settleRetire.after) (State.ecsOp 0x101 spanDestroy mb c s)
/-- COMPOSE_PREPARE (R315, R318). -/
def execComposePrepare (mb : Mbx) (c : Cmd) (s : State) : Outcome := State.ecsOp 0x102 composePrepare mb c s
/-- COMPOSE_COMMIT (R316). -/
def execComposeCommit (mb : Mbx) (c : Cmd) (s : State) : Outcome :=
  settling Main.after (State.ecsOp 0x103 composeCommit mb c s)
/-- COMPOSE_ABORT (R314, R317). -/
def execComposeAbort (mb : Mbx) (c : Cmd) (s : State) : Outcome :=
  settling (fun m => m.settleRetire.after) (State.ecsOp 0x104 composeAbort mb c s)
/-- SPAN_QUERY (R314). -/
def execSpanQuery (mb : Mbx) (c : Cmd) (s : State) : Outcome := State.ecsOp 0x105 (reads spanQueryReply) mb c s
/-- SPAN_LIST (R314). -/
def execSpanList (mb : Mbx) (c : Cmd) (s : State) : Outcome := State.ecsOp 0x106 (reads spanListReply) mb c s
/-- SWITCH (R319). -/
def execSwitch (span : Nat) (s : State) : Outcome := onMain (Main.switchTime span) s
/-- MEMORY_GRAIN_HANDOVER (R328, R329). -/
def execMemoryGrainHandover (span channel : Nat) (s : State) : Outcome := onMain (Main.memoryHandover span channel) s
/-- CLOSE (R325). -/
def execClose (span : Nat) (s : State) : Outcome := onMain (Main.closeAt span false) s
/-- LEAVING_RECORD_FREE (R321). -/
def execLeavingRecordFree (span : Nat) (s : State) : Outcome := onMain (Main.closeAt span true) s
/-- HANDOVER_ESCALATION (R331). -/
def execHandoverEscalation (span : Nat) (s : State) : Outcome := onMain (Main.handoverLate span) s
/-- ZEROING_COMPLETE (R188, R194, R195). -/
def execZeroingComplete (job : ZeroJob) (s : State) : Outcome := onMain (Main.zeroed job) s

end Sys2Proof.Machine
end

