-- ==== Sys2Proof/Machine/Power.lean ====
section
/-! DEFINITION. The supply, the limiters, the span lockstep, hints, energy and the power commands (R334, R335, R436-R461). -/

namespace Sys2Proof.Machine

/-! ### Limiters and L (R445, R446, R451, R461) -/

/-- Whether the hardware forces the floor (R445). -/
def Power.floor (p : Power) : Bool := p.sag || p.brake || !p.alerts.isEmpty

/-- L falls at once with a limiter that engages; while the Kiln loop is stopped only the hardware's limits act (R446, R461). -/
def Power.settle (p : Power) : Power :=
  { p with loc := min p.loc (if p.stopped then (if p.floor then 16 else 64) else p.limit) }

/-- The engaged limiters as POWER_QUERY gives them, without the lockstep (R459). -/
def Power.engaged (p : Power) : Nat :=
  b2n p.sag + 2 * b2n p.brake + 4 * b2n (!p.alerts.isEmpty) + 8 * b2n p.hold.isSome + 16 * b2n p.busWarn +
    32 * b2n (decide (p.thermal < 64)) + 64 * b2n (decide (p.capLim < 64)) + 128 * b2n p.fixed

/-- The lowest code that L and the lockstep leave. -/
def Power.lowest (p : Power) : Nat := p.paces.foldl (fun a x => min a x.2) p.loc

/-- A POWER event, at most once per cause in 10 ms; the others are counted (R460). -/
def State.postPower (s : State) (cause : Nat) (status : Status) (detail : Nat) : State :=
  let now := s.main.time
  if s.power.posted.any (fun x => x.1 == cause && decide (now < x.2 + 10000000)) then { s with main := s.main.bump 5 4 0 1 }
  else
    { s with
      main := s.main.post 0x51 5 (cause + s.power.loc * 256) status detail
      power := { s.power with posted := (cause, now) :: s.power.posted.filter (fun x => x.1 != cause) } }

/-- The limiters changed, and L with them; departures from code 56 and returns to it are reported in fixed-frequency mode
(R451). -/
def State.limit (s : State) (f : Power → Power) : State :=
  let p := s.power
  let q := (f p).settle
  let s1 : State := { s with power := q }
  if !p.fixed || !q.fixed then s1
  else if p.lowest = 56 ∧ q.lowest ≠ 56 then s1.postPower 13 .ok (q.engaged % 256)
  else if p.lowest ≠ 56 ∧ q.lowest = 56 then s1.postPower 14 .ok (q.engaged % 256)
  else s1

/-- Whether standby power is there. -/
def Main.standby (m : Main) : Bool := m.rcv.phase != .off

/-- Whether the Kiln controller runs (R462, R533). -/
def Main.kilnUp (m : Main) : Bool :=
  match m.rcv.phase with | .off => false | .held => false | .cold n => decide (2 ≤ n) | _ => true

/-- Whether its 10 µs loop runs (R461). -/
def State.kilnLoops (s : State) : Bool :=
  s.main.kilnUp && !s.power.stopped && !s.main.rcv.resets.any (fun r => r.eng == ⟨4, 4⟩)

/-- A row of the supply or of a pin: it needs standby power and, where it is the Kiln's, its loop. -/
def State.onSupply (kiln : Bool) (bad : Option String) (go : State → State) (s : State) : Outcome :=
  if !s.main.standby then .refused (.noSubject "standby power")
  else match bad with
    | some w => .refused (.noSubject w)
    | none => if kiln && !s.kilnLoops then .refused (.notReady "the Kiln loop") else .next (go s)

/-- What a row names when a condition does not hold. -/
def needs (ok : Bool) (what : String) : Option String := if ok then none else some what

/-! ### The supply log (R441) -/

/-- An entry added; the newest replaces the oldest of 256. -/
def Power.addLog (p : Power) (e : LogEntry) : Power :=
  if p.log.length < 256 then { p with log := p.log ++ [e] }
  else { p with log := p.log.drop 1 ++ [e], overwrites := p.overwrites + 1 }

/-- The entries of a kind still in progress changed. -/
def Power.modLog (p : Power) (kind : Nat) (f : LogEntry → LogEntry) : Power :=
  { p with log := modWhere p.log (fun e => e.duration.isNone && (e.kind == kind || (kind == 1 && e.kind == 3))) f }

/-- The time of a condition that began us µs ago, to 1 µs. -/
def began (now us : Nat) : Nat := (now - us * 1000) / 1000 * 1000

/-- Whether a surge is in progress. -/
def Power.surging (p : Power) : Bool := p.log.any (fun e => e.duration.isNone && e.kind == 2)

/-- Since when the input has lain above 72 V in a surge, with a voltage read now (R436). -/
def Power.above72 (p : Power) (now mv : Nat) : Option Nat :=
  if p.surging && decide (72000 < mv) then some (p.above.getD now) else none

/-- An input voltage noted: the extreme of a condition in progress moves with it. -/
def Power.reads (p : Power) (now mv : Nat) : Power :=
  ({ p with inputMv := mv, above := p.above72 now mv }.modLog 1 (fun e => { e with extreme := min e.extreme (mv / 10) })).modLog 2
    (fun e => { e with extreme := max e.extreme (mv / 10) })

/-- The duration of the condition of a kind in progress, in µs. -/
def Power.lasted (p : Power) (kind now : Nat) : Nat :=
  match p.log.find? (fun e => e.duration.isNone && (e.kind == kind || (kind == 1 && e.kind == 3))) with
  | some e => (now - e.start) / 1000
  | none => 0

/-- That condition ended. -/
def Power.endLog (p : Power) (kind now : Nat) : Power :=
  p.modLog kind (fun e => { e with duration := some ((now - e.start) / 1000) })

/-- The modules that share a span with this one, in either epoch (R334, R452). -/
def Main.peers (m : Main) : List Nat :=
  (m.comp.recs.flatMap (fun r => m.otherPiers r.id)).eraseDups

/-- A notice to some modules. -/
def Main.sagNotices (m : Main) (dests : List Nat) (recovered : Bool) : Main :=
  dests.foldl (fun m d => m.sendCtrl (.sagNotice d m.time recovered)) m

/-- SAG notices to every peer while the fabric processors run; a sag that meets a floor already told sends none. -/
def State.notifySag (s : State) : State :=
  if !s.main.running || !s.power.told.isEmpty then s
  else { s with main := s.main.sagNotices s.main.peers false, power := { s.power with told := s.main.peers } }

/-- The modules that were told of the sag are told once nothing holds the floor any more. -/
def State.notifyOver (s : State) : State :=
  if s.power.floor then s
  else
    { s with
      main := if s.main.running then s.main.sagNotices s.power.told true else s.main
      power := { s.power with told := [] } }

/-! ### Sags, surges, excursions (R334, R436, R439, R441, R460) -/

def State.sagBegin (mv : Nat) (s : State) : State :=
  let tells := s.main.running && s.power.told.isEmpty && !s.main.peers.isEmpty
  let e : LogEntry :=
    { start := began s.main.time 20, duration := none, extreme := mv / 10, kind := 1, banked := false, notices := tells, floor := true }
  let s1 := s.limit (fun p => { p.addLog e with inputMv := mv, sag := true })
  (s1.postPower 1 .ok (mv / 10)).notifySag

/-- When the condition of a sag in progress began. -/
def Power.sagStart (p : Power) : Option Nat :=
  (p.log.find? (fun e => e.duration.isNone && (e.kind == 1 || e.kind == 3))).map (·.start)

/-- The earliest end of a sag in progress: 20 µs below 44.0 V, then 100 µs at 45.0 V or more (R436, R439). -/
def Power.sagEnds (p : Power) : Nat := match p.sagStart with | some t => t + 120000 | none => 0

def State.sagOver (mv : Nat) (s0 : State) : State :=
  let s : State := { s0 with main := s0.main.until s0.power.sagEnds }
  let us := s.power.lasted 1 s.main.time
  let s1 := s.limit (fun p => { p.endLog 1 s.main.time with inputMv := mv, sag := false })
  (s1.postPower 2 .ok (us % 2 ^ 32)).notifyOver

def State.surgeBegin (mv : Nat) (s : State) : State :=
  let e : LogEntry :=
    { start := began s.main.time 0, duration := none, extreme := mv / 10, kind := 2, banked := false, notices := false, floor := false }
  ({ s with power := (s.power.addLog e).reads s.main.time mv } : State).postPower 4 .ok (mv / 10)

/-- A surge begins, or the input moves in one that goes on. -/
def State.surge (mv : Nat) (s : State) : State :=
  if s.power.surging then { s with power := s.power.reads s.main.time mv } else s.surgeBegin mv

def State.excursion (mv us : Nat) (s : State) : State :=
  let low := decide (mv < 44000)
  let e : LogEntry :=
    { start := began s.main.time us, duration := some us, extreme := mv / 10, kind := if low then 1 else 2, banked := false
      notices := false, floor := false }
  let s1 : State := { s with power := s.power.addLog e }
  if low then s1 else s1.postPower 4 .ok (mv / 10)

/-- Whether a surge in progress has stayed within its limits until now: above 59.5 V for 10 ms at most, above 72 V for 100 µs at a time;
otherwise the input switch would have opened (R436). -/
def Power.surgeHolds (p : Power) (now : Nat) : Bool :=
  decide (p.lasted 2 now ≤ 10000) && (match p.above with | some t => decide (now ≤ t + 100000) | none => true)

/-- Whether an excursion is one that is only logged: too short for the floor, or a surge within its limits (R436, R441). -/
def shortEnough (mv us : Nat) : Bool :=
  decide (1 ≤ us) && ((decide (mv < 44000) && decide (us < 20)) ||
    (decide (59500 < mv) && ((decide (mv ≤ 72000) && decide (us ≤ 10000)) || (decide (mv ≤ 80000) && decide (us ≤ 100)))))

/-- SAG (R436, R439). -/
def execSag (mv : Nat) (s : State) : Outcome :=
  s.onSupply false (needs (decide (mv < 44000) && !s.power.sag) "an input that falls below 44 V") (State.sagBegin mv)
/-- SAG_END (R439). -/
def execSagEnd (mv : Nat) (s : State) : Outcome :=
  s.onSupply false (needs (decide (45000 ≤ mv) && s.power.sag) "a sag that ends") (State.sagOver mv)
/-- SURGE (R436, R441). -/
def execSurge (mv : Nat) (s : State) : Outcome :=
  s.onSupply false (needs (decide (59500 < mv) && decide (mv ≤ 80000) && (!s.power.surging || s.power.surgeHolds s.main.time))
    "a surge within its limits") (State.surge mv)
/-- SURGE_END (R436, R441). -/
def execSurgeEnd (s : State) : Outcome :=
  s.onSupply false (needs (s.power.surging && s.power.surgeHolds s.main.time) "a surge within its limits")
    (fun s => { s with power := { s.power.endLog 2 s.main.time with above := none } })
/-- SHORT_EXCURSION (R441). -/
def execShortExcursion (mv durationUs : Nat) (s : State) : Outcome :=
  s.onSupply false (needs (shortEnough mv durationUs) "a short excursion") (State.excursion mv durationUs)

/-! ### Brake, alert, BUS_WARN#, droop (R445, R447) -/

/-- The source of a pin or an alert in the Event Gatherer (R422). -/
def State.source (s : State) (n : Nat) (level : Bool) : State := { s with main := s.main.egInput n level }

/-- PWRBRAKE# falls: source 917 asserts, and the floor is forced. -/
def State.brakeOn (s : State) : State := (((s.source 917 true).limit (fun p => { p with brake := true })).postPower 5 .ok 0)
/-- PWRBRAKE# rises. -/
def State.brakeOff (s : State) : State := (((s.source 917 false).limit (fun p => { p with brake := false })).postPower 6 .ok 0).notifyOver
/-- A regulator alerts: source 916 asserts, and the floor is forced. -/
def State.alertOn (rail : Nat) (s : State) : State :=
  ((s.source 916 true).limit (fun p => { p with alerts := p.alerts ++ [rail] })).postPower 7 .ok rail
/-- No regulator alerts any more. -/
def State.alertOff (s : State) : State := ((s.source 916 false).limit (fun p => { p with alerts := [] })).notifyOver

/-- PWRBRAKE_ASSERT (R422, R445). -/
def execPwrbrakeAssert (s : State) : Outcome :=
  s.onSupply false (needs (!s.power.brake) "a brake that is released") State.brakeOn
/-- PWRBRAKE_RELEASE (R445). -/
def execPwrbrakeRelease (s : State) : Outcome :=
  s.onSupply false (needs s.power.brake "a brake that is asserted") State.brakeOff
/-- REGULATOR_ALERT (R422, R445): the rails CW, CE, NOC, MEM, OPT, SB are 0 to 5. -/
def execRegulatorAlert (rail : Nat) (s : State) : Outcome :=
  s.onSupply false (needs (decide (rail < 6) && !s.power.alerts.contains rail) "a rail without an alert") (State.alertOn rail)
/-- REGULATOR_ALERT_RELEASE (R445). -/
def execRegulatorAlertRelease (s : State) : Outcome :=
  s.onSupply false (needs (!s.power.alerts.isEmpty) "an alert") State.alertOff
/-- A source asserts or deasserts. Sources 916 and 917 force the floor, whatever the Event Gatherer does with them (R422); which rail an
alert of source 916 alone is of is open. -/
def State.assertSource (source : Nat) (level : Bool) (s : State) : State :=
  if source = 917 ∧ s.main.standby = true ∧ level ≠ s.power.brake then (if level then s.brakeOn else s.brakeOff)
  else if source = 916 ∧ s.main.standby = true ∧ level = s.power.alerts.isEmpty then
    if level then
      let (x, m) := s.main.draw
      ({ s with main := m } : State).alertOn (x % 6)
    else s.alertOff
  else s.source source level
/-- SOURCE_ASSERT (R422, R426). -/
def execSourceAssert (source : Nat) (level : Bool) (s : State) : Outcome :=
  if 920 ≤ source then .refused (.noSubject "a source that exists") else .next (s.assertSource source level)
/-- BUS_WARN_ASSERT (R445). -/
def execBusWarnAssert (s : State) : Outcome :=
  s.onSupply true (needs (!s.power.busWarn) "a warning that is released")
    (fun s => ((s.source 918 true).limit (fun p => { p with busWarn := true })).postPower 8 .ok 0)
/-- BUS_WARN_RELEASE (R445). -/
def execBusWarnRelease (s : State) : Outcome :=
  s.onSupply true (needs s.power.busWarn "a warning that is asserted")
    (fun s => ((s.source 918 false).limit (fun p => { p with busWarn := false })).postPower 9 .ok 0)
/-- DROOP (R447). -/
def execDroop (cluster : Nat) (recovered : Bool) (s : State) : Outcome :=
  let on := s.power.drooping.contains cluster
  s.onSupply false (needs (decide (cluster < 32) && on == recovered && s.main.rcv.mainRails) "a cluster's supply") (fun s =>
    if recovered then { s with power := { s.power with drooping := s.power.drooping.erase cluster } }
    else { s with main := s.main.bump 1 7 cluster 1, power := { s.power with drooping := s.power.drooping ++ [cluster] } })

/-! ### Thermal limiter (R448) -/

/-- The thermal limit moved, with its event. -/
def State.thermalTo (s : State) (hottest limit : Nat) : State :=
  let was := s.power.thermal
  let s1 := s.limit (fun p => { p with hottest := hottest, thermal := limit, thermalAt := s.main.time })
  if was = 64 ∧ limit < 64 then s1.postPower 10 .ok (hottest % 2 ^ 16)
  else if was < 64 ∧ limit = 64 then s1.postPower 11 .ok (hottest % 2 ^ 16)
  else s1

def State.thermalMove (hottest : Nat) (s0 : State) : State :=
  let s : State := { s0 with main := s0.main.until (s0.power.thermalAt + 100000) }
  let t := s.power.thermal
  s.thermalTo hottest (if 1050 ≤ hottest then 16 else if 1000 ≤ hottest then max 16 (t - 1) else if hottest ≤ 970 then min 64 (t + 1) else t)

/-- THERMAL_STEP (R448). -/
def execThermalStep (hottest : Nat) (s : State) : Outcome := s.onSupply true none (State.thermalMove hottest)
/-- THERMAL_105 (R448). -/
def execThermal105 (hottest : Nat) (s : State) : Outcome :=
  s.onSupply true (needs (decide (1050 ≤ hottest)) "a sensor at 105 °C") (fun s => s.thermalTo hottest 16)

/-! ### The 10 µs loop (R446, R449) -/

/-- The sum of some loops' powers. -/
def total (l : List (Nat × Nat)) : Nat := (l.map (·.2)).sum

/-- Whether the mean or the excursion bound would fail within 1 ms at the power of the last loop; `win` are the loops of the
last 50 ms, newest first. -/
def capFails (cap watts : Nat) (win : List (Nat × Nat)) : Bool :=
  (rangeFrom 1 100).any (fun k =>
    let kept := win.take (5000 - k)
    decide (5000 * cap < total kept + k * watts) ||
      decide (500 < (kept.filter (fun x => decide (cap < x.2))).length + (if cap < watts then k else 0)))

/-- The cap limiter after a loop: its limit, and when it was last raised. -/
def Power.capStep (p : Power) (now watts : Nat) (win : List (Nat × Nat)) : Nat × Nat :=
  let low := if p.fixed then 56 else 16
  let ms := win.take 100
  let above := (win.filter (fun x => decide (p.cap < x.2))).length
  if 5 * p.cap < 4 * watts ∨ 4000 ≤ watts then (max low (p.capLim - 8), p.capRaised)
  else if capFails p.cap watts win then (max low (p.capLim - 1), p.capRaised)
  else if p.capLim < 64 ∧ p.capRaised + 100000 ≤ now ∧ 100 * total ms ≤ 95 * p.cap * ms.length ∧ above < 400 then
    (p.capLim + 1, now)
  else (p.capLim, p.capRaised)

/-- The end of the loop that comes next. -/
def Power.loopDue (p : Power) : Nat := match p.history with | x :: _ => x.1 + 10000 | [] => 0

def State.loopOnce (watts mv : Nat) (s0 : State) : State :=
  let s : State := { s0 with main := s0.main.until s0.power.loopDue }
  let now := s.main.time
  s.limit (fun p0 =>
    let hist := (now, watts) :: p0.history.filter (fun x => decide (now < x.1 + 100000000))
    let p := { p0 with history := hist }.reads now mv
    let c := p.capStep now watts (hist.filter (fun x => decide (now < x.1 + 50000000)))
    let q := { p with capLim := c.1, capRaised := c.2 }
    { q with loc := if q.loc < q.limit then q.loc + 1 else q.loc })

/-- Whether a sag has held the floor for the whole of a loop that ends at a time: it forces the floor within 2 µs of its
detection (R436). -/
def Power.floored (p : Power) (now : Nat) : Bool :=
  p.sag && (match p.sagStart with | some t => decide (t + 32000 ≤ now) | none => false)

/-- The most that the input power of the next loop can be: the converter's limit, and that of the floor (R439). -/
def State.mostWatts (s : State) : Nat := if s.power.floored (max s.main.time s.power.loopDue) then 1050 else 4000

/-- KILN_LOOP (R439, R446, R449). -/
def execKilnLoop (watts mv : Nat) (s : State) : Outcome :=
  s.onSupply true (needs (decide (watts ≤ s.mostWatts)) "an input power that the supply bounds") (State.loopOnce watts mv)

/-! ### Span lockstep (R335, R452, R453) -/

/-- Whether a SAG notice of a peer is in effect. -/
def PaceTok.sags (t : PaceTok) (now : Nat) : Bool := match t.sagAt with | some a => decide (a ≤ now) | none => false

/-- The limit that a peer's token imposes. -/
def PaceTok.now (t : PaceTok) (now : Nat) : Nat := if t.sags now then 16 else t.limit

/-- S of a span; L stands for it before the first application. -/
def Power.paceOf (p : Power) (span : Nat) : Nat := match p.paces.find? (fun x => x.1 == span) with | some x => x.2 | none => p.loc

/-- SAG notices that have come into effect lower S at once. -/
def State.sagsAct (s : State) : State :=
  let m := s.main
  let low (r : SpanRec) : Bool := s.power.tokens.any (fun t => t.sags m.time && (m.otherPiers r.id).contains t.module)
  let spans := (m.comp.recs.filter low).map (·.id)
  if spans.isEmpty then s
  else s.limit (fun p => { p with paces := spans.map (fun x => (x, 16)) ++ p.paces.filter (fun x => !spans.contains x.1) })

/-- A peer's token put in place of the one before. -/
def Power.token (p : Power) (t : PaceTok) : Power := { p with tokens := t :: p.tokens.filter (fun x => x.module != t.module) }

/-- What is known of a peer. -/
def Power.tokenOf (p : Power) (module : Nat) : PaceTok :=
  (p.tokens.find? (fun x => x.module == module)).getD { module := module, limit := 64, sagAt := none }

def State.round (s : State) : State :=
  let m := s.main
  let tk := max ((s.power.roundAt / 100000 + 1) * 100000) (roundUp m.time 100000)
  let m1 := m.until tk
  let l := s.power.loc
  { s with
    main := m1.peers.foldl (fun m d => m.sendCtrl (.paceToken d tk l)) m1
    power := { s.power with atRound := l, roundAt := tk } }

def State.apply (s0 : State) : State :=
  let s : State := { s0 with main := s0.main.until (s0.power.roundAt + 50000) }
  let m := s.main
  let pace (p : Power) (r : SpanRec) : Nat × Nat :=
    (r.id, (p.tokens.filter (fun t => (m.otherPiers r.id).contains t.module)).foldl (fun a t => min a (t.now m.time)) p.atRound)
  s.limit (fun p => { p with applied := p.roundAt, paces := m.comp.recs.map (pace p) })

def State.sagNotice (sender detected : Nat) (recovered : Bool) (s : State) : State :=
  let m := s.main
  if !m.peers.contains sender then s
  else
    let old := s.power.tokenOf sender
    let due := detected + 50000
    let t : PaceTok := { old with sagAt := if recovered then none else some (match old.sagAt with | some a => min a due | none => due) }
    let m1 := m.post 0x50 5 (b2n (!recovered) * 2 ^ 31 + sender % 2 ^ 13) .ok detected
    ({ s.sagsAct with main := m1, power := s.sagsAct.power.token t } : State).sagsAct

def State.paceToken (sender limit : Nat) (s : State) : State :=
  let m := s.main
  if !m.peers.contains sender then s
  else if limit < 16 ∨ 64 < limit then { s with main := m.bump 5 1 0 1 }
  else { s.sagsAct with power := s.sagsAct.power.token { module := sender, limit := limit, sagAt := none } }

/-- SAG_NOTICE (R335). -/
def execSagNotice (sender detected : Nat) (recovered : Bool) (s : State) : Outcome :=
  if s.main.running then .next (s.sagNotice sender detected recovered) else .refused (.notReady "the fabric processors")
/-- PACE_TOKEN (R452, R453). -/
def execPaceToken (sender tk limit : Nat) (s : State) : Outcome :=
  if tk % 100000 ≠ 0 then .refused (.noSubject "a token of a round")
  else if s.main.running then .next (s.paceToken sender limit)
  else .refused (.notReady "the fabric processors")
/-- PACE_ROUND (R452). -/
def execPaceRound (s : State) : Outcome :=
  if s.main.running then .next s.round else .refused (.notReady "the Kiln controller")
/-- PACE_APPLY (R453). -/
def execPaceApply (s : State) : Outcome :=
  if !s.main.running then .refused (.notReady "the Kiln controller")
  else if s.power.applied = s.power.roundAt then .refused (.noSubject "a round to apply")
  else .next s.apply

/-! ### Hints (R454) -/

/-- The hints with the first that meets a test changed, or removed. -/
def changeHint (p : Hint → Bool) (f : Hint → Option Hint) : List Hint → List Hint
  | [] => []
  | h :: r => if p h then (match f h with | some x => x :: r | none => r) else h :: changeHint p f r

/-- The rails whose phases a hint readies, by the numbers of REGULATOR_ALERT: the core rails of the halves that hold the span's
clusters on this pier, VDD_MEM, or VDD_NOC and VDD_OPT. -/
def Main.hintRails (m : Main) (h : Hint) : List Nat :=
  match h.kind with
  | 1 => match m.ctxOf h.ctx with
    | some c => ((m.spanClusters c.span).map (· / 16)).eraseDups
    | none => []
  | 2 => [3]
  | 3 => [2, 4]
  | _ => []

/-- The rails that are ready: a rail stays so while any hint that is online holds it. -/
def Main.readyRails (m : Main) : List Nat := ((m.hints.filter (·.online)).flatMap m.hintRails).eraseDups

/-- The earliest of some times. -/
def soonest (l : List Nat) : Option Nat :=
  l.foldl (fun a x => some (match a with | some y => min y x | none => x)) none

/-- Which hint of a context is the next whose phases come online, or go offline. -/
def Main.nextHint (m : Main) (ctx : Nat) (online : Bool) (h : Hint) : Bool :=
  let at_ (h : Hint) : Nat := if online then h.stop else h.start
  let mine := m.hints.filter (fun h => h.ctx == ctx && h.online == online)
  h.ctx == ctx && h.online == online && soonest (mine.map at_) == some (at_ h)

/-- HINT_PHASE_START (R454): of the hints of a context, the one whose phases come online first. -/
def execHintPhaseStart (ctx : Nat) (s : State) : Outcome :=
  let next := s.main.nextHint ctx false
  match s.main.hints.find? next with
  | none => .refused (.noSubject "a hint whose phases are offline")
  | some h =>
    let m := s.main.until h.start
    if h.stop ≤ m.time then .next { s with main := { m with hints := changeHint next (fun _ => none) m.hints } }
    else if s.power.floor then .refused (.notReady "release of the floor")
    else .next { s with main := { m with hints := changeHint next (fun h => some { h with online := true }) m.hints } }
/-- HINT_PHASE_END (R454): the one whose duration elapses first. -/
def execHintPhaseEnd (ctx : Nat) (s : State) : Outcome :=
  let next := s.main.nextHint ctx true
  match s.main.hints.find? next with
  | none => .refused (.noSubject "a hint whose phases are online")
  | some h =>
    let m := s.main.until h.stop
    .next { s with main := { m with hints := changeHint next (fun _ => none) m.hints } }

/-! ### Energy (R455, R456) -/

/-- An amount divided in proportion to weights, after a weight already served, of a total. -/
def apportionFrom (e t : Nat) : Nat → List Nat → List Nat
  | _, [] => []
  | c, w :: r => (e * (c + w) / t - e * c / t) :: apportionFrom e t (c + w) r

/-- An amount divided in proportion to weights; the parts sum to it where a weight is not zero. -/
def apportion (e : Nat) (ws : List Nat) : List Nat := apportionFrom e ws.sum 0 ws

/-- The grain that a use is of. -/
def Main.useOwner (m : Main) (u : GrainUse) : Owner :=
  if u.kind = 0 then nth m.comp.coreOwner u.num .held
  else if u.kind = 1 then nth m.comp.memOwner u.num .held
  else nth m.comp.linkOwner u.num .held

/-- What each use has of its rail's energy, in nJ: in proportion to what its rail's counters counted (R456). -/
def railShares (rails : List Nat) (uses : List GrainUse) : List (GrainUse × Nat) :=
  (List.range 5).flatMap (fun r =>
    let us := uses.filter (fun u => u.rail == r)
    us.zip (apportion (nth rails r 0 * 1000000) (us.map (·.count))))

/-- The shares with the conversion loss, the input's energy beyond the rails', added in proportion to each (R456). -/
def lossShares (inputMj : Nat) (rails : List Nat) (uses : List GrainUse) : List (GrainUse × Nat) :=
  let s := railShares rails uses
  (s.zip (apportion ((inputMj - rails.sum) * 1000000) (s.map (·.2)))).map (fun x => (x.1.1, x.1.2 + x.2))

/-- Energy credited to what used it. -/
def Main.creditWork (m : Main) (x : EnergyOf × Nat) : Main :=
  match x.1 with
  | .batch module batch =>
    let own (l : Launch) : Bool := l.coord == .remote module batch
    { m with cores := { m.cores with launches := modWhere m.cores.launches own (fun l => { l with energy := l.energy + x.2 }) } }
  | .packet q pidx =>
    let m1 := m.modQueue q (fun y =>
      { y with running := modWhere y.running (fun p => p.pidx == pidx) (fun p => { p with energy := p.energy + x.2 }) })
    let own (l : Launch) : Bool := match l.coord with | .queue r p => r == q && p == pidx | .remote _ _ => false
    { m1 with cores := { m1.cores with launches := modWhere m1.cores.launches own (fun l => { l with energy := l.energy + x.2 }) } }

/-- A context of a span credited, and its packets by what each had of its activity. -/
def Main.creditCtx (span : Nat) (m : Main) (x : CtxUse × Nat) : Main :=
  let m1 := m.modCtx x.1.ctx (fun y => if y.span = span then { y with energy := y.energy + x.2 } else y)
  ((x.1.works.map (·.1)).zip (apportion x.2 (x.1.works.map (·.2)))).foldl Main.creditWork m1

/-- A grain's share divided among the contexts of the span that holds it; an idle grain's is the module's own (R456). -/
def Main.creditGrain (m : Main) (x : GrainUse × Nat) : Main :=
  match m.useOwner x.1 with
  | .span sp => (x.1.ctxs.zip (apportion x.2 (x.1.ctxs.map (·.weight)))).foldl (Main.creditCtx sp) m
  | _ => m

/-- What each span's grains have, added to what they had. -/
def Main.spanShares (m : Main) (acc : List (Nat × Nat)) (shares : List (GrainUse × Nat)) : List (Nat × Nat) :=
  shares.foldl (fun acc x => match m.useOwner x.1 with
    | .span sp =>
      let old := match acc.find? (fun y => y.1 == sp) with | some y => y.2 | none => 0
      (sp, old + x.2) :: acc.filter (fun y => y.1 != sp)
    | _ => acc) acc

/-- The energies of a 1 ms interval and what its counters counted, apportioned; what is a function's power is refreshed once in 100 ms. -/
def State.meter (inputMj : Nat) (x : EnergyUse) (s : State) : State :=
  let m := s.main.until (s.power.metered + 1000000)
  let shares := lossShares inputMj x.rails x.uses
  let acc := m.spanShares s.power.spanAcc shares
  let p : Power := { s.power with energy := (s.power.energy + inputMj) % 2 ^ 64, railMj := x.rails, metered := m.time }
  { s with
    main := shares.foldl Main.creditGrain m
    power :=
      if s.power.spanFrom + 100000000 ≤ m.time then { p with spanMean := acc, spanAcc := [], spanFrom := m.time }
      else { p with spanAcc := acc } }

/-- What ENERGY_METER says must be what the Kiln can measure: 4,000 W for 1 ms to within 2 %, and rails that draw from the input (R438,
R455; DESIGN CHOICE, assumption log 96). -/
def measurable (inputMj : Nat) (rails : List Nat) : Bool :=
  decide (rails.length = 6) && decide (rails.sum ≤ inputMj) && decide (inputMj ≤ 4080)

/-- ENERGY_METER (R455, R456). -/
def execEnergyMeter (inputMj : Nat) (x : EnergyUse) (s : State) : Outcome :=
  s.onSupply true (needs (measurable inputMj x.rails && x.uses.all (fun u => decide (u.rail < 5) && decide (u.kind < 3)))
    "energies that the Kiln can measure") (State.meter inputMj x)

/-! ### Commands (R457-R459) -/

/-- POWER_CAP_SET's own part. -/
def powerCap (i : EcsIn) (s : State) : Ans :=
  let c := i.arg 0x20 2
  match EcsIn.lowest [i.reserved [(0x20, 2)], EcsIn.fails (decide (c < 1200) || decide (3200 < c) || c % 10 != 0) 0x20] with
  | some o => .no s o
  | none =>
    if s.power.fixed ∧ c < 3200 then .no s 0xFFFF
    else
      .done (.good (fields [(0x20, toBytes 2 c)])) (({ s with power := { s.power with cap := c } } : State).postPower 15 .ok c)

def powerEmergency (i : EcsIn) (s : State) : Ans :=
  let code := i.arg 0x21 1
  let release := i.arg 0x20 1 == 1
  match EcsIn.lowest [i.reserved [(0x20, 2)], EcsIn.fails (decide (1 < i.arg 0x20 1)) 0x20,
      EcsIn.fails (if release then code != 0 else decide (code < 16) || decide (64 < code)) 0x21] with
  | some o => .no s o
  | none => .done (.good []) (s.limit (fun p => { p with hold := if release then none else some code }))

def fixedFreq (i : EcsIn) (s : State) : Ans :=
  let on := bit (i.arg 0x20 1) 0
  match EcsIn.lowest [i.reserved [(0x20, 1)], i.high 0x20 1 1] with
  | some o => .no s o
  | none =>
    if s.power.cap < 3200 then .no s 0xFFFF
    else
      .done (.good (fields [(0x20, toBytes 1 (b2n on))]))
        (s.limit (fun p => { p with fixed := on, capLim := if on then max 56 p.capLim else p.capLim }))

/-- The 16 bytes of a log entry (R441). -/
def LogEntry.bytes (e : LogEntry) : List Byte :=
  toBytes 8 e.start ++ toBytes 4 (match e.duration with | some d => min d 0xFFFFFFFE | none => 0xFFFFFFFF) ++
    toBytes 2 e.extreme ++ toBytes 1 e.kind ++ toBytes 1 (4 * b2n e.banked + 2 * b2n e.notices + b2n e.floor)

/-- A cluster's code and S; of an idle cluster neither is stated (assumption log 1). -/
def State.clusterPace (s : State) (k idle : Nat) : List Byte :=
  match nth s.main.comp.coreOwner k .idle with
  | .span x => toBytes 1 (min (s.power.paceOf x) s.power.loc) ++ toBytes 1 (s.power.paceOf x) ++ toBytes 2 0
  | _ => toBytes 2 idle ++ toBytes 2 0

/-- The code a cluster runs at: the lower of S of its span and L; none where its clock is gated (R445, R453). -/
def State.clusterCode (s : State) (k : Nat) : Option Nat :=
  match nth s.main.comp.coreOwner k .idle with
  | .span x => some (min (s.power.paceOf x) s.power.loc)
  | _ => none

/-- The cycles that pass in a cluster in 1 ns, in 1/64 of a cycle: code c gives c × 31.25 MHz, and while its supply droops half of the
cycles pass (R444, R447). -/
def State.cycles64 (s : State) (k : Nat) : Nat :=
  match s.clusterCode k with
  | some c => if s.power.drooping.contains k then c else 2 * c
  | none => 0

/-- The voltage of a half's core rail in units of 10 µV, by the highest pace on the half (R444). -/
def State.coreVolts (s : State) (half : Nat) : Nat :=
  let c := ((rangeFrom (half * 16) 16).filterMap s.clusterCode).foldl max 0
  65000 + 625 * (c - 32)

/-- The mean input power of the last 100 ms. -/
def Power.mean (p : Power) : Nat := total p.history / max 1 p.history.length

/-- The power of the spans that an instance mailbox sees: the mean of the last whole 100 ms, to the nearest 5 W (R459, R513). -/
def State.seenWatts (s : State) (i : EcsIn) : Nat :=
  (((s.power.spanMean.filter (fun x => s.main.mayName i.mb x.1)).map (·.2)).sum + 250000000) / 500000000 * 5

/-- POWER_QUERY: what the sensors of the coolant read, what is written for unused log entries and for idle clusters is open
(assumption log 1). -/
def powerReply (i : EcsIn) (s0 : State) : Reply × State :=
  match EcsIn.lowest [i.reserved [(0x20, 1)], i.high 0x20 1 1] with
  | some o => (.refuse o, s0)
  | none =>
    let s := s0.sagsAct
    let p := s.power
    if i.vf.isSome then (.good (fields [(0x22, toBytes 2 (s.seenWatts i))]), s)
    else
      let (d, m) := s.main.drawList 4130
      let open_ (k : Nat) : Nat := nth d k 0
      let low := p.paces.any (fun x => decide (x.2 < p.loc))
      let codes := (List.range 32).flatMap (fun k => s.clusterPace k (open_ k))
      let log := p.log.flatMap LogEntry.bytes
      let rest := (rangeFrom 34 (4096 - log.length)).map (fun k => BitVec.ofNat 8 (open_ k))
      ({ status := .ok
         result := fields [(0x20, toBytes 2 (p.inputMv / 10)), (0x22, toBytes 2 p.mean), (0x24, toBytes 2 p.cap),
           (0x26, toBytes 1 p.loc), (0x27, toBytes 1 (2 * b2n p.floor + b2n p.fixed)),
           (0x28, toBytes 2 (p.engaged + 256 * b2n low)), (0x2A, toBytes 2 p.hottest), (0x2C, toBytes 2 (open_ 32)),
           (0x2E, toBytes 2 (open_ 33)), (0x30, toBytes 8 p.energy)]
         out := codes ++ (if bit (i.arg 0x20 1) 0 then log ++ rest ++ toBytes 4 p.overwrites else []) },
       { s with main := m })

/-- A command whose answer draws open values. -/
def tells (f : EcsIn → State → Reply × State) (i : EcsIn) (s : State) : Ans := .done (f i s).1 (f i s).2

/-- POWER_CAP_SET (R449, R457). -/
def execPowerCapSet (mb : Mbx) (c : Cmd) (s : State) : Outcome := State.ecsOp 0x400 powerCap mb c s
/-- POWER_EMERGENCY (R445, R457). -/
def execPowerEmergency (mb : Mbx) (c : Cmd) (s : State) : Outcome := State.ecsOp 0x401 powerEmergency mb c s
/-- FIXED_FREQ (R451, R457). -/
def execFixedFreq (mb : Mbx) (c : Cmd) (s : State) : Outcome := State.ecsOp 0x402 fixedFreq mb c s
/-- POWER_QUERY (R457, R459). -/
def execPowerQuery (mb : Mbx) (c : Cmd) (s : State) : Outcome := State.ecsOp 0x403 (tells powerReply) mb c s

end Sys2Proof.Machine
end

