-- ==== Sys2Proof/Machine/Seal.lean ====
section
/-! DEFINITION. The Seal processor: glaze slots and their revocation, measurements, the debug unlock (R494-R496, R505-R515). -/

namespace Sys2Proof.Machine

/-! ### Measurements (R508-R510) -/

/-- The digest of the image that a component runs (R508). -/
def Main.imageDigest (m : Main) (comp : Nat) : List Byte :=
  let f := nth m.sec.fw comp FwComp.reset
  match (if f.onB then f.imgB else f.imgA) with
  | some img => sha384 img
  | none => sha384 (Config.factoryImage comp f.onB)

/-- The components whose images the blocks 1 to 6 measure. -/
def measured : List Nat := [2, 1, 0, 3, 4, 5]

/-- The debug bits of block 8. -/
def Sec.debugBits (s : Sec) : Nat := b2n s.unlocked + 2 * b2n s.sinceCold + 4 * b2n s.blocked

/-- One entry of the partition layout (R509). -/
def partEntry (span tenant epoch phase rank cores mem links : Nat) : List Byte :=
  toBytes 4 span ++ toBytes 4 tenant ++ toBytes 2 epoch ++ toBytes 1 phase ++ toBytes 1 0 ++ toBytes 2 rank ++ toBytes 6 0 ++
    toBytes 4 cores ++ toBytes 24 mem ++ toBytes 16 links

/-- The idle grains of a list of owners as a mask. -/
def idleMask (l : List Owner) : Nat := (l.zipIdx.map (fun x => if x.1 = .idle then 2 ^ x.2 else 0)).sum

/-- Records in ascending order of their span. -/
def bySpan (l : List SpanRec) : List SpanRec := l.mergeSort (fun a b => decide (a.id ≤ b.id))

/-- The partition layout, as a caller sees it: `who` are the records it may see, `whole` whether it sees the module's own. -/
def Main.layout (m : Main) (who : SpanRec → Bool) (whole : Bool) : List Byte :=
  let recs := bySpan (m.comp.recs.filter who)
  let one (r : SpanRec) : List Byte :=
    let g := if r.phase = .drain then r.shadow else r.current
    partEntry r.id r.tenant.toNat g.epoch r.phase.code g.rank g.cores.toNat g.mem.toNat g.links.toNat
  let own := if whole then partEntry 0 0 0 0 0 (idleMask m.comp.coreOwner) (idleMask m.comp.memOwner) (idleMask m.comp.linkOwner) else []
  toBytes 2 (recs.length + b2n whole) ++ toBytes 2 m.fab.module ++ toBytes 12 0 ++ own ++ recs.flatMap one

/-- The raw value of a block 7 to 10 (R508). -/
def Main.rawBlock (m : Main) (layout : List Byte) (i : Nat) : List Byte :=
  if i = 7 then [if Config.returned then 2 else 1] ++ (m.sec.fw.flatMap (fun f => toBytes 1 f.rollback)) ++ toBytes 1 0 ++
      sha384 (keyBytes Config.debugKey)
  else if i = 8 then toBytes 4 m.sec.debugBits ++ toBytes 4 m.sec.unlocks ++ toBytes 8 m.sec.lastUnlock
  else if i = 9 then layout
  else partNumber ++ serialBytes

/-- A measurement block as SPDM carries it: index, specification, size, then type, size and value. -/
def Main.block (m : Main) (layout : List Byte) (raw : Bool) (i : Nat) : List Byte :=
  let v := if i ≤ 6 then m.imageDigest (nth measured (i - 1) 0)
           else if raw then m.rawBlock layout i else sha384 (m.rawBlock layout i)
  let kind := if i ≤ 6 then 1 else if i = 7 then (if raw then 0x82 else 2) else if i = 8 then (if raw then 0x85 else 5)
              else (if raw then 0x83 else 3)
  toBytes 1 i ++ toBytes 1 1 ++ toBytes 2 (v.length + 3) ++ toBytes 1 kind ++ toBytes 2 v.length ++ v

/-- A MEASUREMENTS message: its header, the blocks, a nonce, no opaque data, the requester's context. -/
def measurements (p1 : Nat) (blocks : List (List Byte)) (nonce ctx : List Byte) : List Byte :=
  let rec_ := blocks.flatMap id
  [0x13, 0x60] ++ toBytes 1 p1 ++ toBytes 1 0 ++ toBytes 1 blocks.length ++ toBytes 3 rec_.length ++ rec_ ++
    padTo 32 nonce ++ toBytes 2 0 ++ padTo 8 ctx

/-- "CX9 instance report". -/
def reportLabel : List Byte :=
  [0x43, 0x58, 0x39, 0x20, 0x69, 0x6E, 0x73, 0x74, 0x61, 0x6E, 0x63, 0x65, 0x20, 0x72, 0x65, 0x70, 0x6F, 0x72, 0x74]

/-- The report that SEC_QUERY returns (R510). -/
def Main.report (m : Main) (i : EcsIn) : List Byte :=
  let layout := m.layout (fun r => m.mayName i.mb r.id) i.vf.isNone
  let msg := measurements 0 ((rangeFrom 1 10).map (m.block layout true)) ((i.cmd.bytes.drop 0x28).take 32) []
  msg ++ signIdentity (reportLabel ++ msg)

/-! ### Slots (R494, R495, R514) -/

/-- A slot's 16 bytes in SEC_QUERY. -/
def GSlot.bytes (s : GSlot) (n : Nat) : List Byte :=
  toBytes 2 n ++ toBytes 1 s.st.code ++ toBytes 1 0 ++ toBytes 4 s.tenant ++ toBytes 4 s.gen ++ toBytes 4 s.ctr

/-- Whether a caller may see a slot (R513). -/
def Main.slotSeen (m : Main) (i : EcsIn) (s : GSlot) : Bool :=
  i.vf.isNone || (s.st != .free && (m.visibleSpans i).any (fun r => r.tenant.toNat == s.tenant))

def secReply (i : EcsIn) (s : State) : Reply :=
  let m := s.main
  match EcsIn.lowest [i.reserved [(0x20, 1), (0x28, 32)], i.high 0x20 1 2] with
  | some o => .refuse o
  | none =>
    let slots := (m.sec.slots.zipIdx.filter (fun x => m.slotSeen i x.1)).flatMap (fun x => x.1.bytes x.2)
    { status := .ok
      result := fields [(0x20, toBytes 1 m.sec.debugBits), (0x22, toBytes 2 (m.sec.slots.filter (fun x => x.st == .free)).length),
        (0x24, toBytes 4 m.sec.unlocks), (0x40, if i.vf.isSome then [] else toBytes 32 m.sec.challenge)]
      out := (if bit (i.arg 0x20 1) 1 then slots else []) ++ (if bit (i.arg 0x20 1) 0 then m.report i else []) }

def slotAssign (i : EcsIn) (s : State) : Ans :=
  let m := s.main
  let want := i.arg 0x20 2
  let at_ := if want = 0xFFFF then m.sec.slots.findIdx? (fun x => x.st == .free) else some want
  match EcsIn.lowest [i.reserved [(0x20, 2), (0x24, 4)], EcsIn.fails (want != 0xFFFF && decide (256 ≤ want)) 0x20] with
  | some o => .no s o
  | none =>
    match at_ with
    | none => .no s 0xFFFF
    | some k =>
      if m.sec.blocked || (m.gslot k).st != .free then .no s 0xFFFF
      else
        let t := i.arg 0x24 4
        let g := (m.gslot k).gen
        let m1 := m.modGslot k (fun x => { x with st := .assigned, tenant := t, ctr := 0 })
        .main s (.good (fields [(0x20, toBytes 2 k), (0x24, toBytes 4 g)])) (m1.postSecurity 1 k .ok (t * 2 ^ 32 + g))

/-! ### Receipts (R505 step 3, R512 step 1) -/

/-- The slot under which a run glazes what it has yet to move. -/
def Main.runGlaze (m : Main) (d : DmaRun) : Option Nat :=
  match (m.queueOf d.q).bind (fun x => x.running.find? (fun p => p.pidx == d.pidx)) with
  | some p => if d.isOver (dmLen p.bytes) then none else m.dmaGlaze p.bytes
  | none => none

/-- Whether a mover has a packet under a slot that has started and not ended, or is being reset; without a slot, any glazed packet:
what has started finishes (R505 step 3, R512 step 1). -/
def Main.moverBusy (m : Main) (slot : Option Nat) (e : Nat) : Bool :=
  m.rcv.resets.any (fun r => r.eng == ⟨1, e⟩) || m.host.dmas.any (fun d => d.engine == e &&
    (match m.runGlaze d, slot with | some g, some s => g == s | some _, none => true | none, _ => false))

/-- The receipts that have come in. -/
def Main.takeReceipts (m : Main) : Main :=
  let one (r : Revoke) : Revoke := { r with engines := r.engines.filter (m.moverBusy (some r.slot)) }
  { m with sec := { m.sec with
      revokes := m.sec.revokes.map one
      unlocking := m.sec.unlocking.map (fun u => (u.1, u.2.filter (m.moverBusy none))) } }

/-! ### The end of a revocation (R494, R505 steps 5 and 6) -/

/-- A slot's generation raised, or the slot retired. -/
def GSlot.raise (s : GSlot) (release : Bool) : GSlot :=
  if s.gen + 1 = 0xFFFFFFFF then { s with st := .retired, ctr := 0 }
  else
    { st := if release then .free else .assigned, tenant := if release then 0 else s.tenant, gen := s.gen + 1, ctr := 0, spent := false }

/-- A command that has been held answered, its output written where it has a buffer that holds it. -/
def Main.answerOut (m : Main) (x : Mbx × MbCmd) (r : Reply) : Main :=
  let i : EcsIn := { mb := x.1, cmd := x.2, input := none }
  if r.out.isEmpty then m.reply x.1 x.2 r
  else if !i.hasOut || decide (i.outLen < r.out.length) then m.reply x.1 x.2 { r with out := [] }
  else
    match x.1 with
    | .bmc => m.reply x.1 x.2 r
    | .fn f => (if m.fnReach f && !x.2.orphan then m.hostWrite f 0 (i.arg 0x18 8) r.out false else m).reply x.1 x.2 r

/-- A revocation ends. -/
def Main.endRevoke (m : Main) (r : Revoke) : Main :=
  let old := (m.gslot r.slot).gen
  let m1 : Main := { m with sec := { m.sec with revokes := m.sec.revokes.erase r } }
  let m2 := m1.modGslot r.slot (fun s => s.raise r.release)
  let new := m2.gslot r.slot
  let m3 := if new.st = .retired then m2.postSecurity 3 r.slot .ok 0
            else m2.postSecurity 2 r.slot .ok (b2n r.release * 2 ^ 32 + new.gen)
  let answer : Reply :=
    { status := .ok
      result := fields [(0x20, toBytes 4 old), (0x24, toBytes 4 new.gen), (0x28, toBytes 8 m.time), (0x30, toBytes 2 r.silent.length)]
      out := r.silent.flatMap (toBytes 2) }
  (m3.heldFor (.revoke r.slot)).foldl (fun m x => m.answerOut x answer) m3

/-- Every revocation that has its receipts ends. -/
def Main.settleRevokes (m : Main) : Main :=
  let m1 := m.takeReceipts
  (m1.sec.revokes.filter (fun r => r.engines.isEmpty && r.piers.isEmpty)).foldl Main.endRevoke m1

/-- Every revocation ends at once: a start performs its last steps (R506). -/
def Main.finishRevokes (m : Main) : Main := m.sec.revokes.foldl Main.endRevoke m

/-! ### The debug unlock (R511, R512) -/

/-- The unlock takes hold once every mover's receipt is in: glaze is blocked, block 8 records it, the test port opens. -/
def State.settleUnlock (s : State) : State :=
  match s.main.sec.unlocking with
  | some (_, []) =>
    let m := s.main
    let n := (m.sec.unlocks + 1) % 2 ^ 32
    let m1 : Main := { m with sec := { m.sec with
      unlocked := true, sinceCold := true, blocked := true, unlocks := n, lastUnlock := m.time, unlocking := none } }
    { s with
      main := (m1.postSecurity 7 0 .ok n).answerHeld .unlock (Reply.good [])
      tap := { s.tap with opened := true } }
  | _ => s

/-- What waits for receipts goes on. -/
def State.settleSeal (s : State) : State := ({ s with main := s.main.settleRevokes } : State).settleUnlock

/-- A row on Main after which what waits for receipts goes on. -/
def onSeal (f : Main → Out) (s : State) : Outcome :=
  match onMain f s with
  | .next t => .next t.settleSeal
  | o => o

/-- Whether a token is good (R511). -/
def Main.tokenOk (m : Main) (d : List Byte) : Bool :=
  d.length == 160 && fieldAt d 0 4 == 0x4B554244 && decide (fieldAt d 4 4 ≤ 1) && (d.drop 8).take 16 == serialBytes &&
    fieldAt d 0x18 32 == m.sec.challenge && ecdsaHolds Config.debugKey (sha384 (d.take 64)) (d.drop 64) && m.comp.recs.isEmpty

/-- DEBUG_UNLOCK's own part: whatever comes of it, the challenge is drawn anew (R511). -/
def debugUnlock (i : EcsIn) (s : State) : Ans :=
  let m := s.main
  match EcsIn.lowest [i.reserved [], EcsIn.fails (!i.hasIn || i.data.length != 160) 0x10] with
  | some o => .main s (Reply.refuse o) (m.newChallenge.postSecurity 8 0 .ok 0)
  | none =>
    let m1 := m.newChallenge
    if !m.tokenOk i.data || m.sec.unlocking.isSome then .main s (Reply.refuse 0xFFFF) (m1.postSecurity 8 0 .ok 0)
    else .hold .unlock { s with main := { m1 with sec := { m1.sec with unlocking := some (m1.time, List.range 64) } } }

/-! ### SLOT_REVOKE (R505, R506) -/

/-- The spans of a tenant here. -/
def Main.spansOf (m : Main) (tenant : Nat) : List Nat := (m.comp.recs.filter (fun r => r.tenant.toNat == tenant)).map (·.id)

def slotRevoke (i : EcsIn) (s : State) : Ans :=
  let m := s.main
  let k := i.arg 0x20 2
  let fence := bit (i.arg 0x22 1) 0
  match EcsIn.lowest [i.reserved [(0x20, 2), (0x22, 1)], EcsIn.fails (decide (256 ≤ k)) 0x20, i.high 0x22 1 2] with
  | some o => .no s o
  | none =>
    match (m.gslot k).st with
    | .free => .no s 0xFFFF
    | .retired => .no s 0xFFFF
    | .draining => .hold (.revoke k) s
    | .assigned =>
      if !fence && m.objs.regions.any (fun r => r.glaze == some k) then .no s 0xFFFF
      else
        let spans := if fence then m.spansOf (m.gslot k).tenant else []
        let piers := (spans.flatMap m.otherPiers).eraseDups
        let m1 := m.modGslot k (fun x => { x with st := .draining })
        let m2 := spans.foldl (fun m x => m.saggerError x 0x35 ⟨7, 0x602⟩ none 0 false none) m1
        let r : Revoke :=
          { slot := k, release := bit (i.arg 0x22 1) 1, engines := List.range 64, piers := piers, silent := [], since := m.time }
        .hold (.revoke k) { s with main := { m2 with sec := { m2.sec with revokes := m2.sec.revokes ++ [r] } } }

/-- A pier's receipt (R505 step 4). -/
def Main.pierReceipt (module slot : Nat) (m : Main) : Out :=
  let one (r : Revoke) : Revoke := if r.slot = slot then { r with piers := r.piers.filter (· != module) } else r
  .next { m with sec := { m.sec with revokes := m.sec.revokes.map one } }

/-- Fifty milliseconds without every pier's receipt. -/
def Main.piersLate (slot : Nat) (m : Main) : Out :=
  match m.sec.revokes.find? (fun r => r.slot == slot && !r.piers.isEmpty) with
  | none => .refused (.noSubject "a revocation that waits for piers")
  | some r =>
    let m1 := m.until (r.since + 50000000)
    let one (x : Revoke) : Revoke := if x = r then { x with silent := x.piers, piers := [] } else x
    .next { m1 with sec := { m1.sec with revokes := m1.sec.revokes.map one } }

/-- Ten milliseconds without a mover's receipt: it is reset (R360, R505). -/
def Main.moverLate (e : Nat) (m0 : Main) : Out :=
  let m := m0.takeReceipts
  let since := (m.sec.revokes.find? (fun r => r.engines.contains e)).map (·.since)
  let asked := match m.sec.unlocking with | some (t, l) => if l.contains e then some t else none | none => none
  match since, asked with
  | none, none => .refused (.noSubject "a mover whose receipt is missing")
  | some t, _ => .next ((m.until (t + 10000000)).beginReset ⟨1, e⟩ 0x11 0)
  | none, some t => .next ((m.until (t + 10000000)).beginReset ⟨1, e⟩ 0x11 0)

/-- A command after which what waits for receipts goes on. -/
def sealing (o : Outcome) : Outcome :=
  match o with
  | .next t => .next t.settleSeal
  | o => o

/-- SEC_QUERY (R510, R514). -/
def execSecQuery (mb : Mbx) (c : Cmd) (s : State) : Outcome := State.ecsOp 0x600 (reads secReply) mb c s
/-- SLOT_ASSIGN (R495, R514). -/
def execSlotAssign (mb : Mbx) (c : Cmd) (s : State) : Outcome := State.ecsOp 0x601 slotAssign mb c s
/-- SLOT_REVOKE (R505, R514). -/
def execSlotRevoke (mb : Mbx) (c : Cmd) (s : State) : Outcome := sealing (State.ecsOp 0x602 slotRevoke mb c s)
/-- DEBUG_UNLOCK (R511, R512). -/
def execDebugUnlock (mb : Mbx) (c : Cmd) (s : State) : Outcome := sealing (State.ecsOp 0x603 debugUnlock mb c s)
/-- PIER_RECEIPT (R505). -/
def execPierReceipt (module slot : Nat) (s : State) : Outcome := onSeal (Main.pierReceipt module slot) s
/-- ENGINE_RECEIPT_TIMEOUT (R505, R512). -/
def execEngineReceiptTimeout (engine : Nat) (s : State) : Outcome := onSeal (Main.moverLate engine) s
/-- PIER_RECEIPT_TIMEOUT (R505). -/
def execPierReceiptTimeout (slot : Nat) (s : State) : Outcome := onSeal (Main.piersLate slot) s

end Sys2Proof.Machine
end

