-- ==== Sys2Proof/Machine/Start.lean ====
section
/-! DEFINITION. Starts, resets of the whole module, and the banked state (R440, R448, R462-R466, R476, R481, R485, R506, R521,
R523, R533-R538). -/

namespace Sys2Proof.Machine

/-! ### What a loss of the main rails takes -/

/-- A lane after its laser went off; a cold start ends every sparing (R243). -/
def Lane.dark (l : Lane) (i : Nat) (cold : Bool) : Lane := { Lane.reset (i % 8) with phys := if cold then i % 8 else l.phys }

/-- An optical engine after its laser went off; a cold start ends the redundant sources' service and the holds (R248, R544),
and every start ends a loopback (R523). -/
def OptEngine.dark (o : OptEngine) (cold : Bool) : OptEngine :=
  { o with
    laserOn := false, takeover := false, spare := .off, sparing := none, loopback := 0, pattern := 0
    spareUsed := if cold then none else o.spareUsed
    onRedundant := !cold && o.onRedundant
    shutdown := !cold && o.shutdown }

/-- The fabric without its lanes' traffic and its tracker; a cold start also loses the map (R464). -/
def Fab.lose (f : Fab) (cold : Bool) : Fab :=
  let g := if cold then Fab.reset else f
  { g with
    lanes := f.lanes.zipIdx.map (fun x => x.1.dark x.2 cold), engines := f.engines.map (fun o => o.dark cold)
    banks := f.banks, entries := [], gens := [], nextBank := 0, waitReqs := [], outbox := [], arrived := []
    ctrlOut := f.ctrlOut, ctrlHeld := [], timeState := .unlocked, syncLost := false }

/-- Everything outside the standby domain but memory and composition (R464, R485, R533). -/
def Main.lose (m : Main) (cold : Bool) : Main :=
  { m with
    cores := { Cores.reset with units := m.cores.units.map (fun u => { u with w := 0, lastSpan := 0 }) }
    coh := Coh.reset, l2 := List.replicate 32 L2Part.reset, objs := Objs.reset, fab := m.fab.lose cold
    eng := List.replicate 96 Engine.reset, colls := [], collIds := [], early := [], hints := []
    drills := List.replicate 16 Drill.reset
    host := { m.host with
      dmas := [], invs := [], micro := [], completed := [], winReads := [], winWaits := []
      puts := m.host.puts.filter (fun p => match p.owner with | .event _ _ => true | _ => false) } }

/-- A channel after a start: what its map says stays, a retirement in progress is abandoned (R202), and a channel that stays
DEGRADED still waits for a replacement (R198). -/
def Channel.fresh (x : Channel) (kept : Bool) : Channel :=
  { x with
    state := if x.state = .retired then .retired else if kept then (if x.state = .evacuating then .bound else x.state) else .idle
    corrected := [], uncorrectable := [], failed := false, due := kept && x.state == .degraded, repl := none, copied := false }

/-- Memory and composition but for the spans that are kept: their extents, contents, poison marks and records stay (R465). -/
def Main.keepOnly (m : Main) (keep : List Nat) : Main :=
  let stays (o : Owner) : Bool := match o with | .span x => keep.contains x | _ => false
  let chan (c : Nat) : Bool := stays (nth m.comp.memOwner c .idle)
  let own (o : Owner) : Owner := if stays o then o else .idle
  let channels := m.mem.channels.zipIdx.map (fun x => x.1.fresh (chan x.2))
  { m with
    mem := { m.mem with
      cells := m.mem.cells.filter (fun x => chan (x.1 / 2 ^ 32)), poison := m.mem.poison.filter (fun l => chan (l * 128 / 2 ^ 32))
      channels := channels, extents := m.mem.extents.filter (fun e => keep.contains e.span && e.state == .active), zeroing := [] }
    comp := {
      recs := (m.comp.recs.filter (fun r => keep.contains r.id)).map (fun r => { r with waiting := [] })
      coreOwner := m.comp.coreOwner.map own
      memOwner := m.comp.memOwner.zipIdx.map (fun x => if (nth channels x.2 ((m.chan 0).fresh false)).state = .retired then .held else own x.1)
      linkOwner := m.comp.linkOwner.map own }
    rcv := { m.rcv with
      aborts := m.rcv.aborts.filter (fun x => keep.contains x.1), born := m.rcv.born.filter (fun x => keep.contains x.1) } }

/-- Both links go down: functions, their mailboxes and bindings are as after reset; what the BMC waits for is lost (R464,
R533). -/
def Main.linksDown (m : Main) : Main :=
  { m with
    host := { m.host with
      fns := HostSt.reset.fns, ports := m.host.ports.map (fun p => { linkUp := false, perst := p.perst, numVfs := 0, cache := [] })
      doe := [], puts := [] }
    elbor := { Elbor.reset with boxes := m.elbor.boxes.map (fun b =>
      match b.mb with
      | .bmc => { b with waiting := [], held := [] }
      | .fn f => Mailbox.reset (.fn f)) } }

/-- The ports train once the main rails are up (R536). -/
def Main.linksUp (m : Main) : Main :=
  { m with
    rcv := { m.rcv with mainRails := true }
    host := { m.host with ports := m.host.ports.map (fun p => { p with linkUp := !p.perst }) } }

/-! ### Beginning a start -/

/-- A component whose staged image takes effect at this start (R487). -/
def FwComp.atStart (f : FwComp) : FwComp := if f.pending then { f with onB := !f.onB, staged := false, pending := false } else f

/-- The Seal processor at a start (R506, R511, R512). -/
def Sec.atStart (s : Sec) (cold : Bool) : Sec :=
  { s with
    unlocked := false, sinceCold := !cold && s.sinceCold, blocked := !cold && s.blocked, unlocking := none, switching := none
    owed := [], fw := s.fw.map FwComp.atStart, spdm := List.replicate 3 .start }

/-- Recovery as a start begins. -/
def Rcv.atStart (r : Rcv) (now : Nat) (cold : Bool) : Rcv :=
  { r with
    phase := if cold then .cold 1 else .warm 1, stepAt := now, joining := false, mainRails := false, handlings := [], resets := []
    banking := none, preserve := if cold then none else r.preserve, thermtrip := !cold && r.thermtrip
    tripHold := false, stallMark := if cold then none else r.stallMark }

/-- The power side as a start begins: a cold start clears fixed-frequency mode and a HOLD (R458). -/
def Power.atStart (p : Power) (cold : Bool) : Power :=
  let q := { p with stopped := false, told := [], tokens := [], paces := [], applied := p.roundAt, drooping := [] }
  (if cold then { q with fixed := false, hold := none, thermal := 64, capLim := 64, loc := 64, history := [] } else q).settle

/-- The locked test port: an instruction that it no longer lets act acts as BYPASS, and the module's logic has its pins (R526, R527). -/
def Tap.locked (t : Tap) : Tap :=
  if t.ir = 0x01 ∨ t.ir = 0x02 then { t with opened := false, pins := false } else { t with ir := 0xFF, dr := 0, opened := false, pins := false }

/-- A start begins (R462, R464). -/
def State.restart (s : State) (cold : Bool) : State :=
  let keep := if cold then [] else (match s.main.rcv.preserve with | some p => p.spans | none => [])
  let m0 := if s.main.rcv.stallMark.isSome && !cold then s.main else s.main.recordRaised
  let m := (((m0.endSwaps.newChallenge.lose cold).keepOnly keep).linksDown).finishRevokes
  { s with
    snap := none
    main := { m with
      params := if cold then paramDefaults else m.params
      rcv := m.rcv.atStart m.time cold, sec := m.sec.atStart cold, tele := [], eg := Gatherer.reset }
    power := s.power.atStart cold
    tap := { s.tap.locked with needCold := !cold && s.tap.needCold } }

/-! ### The banked state (R440, R485) -/

/-- Banking notices on every ACTIVE lane, and an abort wave for each span with other piers. -/
def Main.tellNeighbours (m : Main) (cause : Nat) : Main :=
  let lanes := (List.range 128).filter m.laneActive
  let m1 := lanes.foldl (fun m i => m.sendCtrl (.bankingNotice i (m.laneNeighbour i))) m
  ((m1.comp.recs.map (·.id)).filter (fun x => !(m1.otherPiers x).isEmpty)).foldl (fun m x =>
    let a := nextAbort (m.abortNum x)
    (m.setAbort x a).sendWave x m.time a cause) m1

/-- Whether a cause of the banked state leaves time to tell of it (R485 step 1). -/
def bankTells (cause : Nat) : Bool := cause != 0x52

/-- The entry to the banked state begins: the cause is recorded, and, where there is time, told (R485 steps 1 and 2). -/
def Main.bankEnter (m : Main) (cause : Nat) (source : EngineId) (parent : Option Nat) : Main :=
  let m0 := m.endSwaps.joinOthers (bankTells cause) m.rcv.nextErr
  let (r, m1) := m0.putErr { sev := .banked, cause := cause, source := source, parent := parent, status := .banked } .handling
  let m2 : Main := { m1 with rcv := { m1.rcv with banking := some cause, handlings := [], resets := [], dev := none } }
  if bankTells cause then (m2.postErr r).tellNeighbours cause else m2

/-- Whether a command is in progress on Elbor cores 0 to 2. -/
def MbCmd.onCores (c : MbCmd) : Bool := match c.cls with | some k => !k.core3 | none => false

/-- The commands in progress on cores 0 to 2, those held, and every one of the instance mailboxes, which are served no more, are answered
BANKED (R405, R421). -/
def Main.answerBanked (m : Main) : Main :=
  let ends (b : Mailbox) (c : MbCmd) : Bool := callerOf b.mb == .inst || (c.onCores && !bankedOps.contains c.op)
  (m.elbor.boxes.flatMap (fun b => ((b.waiting.filter (ends b)) ++ b.held.map (·.cmd)).map
    (fun c => (b.mb, c)))).foldl (fun m x => m.reply x.1 x.2 { status := .banked }) m

/-- What was raised after the entry began joins it, and no handling goes on. -/
def Main.joinBanked (m : Main) : Main :=
  let m0 := m.endSwaps
  let m1 : Main := { m0 with rcv := { m0.rcv with handlings := [], resets := [] } }
  match m1.rcv.errs.find? (fun r => r.isOpen && r.sev == .banked) with
  | some b => m1.joinOthers (bankTells b.cause) b.id
  | none => m1

/-- The records are in flash, the rails are off and the module is banked (R485 steps 2 and 3). A revocation in progress has no transfer left
to wait for: it ends, and is answered for what it did, not BANKED (R8, R505, R506; DESIGN CHOICE, assumption log 92). -/
def Main.bankFinish (m : Main) : Main :=
  let m1 := (((m.recordRaised.joinBanked.flashErrs.lose false).keepOnly []).finishRevokes.answerBanked).egSetMode true
  let m2 := ([0, 1, 2, 6, 7, 8, 9, 10, 11].foldl Main.egResetProc m1)
  (m2.rcv.errs.filter (fun r => r.isOpen && r.sev == .banked)).foldl (fun m r => m.endErr (bankTells r.cause) r.id .done .banked)
    { m2 with
      elbor := { m2.elbor with paused := none }
      rcv := { m2.rcv with phase := .banked, mainRails := false, banking := none, joining := false, dev := none }
      sec := { m2.sec with switching := none, owed := [], unlocking := none } }

/-- Whether the module may enter the banked state. -/
def Main.bankable (m : Main) : Bool := m.resettable

/-- The entry to the banked state ends; the supply log is in flash too (R441, R485). -/
def State.bankFinish (s : State) : State :=
  { s with main := s.main.bankFinish, power := ({ s.power with stopped := false, flashLog := s.power.log } : Power).settle }

/-- BANKED: the last step of the entry (R485). -/
def execBanked (cause : Nat) (s : State) : Outcome :=
  if s.main.rcv.banking = some cause then .next s.bankFinish
  else .refused (.noSubject "an entry to the banked state")
/-- UNDERVOLTAGE_BANK (R440). -/
def execUndervoltageBank (bulk : Nat) (s : State) : Outcome :=
  if !s.power.sag || decide (41000 < bulk) || !s.main.rcv.mainRails || !s.main.bankable then .refused (.noSubject "a sag to 41 V")
  else
    let s1 := s.postPower 3 .banked (bulk / 10)
    .next { s1 with
      power := s1.power.modLog 1 (fun e => { e with kind := 3, banked := true })
      main := s1.main.bankEnter 0x51 ⟨6, 0⟩ none }
/-- THERMTRIP (R448). -/
def execThermtrip (hottest : Nat) (s : State) : Outcome :=
  if hottest < 1150 ∨ s.main.standby = false ∨ s.main.rcv.thermtrip = true then .refused (.noSubject "a sensor at 115 °C")
  else
    let s1 := ({ s with power := { s.power with hottest := hottest } } : State).postPower 12 .ok (hottest % 2 ^ 16)
    let m : Main := { s1.main with rcv := { s1.main.rcv with thermtrip := true } }.egInput 919 true
    .next { s1 with main := if m.bankable then m.bankEnter 0x52 ⟨6, 1⟩ none else m }

/-! ### The steps of a start (R462-R466) -/

/-- A start that fails is recorded and counted; the third warm one is followed by a cold one, the third cold one banks. -/
def State.failStart (s : State) (step : Nat) : State :=
  let m := s.main.noteErr { sev := .corrected, cause := 0x06, source := ⟨8, step⟩, detail := step }
  match m.rcv.phase with
  | .warm _ =>
    let n := m.rcv.warmFail + 1
    if 3 ≤ n then ({ s with main := { m with rcv := { m.rcv with warmFail := 0 } } } : State).restart true
    else ({ s with main := { m with rcv := { m.rcv with warmFail := n } } } : State).restart false
  | _ =>
    let n := m.rcv.coldFail + 1
    let m1 : Main := { m with rcv := { m.rcv with coldFail := n } }
    if 3 ≤ n then { s with main := m1.bankEnter 0x53 ⟨8, step⟩ none } else ({ s with main := m1 } : State).restart true

/-- The limit of a step in ns (R462, R464). -/
def stepLimit (p : RunPhase) (saved : Bool) : Option Nat :=
  let sec (n : Nat) : Option Nat := some (n * 1000000000)
  match p with
  | .cold 1 => sec 2 | .cold 2 => sec 5 | .cold 3 => sec 2 | .cold 4 => sec 60 | .cold 5 => sec 40 | .cold 6 => sec 120
  | .cold 7 => sec 2 | .cold 8 => sec 10
  | .warm 1 => sec 2 | .warm 2 => sec 10 | .warm 3 => sec (if saved then 5 else 40) | .warm 4 => sec (if saved then 10 else 120)
  | .warm 5 => sec 2 | .warm 6 => sec 10
  | _ => none

/-- The tracker banks that pass, as many as there are: sixteen in service, the rest spare (R267, R483). -/
def banksAfter (good : Nat) : List BankState :=
  (List.range 18).map (fun i => if i < 16 then .active else if i < good then .spare else .retired)

/-- What BIST finds and repairs; none when it fails the start (R10, R168, R463). A crossing that no repair makes usable is
reported as an error of the module's sagger, which this start itself resets (R168; DEDUCED, log 45). -/
def Main.bist (m : Main) (r : StepReport) : Option Main :=
  let crossings := [0, 1].map (fun c => !r.crossingsBad.contains c)
  if r.viaductBad.any (fun n => decide (2048 < n)) || !crossings.contains true || decide (r.banksGood < 16) || r.arrayBad then
    none
  else
    let m1 := (sparesFirst r.coresBad).foldl Main.admitWithout m
    let m2 : Main := { m1 with
      fab := { m1.fab with banks := banksAfter r.banksGood }
      rcv := { m1.rcv with
        crossings := crossings, crossBad := r.crossingsBad, badWires := [], spareWires := [nth r.viaductBad 0 0, nth r.viaductBad 1 0] } }
    some (([0, 1].filter r.crossingsBad.contains).foldl (fun m c =>
      m.noteErr { sev := .sagger, cause := 0x31, source := ⟨5, c⟩, detail := c }) m2)

/-- A channel whose PHY does not train replaced by an IDLE pool channel whose PHY does, chosen as R198 has it. -/
def Main.replacePhy (bad : List Nat) (m : Main) (c : Nat) : Option Main :=
  let trains (p : Nat) : Bool := match (m.chan p).phys with | some f => !bad.contains f | none => false
  if (m.chan c).state = .retired ∨ trains c = true then some m
  else
    let free := (List.range 192).filter (fun p => inPool p && (m.chan p).state == .idle && nth m.comp.memOwner p .held == .idle && trains p)
    let pick := match free.find? (fun p => memStop p == memStop c), free.find? (fun p => p / 96 == c / 96) with
      | some p, _ => some p
      | none, some p => some p
      | none, none => free.head?
    pick.map (fun p =>
      let m1 := if nth m.comp.memOwner c .idle = .idle then m else m.poisonChannel c
      m1.swapMap c p (m.chan c).state)

/-- PHY training of every channel; none when some cannot be replaced (R463). -/
def Main.trainPhys (m : Main) (bad : List Nat) : Option Main :=
  (List.range 192).foldl (fun o c => o.bind (fun m => m.replacePhy bad c)) (some m)

/-- An engine calibrated: its own source or the pair's redundant one lights it, unless its latch is open or a hold keeps it
off; its lanes train (R247, R248, R274). -/
def Main.calibrate (m : Main) (e : Nat) : Main :=
  let o := m.optOf e
  let pair := if e % 2 = 0 then e + 1 else e - 1
  let red := o.sourceFailed && (o.onRedundant || !(m.optOf pair).onRedundant)
  let lit := o.latchClosed && !o.shutdown && (!o.sourceFailed || red)
  let m1 := m.modOpt e (fun o =>
    { o with laserOn := lit, onRedundant := red, spare := if !lit then .off else if o.spareUsed.isSome then .active else .standby })
  (engineLanes e).foldl (fun m i =>
    let m2 := m.modLane i (fun l => { l with st := if lit then .training else .off })
    if lit then m2.sendCtrl (.identity i) else m2) m1

/-- Every channel that no kept span holds is zeroed (R195, R464, R465). -/
def Main.scrubAll (m : Main) : Main :=
  ((List.range 192).filter (fun c => (m.chan c).state != .retired && nth m.comp.memOwner c .held == .idle)).foldl
    (fun m c => ({ m with mem := m.mem.zeroRange (c, 0, 0xC0000000) } : Main).bump 2 4 c 0xC0000000) m

/-- Whether the checks of R465 hold. -/
def Main.preserveOk (m : Main) (p : Preserve) : Bool :=
  let s := m.gslot p.slot
  s.gen == p.gen && !m.sec.sinceCold && s.st == .assigned &&
    p.spans.all (fun x => match m.recOf x with | some r => r.tenant.toNat == s.tenant | none => false)

/-- The Seal processor confirms what a reset asked to keep, or nothing is kept (R465). -/
def Main.confirmKept (m : Main) : Main :=
  match m.rcv.preserve with
  | none => m
  | some p =>
    let m1 : Main := { m with rcv := { m.rcv with preserve := none } }
    if m.preserveOk p then m else (m1.keepOnly []).noteErr { sev := .corrected, cause := 0x05, source := ⟨8, 2⟩ }

/-- The device reset is over once its first step has ended (R481). -/
def Main.resetOver (m : Main) : Main :=
  match m.rcv.dev with
  | none => m
  | some d =>
    let m1 : Main := { m with rcv := { m.rcv with dev := none } }
    match d.recId with | some id => m1.closeErr id .done .ok | none => m1

/-- The image of a component that is loaded: the active one when it passes measurement, else the other (R462; DESIGN CHOICE, assumption
log 93); none when neither passes (R463). -/
def FwComp.boot (f : FwComp) (passes : Bool → Bool) : Option FwComp :=
  if passes f.onB then some f else if passes (!f.onB) then some { f with onB := !f.onB, staged := false } else none

/-- The images of components measured, choosing A or B. -/
def Main.bootImages (m : Main) (r : StepReport) (l : List Nat) : Option Main :=
  l.foldl (fun o c => o.bind (fun m => ((nth m.sec.fw c FwComp.reset).boot (fun b => r.images.contains (c, b))).map (fun f =>
    { m with sec := { m.sec with fw := modNth m.sec.fw c (fun _ => f) } }))) (some m)

/-- What a step that ends does; none when it fails the start. -/
def Main.endStep (m : Main) (r : StepReport) : Option Main :=
  match m.rcv.phase with
  | .cold 1 => some { m.resetOver with rcv := { m.resetOver.rcv with stbyOk := true } }
  | .cold 2 => m.bootImages r [0, 1, 2]
  | .cold 3 => some m.linksUp
  | .cold 4 => m.bist r
  | .cold 5 => m.trainPhys r.physBad
  | .cold 6 => some ((List.range 16).foldl Main.calibrate m)
  | .cold 7 => some m.scrubAll
  | .cold 8 => m.bootImages r [0, 3, 4, 5]
  | .warm 1 => some m.resetOver.linksUp
  | .warm 2 => (m.bist r).map (fun m => ({ m with rcv := { m.rcv with savedValid := r.savedValid } } : Main).confirmKept)
  | .warm 3 => m.trainPhys r.physBad
  | .warm 4 => some ((List.range 16).foldl Main.calibrate m)
  | .warm 5 => some m.scrubAll
  | .warm 6 => m.bootImages r [0, 1, 2, 3, 4, 5]
  | _ => some m

/-- The start is complete: the module runs, READY is set, it joins the fabric, and retirements that waited for a replacement may begin
(R198, R462, R464, R466). -/
def Main.complete (m : Main) (cold : Bool) : Main :=
  let r := { m.rcv with
    phase := .running, stepAt := m.time, joining := true, preserve := none, warmFail := 0, coldFail := if cold then 0 else m.rcv.coldFail }
  (({ m with rcv := r } : Main).egSetMode m.rcv.dev.isSome).settleRetire

/-- The step after one. -/
def Main.nextStep (m : Main) : Main :=
  let go (p : RunPhase) : Main := { m with rcv := { m.rcv with phase := p, stepAt := m.time } }
  match m.rcv.phase with
  | .cold n => if 8 ≤ n then m.complete true else go (.cold (n + 1))
  | .warm n => if 6 ≤ n then m.complete false else go (.warm (n + 1))
  | _ => m

/-- The number of the step that runs. -/
def stepOf (p : RunPhase) : Option Nat :=
  match p with | .cold n => some n | .warm n => some n | _ => none

/-- The module joins: it has a map and its time is locked, or it is the root (R278, R462 step 9, R464 W7). -/
def Main.join (m : Main) : Out :=
  let root := m.fab.root == m.fab.module
  if !m.rcv.joining then .refused (.noSubject "a step that runs")
  else if !m.fab.mapped || (!root && m.fab.timeState == .unlocked) then .refused (.notReady "the fabric map and time")
  else
    let m1 : Main := { m with rcv := { m.rcv with joining := false } }
    .next (if root && m.fab.timeState == .unlocked then m1.lockTime else m1)

/-- START_STEP_DONE (R462-R465, R538). A warm start after the test port took the pins does not return the module to service: a cold
start follows it (R527; DESIGN CHOICE, assumption log 93). -/
def execStartStepDone (rep : StepReport) (s : State) : Outcome :=
  match stepOf s.main.rcv.phase with
  | none => onMain Main.join s
  | some n =>
    let needs44 := s.main.rcv.phase == .cold 3 || s.main.rcv.phase == .warm 1
    if s.main.rcv.banking.isSome then .refused (.notReady "the entry to the banked state")
    else if needs44 && decide (s.power.inputMv < 44000) then .refused (.notReady "an input of 44 V")
    else
      match s.main.endStep rep with
      | some m =>
        if s.main.rcv.phase = .warm 6 ∧ s.tap.needCold = true then .next (({ s with main := m } : State).restart true)
        else .next { s with main := m.nextStep }
      | none => .next (s.failStart n)
/-- START_STEP_TIMEOUT (R466). -/
def execStartStepTimeout (s : State) : Outcome :=
  match stepOf s.main.rcv.phase, stepLimit s.main.rcv.phase s.main.rcv.savedValid with
  | some n, some lim =>
    if s.main.rcv.banking.isSome then .refused (.notReady "the entry to the banked state")
    else .next (({ s with main := s.main.until (s.main.rcv.stepAt + lim) } : State).failStart n)
  | _, _ => .refused (.noSubject "a step with a limit")

/-! ### Power and MOD_RESET# (R436, R533-R535) -/

/-- What loss of all power leaves: what flash and fuses hold. -/
def State.powerGone (s : State) : State :=
  let m := ((s.main.endSwaps.lose true).keepOnly []).linksDown
  { s with
    main := { m with
      tele := [], eg := Gatherer.reset, bmcReceiver := false, bmcEid := 0, bmcTid := 0
      elbor := Elbor.reset
      rcv := { Rcv.reset with
        phase := .off, warmFail := m.rcv.warmFail, coldFail := m.rcv.coldFail, thermtrip := m.rcv.thermtrip
        flashErrs := m.rcv.flashErrs }
      sec := { m.sec.atStart false with posted := [] } }
    power := { Power.reset with cap := s.power.cap, hottest := s.power.hottest, flashLog := s.power.flashLog }
    tap := { Tap.reset with needCold := s.tap.needCold } }

/-- OVERVOLTAGE_SWITCH_OPEN (R436). -/
def execOvervoltageSwitchOpen (s : State) : Outcome :=
  if s.main.standby then .next s.powerGone else .refused (.noSubject "power")
/-- STANDBY_LOSS (R436). -/
def execStandbyLoss (s : State) : Outcome :=
  if s.main.standby then .next s.powerGone else .refused (.noSubject "power")

/-- STBY_OK rises with the standby rails (R535). -/
def State.standbyUp (s : State) : State := { s with main := { s.main with rcv := { s.main.rcv with stbyOk := true } } }

/-- A cold start begins, or is held, with THERMTRIP# low, while a sensor reads above 95 °C (R534). -/
def State.beginCold (s : State) : State :=
  if 950 < s.power.hottest then
    ({ s with main := { s.main with rcv := { s.main.rcv with phase := .held, tripHold := true, thermtrip := true } } } : State).standbyUp
  else s.restart true

/-- STANDBY_POWER_APPLIED (R462, R466). -/
def execStandbyPowerApplied (s : State) : Outcome :=
  if s.main.standby then .refused (.noSubject "power that is off")
  else if 3 ≤ s.main.rcv.coldFail then .next ({ s with main := s.main.bankEnter 0x53 ⟨8, 0⟩ none } : State).bankFinish.standbyUp
  else .next s.beginCold

/-- MOD_RESET# has been low for 10 ms (R466, R533, R538). -/
def execModReset (s : State) : Outcome :=
  if s.main.standby = false ∨ (s.main.rcv.phase = .held ∧ s.main.rcv.tripHold = false) then .refused (.noSubject "a module to reset")
  else
    let m := ((s.main.endSwaps.lose false).keepOnly []).linksDown
    let r := { m.rcv with
      phase := .held, mainRails := false, joining := false, banking := none, dev := none, preserve := none, handlings := []
      resets := [], raised := [], stallMark := none, tripHold := false, coldFail := if m.rcv.coldFail = 3 then 2 else m.rcv.coldFail }
    .next { s with main := { m with rcv := r, eg := Gatherer.reset, sec := m.sec.atStart false } }
/-- MOD_RESET_RELEASE (R533, R534). -/
def execModResetRelease (s : State) : Outcome :=
  if s.main.rcv.phase = .held ∧ s.main.rcv.tripHold = false then .next s.beginCold else .refused (.noSubject "a module held in reset")
/-- THERMTRIP_HOLD_END (R534). -/
def execThermtripHoldEnd (s : State) : Outcome :=
  if s.main.rcv.tripHold then
    .next (({ s with power := { s.power with hottest := min s.power.hottest 950 } } : State).restart true)
  else .refused (.noSubject "a start that is held")

/-! ### Device resets (R462, R464, R481) -/

/-- Whether every span's fence is complete. -/
def Main.allFenced (m : Main) : Bool := m.comp.recs.all (fun r => m.fenceComplete r.id)

/-- The start that a device reset leads to. -/
def State.deviceStart (cold : Bool) (s : State) : Outcome :=
  match s.main.rcv.dev with
  | none => .refused (.noSubject "a device reset")
  | some d =>
    if d.cold ≠ cold then .refused (.noSubject "a device reset of this kind")
    else if s.main.rcv.banking.isSome || !s.main.allFenced then .refused (.notReady "the fences")
    else .next (s.restart cold)

/-- COLD_START (R462). -/
def execColdStart (s : State) : Outcome := State.deviceStart true s
/-- WARM_START (R464). -/
def execWarmStart (s : State) : Outcome := State.deviceStart false s

/-- Fence and W1 not ended within 2 s. -/
def Main.deviceLate (m : Main) : Out :=
  match m.rcv.dev with
  | none => .refused (.noSubject "a device reset")
  | some d =>
    let m1 := m.until (d.since + 2000000000)
    let m2 := match d.recId with | some id => m1.closeErr id .escalated .ok | none => m1
    .next (m2.bankEnter 0x50 ⟨4, 3⟩ d.recId)

/-- DEVICE_RESET_ESCALATION (R481). -/
def execDeviceResetEscalation (s : State) : Outcome := onMain Main.deviceLate s

/-- Elbor core 3 stalls: the Kiln resets it and leaves a mark; the second time within 10 s the module banks (R475, R476). -/
def Main.core3Stall (m : Main) : Out :=
  if !m.core3Up then .refused (.notReady "Elbor core 3")
  else
    let again := match m.rcv.lastCore3 with | some t => decide (m.time < t + 10000000000) | none => false
    if again && m.bankable then .next (m.bankEnter 0x55 ⟨4, 3⟩ none)
    else .next (({ m with rcv := { m.rcv with stallMark := some m.time, lastCore3 := some m.time } } : Main).egResetProc 3)

/-- ELBOR_CORE3_STALL (R475, R476). -/
def execElborCore3Stall (s : State) : Outcome := onMain Main.core3Stall s

end Sys2Proof.Machine
end

