-- ==== Sys2Proof/Machine/Repair.lean ====
section
/-! DEFINITION. The recovery and the firmware commands (R478, R485-R488). -/

namespace Sys2Proof.Machine

/-! ### Error records (R478, R488) -/

/-- The 64 bytes of a record. -/
def ErrRec.bytes (r : ErrRec) : List Byte :=
  toBytes 4 r.id ++ toBytes 1 r.sev.code ++ toBytes 1 r.st.code ++ toBytes 1 r.cause ++ toBytes 1 (b2n r.poison) ++
    toBytes 2 r.status.code ++ toBytes 2 r.abort ++ toBytes 4 r.sagger ++ toBytes 8 r.time ++ toBytes 8 r.tend ++
    toBytes 4 (r.source.kind * 2 ^ 28 + r.source.num) ++ toBytes 4 (r.parent.getD 0xFFFFFFFF) ++ toBytes 8 r.detail ++ toBytes 16 0

def errReply (i : EcsIn) (s : State) : Reply :=
  match EcsIn.lowest [i.reserved [(0x20, 4), (0x24, 3)], i.high 0x26 1 1] with
  | some o => .refuse o
  | none =>
    let r := s.main.rcv
    let all := r.errs.filter (fun e => decide (i.arg 0x20 4 ≤ e.id) && (!bit (i.arg 0x26 1) 0 || e.isOpen))
    let got := all.take (i.arg 0x24 2)
    let next := match all.drop (i.arg 0x24 2) with | e :: _ => e.id | [] => r.nextErr
    { status := .ok
      result := fields [(0x20, toBytes 2 got.length), (0x24, toBytes 4 next), (0x28, toBytes 4 r.overflow),
        (0x2C, toBytes 1 r.warmFail), (0x2D, toBytes 1 r.coldFail)]
      out := got.flatMap ErrRec.bytes }

def errAck (i : EcsIn) (s : State) : Ans :=
  match i.reserved [(0x20, 4), (0x24, 2)] with
  | some o => .no s o
  | none =>
    let first := i.arg 0x20 4
    let m := s.main
    let named (e : ErrRec) : Bool := decide (first ≤ e.id) && decide (e.id < first + i.arg 0x24 2)
    .main s (.good []) { m with rcv := { m.rcv with errs := m.rcv.errs.filter (fun e => e.isOpen || !named e) } }

/-! ### Resets on command (R465, R470, R474, R488) -/

def saggerReset (i : EcsIn) (s : State) : Ans :=
  let m := s.main
  let span := i.arg 0x20 4
  let scrub := bit (i.arg 0x24 1) 0
  match EcsIn.lowest [i.reserved [(0x20, 4), (0x24, 1)], i.high 0x20 4 20, EcsIn.fails (span != 0 && (m.recOf span).isNone) 0x20,
      i.high 0x24 1 1, EcsIn.fails (scrub && span == 0) 0x24] with
  | some o => .no s o
  | none =>
    if scrub && m.objs.ctxs.any (fun c => c.span == span) then .no s 0xFFFF
    else .hold (.reopen span) { s with main := m.saggerError span 0x35 ⟨7, 0x502⟩ none 0 scrub none }

/-- The offset of the first named span that is not STABLE here. -/
def EcsIn.unstable (i : EcsIn) (m : Main) (n : Nat) : Option Nat :=
  ((List.range n).find? (fun k => match m.recOf (i.arg (0x30 + 4 * k) 4) with
    | some r => r.phase != .stable
    | none => true)).map (fun k => 0x30 + 4 * k)

def deviceReset (i : EcsIn) (s : State) : Ans :=
  let m := s.main
  let cold := bit (i.arg 0x20 1) 0
  let keep := bit (i.arg 0x20 1) 1
  let n := min (i.arg 0x2C 1) 40
  match EcsIn.lowest [i.reserved [(0x20, 1), (0x24, 2), (0x28, 4), (0x2C, 1), (0x30, 4 * n)], i.high 0x20 1 2,
      EcsIn.fails (cold && keep) 0x20, EcsIn.fails (keep && decide (256 ≤ i.arg 0x24 2)) 0x24, EcsIn.fails (decide (40 < i.arg 0x2C 1)) 0x2C,
      if keep then i.unstable m n else none] with
  | some o => .no s o
  | none =>
    let p : Preserve := { slot := i.arg 0x24 2, gen := i.arg 0x28 4, spans := (List.range n).map (fun k => i.arg (0x30 + 4 * k) 4) }
    let m1 : Main := if keep && m.rcv.dev.isNone then { m with rcv := { m.rcv with preserve := some p } } else m
    .main s (.good []) (m1.deviceError 0x43 ⟨7, 0x503⟩ none 0 cold)

/-- A spare-core swap begins: the cluster is quiesced (R486). -/
def Main.beginSwap (m : Main) (core : Nat) : Main :=
  let k := core / 9
  let stop (w : WorkGroup) : WorkGroup := if w.core / 9 = k ∧ w.state = .running then { w with state := .stopping } else w
  { m with
    cores := { m.cores with wgs := m.cores.wgs.map stop }
    rcv := { m.rcv with swaps := m.rcv.swaps ++ [{ cluster := k, core := core, since := m.time, bad := false }] } }

def spareSwap (i : EcsIn) (s : State) : Ans :=
  let m := s.main
  let k := i.arg 0x20 1
  match EcsIn.lowest [i.reserved [(0x20, 2)], EcsIn.fails (decide (32 ≤ k)) 0x20, EcsIn.fails (decide (8 ≤ i.arg 0x21 1)) 0x21] with
  | some o => .no s o
  | none =>
    let spare := nth m.cores.units (k * 9 + 8) { good := false, inService := true, pos := 8, w := 0, lastSpan := 0 }
    if spare.inService || !spare.good || m.rcv.swaps.any (fun x => x.cluster == k) then .no s 0xFFFF
    else .hold (.swap k) { s with main := m.beginSwap (k * 9 + i.arg 0x21 1) }

def enterBanked (i : EcsIn) (s : State) : Ans :=
  match EcsIn.lowest [i.reserved [(0x20, 4)], EcsIn.fails (i.arg 0x20 4 != 0x4B4E4142) 0x20] with
  | some o => .no s o
  | none => .main s (.good []) (if s.main.bankable then s.main.bankEnter 0x54 ⟨7, 0x505⟩ none else s.main)

/-! ### Firmware (R487, R488) -/

def Main.fwOf (m : Main) (comp : Nat) : FwComp := nth m.sec.fw comp FwComp.reset

def Main.modFw (m : Main) (comp : Nat) (f : FwComp → FwComp) : Main :=
  { m with sec := { m.sec with fw := modNth m.sec.fw comp f } }

/-- Whether the Seal processor accepts an image. -/
def Main.imageOk (m : Main) (comp : Nat) (img : List Byte) : Bool :=
  Config.imageGood comp img && decide ((m.fwOf comp).rollback ≤ Config.imageRollback img)

/-- An image staged into the slot that does not run. -/
def FwComp.stage (f : FwComp) (img : List Byte) : FwComp :=
  if f.onB then { f with verA := Config.imageVersion img % 2 ^ 32, imgA := some img, staged := true }
  else { f with verB := Config.imageVersion img % 2 ^ 32, imgB := some img, staged := true }

/-- Whether a component is being switched. -/
def Main.switches (m : Main) (comp : Nat) : Bool := match m.sec.switching with | some x => x.1 == comp | none => false

def fwStage (i : EcsIn) (s : State) : Ans :=
  let m := s.main
  let comp := i.arg 0x20 1
  match EcsIn.lowest [i.reserved [(0x20, 1), (0x24, 4)], EcsIn.fails (decide (6 ≤ comp)) 0x20, EcsIn.fails (!i.hasIn) 0x10,
      EcsIn.fails (i.hasIn && i.arg 0x24 4 != i.data.length) 0x24] with
  | some o => .no s o
  | none =>
    if m.switches comp then .no s 0xFFFF
    else if !m.imageOk comp i.data then
      .main s { status := .notPermitted, argOff := 8 } (m.postSecurity 9 0 .ok comp)
    else
      let slot := b2n (!(m.fwOf comp).onB)
      .main s (.good (fields [(0x20, toBytes 1 slot), (0x24, toBytes 4 (Config.imageVersion i.data))])) (m.modFw comp (fun f => f.stage i.data))

/-- What the switch of one processor of a component begins with. -/
def State.switchOne (s : State) (comp k : Nat) : State :=
  let m : Main := { s.main with sec := { s.main.sec with switching := some (comp, k) } }
  if comp = 0 then { s with main := { m with elbor := { m.elbor with paused := some m.time } } }
  else if comp = 1 then { s with main := m, power := { s.power with stopped := true, loc := min s.power.loc 56 } }
  else if comp = 3 then { s with main := m.handQueues k }
  else { s with main := m.egResetProc (10 + k) }

/-- What an activation comes to: not while a handling is open, after the one in progress, not without a staged image, at the next start, or
begun (R487). -/
inductive FwStart where
  | busy
  | after
  | none
  | deferred (s : State)
  | begun (s : State)
  deriving DecidableEq, Repr

def State.activate (s : State) (comp : Nat) : FwStart :=
  let m := s.main
  if !m.rcv.handlings.isEmpty || m.rcv.dev.isSome then .busy
  else if m.sec.switching.isSome then .after
  else if !(m.fwOf comp).staged then .none
  else if comp = 2 ∨ comp = 5 then .deferred { s with main := m.modFw comp (fun f => { f with pending := true }) }
  else .begun (s.switchOne comp 0)

def fwActivate (i : EcsIn) (s : State) : Ans :=
  let comp := i.arg 0x20 1
  match EcsIn.lowest [i.reserved [(0x20, 1)], EcsIn.fails (decide (6 ≤ comp)) 0x20] with
  | some o => .no s o
  | none =>
    match s.activate comp with
    | .busy => let (v, m1) := s.main.draw; .main s { status := .busy, aux := 100 + v % 99901 } m1
    | .after => .again
    | .none => .no s 0xFFFF
    | .deferred s1 => .done (.good (fields [(0x20, toBytes 1 1)])) s1
    | .begun s1 => .hold (.activate comp) s1

/-- How many processors of a component switch one after the other. -/
def switchSteps (comp : Nat) : Nat := if comp = 3 then 4 else if comp = 4 then 2 else 1

/-- The pause of the Elbor cores ends: it does not count toward the waits of commands (R420). -/
def Main.endPause (m : Main) : Main :=
  match m.elbor.paused with
  | none => m
  | some t =>
    let shift (c : MbCmd) : MbCmd := { c with since := c.since + (m.time - max t c.since) }
    { m with elbor := { m.elbor with
        paused := none, boxes := m.elbor.boxes.map (fun b => { b with waiting := b.waiting.map shift }) } }

/-- An activation ends: the other image runs, or the one before; the Kiln loop resumes with the limits as they are (R446, R461). -/
def State.endSwitch (s : State) (comp : Nat) (ok : Bool) : State :=
  let m : Main := { s.main with sec := { s.main.sec with switching := none } }
  let m1 := (if ok then m.modFw comp (fun f => { f with onB := !f.onB, staged := false }) else m).endPause
  let s1 : State :=
    { s with main := (((m1.answerHeld (.activate comp) (if ok then Reply.good [] else Reply.refuse 0xFFFF)).takeRaised).fabricBack).egSettle }
  if comp = 1 then s1.limit (fun p => { p with stopped := false }) else s1

/-- What waited for a processor that has been switched goes on (R480, R487). -/
def State.settleFabric (s : State) : State := { s with main := s.main.fabricBack.egSettle }

/-- One processor of a component has been switched. -/
def State.switched (s : State) (comp : Nat) : Outcome :=
  match s.main.sec.switching with
  | none => .refused (.noSubject "an activation")
  | some (c, k) =>
    if c ≠ comp then .refused (.noSubject "an activation of this component")
    else if k + 1 < switchSteps comp then .next (s.switchOne comp (k + 1)).settleFabric
    else .next (s.endSwitch comp true)

def fwReply (i : EcsIn) (s : State) : Reply :=
  match i.reserved [] with
  | some o => .refuse o
  | none =>
    let one (x : FwComp × Nat) : List Byte :=
      toBytes 1 x.2 ++ toBytes 1 (b2n x.1.onB) ++ toBytes 1 (b2n x.1.pending) ++ toBytes 1 0 ++ toBytes 4 x.1.verA ++
        toBytes 4 x.1.verB ++ toBytes 4 0
    { status := .ok, result := fields [(0x20, toBytes 1 6)], out := s.main.sec.fw.zipIdx.flatMap one }

/-- ERR_READ (R488). -/
def execErrRead (mb : Mbx) (c : Cmd) (s : State) : Outcome := State.ecsOp 0x500 (reads errReply) mb c s
/-- ERR_ACK (R478, R488). -/
def execErrAck (mb : Mbx) (c : Cmd) (s : State) : Outcome := State.ecsOp 0x501 errAck mb c s
/-- SAGGER_RESET (R468, R474, R488). -/
def execSaggerReset (mb : Mbx) (c : Cmd) (s : State) : Outcome := settling Main.after (State.ecsOp 0x502 saggerReset mb c s)
/-- DEVICE_RESET (R465, R488). -/
def execDeviceReset (mb : Mbx) (c : Cmd) (s : State) : Outcome := State.ecsOp 0x503 deviceReset mb c s
/-- CORE_SPARE_SWAP (R486, R488). -/
def execCoreSpareSwap (mb : Mbx) (c : Cmd) (s : State) : Outcome := State.ecsOp 0x504 spareSwap mb c s
/-- ENTER_BANKED (R485, R488). -/
def execEnterBanked (mb : Mbx) (c : Cmd) (s : State) : Outcome := State.ecsOp 0x505 enterBanked mb c s
/-- FW_STAGE (R487, R488). -/
def execFwStage (mb : Mbx) (c : Cmd) (s : State) : Outcome := State.ecsOp 0x700 fwStage mb c s
/-- FW_ACTIVATE (R487, R488). -/
def execFwActivate (mb : Mbx) (c : Cmd) (s : State) : Outcome := State.ecsOp 0x701 fwActivate mb c s
/-- FW_QUERY (R488). -/
def execFwQuery (mb : Mbx) (c : Cmd) (s : State) : Outcome := State.ecsOp 0x702 (reads fwReply) mb c s
/-- ELBOR_SERVICE_PAUSE_END (R420, R487). -/
def execElborServicePauseEnd (s : State) : Outcome := State.switched s 0
/-- FIRMWARE_ACTIVATION_DONE (R461, R487). -/
def execFirmwareActivationDone (component : Nat) (s : State) : Outcome :=
  if component = 0 then .refused (.noSubject "the end of the Elbor pause") else State.switched s component
/-- FIRMWARE_HEARTBEAT_FAIL (R487). -/
def execFirmwareHeartbeatFail (component : Nat) (s : State) : Outcome :=
  if s.main.switches component then .next (s.endSwitch component false) else .refused (.noSubject "an activation of this component")

end Sys2Proof.Machine
end

