-- ==== Sys2Proof/Machine/Drills.lean ====
section
/-! DEFINITION. Drills, loopbacks and the test port (R516-R523, R526, R527). -/

namespace Sys2Proof.Machine

/-! ### Drills (R516, R517, R519, R520) -/

/-- The offset of the byte of LINKS that names a lane. -/
def linkOff (i : Nat) : Nat := 0x48 + i / 8

/-- Whether a lane's group holds a link grain of another tenant (R516). -/
def Main.groupShared (m : Main) (tenant : Word) (i : Nat) : Bool :=
  match m.laneGroup i with
  | none => false
  | some g => (bitsSet 128 g.lanes.toNat).any (fun l => match nth m.comp.linkOwner l .idle with
      | .span x => m.tenantOf x != some tenant
      | _ => false)

/-- Spans of other tenants that have ordered requests outstanding on a group that an armed lane leaves for them (R288, R517). -/
def Main.orderAside (m : Main) (tenant : Word) (g : Group) : Main :=
  let dests := (m.fab.routes.filter (fun r => match r.hops with | h :: _ => h.1 == g.num | [] => false)).map (·.dest)
  let spans := ((m.fab.entries.filter (fun e => e.ord && dests.contains e.dest && m.tenantOf e.span != some tenant)).map (·.span)).eraseDups
  spans.foldl (fun m s => m.postFabric s 8 g.neighbour) m

def drillArm (i : EcsIn) (s : State) : Ans :=
  let m := s.main
  let span := i.arg 0x20 4
  let action := i.arg 0x24 1
  let mode := i.arg 0x25 1
  let hold := i.arg 0x26 1
  let dest := i.arg 0x28 2
  let links : BitVec 128 := BitVec.ofNat 128 (i.arg 0x48 16)
  let named := bitsSet 128 links.toNat
  let r := m.recOf span
  let tenant := match r with | some x => x.tenant | none => 0
  let grain (l : Nat) : Bool := match r with
    | some x => x.current.links.getLsbD l && nth m.comp.linkOwner l .idle == .span span
    | none => true
  let free := m.drills.findIdx? (fun d => d.st == .free)
  match EcsIn.lowest ([i.reserved [(0x20, 4), (0x24, 4), (0x28, 2), (0x2C, 12), (0x38, 4), (0x40, 8), (0x48, 16)], i.high 0x20 4 20,
      EcsIn.fails (match r with | some x => !x.drill || !x.current.valid | none => true) 0x20, EcsIn.fails (decide (3 < action)) 0x24,
      EcsIn.fails (decide (2 < mode)) 0x25, EcsIn.fails (if action = 3 then hold == 0 || decide (64 < hold) else hold != 0) 0x26,
      i.high 0x27 1 7, EcsIn.fails (bits dest 14 13 != 0) 0x29, EcsIn.fails (mode == 1 && i.arg 0x2C 4 == 0) 0x2C,
      EcsIn.fails (mode == 1 && i.arg 0x34 4 == 0) 0x34, EcsIn.fails (mode == 1 && i.arg 0x38 4 == 0) 0x38] ++
      named.map (fun l => EcsIn.fails (!grain l || m.groupShared tenant l) (linkOff l))), free with
  | some o, _ => .no s o
  | none, none => .no s 0xFFFF
  | none, some id =>
    let d : Drill :=
      { st := .armed, span := span, action := action, mode := mode, hold := hold, vcMask := i.arg 0x27 1, destEn := bit dest 15
        dest := dest % 2 ^ 13, limit := i.arg 0x2C 4, thresh := i.arg 0x30 4, start := i.arg 0x34 4, period := i.arg 0x38 4
        seed := BitVec.ofNat 64 (i.arg 0x40 8), links := links, passed := 0, injected := 0 }
    let groups := (named.filterMap m.laneGroup).eraseDups
    let m1 := groups.foldl (fun m g => m.orderAside tenant g) { m with drills := m.drills.set id d }
    let m2 := named.foldl (fun m l => m.giveBack l (fun g => !m.drillAllows g.span l)) m1
    .main s (.good (fields [(0x20, toBytes 1 id)])) m2.flush

def drillDisarm (i : EcsIn) (s : State) : Ans :=
  let id := i.arg 0x20 1
  match EcsIn.lowest [i.reserved [(0x20, 1)], EcsIn.fails (decide (16 ≤ id) && id != 0xFF) 0x20] with
  | some o => .no s o
  | none =>
    let drills := if id = 0xFF then List.replicate 16 Drill.reset else s.main.drills.set id Drill.reset
    .main s (.good []) ({ s.main with drills := drills } : Main).flush

def drillReply (i : EcsIn) (s : State) : Reply :=
  match EcsIn.lowest [i.reserved [(0x20, 1)], EcsIn.fails (decide (16 ≤ i.arg 0x20 1)) 0x20] with
  | some o => .refuse o
  | none =>
    let d := nth s.main.drills (i.arg 0x20 1) Drill.reset
    .good (fields [(0x20, toBytes 1 d.st.code), (0x28, toBytes 8 d.passed), (0x30, toBytes 8 d.injected)])

/-! ### Loopbacks (R425, R522, R523) -/

/-- Whether any engine is looped: the module is in a test mode. -/
def Main.looped (m : Main) : Bool := m.fab.engines.any (fun o => o.loopback != 0)

/-- An engine looped: its lanes are out of service, and its spare. -/
def Main.loopOn (m : Main) (e mode pattern : Nat) : Main :=
  (m.loseLanes e).modOpt e (fun o => { o with loopback := mode, pattern := pattern })

/-- A loopback ended: the lanes retrain (R274). -/
def Main.loopOff (m : Main) (e : Nat) : Main :=
  let o := m.optOf e
  if o.loopback = 0 then m
  else
    let st : LaneState := if o.laserOn then .calibrating else .off
    let m1 := m.modOpt e (fun o => { o with loopback := 0, pattern := 0, spare := st })
    (engineLanes e).foldl (fun m i => m.modLane i (fun l => { l with st := st })) m1

def loopbackSet (i : EcsIn) (s : State) : Ans :=
  let m := s.main
  let e := i.arg 0x20 1
  let mode := i.arg 0x21 1
  match EcsIn.lowest [i.reserved [(0x20, 3)], EcsIn.fails (decide (16 ≤ e)) 0x20, EcsIn.fails (decide (2 < mode)) 0x21,
      EcsIn.fails (decide (1 < i.arg 0x22 1)) 0x22] with
  | some o => .no s o
  | none =>
    let idle := (engineLanes e).all (fun l => nth m.comp.linkOwner l .held == .idle) && (m.optOf e).spareUsed.isNone
    if mode ≠ 0 ∧ idle = false then .no s 0xFFFF
    else
      let m1 := (if mode = 0 then m.loopOff e else m.loopOn e mode (i.arg 0x22 1)).flush
      .main s (.good []) (m1.egSetMode (m1.looped || m1.rcv.dev.isSome))

/-- DRILL_ARM (R516, R520). -/
def execDrillArm (mb : Mbx) (c : Cmd) (s : State) : Outcome := State.ecsOp 0x800 drillArm mb c s
/-- DRILL_DISARM (R520). -/
def execDrillDisarm (mb : Mbx) (c : Cmd) (s : State) : Outcome := State.ecsOp 0x801 drillDisarm mb c s
/-- LOOPBACK_SET (R522). -/
def execLoopbackSet (mb : Mbx) (c : Cmd) (s : State) : Outcome := State.ecsOp 0x802 loopbackSet mb c s
/-- DRILL_QUERY (R520). -/
def execDrillQuery (mb : Mbx) (c : Cmd) (s : State) : Outcome := State.ecsOp 0x803 (reads drillReply) mb c s

/-! ### The test port (R526, R527) -/

/-- BYPASS: one bit, which captures 0. -/
def Tap.bypass (t : Tap) : Tap := { t with ir := 0xFF, dr := 0, pins := false }

/-- An instruction that takes the pins; while the port is locked it acts as BYPASS. -/
def Tap.takePins (t : Tap) (code : Nat) : Tap :=
  if t.opened then { t with ir := code, pins := true, needCold := true } else t.bypass

/-- A row of the test port, which standby power feeds. -/
def State.onTap (f : Tap → Tap) (s : State) : Outcome :=
  if s.main.standby then .next { s with tap := f s.tap } else .refused (.noSubject "standby power")

/-- TAP_BYPASS (R526). -/
def execTapBypass (s : State) : Outcome := s.onTap Tap.bypass
/-- TAP_IDCODE (R526). -/
def execTapIdcode (s : State) : Outcome := s.onTap (fun t => { t with ir := 0x01, dr := 0x10C90A9D, pins := false })
/-- TAP_SAMPLE_PRELOAD (R526): what the pins carry is open (assumption log 1). -/
def execTapSamplePreload (s : State) : Outcome :=
  let (v, m) := s.main.draw
  ({ s with main := m } : State).onTap (fun t => { t with ir := 0x02, dr := BitVec.ofNat 32 v, pins := false })
/-- TAP_EXTEST (R527). -/
def execTapExtest (s : State) : Outcome := s.onTap (fun t => t.takePins 0x00)
/-- TAP_CLAMP (R527). -/
def execTapClamp (s : State) : Outcome := s.onTap (fun t => t.takePins 0x04)
/-- TAP_HIGHZ (R527). -/
def execTapHighz (s : State) : Outcome := s.onTap (fun t => t.takePins 0x05)
/-- TRST (R527): the port is locked and its instruction is IDCODE, as IEEE 1149.1 has it after a reset. -/
def execTrst (s : State) : Outcome :=
  s.onTap (fun t => { t with ir := 0x01, dr := 0x10C90A9D, opened := false, pins := false })

end Sys2Proof.Machine
end

