-- ==== Sys2Proof/Machine/Spdm.lean ====
section
/-! DEFINITION. SPDM over DOE and MCTP, MCTP control and PLDM (R407, R408, R487, R507-R509, R525). The layouts of the messages
are those of DSP0236, DSP0240, DSP0248 and DSP0274 (assumption log 13). -/

namespace Sys2Proof.Machine

/-! ### SPDM (R507) -/

/-- The place of a requester among the three. -/
def SpdmIdx : SpdmPort → Nat
  | .doe p => p
  | .mctp _ => 2

/-- A message given to a requester: as the SPDM data object of DOE, or as MCTP message type 0x05. -/
def Main.spdmSend (m : Main) (p : SpdmPort) (bytes : List Byte) : Main :=
  match p with
  | .doe port => m.doeSend port 1 bytes
  | .mctp f => m.mctpSend f.eid f.tag false (0x05 :: bytes)

/-- How far a requester has negotiated. -/
def Main.spdmAt (m : Main) (p : SpdmPort) : SpdmSt := nth m.sec.spdm (SpdmIdx p) .start

def Main.spdmSet (m : Main) (p : SpdmPort) (x : SpdmSt) : Main :=
  { m with sec := { m.sec with spdm := m.sec.spdm.set (SpdmIdx p) x } }

/-- An ERROR response. -/
def spdmError (code : Nat) : List Byte := [0x13, 0x7F] ++ toBytes 1 code ++ [0x00]

/-- Whether an MCTP message reaches the module: at the SMBus address 0x62, the only one it answers, without ARP; or as a PCIe VDM (R407,
R532). -/
def mctpHere (f : MctpFrom) : Bool := match f.smbus with | some a => a == 0x62 | none => true

/-- Whether a request reaches the module. -/
def spdmHere : SpdmPort → Bool
  | .doe _ => true
  | .mctp f => mctpHere f

/-- A request: the Seal processor and the requester's path are there; out of its turn it is answered UnexpectedRequest; one sent to
another SMBus address finds nothing. -/
def Main.spdm (p : SpdmPort) (turn : SpdmSt → Bool) (go : Main → Main) (m : Main) : Out :=
  let path := match p with | .doe port => m.fnReach ⟨port, 0⟩ | .mctp _ => m.standby
  if !spdmHere p then .next m
  else if !path || !m.procUp 5 then .refused (.notReady "the Seal processor")
  else if !turn (m.spdmAt p) then .next (m.spdmSend p (spdmError 4))
  else .next (go m)

/-- The certificate chain of slot 0: its length, the digest of the root certificate, then the root, the intermediate and the device
certificate, whose key is the identity key and whose subject the part and serial number (R493). -/
def certChain : List Byte :=
  let certs := Config.rootCert ++ Config.middleCert ++ Config.deviceCert (keyBytes (publicKey identityKey)) partNumber serialBytes
  toBytes 2 (52 + certs.length) ++ toBytes 2 0 ++ sha384 Config.rootCert ++ certs

/-- The digest of the certificate chain. -/
def chainHash : List Byte := sha384 certChain

/-- n bytes that nothing states. -/
def Main.openBytes (m : Main) (n : Nat) : List Byte × Main :=
  let (l, m1) := m.drawList n
  (l.map (BitVec.ofNat 8), m1)

/-- VERSION: 1.3 only. -/
def Main.spdmVersion (p : SpdmPort) (m : Main) : Main :=
  (m.spdmSet p .version).spdmSend p [0x10, 0x04, 0, 0, 0, 1, 0x00, 0x13]

/-- CAPABILITIES: CERT_CAP, CHAL_CAP and MEAS_CAP with signature; its times and sizes are open. -/
def Main.spdmCaps (p : SpdmPort) (m : Main) : Main :=
  let (x, m1) := m.openBytes 9
  (m1.spdmSet p .caps).spdmSend p ([0x13, 0x61, 0, 0, 0] ++ x.take 1 ++ [0, 0] ++ toBytes 4 0x16 ++ x.drop 1)

/-- ALGORITHMS: what the requester offers of ECDSA P-384 and SHA-384. -/
def Main.spdmAlgs (p : SpdmPort) (a : SpdmAlgs) (m : Main) : Main :=
  (m.spdmSet p .algs).spdmSend p ([0x13, 0x63, 0, 0] ++ toBytes 2 36 ++ [1, 0] ++ toBytes 4 (if a.sha384 then 4 else 0) ++
    toBytes 4 (if a.p384 then 0x80 else 0) ++ toBytes 4 (if a.sha384 then 2 else 0) ++ toBytes 16 0)

/-- DIGESTS: slot 0 alone holds a chain (R493). -/
def Main.spdmDigests (p : SpdmPort) (m : Main) : Main := m.spdmSend p ([0x13, 0x01, 1, 1] ++ chainHash)

/-- CERTIFICATE: a part of the chain. -/
def Main.spdmCert (p : SpdmPort) (slot off len : Nat) (m : Main) : Main :=
  let chain := certChain
  if slot ≠ 0 ∨ chain.length ≤ off then m.spdmSend p (spdmError 1)
  else
    let part := (chain.drop off).take len
    m.spdmSend p ([0x13, 0x02, 0, 0] ++ toBytes 2 part.length ++ toBytes 2 (chain.length - off - part.length) ++ part)

/-- A message with its signature. -/
def signed_ (l : List Byte) (seen : List Byte) : List Byte := l ++ signIdentity (seen ++ l)

/-- CHALLENGE_AUTH: the responder's nonce and the requester's context are open. -/
def Main.spdmChallenge (p : SpdmPort) (slot : Nat) (nonce : List Byte) (m : Main) : Main :=
  if slot ≠ 0 then m.spdmSend p (spdmError 1)
  else
    let (x, m1) := m.openBytes 40
    m1.spdmSend p (signed_ ([0x13, 0x03, 0, 1] ++ chainHash ++ x.take 32 ++ toBytes 2 0 ++ x.drop 32) nonce)

/-- MEASUREMENTS: index 0 asks for their number, 0xFF for all (R508). -/
def Main.spdmMeasure (p : SpdmPort) (index : Nat) (raw sign : Bool) (nonce : List Byte) (m : Main) : Main :=
  let which := if index = 0 then some [] else if index = 0xFF then some (rangeFrom 1 10)
    else if index ≤ 10 then some [index] else none
  match which with
  | none => m.spdmSend p (spdmError 1)
  | some l =>
    let (x, m1) := m.openBytes 40
    let layout := m.layout (fun _ => true) true
    let msg := measurements (if index = 0 then 10 else 0) (l.map (m.block layout raw)) (x.take 32) (x.drop 32)
    m1.spdmSend p (if sign then signed_ msg nonce else msg)

/-- SPDM_GET_VERSION (R507). -/
def execSpdmGetVersion (p : SpdmPort) (s : State) : Outcome := onMain (Main.spdm p (fun _ => true) (Main.spdmVersion p)) s
/-- SPDM_GET_CAPABILITIES (R507). -/
def execSpdmGetCapabilities (p : SpdmPort) (s : State) : Outcome :=
  onMain (Main.spdm p (· == .version) (Main.spdmCaps p)) s
/-- SPDM_NEGOTIATE_ALGORITHMS (R507). -/
def execSpdmNegotiateAlgorithms (p : SpdmPort) (algs : SpdmAlgs) (s : State) : Outcome :=
  onMain (Main.spdm p (· == .caps) (Main.spdmAlgs p algs)) s
/-- SPDM_GET_DIGESTS (R493, R507). -/
def execSpdmGetDigests (p : SpdmPort) (s : State) : Outcome := onMain (Main.spdm p (· == .algs) (Main.spdmDigests p)) s
/-- SPDM_GET_CERTIFICATE (R493, R507). -/
def execSpdmGetCertificate (p : SpdmPort) (slot off len : Nat) (s : State) : Outcome :=
  onMain (Main.spdm p (· == .algs) (Main.spdmCert p slot off len)) s
/-- SPDM_CHALLENGE (R507). -/
def execSpdmChallenge (p : SpdmPort) (slot : Nat) (nonce : List Byte) (s : State) : Outcome :=
  onMain (Main.spdm p (· == .algs) (Main.spdmChallenge p slot nonce)) s
/-- SPDM_GET_MEASUREMENTS (R507-R509). -/
def execSpdmGetMeasurements (p : SpdmPort) (index : Nat) (raw sign : Bool) (nonce : List Byte) (s : State) : Outcome :=
  onMain (Main.spdm p (· == .algs) (Main.spdmMeasure p index raw sign nonce)) s

/-! ### MCTP control (R407) -/

/-- The answer to a control message. -/
def Main.mctp (f : MctpFrom) (req : MctpReq) (m : Main) : Main :=
  let say (m : Main) (body : List Byte) : Main := m.mctpSend f.eid f.tag false ([0x00] ++ toBytes 1 (f.inst % 32) ++ body)
  match req with
  | .setEid eid => say { m with bmcEid := eid } ([0x01, 0x00, 0x00] ++ toBytes 1 eid ++ [0x00])
  | .getVersion _ =>
    let (x, m1) := m.openBytes 4
    say m1 ([0x04, 0x00, 0x01] ++ x)
  | .getTypes => say m [0x05, 0x00, 0x03, 0x01, 0x05, 0x7E]
  | .other code => say m (toBytes 1 code ++ [0x05])

/-- MCTP_CONTROL (R407, R532). -/
def execMctpControl (msg : MctpMsg MctpReq) (s : State) : Outcome :=
  if !mctpHere msg.from_ then .next s
  else if s.main.core3Up then .next { s with main := s.main.mctp msg.from_ msg.body } else .refused (.notReady "the endpoint")

/-! ### PLDM (R408, R525) -/

/-- PLDM is served by Elbor core 3 below SAFETY and RECOVERY commands. -/
def State.pldm (f : MctpFrom) (go : State → State) (s : State) : Outcome :=
  let m := s.main
  let waits := (m.elbor.boxes.filter (fun b => m.served b.mb)).any (fun b => b.waiting.any (fun c => !c.onCores && c.cls.isSome))
  if !mctpHere f then .next s
  else if !m.core3Up || m.elbor.paused.isSome || waits then .refused (.notReady "Elbor core 3") else .next (go s)

/-- A PLDM response: the instance of its request, type, command, then the completion code and the data. -/
def State.pldmSay (s : State) (f : MctpFrom) (type cmd : Nat) (body : List Byte) : State :=
  let msg := [0x01] ++ toBytes 1 (f.inst % 32) ++ toBytes 1 type ++ toBytes 1 cmd ++ body
  { s with main := s.main.mctpSend f.eid f.tag false msg }

/-- Type 0: SetTID, GetTID, GetPLDMVersion, GetPLDMTypes, GetPLDMCommands. -/
def State.pldmBase (f : MctpFrom) (req : List Byte) (s : State) : State :=
  let cmd := fieldAt req 2 1
  let open_ (n : Nat) (cc : List Byte) : State :=
    let (x, m) := s.main.openBytes n
    ({ s with main := m } : State).pldmSay f 0 cmd (cc ++ x)
  if cmd = 1 then ({ s with main := { s.main with bmcTid := fieldAt req 3 1 } } : State).pldmSay f 0 1 [0]
  else if cmd = 2 then s.pldmSay f 0 2 ([0] ++ toBytes 1 s.main.bmcTid)
  else if cmd = 3 then open_ 13 [0]
  else if cmd = 4 then s.pldmSay f 0 4 ([0] ++ toBytes 8 0x25)
  else if cmd = 5 then open_ 32 [0]
  else s.pldmSay f 0 cmd [5]

/-- The state that sensor 20 reports. -/
def Main.stateNum (m : Main) : Nat := if m.running then 1 else if m.banked then 2 else 0

/-- What a sensor reads; the coolant's and the stacks' temperatures are open (R525). -/
def State.sensor (s : State) (id fresh : Nat) : Option Nat :=
  if id = 1 then some (s.power.inputMv / 10) else if id = 2 then some s.power.mean else if id = 3 then some s.power.hottest
  else if 4 ≤ id ∧ id ≤ 17 then some (fresh % 2 ^ 16) else if id = 18 then some s.power.cap else if id = 19 then some s.power.loc
  else if id = 20 then some s.main.stateNum else none

/-- Type 2: a sensor read, the event receiver, and anything else. -/
def State.pldmPlatform (f : MctpFrom) (req : PldmReq) (s : State) : State :=
  match req with
  | .receiver on => ({ s with main := { s.main with bmcReceiver := on } } : State).pldmSay f 2 4 [0]
  | .other code => s.pldmSay f 2 code [5]
  | .sensor id =>
    let (v, m) := s.main.draw
    match s.sensor id v with
    | some x => ({ s with main := m } : State).pldmSay f 2 0x11 ([0, 4, 0, 0, 0, 0, 0] ++ toBytes 4 x)
    | none => s.pldmSay f 2 0x11 [0x80]

/-- Type 5: an image is staged, or refused; a component is activated under the rules of FW_ACTIVATE, and what it comes to is answered as it
begins (R487). -/
def State.pldmUpdate (f : MctpFrom) (req : PldmFw) (img : List Byte) (s : State) : State :=
  let m := s.main
  match req with
  | .stage comp version =>
    if 6 ≤ comp ∨ m.switches comp = true then s.pldmSay f 5 0x18 [1]
    else if !m.imageOk comp img || Config.imageVersion img % 2 ^ 32 != version.toNat then
      ({ s with main := m.postSecurity 9 0 .ok comp } : State).pldmSay f 5 0x18 [1]
    else ({ s with main := m.modFw comp (fun x => x.stage img) } : State).pldmSay f 5 0x18 [0]
  | .activate comp =>
    if 6 ≤ comp then s.pldmSay f 5 0x1A [1]
    else
      match s.activate comp with
      | .busy => s.pldmSay f 5 0x1A [4]
      | .after => s.pldmSay f 5 0x1A [4]
      | .none => s.pldmSay f 5 0x1A [1]
      | .deferred s1 => s1.pldmSay f 5 0x1A [0, 0, 0]
      | .begun s1 => s1.pldmSay f 5 0x1A [0, 0, 0]

/-- PLDM_BASE (R408). -/
def execPldmBase (msg : MctpMsg (List Byte)) (s : State) : Outcome := State.pldm msg.from_ (State.pldmBase msg.from_ msg.body) s
/-- PLDM_PLATFORM (R408, R433, R525). -/
def execPldmPlatform (msg : MctpMsg PldmReq) (s : State) : Outcome := State.pldm msg.from_ (State.pldmPlatform msg.from_ msg.body) s
/-- PLDM_FIRMWARE_UPDATE (R408, R487). -/
def execPldmFirmwareUpdate (from_ : MctpFrom) (req : PldmFw) (image : List Byte) (s : State) : Outcome :=
  State.pldm from_ (State.pldmUpdate from_ req image) s

/-! ### Snapshots (R417) -/

/-- What a QUERY answers. -/
def queryAns (i : EcsIn) (s : State) : Option Reply :=
  let direct (a : Ans) : Option Reply := match a with | .done r _ => some r | _ => none
  let op := i.cmd.op
  if op = 0x000 then some (identifyReply i s) else if op = 0x001 then some (statusReply i s)
  else if op = 0x002 then some (telemetryReply i s) else if op = 0x003 then some (fabricReply i s)
  else if op = 0x005 then some (getParamReply i s) else if op = 0x105 then some (spanQueryReply i s)
  else if op = 0x106 then some (spanListReply i s) else if op = 0x202 then direct (ctxQuery i s)
  else if op = 0x212 then direct (queueQuery i s) else if op = 0x224 then direct (fenceQuery i s)
  else if op = 0x302 then some (extQueryReply i s) else if op = 0x403 then some (powerReply i s).1
  else if op = 0x506 then some (debugReply i s) else if op = 0x600 then some (secReply i s)
  else if op = 0x702 then some (fwReply i s) else if op = 0x803 then some (drillReply i s) else none

/-- The snapshot that answers now: the one held while it is at most 100 ms old, else a new one (R417). -/
def State.snapNow (s : State) : Snapshot :=
  match s.snap with
  | some x => if s.main.time ≤ x.main.time + 100000000 then x else { main := s.main, power := s.power }
  | none => { main := s.main, power := s.power }

/-- A QUERY answered from the snapshot: what the object was then, with the snapshot's age in ms. What the query may not see now, or what the
snapshot does not hold, is answered as it is now (DESIGN CHOICE, assumption log 91). -/
def State.staleReply (s : State) (x : Snapshot) (i : EcsIn) (now : Reply) : Reply :=
  if now.status ≠ .ok then now
  else
    match queryAns i { s with main := x.main, power := x.power } with
    | some old =>
      if old.status = .ok then { old with status := .stale, aux := (s.main.time - x.main.time) / 1000000 }
      else { now with status := .stale }
    | none => { now with status := .stale }

/-- A QUERY that met saturation, or has waited 100 ms, answered from a snapshot. -/
def State.staleSnapshot (mb : Mbx) (seq : BitVec 32) (outOk : Bool) (s0 : State) : Outcome :=
  match (s0.main.boxOf mb).bind (fun b => b.waiting.find? (fun c => c.seq == seq.toNat && c.cls == some .query)) with
  | none => .refused (.noSubject "a query that waits")
  | some c =>
    let s1 : State := if c.stale then s0 else { s0 with main := s0.main.until (c.since + 100000000) }
    if !s1.main.snapshotDue c || !s1.main.served mb || !s1.main.coresUp c then .refused (.notReady "a snapshot")
    else
      let s : State := { s1 with snap := some s1.snapNow }
      let i : EcsIn := { mb := mb, cmd := c, input := some [] }
      match s.begin_ i (fun i s => match queryAns i s with | some r => .done (s.staleReply s.snapNow i r) s | none => .again) with
      | .done r s2 => .next (s.answer i outOk r s2)
      | _ => .refused (.notReady "another command on the object")

/-- STALE_SNAPSHOT (R417). -/
def execStaleSnapshot (mb : Mbx) (seq : BitVec 32) (outOk : Bool) (s : State) : Outcome := State.staleSnapshot mb seq outOk s

end Sys2Proof.Machine
end

