-- ==== Sys2Proof/Machine/Dispatch.lean ====
section
/-! DEFINITION. One arm per command: a direct call of its meaning. -/

namespace Sys2Proof.Machine

def exec (i : Instr) (s : State) : Host.Outcome State Fault Refusal :=
  match i with
  | .iadd b f => Sys2Proof.Machine.execIadd b f s
  | .isub b f => Sys2Proof.Machine.execIsub b f s
  | .imul b f => Sys2Proof.Machine.execImul b f s
  | .imulhs b f => Sys2Proof.Machine.execImulhs b f s
  | .imulhu b f => Sys2Proof.Machine.execImulhu b f s
  | .imac b f => Sys2Proof.Machine.execImac b f s
  | .andv b f => Sys2Proof.Machine.execAnd b f s
  | .orv b f => Sys2Proof.Machine.execOr b f s
  | .xorv b f => Sys2Proof.Machine.execXor b f s
  | .shl b f => Sys2Proof.Machine.execShl b f s
  | .shr b f => Sys2Proof.Machine.execShr b f s
  | .sar b f => Sys2Proof.Machine.execSar b f s
  | .imins b f => Sys2Proof.Machine.execImins b f s
  | .imaxs b f => Sys2Proof.Machine.execImaxs b f s
  | .iminu b f => Sys2Proof.Machine.execIminu b f s
  | .imaxu b f => Sys2Proof.Machine.execImaxu b f s
  | .icmp b f => Sys2Proof.Machine.execIcmp b f s
  | .pick b f => Sys2Proof.Machine.execPick b f s
  | .bitcnt b f => Sys2Proof.Machine.execBitcnt b f s
  | .clz b f => Sys2Proof.Machine.execClz b f s
  | .movv b f => Sys2Proof.Machine.execMov b f s
  | .xlane b f => Sys2Proof.Machine.execXlane b f s
  | .fadd b f => Sys2Proof.Machine.execFadd b f s
  | .fsub b f => Sys2Proof.Machine.execFsub b f s
  | .fmul b f => Sys2Proof.Machine.execFmul b f s
  | .fmac b f => Sys2Proof.Machine.execFmac b f s
  | .fdiv b f => Sys2Proof.Machine.execFdiv b f s
  | .fsqrt b f => Sys2Proof.Machine.execFsqrt b f s
  | .fmin b f => Sys2Proof.Machine.execFmin b f s
  | .fmax b f => Sys2Proof.Machine.execFmax b f s
  | .fcmp b f => Sys2Proof.Machine.execFcmp b f s
  | .fpow2 b f => Sys2Proof.Machine.execFpow2 b f s
  | .flog2 b f => Sys2Proof.Machine.execFlog2 b f s
  | .cvt b f => Sys2Proof.Machine.execCvt b f s
  | .i2f b f => Sys2Proof.Machine.execI2f b f s
  | .f2i b f => Sys2Proof.Machine.execF2i b f s
  | .pand b f => Sys2Proof.Machine.execPand b f s
  | .por b f => Sys2Proof.Machine.execPor b f s
  | .pxor b f => Sys2Proof.Machine.execPxor b f s
  | .pnot b f => Sys2Proof.Machine.execPnot b f s
  | .pset b f => Sys2Proof.Machine.execPset b f s
  | .uadd b f => Sys2Proof.Machine.execUadd b f s
  | .usub b f => Sys2Proof.Machine.execUsub b f s
  | .umul b f => Sys2Proof.Machine.execUmul b f s
  | .uand b f => Sys2Proof.Machine.execUand b f s
  | .uor b f => Sys2Proof.Machine.execUor b f s
  | .uxor b f => Sys2Proof.Machine.execUxor b f s
  | .ushl b f => Sys2Proof.Machine.execUshl b f s
  | .ushr b f => Sys2Proof.Machine.execUshr b f s
  | .usar b f => Sys2Proof.Machine.execUsar b f s
  | .umov b f => Sys2Proof.Machine.execUmov b f s
  | .uldi b f => Sys2Proof.Machine.execUldi b f s
  | .uldhi b f => Sys2Proof.Machine.execUldhi b f s
  | .ucmp b f => Sys2Proof.Machine.execUcmp b f s
  | .uaddi b f => Sys2Proof.Machine.execUaddi b f s
  | .ulane b f => Sys2Proof.Machine.execUlane b f s
  | .uvote b f => Sys2Proof.Machine.execUvote b f s
  | .bra b f => Sys2Proof.Machine.execBra b f s
  | .bru b f => Sys2Proof.Machine.execBru b f s
  | .call b f => Sys2Proof.Machine.execCall b f s
  | .ret b f => Sys2Proof.Machine.execRet b f s
  | .ifd b f => Sys2Proof.Machine.execIf b f s
  | .elsed b f => Sys2Proof.Machine.execElse b f s
  | .endif b f => Sys2Proof.Machine.execEndif b f s
  | .loop b f => Sys2Proof.Machine.execLoop b f s
  | .brk b f => Sys2Proof.Machine.execBrk b f s
  | .endloop b f => Sys2Proof.Machine.execEndloop b f s
  | .exit b f => Sys2Proof.Machine.execExit b f s
  | .csld b f => Sys2Proof.Machine.execCsld b f s
  | .csst b f => Sys2Proof.Machine.execCsst b f s
  | .ld b f => Sys2Proof.Machine.execLd b f s
  | .st b f => Sys2Proof.Machine.execSt b f s
  | .pref b f => Sys2Proof.Machine.execPref b f s
  | .atomicAdd b f => Sys2Proof.Machine.execAtomicAdd b f s
  | .atomicSmin b f => Sys2Proof.Machine.execAtomicSmin b f s
  | .atomicSmax b f => Sys2Proof.Machine.execAtomicSmax b f s
  | .atomicUmin b f => Sys2Proof.Machine.execAtomicUmin b f s
  | .atomicUmax b f => Sys2Proof.Machine.execAtomicUmax b f s
  | .atomicAnd b f => Sys2Proof.Machine.execAtomicAnd b f s
  | .atomicOr b f => Sys2Proof.Machine.execAtomicOr b f s
  | .atomicXor b f => Sys2Proof.Machine.execAtomicXor b f s
  | .atomicExch b f => Sys2Proof.Machine.execAtomicExch b f s
  | .atomicCas b f => Sys2Proof.Machine.execAtomicCas b f s
  | .atomicFadd b f => Sys2Proof.Machine.execAtomicFadd b f s
  | .rld b f => Sys2Proof.Machine.execRld b f s
  | .rst b f => Sys2Proof.Machine.execRst b f s
  | .ratomAdd b f => Sys2Proof.Machine.execRatomAdd b f s
  | .ratomSmin b f => Sys2Proof.Machine.execRatomSmin b f s
  | .ratomSmax b f => Sys2Proof.Machine.execRatomSmax b f s
  | .ratomUmin b f => Sys2Proof.Machine.execRatomUmin b f s
  | .ratomUmax b f => Sys2Proof.Machine.execRatomUmax b f s
  | .ratomAnd b f => Sys2Proof.Machine.execRatomAnd b f s
  | .ratomOr b f => Sys2Proof.Machine.execRatomOr b f s
  | .ratomXor b f => Sys2Proof.Machine.execRatomXor b f s
  | .ratomExch b f => Sys2Proof.Machine.execRatomExch b f s
  | .ratomCas b f => Sys2Proof.Machine.execRatomCas b f s
  | .ratomFadd b f => Sys2Proof.Machine.execRatomFadd b f s
  | .barb b f => Sys2Proof.Machine.execBarb b f s
  | .barc b f => Sys2Proof.Machine.execBarc b f s
  | .fence b f => Sys2Proof.Machine.execFence b f s
  | .lcwait b f => Sys2Proof.Machine.execLcwait b f s
  | .lcwaitSatisfied b => Sys2Proof.Machine.execLcwaitSatisfied b s
  | .lcwaitTimeout b => Sys2Proof.Machine.execLcwaitTimeout b s
  | .fwait b f => Sys2Proof.Machine.execFwait b f s
  | .tdset b f => Sys2Proof.Machine.execTdset b f s
  | .tdget b f => Sys2Proof.Machine.execTdget b f s
  | .tload b f => Sys2Proof.Machine.execTload b f s
  | .tstore b f => Sys2Proof.Machine.execTstore b f s
  | .tileTransferComplete b n => Sys2Proof.Machine.execTileTransferComplete b n s
  | .tmma b f => Sys2Proof.Machine.execTmma b f s
  | .tmmaBankFree b => Sys2Proof.Machine.execTmmaBankFree b s
  | .tmmaComplete b chain => Sys2Proof.Machine.execTmmaComplete b chain s
  | .treduce b f => Sys2Proof.Machine.execTreduce b f s
  | .tconv b f => Sys2Proof.Machine.execTconv b f s
  | .tfill b f => Sys2Proof.Machine.execTfill b f s
  | .gissue b f => Sys2Proof.Machine.execGissue b f s
  | .sissue b f => Sys2Proof.Machine.execSissue b f s
  | .engineQueueSpace b => Sys2Proof.Machine.execEngineQueueSpace b s
  | .nop b f => Sys2Proof.Machine.execNop b f s
  | .srd b f => Sys2Proof.Machine.execSrd b f s
  | .flagrd b f => Sys2Proof.Machine.execFlagrd b f s
  | .flagclr b f => Sys2Proof.Machine.execFlagclr b f s
  | .trap b f => Sys2Proof.Machine.execTrap b f s
  | .bkpt b f => Sys2Proof.Machine.execBkpt b f s
  | .doorbellWrite fn page off bytes => Sys2Proof.Machine.execDoorbellWrite fn page off bytes s
  | .launch q pkt => Sys2Proof.Machine.execLaunch q pkt s
  | .dma q pkt engine => Sys2Proof.Machine.execDma q pkt engine s
  | .collective q pkt => Sys2Proof.Machine.execCollective q pkt s
  | .fenceSignalPacket q pkt => Sys2Proof.Machine.execFenceSignalPacket q pkt s
  | .fenceWaitPacket q pkt => Sys2Proof.Machine.execFenceWaitPacket q pkt s
  | .counterWait q pkt => Sys2Proof.Machine.execCounterWait q pkt s
  | .barrier q pkt => Sys2Proof.Machine.execBarrier q pkt s
  | .hint q pkt => Sys2Proof.Machine.execHint q pkt s
  | .marker q pkt => Sys2Proof.Machine.execMarker q pkt s
  | .workGroupAdmit launch place => Sys2Proof.Machine.execWorkGroupAdmit launch place s
  | .preempt wg => Sys2Proof.Machine.execPreempt wg s
  | .saveRecordWritten wg => Sys2Proof.Machine.execSaveRecordWritten wg s
  | .launchComplete launch => Sys2Proof.Machine.execLaunchComplete launch s
  | .dmaComplete q pidx => Sys2Proof.Machine.execDmaComplete q pidx s
  | .collectiveComplete q pidx => Sys2Proof.Machine.execCollectiveComplete q pidx s
  | .gatherDescriptor engine => Sys2Proof.Machine.execGatherDescriptor engine s
  | .samplerDescriptor engine => Sys2Proof.Machine.execSamplerDescriptor engine s
  | .streamDescriptor engine => Sys2Proof.Machine.execStreamDescriptor engine s
  | .descriptorEnd engine => Sys2Proof.Machine.execDescriptorEnd engine s
  | .rd g => Sys2Proof.Machine.execRd g s
  | .bulkrd g => Sys2Proof.Machine.execBulkrd g s
  | .atom g => Sys2Proof.Machine.execAtom g s
  | .wr g => Sys2Proof.Machine.execWr g s
  | .bulkwr g => Sys2Proof.Machine.execBulkwr g s
  | .rdata g => Sys2Proof.Machine.execRdata g s
  | .adata g => Sys2Proof.Machine.execAdata g s
  | .wack g => Sys2Proof.Machine.execWack g s
  | .moveMsg g => Sys2Proof.Machine.execMove g s
  | .errMsg g => Sys2Proof.Machine.execErr g s
  | .bdata g => Sys2Proof.Machine.execBdata g s
  | .cdata g => Sys2Proof.Machine.execCdata g s
  | .cfail g => Sys2Proof.Machine.execCfail g s
  | .sagNotice sender detected recovered => Sys2Proof.Machine.execSagNotice sender detected recovered s
  | .paceToken sender tk limit => Sys2Proof.Machine.execPaceToken sender tk limit s
  | .abort span slot => Sys2Proof.Machine.execAbort span slot s
  | .remoteFenceSignal sig => Sys2Proof.Machine.execRemoteFenceSignal sig s
  | .pierReceipt module slot => Sys2Proof.Machine.execPierReceipt module slot s
  | .bankingNotice module => Sys2Proof.Machine.execBankingNotice module s
  | .spareRequest ask => Sys2Proof.Machine.execSpareRequest ask s
  | .identityExchange lane tx rx roundTrip => Sys2Proof.Machine.execIdentityExchange lane tx rx roundTrip s
  | .timeExchange neighbour offset inBound => Sys2Proof.Machine.execTimeExchange neighbour offset inBound s
  | .dataFlit lane phys fl => Sys2Proof.Machine.execDataFlit lane phys fl s
  | .nak lane hdr => Sys2Proof.Machine.execNak lane hdr s
  | .credit lane hdr => Sys2Proof.Machine.execCredit lane hdr s
  | .idle lane hdr crcGood => Sys2Proof.Machine.execIdle lane hdr crcGood s
  | .laneAckTimeout lane => Sys2Proof.Machine.execLaneAckTimeout lane s
  | .laneSignalLoss lane => Sys2Proof.Machine.execLaneSignalLoss lane s
  | .berWindow lane ber => Sys2Proof.Machine.execBerWindow lane ber s
  | .hitlessSpare lane => Sys2Proof.Machine.execHitlessSpare lane s
  | .spareTrained lane named => Sys2Proof.Machine.execSpareTrained lane named s
  | .laneRetrain engine => Sys2Proof.Machine.execLaneRetrain engine s
  | .connectorLatchOpen engine => Sys2Proof.Machine.execConnectorLatchOpen engine s
  | .connectorLatchClose engine => Sys2Proof.Machine.execConnectorLatchClose engine s
  | .laserRelight engine => Sys2Proof.Machine.execLaserRelight engine s
  | .laserSourceFailure engine => Sys2Proof.Machine.execLaserSourceFailure engine s
  | .laserTakeoverDone engine => Sys2Proof.Machine.execLaserTakeoverDone engine s
  | .holdover => Sys2Proof.Machine.execHoldover s
  | .ftimeSync offset spaced => Sys2Proof.Machine.execFtimeSync offset spaced s
  | .ftimeSyncLoss => Sys2Proof.Machine.execFtimeSyncLoss s
  | .requestTimerExpiry bank entry => Sys2Proof.Machine.execRequestTimerExpiry bank entry s
  | .trackerEntryFree => Sys2Proof.Machine.execTrackerEntryFree s
  | .collectiveTimerExpiry span collId => Sys2Proof.Machine.execCollectiveTimerExpiry span collId s
  | .readShared agent line ecc ctx => Sys2Proof.Machine.execReadShared agent line ecc ctx s
  | .rdx agent line ecc => Sys2Proof.Machine.execRdx agent line ecc s
  | .dirtyNotice agent line => Sys2Proof.Machine.execDirtyNotice agent line s
  | .writeBack agent line => Sys2Proof.Machine.execWriteBack agent line s
  | .evictionNotice agent line => Sys2Proof.Machine.execEvictionNotice agent line s
  | .uncachedRead line ecc => Sys2Proof.Machine.execUncachedRead line ecc s
  | .iwf line bytes => Sys2Proof.Machine.execIwf line bytes s
  | .iwp line off bytes => Sys2Proof.Machine.execIwp line off bytes s
  | .homeAtomic lpa op size x new => Sys2Proof.Machine.execHomeAtomic lpa op size x new s
  | .invalidation agent line => Sys2Proof.Machine.execInvalidation agent line s
  | .forward line kind => Sys2Proof.Machine.execForward line kind s
  | .rangeRecall channel first count => Sys2Proof.Machine.execRangeRecall channel first count s
  | .rangeRecallComplete channel first count => Sys2Proof.Machine.execRangeRecallComplete channel first count s
  | .agentDeath agent => Sys2Proof.Machine.execAgentDeath agent s
  | .reclaimComplete => Sys2Proof.Machine.execReclaimComplete s
  | .directoryEntryError home line corrected => Sys2Proof.Machine.execDirectoryEntryError home line corrected s
  | .patrolScrub channel found => Sys2Proof.Machine.execPatrolScrub channel found s
  | .zeroingComplete z => Sys2Proof.Machine.execZeroingComplete z s
  | .retirementRequired channel => Sys2Proof.Machine.execRetirementRequired channel s
  | .evacuationCopyDone channel found => Sys2Proof.Machine.execEvacuationCopyDone channel found s
  | .channelMapSwap channel => Sys2Proof.Machine.execChannelMapSwap channel s
  | .channelFailure channel => Sys2Proof.Machine.execChannelFailure channel s
  | .windowRead fn off len atomic => Sys2Proof.Machine.execWindowRead fn off len atomic s
  | .windowWrite fn off bytes poisoned => Sys2Proof.Machine.execWindowWrite fn off bytes poisoned s
  | .atsInvalidationRequest inv => Sys2Proof.Machine.execAtsInvalidationRequest inv s
  | .invalidationCompletion port itag => Sys2Proof.Machine.execInvalidationCompletion port itag s
  | .invalidationAckTimeout engine => Sys2Proof.Machine.execInvalidationAckTimeout engine s
  | .translationCompletion x tc => Sys2Proof.Machine.execTranslationCompletion x tc s
  | .prgResponse x code => Sys2Proof.Machine.execPrgResponse x code s
  | .faultTimeout x => Sys2Proof.Machine.execFaultTimeout x s
  | .hostReadCompletion q pidx off rc => Sys2Proof.Machine.execHostReadCompletion q pidx off rc s
  | .completionTimeout x read off => Sys2Proof.Machine.execCompletionTimeout x read off s
  | .flr fn => Sys2Proof.Machine.execFlr fn s
  | .perst port => Sys2Proof.Machine.execPerst port s
  | .bar2Resize fn size => Sys2Proof.Machine.execBar2Resize fn size s
  | .mbCtlEnSet fn => Sys2Proof.Machine.execMbCtlEnSet fn s
  | .mbCtlEnClear fn => Sys2Proof.Machine.execMbCtlEnClear fn s
  | .mbPidx fn w => Sys2Proof.Machine.execMbPidx fn w s
  | .mbErrClear fn w => Sys2Proof.Machine.execMbErrClear fn w s
  | .mailboxSlotRead fn slot ok => Sys2Proof.Machine.execMailboxSlotRead fn slot ok s
  | .mailboxResponse mb ok => Sys2Proof.Machine.execMailboxResponse mb ok s
  | .registerWrite blk off size value => Sys2Proof.Machine.execRegisterWrite blk off size value s
  | .mctpControl msg => Sys2Proof.Machine.execMctpControl msg s
  | .pldmBase msg => Sys2Proof.Machine.execPldmBase msg s
  | .pldmPlatform msg => Sys2Proof.Machine.execPldmPlatform msg s
  | .pldmFirmwareUpdate from_ req image => Sys2Proof.Machine.execPldmFirmwareUpdate from_ req image s
  | .identify mb c => Sys2Proof.Machine.execIdentify mb c s
  | .moduleStatus mb c => Sys2Proof.Machine.execModuleStatus mb c s
  | .telemetryRead mb c => Sys2Proof.Machine.execTelemetryRead mb c s
  | .fabricQuery mb c => Sys2Proof.Machine.execFabricQuery mb c s
  | .setParam mb c => Sys2Proof.Machine.execSetParam mb c s
  | .getParam mb c => Sys2Proof.Machine.execGetParam mb c s
  | .fnBind mb c => Sys2Proof.Machine.execFnBind mb c s
  | .spanCreate mb c => Sys2Proof.Machine.execSpanCreate mb c s
  | .spanDestroy mb c => Sys2Proof.Machine.execSpanDestroy mb c s
  | .composePrepare mb c => Sys2Proof.Machine.execComposePrepare mb c s
  | .composeCommit mb c => Sys2Proof.Machine.execComposeCommit mb c s
  | .composeAbort mb c => Sys2Proof.Machine.execComposeAbort mb c s
  | .spanQuery mb c => Sys2Proof.Machine.execSpanQuery mb c s
  | .spanList mb c => Sys2Proof.Machine.execSpanList mb c s
  | .switch span => Sys2Proof.Machine.execSwitch span s
  | .memoryGrainHandover span channel => Sys2Proof.Machine.execMemoryGrainHandover span channel s
  | .close span => Sys2Proof.Machine.execClose span s
  | .leavingRecordFree span => Sys2Proof.Machine.execLeavingRecordFree span s
  | .handoverEscalation span => Sys2Proof.Machine.execHandoverEscalation span s
  | .ctxCreate mb c => Sys2Proof.Machine.execCtxCreate mb c s
  | .ctxDestroy mb c => Sys2Proof.Machine.execCtxDestroy mb c s
  | .ctxQuery mb c => Sys2Proof.Machine.execCtxQuery mb c s
  | .ctxEvict mb c => Sys2Proof.Machine.execCtxEvict mb c s
  | .slotSchedule => Sys2Proof.Machine.execSlotSchedule s
  | .queueCreate mb c => Sys2Proof.Machine.execQueueCreate mb c s
  | .queueDestroy mb c => Sys2Proof.Machine.execQueueDestroy mb c s
  | .queueQuery mb c => Sys2Proof.Machine.execQueueQuery mb c s
  | .fenceCreate mb c => Sys2Proof.Machine.execFenceCreate mb c s
  | .fenceDestroy mb c => Sys2Proof.Machine.execFenceDestroy mb c s
  | .fenceGrant mb c => Sys2Proof.Machine.execFenceGrant mb c s
  | .fenceSignal mb c => Sys2Proof.Machine.execFenceSignal mb c s
  | .fenceQuery mb c => Sys2Proof.Machine.execFenceQuery mb c s
  | .ctxL2part mb c => Sys2Proof.Machine.execCtxL2part mb c s
  | .lcAlloc mb c => Sys2Proof.Machine.execLcAlloc mb c s
  | .lcSet mb c => Sys2Proof.Machine.execLcSet mb c s
  | .lcFree mb c => Sys2Proof.Machine.execLcFree mb c s
  | .extCreate mb c => Sys2Proof.Machine.execExtCreate mb c s
  | .extDestroy mb c => Sys2Proof.Machine.execExtDestroy mb c s
  | .extQuery mb c => Sys2Proof.Machine.execExtQuery mb c s
  | .chRetire mb c => Sys2Proof.Machine.execChRetire mb c s
  | .winMap mb c => Sys2Proof.Machine.execWinMap mb c s
  | .winUnmap mb c => Sys2Proof.Machine.execWinUnmap mb c s
  | .regionRegister mb c => Sys2Proof.Machine.execRegionRegister mb c s
  | .regionRelease mb c => Sys2Proof.Machine.execRegionRelease mb c s
  | .powerCapSet mb c => Sys2Proof.Machine.execPowerCapSet mb c s
  | .powerEmergency mb c => Sys2Proof.Machine.execPowerEmergency mb c s
  | .fixedFreq mb c => Sys2Proof.Machine.execFixedFreq mb c s
  | .powerQuery mb c => Sys2Proof.Machine.execPowerQuery mb c s
  | .laserShutdown mb c => Sys2Proof.Machine.execLaserShutdown mb c s
  | .errRead mb c => Sys2Proof.Machine.execErrRead mb c s
  | .errAck mb c => Sys2Proof.Machine.execErrAck mb c s
  | .saggerReset mb c => Sys2Proof.Machine.execSaggerReset mb c s
  | .deviceReset mb c => Sys2Proof.Machine.execDeviceReset mb c s
  | .coreSpareSwap mb c => Sys2Proof.Machine.execCoreSpareSwap mb c s
  | .enterBanked mb c => Sys2Proof.Machine.execEnterBanked mb c s
  | .debugRead mb c => Sys2Proof.Machine.execDebugRead mb c s
  | .secQuery mb c => Sys2Proof.Machine.execSecQuery mb c s
  | .slotAssign mb c => Sys2Proof.Machine.execSlotAssign mb c s
  | .slotRevoke mb c => Sys2Proof.Machine.execSlotRevoke mb c s
  | .debugUnlock mb c => Sys2Proof.Machine.execDebugUnlock mb c s
  | .fwStage mb c => Sys2Proof.Machine.execFwStage mb c s
  | .fwActivate mb c => Sys2Proof.Machine.execFwActivate mb c s
  | .fwQuery mb c => Sys2Proof.Machine.execFwQuery mb c s
  | .drillArm mb c => Sys2Proof.Machine.execDrillArm mb c s
  | .drillDisarm mb c => Sys2Proof.Machine.execDrillDisarm mb c s
  | .loopbackSet mb c => Sys2Proof.Machine.execLoopbackSet mb c s
  | .drillQuery mb c => Sys2Proof.Machine.execDrillQuery mb c s
  | .spdmGetVersion p => Sys2Proof.Machine.execSpdmGetVersion p s
  | .spdmGetCapabilities p => Sys2Proof.Machine.execSpdmGetCapabilities p s
  | .spdmNegotiateAlgorithms p algs => Sys2Proof.Machine.execSpdmNegotiateAlgorithms p algs s
  | .spdmGetDigests p => Sys2Proof.Machine.execSpdmGetDigests p s
  | .spdmGetCertificate p slot off len => Sys2Proof.Machine.execSpdmGetCertificate p slot off len s
  | .spdmChallenge p slot nonce => Sys2Proof.Machine.execSpdmChallenge p slot nonce s
  | .spdmGetMeasurements p index raw sign nonce => Sys2Proof.Machine.execSpdmGetMeasurements p index raw sign nonce s
  | .egPendSet cpu bank w => Sys2Proof.Machine.execEgPendSet cpu bank w s
  | .egPendClr cpu bank w => Sys2Proof.Machine.execEgPendClr cpu bank w s
  | .egMaskSet cpu bank w => Sys2Proof.Machine.execEgMaskSet cpu bank w s
  | .egMaskClr cpu bank w => Sys2Proof.Machine.execEgMaskClr cpu bank w s
  | .egDone cpu bank w => Sys2Proof.Machine.execEgDone cpu bank w s
  | .egRoute cpu source w => Sys2Proof.Machine.execEgRoute cpu source w s
  | .egMode cpu w => Sys2Proof.Machine.execEgMode cpu w s
  | .sourceAssert source level => Sys2Proof.Machine.execSourceAssert source level s
  | .eqCtlEnSet fn q => Sys2Proof.Machine.execEqCtlEnSet fn q s
  | .eqCtlEnClear fn q => Sys2Proof.Machine.execEqCtlEnClear fn q s
  | .eqHead fn q w => Sys2Proof.Machine.execEqHead fn q w s
  | .eqErrClear fn q w => Sys2Proof.Machine.execEqErrClear fn q w s
  | .sag mv => Sys2Proof.Machine.execSag mv s
  | .sagEnd mv => Sys2Proof.Machine.execSagEnd mv s
  | .surge mv => Sys2Proof.Machine.execSurge mv s
  | .overvoltageSwitchOpen => Sys2Proof.Machine.execOvervoltageSwitchOpen s
  | .undervoltageBank bulk => Sys2Proof.Machine.execUndervoltageBank bulk s
  | .standbyLoss => Sys2Proof.Machine.execStandbyLoss s
  | .standbyPowerApplied => Sys2Proof.Machine.execStandbyPowerApplied s
  | .pwrbrakeAssert => Sys2Proof.Machine.execPwrbrakeAssert s
  | .pwrbrakeRelease => Sys2Proof.Machine.execPwrbrakeRelease s
  | .regulatorAlert rail => Sys2Proof.Machine.execRegulatorAlert rail s
  | .regulatorAlertRelease => Sys2Proof.Machine.execRegulatorAlertRelease s
  | .busWarnAssert => Sys2Proof.Machine.execBusWarnAssert s
  | .busWarnRelease => Sys2Proof.Machine.execBusWarnRelease s
  | .droop cluster recovered => Sys2Proof.Machine.execDroop cluster recovered s
  | .thermalStep hottest => Sys2Proof.Machine.execThermalStep hottest s
  | .thermal105 hottest => Sys2Proof.Machine.execThermal105 hottest s
  | .thermtrip hottest => Sys2Proof.Machine.execThermtrip hottest s
  | .kilnLoop watts mv => Sys2Proof.Machine.execKilnLoop watts mv s
  | .paceRound => Sys2Proof.Machine.execPaceRound s
  | .paceApply => Sys2Proof.Machine.execPaceApply s
  | .hintPhaseStart ctx => Sys2Proof.Machine.execHintPhaseStart ctx s
  | .hintPhaseEnd ctx => Sys2Proof.Machine.execHintPhaseEnd ctx s
  | .energyMeter inputMj shares => Sys2Proof.Machine.execEnergyMeter inputMj shares s
  | .modReset => Sys2Proof.Machine.execModReset s
  | .modResetRelease => Sys2Proof.Machine.execModResetRelease s
  | .thermtripHoldEnd => Sys2Proof.Machine.execThermtripHoldEnd s
  | .coldStart => Sys2Proof.Machine.execColdStart s
  | .warmStart => Sys2Proof.Machine.execWarmStart s
  | .startStepDone rep => Sys2Proof.Machine.execStartStepDone rep s
  | .startStepTimeout => Sys2Proof.Machine.execStartStepTimeout s
  | .coneStall e => Sys2Proof.Machine.execConeStall e s
  | .engineResetDone e flushed bistOk => Sys2Proof.Machine.execEngineResetDone e flushed bistOk s
  | .engineResetEscalation e => Sys2Proof.Machine.execEngineResetEscalation e s
  | .saggerFenceComplete span dead => Sys2Proof.Machine.execSaggerFenceComplete span dead s
  | .saggerReopen span bad => Sys2Proof.Machine.execSaggerReopen span bad s
  | .saggerEscalation span => Sys2Proof.Machine.execSaggerEscalation span s
  | .moduleQuiesce => Sys2Proof.Machine.execModuleQuiesce s
  | .deviceResetEscalation => Sys2Proof.Machine.execDeviceResetEscalation s
  | .elborCore3Stall => Sys2Proof.Machine.execElborCore3Stall s
  | .trackerBankError bank => Sys2Proof.Machine.execTrackerBankError bank s
  | .viaductWireError dir wire => Sys2Proof.Machine.execViaductWireError dir wire s
  | .controlCrossingFailure crossing => Sys2Proof.Machine.execControlCrossingFailure crossing s
  | .banked cause => Sys2Proof.Machine.execBanked cause s
  | .elborServicePauseEnd => Sys2Proof.Machine.execElborServicePauseEnd s
  | .firmwareHeartbeatFail component => Sys2Proof.Machine.execFirmwareHeartbeatFail component s
  | .staleSnapshot mb seq outOk => Sys2Proof.Machine.execStaleSnapshot mb seq outOk s
  | .tapBypass => Sys2Proof.Machine.execTapBypass s
  | .tapIdcode => Sys2Proof.Machine.execTapIdcode s
  | .tapSamplePreload => Sys2Proof.Machine.execTapSamplePreload s
  | .tapExtest => Sys2Proof.Machine.execTapExtest s
  | .tapClamp => Sys2Proof.Machine.execTapClamp s
  | .tapHighz => Sys2Proof.Machine.execTapHighz s
  | .trst => Sys2Proof.Machine.execTrst s
  | .illegalInstruction b word => Sys2Proof.Machine.execIllegalInstruction b word s
  | .reservedPacket q pkt => Sys2Proof.Machine.execReservedPacket q pkt s
  | .reservedCommand mb c => Sys2Proof.Machine.execReservedCommand mb c s
  | .reservedMessage g => Sys2Proof.Machine.execReservedMessage g s
  | .reservedDescriptor engine => Sys2Proof.Machine.execReservedDescriptor engine s
  | .rxPowerAlarm lane microwatts => Sys2Proof.Machine.execRxPowerAlarm lane microwatts s
  | .shortExcursion mv durationUs => Sys2Proof.Machine.execShortExcursion mv durationUs s
  | .surgeEnd => Sys2Proof.Machine.execSurgeEnd s
  | .atomicBufferError home line => Sys2Proof.Machine.execAtomicBufferError home line s
  | .sealProcessorFault => Sys2Proof.Machine.execSealProcessorFault s
  | .spareSwapComplete cluster => Sys2Proof.Machine.execSpareSwapComplete cluster s
  | .swapEscalation cluster => Sys2Proof.Machine.execSwapEscalation cluster s
  | .firmwareActivationDone component => Sys2Proof.Machine.execFirmwareActivationDone component s
  | .perstRelease port => Sys2Proof.Machine.execPerstRelease port s
  | .vfEnableClear port => Sys2Proof.Machine.execVfEnableClear port s
  | .priEnable fn => Sys2Proof.Machine.execPriEnable fn s
  | .msixUnmask fn vector => Sys2Proof.Machine.execMsixUnmask fn vector s
  | .doeDiscovery port index => Sys2Proof.Machine.execDoeDiscovery port index s
  | .fabricMapWrite fm => Sys2Proof.Machine.execFabricMapWrite fm s
  | .ftimeSyncEnable on => Sys2Proof.Machine.execFtimeSyncEnable on s
  | .workGroupBatch mail => Sys2Proof.Machine.execWorkGroupBatch mail s
  | .engineReceiptTimeout engine => Sys2Proof.Machine.execEngineReceiptTimeout engine s
  | .pierReceiptTimeout slot => Sys2Proof.Machine.execPierReceiptTimeout slot s

end Sys2Proof.Machine
end

