-- ==== Sys2Proof/Machine/Tick.lean ====
section
/-! DEFINITION. What passes while no command waits (assumption log 3). -/

namespace Sys2Proof.Machine

/-- The credits a lane owes, returned in an IDLE or CREDIT flit of its transmitter (R250, R257). -/
def Lane.returned (l : Lane) : Lane := { l with owed := List.replicate 8 0 }

/-- A work group after cycles that passed, in 1/64 of a cycle (R57, R116, R444). -/
def WorkGroup.aged (n : Nat) (w : WorkGroup) : WorkGroup := { w with cycle := w.cycle + n }

/-- CORE_BUSY of every core with a work group resident (R524). -/
def Main.countBusy (m : Main) : Main :=
  ((List.range 288).filter (fun c => m.cores.wgs.any (fun w => w.core == c))).foldl (fun m c => m.bump 1 0 (c / 9) 1) m

/-- One nanosecond: time and CYCLE advance, the latter by the cycles that pass in each cluster, owed credits leave, and the invalidation
queued longest is applied (R210, R277). -/
def Main.tick (passing : Nat → Nat) (m : Main) : Main :=
  let m1 := ({ m with
    time := m.time + 1
    cores := { m.cores with wgs := m.cores.wgs.map (fun w => w.aged (passing (w.core / 9))) }
    fab := { m.fab with lanes := m.fab.lanes.map Lane.returned } } : Main).countBusy
  match m1.coh.invq with
  | (agent, line) :: _ => m1.applyInv agent line
  | [] => m1

end Sys2Proof.Machine
end

