-- ==== Sys2Proof/Machine/Idle.lean ====
section
/-! DEFINITION. What the block does of itself while no command waits (assumption log 3). -/

namespace Sys2Proof.Machine

/-- The escalation of an error that met 256 open records (R478). -/
def Main.settleOverflow (m : Main) : Main :=
  if m.rcv.overdue then ({ m with rcv := { m.rcv with overdue := false } } : Main).deviceError 0x42 ⟨4, 3⟩ none 0 false else m

/-- A step without a command: one nanosecond passes; requests, window reads and handovers that have nothing more to wait for go on, and
receipts come in (R327, R505, R512). -/
def State.idle (s : State) : State :=
  ({ s with main := (s.main.tick s.cycles64).settleOverflow.wakeHomes.settleWindows.serveAll.settleHandovers } : State).settleSeal

end Sys2Proof.Machine
end

