-- ==== Sys2Proof/Safety.lean ====
section
/-! DEFINITION. The terms the statements are made in: what it takes for a bundle to issue, what an instruction finds when it
is performed, and the invariants of the whole block. -/

namespace Sys2Proof.Machine

/-! ### Issue of an instruction (R54, R56, R67, R80, R81, R117, R127) -/

/-- A bundle that can issue its next instruction: its work group is resident and running, the bundle waits in nothing and keeps no place at
a line's home, its core is not being reset, the line of code at its program counter is in the instruction cache, error correction finds
nothing, and no lane has been served before (R65, R287). -/
abbrev Issues (m : Main) (br : BRef) (w : WorkGroup) (la : Launch) (b : Bundle) : Prop :=
  m.wgOf br.wg = some w ∧ m.bundleOf br = some b ∧ m.launchOf w.launch = some la ∧ Bundle.canIssue w b = true ∧
    (m.rcv.resets.any fun r => r.eng == ⟨0, w.core⟩) = false ∧ b.pc + 8 ≤ la.spec.codeLen ∧
    m.cores.icache.contains (w.core, la.span, (la.spec.codeAddr + b.pc) / 128) = true ∧ br.ecc = .clean ∧ b.sent = 0 ∧
    b.waiting ≠ some .line

/-- A bundle that no longer waits. -/
def Bundle.awake (b : Bundle) : Bundle := { b with waiting := none }

/-- The instruction at issue. -/
def issueOf (br : BRef) (w : WorkGroup) (la : Launch) (b : Bundle) (f : Fields) (cls func : Nat) : Issue :=
  { br := br, w := w, la := la, b := b.awake, f := f, word := fieldWord f cls func, mask := b.awake.effective f }

/-- The instruction passes its checks: an active thread where it needs one, its fields, no register of an operation in
flight, no core store of a matrix operation or of a transfer in flight that has to wait, its addresses, no poison. -/
abbrev Passes (ins : Ins) (m : Main) (i : Issue) : Prop :=
  (ins.kind = .thread → i.mask ≠ 0) ∧ (ins.kind = .uniform → i.b.mask ≠ 0) ∧
    guardLegal ins.cls i.f = true ∧ ins.legal i = true ∧
    (i.lanes.any fun l => (ins.reads i ++ ins.writes i).any fun r => i.b.pending r.1 r.2 l) = false ∧
    i.b.mmaTouches (ins.store i) = false ∧ m.xfersHeld i (ins.store i) = false ∧ ins.addr m i = none ∧ poisonedLane i.b i.lanes (ins.reads i) (ins.bad m i) = none

/-- The state after an instruction of one bundle that touches nothing but that bundle. -/
abbrev bundleTo (s : State) (br : BRef) (b : Bundle) : State := { s with main := s.main.putBundle br b }

/-- The registers an instruction reads carry no poison in any lane that performs it, and no operation in flight will write
a register it names (R65, R115, R117). -/
abbrev RegsReady (b : Bundle) (mask : Word) (reads writes : List (Nat × Nat)) : Prop :=
  ∀ l, l < 32 → mask.getLsbD l = true →
    (∀ r ∈ reads, b.poisonOf r.1 r.2 l = none) ∧ (∀ r ∈ reads ++ writes, b.pending r.1 r.2 l = false)

/-- A guard that is used, or guard fields of zero (R81). -/
abbrev GuardOk (f : Fields) : Prop := f.ge = true ∨ (f.gn = false ∧ f.gp = 0)

/-- Guard fields of zero (R79). -/
abbrev NoGuard (f : Fields) : Prop := f.ge = false ∧ f.gn = false ∧ f.gp = 0

/-- Operand B's form (R82): a declared v register, a u register, or an immediate where the instruction has that form. -/
abbrev FormOk (regs : Nat) (f : Fields) (imm : Bool) : Prop :=
  (fieldMod f 18 17 = 0 ∧ f.b.toNat < regs) ∨ (fieldMod f 18 17 = 1 ∧ f.b.toNat < 64) ∨
    (imm = true ∧ fieldMod f 18 17 = 2 ∧ f.b = 0)

/-- Operand B of a lane (R82). -/
abbrev operandB (b : Bundle) (f : Fields) (imm : Word) (l : Nat) : Word :=
  if fieldMod f 18 17 = 0 then b.getV f.b.toNat l
  else if fieldMod f 18 17 = 1 then (b.getU f.b.toNat).setWidth 32 else imm

/-- The v registers that A, and B in its .VV form, name. -/
abbrev readsAB (f : Fields) : List (Nat × Nat) :=
  (f.a.toNat, 1) :: (if fieldMod f 18 17 = 0 then [(f.b.toNat, 1)] else [])

/-- The bundle after a write of v[DST] in the lanes of a mask. -/
abbrev wroteV (b : Bundle) (f : Fields) (val : Nat → Word) : Bundle :=
  { (b.setV f.dst.toNat (b.effective f) val) with waiting := none, pc := b.pc + 8 }

/-- The bundle after a write of p[DST] in the lanes of a mask. -/
abbrev wroteP (b : Bundle) (f : Fields) (val : Word) : Bundle :=
  { (b.setP f.dst.toNat (b.effective f) val) with waiting := none, pc := b.pc + 8 }

/-- The bundle after a write of u[DST]. -/
abbrev wroteU (b : Bundle) (f : Fields) (val : DWord) : Bundle :=
  { (b.setU f.dst.toNat val) with waiting := none, pc := b.pc + 8 }

/-! ### Packets (R371-R376) -/

/-- A queue's next packet can be read and can start: its context runs, its slot lies on a page that is translated or in lines that do not
wait, and holds the bytes d, what went before it in its queue allows it, and no sagger is fenced; `p` is the packet as it runs and `m2` the
block once it has been taken. -/
abbrev PacketStarts (m : Main) (q : QRef) (host : List Byte) (c : Context) (x : Queue) (d : List Byte) (p : Packet)
    (m2 : Main) : Prop :=
  m.queueOf q = some x ∧ m.ctxOf q.ctx = some c ∧ m.mayRun c = true ∧ m.procOut (6 + x.proc) = false ∧ x.held = [] ∧
    x.halted = false ∧ x.avail ≠ x.ridx ∧ c.state ≠ .lost ∧ m.locHeld c x.ring (x.ridx.toNat % x.slots * 64) 64 = false ∧
    (∃ m0, m.locPage c x.ring (x.ridx.toNat % x.slots * 64) (.ring q) = .have m0 ∧
      (m0.locRead c x.ring (x.ridx.toNat % x.slots * 64) 64 host).1 = some d ∧
      (m0.locRead c x.ring (x.ridx.toNat % x.slots * 64) 64 host).2.mayStart q x d = true ∧
      (m0.locRead c x.ring (x.ridx.toNat % x.slots * 64) 64 host).2.takePacket q x d = (p, m2)) ∧
    m2.fenced c.span = false ∧ fieldAt p.bytes 1 1 / 16 = 0

/-! ### ECS commands (R404-R421) -/

/-- A command as its meaning sees it when it begins: a message of the BMC carries its input, other commands read it. -/
abbrev ecsIn (mb : Mbx) (c : Cmd) (cmd : MbCmd) : EcsIn := { mb := mb, cmd := cmd, input := if mb = .bmc then cmd.input else c.input }

/-- A command of an opcode that begins now: it waits, or is a message of the BMC that arrives under a free tag and is not answered BUSY;
its mailbox and its cores serve; it is its turn; no snapshot answers it; its caller may send it; its header is good, and its input can be
read, on pages that are translated and used last. -/
abbrev EcsBegins (s : State) (mb : Mbx) (c : Cmd) (cmd : MbCmd) (op : Nat) : Prop :=
  (s.main.take mb c = some (cmd, .waits) ∨
    (s.main.take mb c = some (cmd, .arrives) ∧ s.main.tagBusy c.idx = false ∧ s.main.busyNow cmd = false)) ∧
    cmd.op = op ∧ s.main.served mb = true ∧ s.main.coresUp cmd = true ∧ s.main.turn mb cmd = true ∧
    s.main.snapshotDue cmd = false ∧ (s.main.banked = true → bankedOps.contains op = true) ∧
    maySend (callerOf mb) op = true ∧ (ecsIn mb c cmd).header = none ∧
    ((ecsIn mb c cmd).hasIn = true → (ecsIn mb c cmd).input.isSome = true ∧
      s.main.needBuffer (ecsIn mb c cmd) ((ecsIn mb c cmd).arg 8 8) (ecsIn mb c cmd).inLen false = .have s.main)

/-- A command on a context (R389, R409): the context at 0x20 exists, the caller may use it, the reserved argument bytes
are zero. -/
abbrev OnContext (s : State) (i : EcsIn) (named : List (Nat × Nat)) (x : Context) : Prop :=
  s.main.ctxOf (i.arg 0x20 2) = some x ∧ mayUse i.mb x = true ∧ i.reserved ((0x20, 4) :: named) = none ∧
    i.high 0x20 4 16 = none

/-- A context whose commands are accepted: neither LOST nor in teardown. -/
abbrev Context.accepts (x : Context) : Prop := x.state ≠ .lost ∧ x.state ≠ .teardown

/-! ### The power side -/

/-- The power side as every step keeps it (R445, R446, R449, R451, R457): L and every limit are codes from 16 to 64, L is at
most the lowest limit while the Kiln loop runs, the cap is one that POWER_CAP_SET takes and 3,200 W in fixed-frequency mode. -/
abbrev Power.legal (p : Power) : Prop :=
  16 ≤ p.loc ∧ p.loc ≤ 64 ∧ (p.stopped = false → p.loc ≤ p.limit) ∧ 1200 ≤ p.cap ∧ p.cap ≤ 3200 ∧ p.cap % 10 = 0 ∧
    (p.fixed = true → p.cap = 3200) ∧ (∀ h, p.hold = some h → 16 ≤ h ∧ h ≤ 64) ∧ 16 ≤ p.thermal ∧ p.thermal ≤ 64 ∧
    16 ≤ p.capLim ∧ p.capLim ≤ 64

end Sys2Proof.Machine
end

