-- ==== Sys2Proof/Certificates/Slice0/Obligations.lean ====
section
/-! DEFINITION. What the provers are asked to prove, from the numbered rules of the spec. -/

open Sys2Proof Sys2Proof.Machine

/-! ### The step -/

/-- A step runs the command at the front of the queue on the state with the rest of the queue.
On an empty queue one nanosecond passes and what is due of itself happens (assumption log 3). -/
def Obligations.StepRuns : Prop :=
  (∀ (c : Instr) (r : List Instr) (s : State), step { s with pending := c :: r } = exec c { s with pending := r }) ∧
  (∀ s : State, s.pending = [] → step s = .next s.idle ∧ (s.main.tick s.cycles64).time = s.main.time + 1)
/-! ### The integer class (R82-R84) -/

/-- The two-operand integer operations (R84). -/
def Obligations.IntegerResults : Prop :=
  ∀ (s : State) (br : BRef) (w : WorkGroup) (la : Launch) (b : Bundle) (f : Fields),
    Issues s.main br w la b → GuardOk f → b.effective f ≠ 0 → f.dst.toNat < la.spec.regs → f.a.toNat < la.spec.regs →
    FormOk la.spec.regs f true → f.c = 0 → (fieldMod f 18 17 ≠ 2 → fieldMod f 16 0 = 0) →
    RegsReady b (b.effective f) (readsAB f) [(f.dst.toNat, 1)] →
    ∀ x ∈ ([(.iadd, fun a b => a + b), (.isub, fun a b => a - b), (.imul, fun a b => a * b),
        (.imulhs, fun a b => BitVec.ofInt 32 (a.toInt * b.toInt / 2 ^ 32)),
        (.imulhu, fun a b => BitVec.ofNat 32 (a.toNat * b.toNat / 2 ^ 32)),
        (.andv, fun a b => a &&& b), (.orv, fun a b => a ||| b), (.xorv, fun a b => a ^^^ b),
        (.shl, fun a b => a <<< (b.toNat % 32)), (.shr, fun a b => a >>> (b.toNat % 32)),
        (.sar, fun a b => a.sshiftRight (b.toNat % 32)),
        (.imins, fun a b => if a.toInt ≤ b.toInt then a else b), (.imaxs, fun a b => if a.toInt ≤ b.toInt then b else a),
        (.iminu, fun a b => if a.toNat ≤ b.toNat then a else b), (.imaxu, fun a b => if a.toNat ≤ b.toNat then b else a)] :
        List ((BRef → Fields → Instr) × (Word → Word → Word))),
      exec (x.1 br f) s = .next (bundleTo s br
        (wroteV b f (fun l => x.2 (b.getV f.a.toNat l) (operandB b f ((f.md.setWidth 17).signExtend 32) l))))

/-- IMAC, ICMP, PICK and XLANE (R83, R84).
BITCNT, CLZ and MOV (R84). -/
def Obligations.IntegerOthers : Prop :=
  (∀ (s : State) (br : BRef) (w : WorkGroup) (la : Launch) (b : Bundle) (f : Fields),
     Issues s.main br w la b → GuardOk f → b.effective f ≠ 0 → f.a.toNat < la.spec.regs →
     let imm : Word := (f.md.setWidth 17).signExtend 32
     let opB := operandB b f imm
     let ready (reads : List (Nat × Nat)) := RegsReady b (b.effective f) reads [(f.dst.toNat, 1)]
     (f.dst.toNat < la.spec.regs → f.c.toNat < la.spec.regs → FormOk la.spec.regs f false → fieldMod f 16 0 = 0 →
       ready ((f.a.toNat, 1) :: (f.c.toNat, 1) :: (if fieldMod f 18 17 = 0 then [(f.b.toNat, 1)] else [])) →
       exec (.imac br f) s = .next (bundleTo s br
         (wroteV b f (fun l => b.getV f.a.toNat l * opB l + b.getV f.c.toNat l)))) ∧
     (f.dst.toNat < 8 → FormOk la.spec.regs f false → f.c = 0 → fieldMod f 16 4 = 0 →
       RegsReady b (b.effective f) (readsAB f) [] →
       ∀ x ∈ ([(0, fun a b => decide (a = b)), (1, fun a b => decide (a ≠ b)), (2, fun a b => decide (a.toInt < b.toInt)),
           (3, fun a b => decide (a.toInt ≤ b.toInt)), (4, fun a b => decide (b.toInt < a.toInt)),
           (5, fun a b => decide (b.toInt ≤ a.toInt)), (6, fun a b => decide (a.toNat < b.toNat)),
           (7, fun a b => decide (a.toNat ≤ b.toNat)), (8, fun a b => decide (b.toNat < a.toNat)),
           (9, fun a b => decide (b.toNat ≤ a.toNat))] : List (Nat × (Word → Word → Bool))),
         fieldMod f 3 0 = x.1 →
         exec (.icmp br f) s = .next (bundleTo s br
           (wroteP b f (laneMask (fun l => x.2 (b.getV f.a.toNat l) (opB l)))))) ∧
     (f.dst.toNat < la.spec.regs → FormOk la.spec.regs f false → f.c = 0 → fieldMod f 16 7 = 0 → fieldMod f 3 0 = 0 →
       ready (readsAB f) →
       exec (.pick br f) s = .next (bundleTo s br (wroteV b f (fun l =>
         if (b.getP (fieldMod f 6 4)).getLsbD l then b.getV f.a.toNat l else opB l)))) ∧
     (f.dst.toNat < la.spec.regs → FormOk la.spec.regs f true → f.c = 0 → (fieldMod f 18 17 ≠ 2 → fieldMod f 16 0 = 0) →
       ready (if fieldMod f 18 17 = 0 then [(f.b.toNat, 1)] else []) →
       (∀ l, l < 32 → (b.effective f).getLsbD l = true →
         b.poisonOf f.a.toNat 1 ((opB l).toNat % 32) = none ∧ b.pending f.a.toNat 1 ((opB l).toNat % 32) = false) →
       exec (.xlane br f) s = .next (bundleTo s br (wroteV b f (fun l => b.getV f.a.toNat ((opB l).toNat % 32)))))) ∧
  (∀ (s : State) (br : BRef) (w : WorkGroup) (la : Launch) (b : Bundle) (f : Fields),
     Issues s.main br w la b → GuardOk f → b.effective f ≠ 0 → f.dst.toNat < la.spec.regs → f.a.toNat < la.spec.regs →
     f.b = 0 → f.c = 0 → f.md = 0 → RegsReady b (b.effective f) [(f.a.toNat, 1)] [(f.dst.toNat, 1)] →
     exec (.movv br f) s = .next (bundleTo s br (wroteV b f (fun l => b.getV f.a.toNat l))) ∧
     exec (.bitcnt br f) s = .next (bundleTo s br (wroteV b f (fun l =>
       BitVec.ofNat 32 ((List.range 32).countP (fun k => (b.getV f.a.toNat l).getLsbD k))))) ∧
     exec (.clz br f) s = .next (bundleTo s br (wroteV b f (fun l =>
       BitVec.ofNat 32 ((List.range 32).countP (fun k => decide ((b.getV f.a.toNat l).toNat < 2 ^ k)))))))
/-! ### The FP32 and conversion classes (R44, R82, R85-R88) -/

/-- The lanes that perform an instruction. -/
abbrev Sys2Proof.Machine.lanesOf (mask : Word) : List Nat := (List.range 32).filter (fun l => mask.getLsbD l)

/-- All flags that some results set. -/
abbrev Sys2Proof.Machine.flagsOf (mask : Word) (op : Nat → FRes) : Byte :=
  (lanesOf mask).foldl (fun a l => a ||| (op l).2) 0

/-- A result that promotes no new flag to a trap (R118, R135). -/
abbrev Sys2Proof.Machine.Quiet (la : Launch) (b : Bundle) (fl : Byte) : Prop :=
  (b.vflags ||| fl) &&& ~~~b.vflags &&& la.spec.trapEn = 0

/-- The bundle after an FP32 instruction: the results, and their flags in the sticky word (R44). -/
abbrev Sys2Proof.Machine.wroteF (b : Bundle) (f : Fields) (op : Nat → FRes) : Bundle :=
  { (wroteV b f (fun l => (op l).1)) with vflags := b.vflags ||| flagsOf (b.effective f) op }

/-- The rounding mode an FP32 instruction names (R85). -/
abbrev Sys2Proof.Machine.fpModeOf (f : Fields) : RMode :=
  if fieldMod f 18 17 = 2 then .rne
  else match fieldMod f 16 14 with | 1 => .rtz | 2 => .rup | 3 => .rdn | _ => .rne

/-- An FP32 operand with its modifiers, absolute value first (R85); the .VI form has none. -/
abbrev Sys2Proof.Machine.fpOperand (f : Fields) (neg abs : Nat) (w : Word) : Sys2Proof.Machine.Num :=
  if fieldMod f 18 17 = 2 then f32 w
  else
    let a := if f.md.getLsbD abs then w &&& 0x7FFFFFFF#32 else w
    f32 (if f.md.getLsbD neg then a ^^^ 0x80000000#32 else a)

/-- FADD, FSUB, FMUL, FDIV, FMIN, FMAX, FMAC and FCMP (R83, R85).
FSQRT, FPOW2, FLOG2, CVT, I2F and F2I (R85-R88). -/
def Obligations.FpResults : Prop :=
  (∀ (s : State) (br : BRef) (w : WorkGroup) (la : Launch) (b : Bundle) (f : Fields),
     Issues s.main br w la b → GuardOk f → b.effective f ≠ 0 → f.a.toNat < la.spec.regs →
     let imm : Word := (f.md.setWidth 17).setWidth 32 <<< 15
     let opA (l : Nat) : Sys2Proof.Machine.Num := fpOperand f 13 10 (b.getV f.a.toNat l)
     let opB (l : Nat) : Sys2Proof.Machine.Num := fpOperand f 12 9 (operandB b f imm l)
     (f.dst.toNat < la.spec.regs → FormOk la.spec.regs f true → f.c = 0 →
       (fieldMod f 18 17 ≠ 2 → fieldMod f 16 14 ≤ 3 ∧ fieldMod f 11 11 = 0 ∧ fieldMod f 8 0 = 0) →
       RegsReady b (b.effective f) (readsAB f) [(f.dst.toNat, 1)] →
       ∀ x ∈ ([(.fadd, fAdd), (.fsub, fun r a b => fAdd r a b.neg), (.fmul, fMul), (.fdiv, fDiv),
           (.fmin, fun _ a b => fMin a b), (.fmax, fun _ a b => fMax a b)] :
           List ((BRef → Fields → Instr) × (RMode → Sys2Proof.Machine.Num → Sys2Proof.Machine.Num → FRes))),
         let op (l : Nat) : FRes := x.2 (fpModeOf f) (opA l) (opB l)
         Quiet la b (flagsOf (b.effective f) op) →
         exec (x.1 br f) s = .next (bundleTo s br (wroteF b f op))) ∧
     (f.dst.toNat < la.spec.regs → f.c.toNat < la.spec.regs → FormOk la.spec.regs f false → fieldMod f 16 14 ≤ 3 →
       fieldMod f 8 0 = 0 →
       RegsReady b (b.effective f) ((f.a.toNat, 1) :: (f.c.toNat, 1) ::
         (if fieldMod f 18 17 = 0 then [(f.b.toNat, 1)] else [])) [(f.dst.toNat, 1)] →
       let op (l : Nat) : FRes :=
         fFma (fpModeOf f) (opA l) (opB l)
           (f32 (if f.md.getLsbD 11 then b.getV f.c.toNat l ^^^ 0x80000000#32 else b.getV f.c.toNat l))
       Quiet la b (flagsOf (b.effective f) op) →
       exec (.fmac br f) s = .next (bundleTo s br (wroteF b f op))) ∧
     (f.dst.toNat < 8 → FormOk la.spec.regs f false → f.c = 0 → fieldMod f 16 14 ≤ 3 → fieldMod f 11 11 = 0 →
       fieldMod f 8 4 = 0 → RegsReady b (b.effective f) (readsAB f) [] →
       ∀ x ∈ ([(0, fun u o => !u && o == .eq), (1, fun u o => u || o != .eq), (2, fun u o => !u && o == .lt),
           (3, fun u o => !u && o != .gt), (4, fun u o => !u && o == .gt), (5, fun u o => !u && o != .lt),
           (6, fun u _ => !u), (7, fun u _ => u)] : List (Nat × (Bool → Ordering → Bool))),
         fieldMod f 3 0 = x.1 →
         exec (.fcmp br f) s = .next (bundleTo s br (wroteP b f (laneMask (fun l =>
           x.2 ((opA l).isNaN || (opB l).isNaN) (Sys2Proof.Machine.Num.cmp (opA l) (opB l)))))))) ∧
  (∀ (s : State) (br : BRef) (w : WorkGroup) (la : Launch) (b : Bundle) (f : Fields),
     Issues s.main br w la b → GuardOk f → b.effective f ≠ 0 → f.dst.toNat < la.spec.regs → f.a.toNat < la.spec.regs →
     f.b = 0 → f.c = 0 →
     let opA (l : Nat) : Word :=
       let a := if f.md.getLsbD 10 then b.getV f.a.toNat l &&& 0x7FFFFFFF#32 else b.getV f.a.toNat l
       if f.md.getLsbD 13 then a ^^^ 0x80000000#32 else a
     let done (c : Instr) (op : Nat → FRes) : Prop :=
       Quiet la b (flagsOf (b.effective f) op) → exec c s = .next (bundleTo s br (wroteF b f op))
     (RegsReady b (b.effective f) [(f.a.toNat, 1)] [(f.dst.toNat, 1)] →
       (fieldMod f 18 17 = 0 → fieldMod f 12 11 = 0 → fieldMod f 9 0 = 0 →
         (fieldMod f 16 14 ≤ 3 → done (.fsqrt br f) (fun l => fSqrt (fpModeOf f) (f32 (opA l)))) ∧
         (fieldMod f 16 14 = 0 → done (.fpow2 br f) (fun l => fPow2 (opA l)) ∧ done (.flog2 br f) (fun l => fLog2 (opA l)))) ∧
       (fieldMod f 18 5 = 0 → fieldMod f 3 2 = 0 →
         let mode : RMode := match fieldMod f 1 0 with | 1 => .rtz | 2 => .rup | 3 => .rdn | _ => .rne
         let a (l : Nat) : Word := b.getV f.a.toNat l
         done (.i2f br f) (fun l => roundF32 mode (Sys2Proof.Machine.Num.ofInt (if f.md.getLsbD 4 then ((a l).toNat : Int) else (a l).toInt))) ∧
         done (.f2i br f) (fun l =>
           let r := if f.md.getLsbD 4 then convertInt 0 0xFFFFFFFF mode 0 (f32 (a l))
             else convertInt (-0x80000000) 0x7FFFFFFF mode 0 (f32 (a l))
           (BitVec.ofInt 32 r.1, r.2)))) ∧
     (∀ src dst : Elem, Elem.ofCode (fieldMod f 18 15) = some src → Elem.ofCode (fieldMod f 14 11) = some dst →
       fieldMod f 3 1 < src.slots → fieldMod f 6 4 < dst.slots → fieldMod f 10 8 ≤ 3 → fieldMod f 0 0 = 0 →
       RegsReady b (b.effective f) ((f.a.toNat, 1) :: (if dst = .fp32 then [] else [(f.dst.toNat, 1)])) [(f.dst.toNat, 1)] →
       done (.cvt br f) (fun l =>
         let mode : RMode := match fieldMod f 10 8 with | 1 => .rtz | 2 => .rup | 3 => .rdn | _ => .rne
         let r := dst.convert mode (f.md.getLsbD 7) 0
           (src.value ((b.getV f.a.toNat l).toNat / 2 ^ (fieldMod f 3 1 * src.slotBits) % 2 ^ src.bits))
         (putSlot (b.getV f.dst.toNat l) (fieldMod f 6 4) dst.slotBits r.1, r.2))))
/-! ### The uniform and control-flow classes (R89-R92) -/

/-- The predicate operations (R87).
The uniform operations that write one u register (R89). -/
def Obligations.PredicateAndUniformResults : Prop :=
  (∀ (s : State) (br : BRef) (w : WorkGroup) (la : Launch) (b : Bundle) (f : Fields),
     Issues s.main br w la b → GuardOk f → b.effective f ≠ 0 → f.dst.toNat < 8 → f.c = 0 →
     let done (c : Instr) (v : Word) : Prop := exec c s = .next (bundleTo s br (wroteP b f v))
     (f.a.toNat < 8 → f.b.toNat < 8 → f.md = 0 →
       done (.pand br f) (b.getP f.a.toNat &&& b.getP f.b.toNat) ∧ done (.por br f) (b.getP f.a.toNat ||| b.getP f.b.toNat) ∧
       done (.pxor br f) (b.getP f.a.toNat ^^^ b.getP f.b.toNat)) ∧
     (f.a.toNat < 8 → f.b = 0 → f.md = 0 → done (.pnot br f) (~~~(b.getP f.a.toNat))) ∧
     (f.a = 0 → f.b = 0 → fieldMod f 18 1 = 0 → done (.pset br f) (if f.md.getLsbD 0 then 0xFFFFFFFF#32 else 0))) ∧
  (∀ (s : State) (br : BRef) (w : WorkGroup) (la : Launch) (b : Bundle) (f : Fields),
     Issues s.main br w la b → NoGuard f → b.mask ≠ 0 → f.dst.toNat < 64 →
     let done (c : Instr) (v : DWord) : Prop := exec c s = .next (bundleTo s br (wroteU b f v))
     let a := b.getU f.a.toNat
     let c := b.getU f.b.toNat
     let imm : BitVec 40 := f.a.setWidth 7 ++ f.b ++ f.c ++ f.md
     (f.a.toNat < 64 → f.b.toNat < 64 → f.c = 0 → f.md = 0 →
       ∀ x ∈ ([(.uadd, a + c), (.usub, a - c), (.umul, a * c), (.uand, a &&& c), (.uor, a ||| c), (.uxor, a ^^^ c),
           (.ushl, a <<< (c.toNat % 64)), (.ushr, a >>> (c.toNat % 64)), (.usar, a.sshiftRight (c.toNat % 64))] :
           List ((BRef → Fields → Instr) × DWord)), done (x.1 br f) x.2) ∧
     (f.a.toNat < 64 → f.b = 0 → f.c = 0 → f.md = 0 → done (.umov br f) a) ∧
     done (.uldi br f) (imm.signExtend 64) ∧
     (imm.toNat < 2 ^ 24 →
       done (.uldhi br f) (BitVec.ofNat 64 (imm.toNat * 2 ^ 40 + (b.getU f.dst.toNat).toNat % 2 ^ 40))) ∧
     (f.a.toNat < 64 → f.b.toNat < 64 → f.c = 0 → fieldMod f 18 4 = 0 →
       ∀ x ∈ ([(0, decide (a = c)), (1, decide (a ≠ c)), (2, decide (a.toInt < c.toInt)), (3, decide (a.toInt ≤ c.toInt)),
           (4, decide (c.toInt < a.toInt)), (5, decide (c.toInt ≤ a.toInt)), (6, decide (a.toNat < c.toNat)),
           (7, decide (a.toNat ≤ c.toNat)), (8, decide (c.toNat < a.toNat)), (9, decide (c.toNat ≤ a.toNat))] :
           List (Nat × Bool)), fieldMod f 3 0 = x.1 → done (.ucmp br f) (if x.2 then 1 else 0)) ∧
     (f.a.toNat < 64 → f.b = 0 → f.c = 0 → done (.uaddi br f) (a + f.md.signExtend 64)) ∧
     (f.a.toNat < la.spec.regs → f.b = 0 → f.c = 0 → fieldMod f 18 5 = 0 →
       b.poisonOf f.a.toNat 1 (fieldMod f 4 0) = none → b.pending f.a.toNat 1 (fieldMod f 4 0) = false →
       done (.ulane br f) ((b.getV f.a.toNat (fieldMod f 4 0)).setWidth 64)) ∧
     (f.a.toNat < 8 → f.b = 0 → f.c = 0 → f.md = 0 →
       done (.uvote br f) ((b.mask &&& b.getP f.a.toNat).setWidth 64)))
/-! ### Memory instructions (R60-R65, R93-R98) -/

/-- A next state that differs on Main alone. -/
abbrev Sys2Proof.Machine.toMain (s : State) (m : Main) : Outcome := .next { s with main := m }

/-- Branches, calls and returns (R90). The mask stack: IF, ELSE, ENDIF, LOOP, BRK and ENDLOOP (R91). EXIT ends the active threads: they
leave every mask of the stack, and a bundle without live threads ends (R91). -/
def Obligations.ControlFlowResults : Prop :=
  (∀ (s : State) (br : BRef) (w : WorkGroup) (la : Launch) (b : Bundle) (f : Fields),
     Issues s.main br w la b → NoGuard f → f.a = 0 →
     let off : Int := ((f.b ++ f.c ++ f.md : BitVec 33).setWidth 32).toInt
     let zsel : Bool := f.b.getLsbD 6
     let next : Nat := b.pc + 8
     let target : Int := (next : Int) + 8 * off
     let inCode : Prop := 0 ≤ target ∧ target < la.spec.codeLen
     let goesOn (c : Instr) (b1 : Bundle) (pc : Nat) : Prop :=
       exec c s = .next (bundleTo s br { b1 with waiting := none, pc := pc })
     (f.dst = 0 → zsel = false → inCode → goesOn (.bra br f) b target.toNat) ∧
     (f.dst.toNat < 64 → ((b.getU f.dst.toNat = 0) ↔ zsel = true) → inCode → goesOn (.bru br f) b target.toNat) ∧
     (f.dst.toNat < 64 → ¬((b.getU f.dst.toNat = 0) ↔ zsel = true) → goesOn (.bru br f) b next) ∧
     (f.dst.toNat < 64 → zsel = false → inCode →
       goesOn (.call br f) (b.setU f.dst.toNat (BitVec.ofNat 64 next)) target.toNat) ∧
     (f.dst.toNat < 64 → zsel = false → off = 0 →
       let t := (b.getU f.dst.toNat).toNat
       t % 8 = 0 → t < la.spec.codeLen → goesOn (.ret br f) b t)) ∧
  (∀ (s : State) (br : BRef) (w : WorkGroup) (la : Launch) (b : Bundle) (f : Fields),
     Issues s.main br w la b → NoGuard f → f.a = 0 → f.b.getLsbD 6 = false →
     let off : Int := ((f.b ++ f.c ++ f.md : BitVec 33).setWidth 32).toInt
     let next : Nat := b.pc + 8
     let target : Int := (next : Int) + 8 * off
     let inCode : Prop := 0 ≤ target ∧ target < la.spec.codeLen
     let p := b.getP f.dst.toNat
     let goesOn (c : Instr) (mask : Word) (stack : List MaskEntry) (pc : Nat) : Prop :=
       exec c s = .next (bundleTo s br { b with waiting := none, mask := mask, stack := stack, pc := pc })
     (f.dst.toNat < 8 → b.stack.length < 32 →
       (b.mask &&& p ≠ 0 → goesOn (.ifd br f) (b.mask &&& p) (.ifE b.mask (b.mask &&& ~~~p) false :: b.stack) next) ∧
       (b.mask &&& p = 0 → inCode →
         goesOn (.ifd br f) (b.mask &&& ~~~p) (.ifE b.mask (b.mask &&& ~~~p) true :: b.stack) target.toNat)) ∧
     (∀ saved other r, f.dst = 0 → b.stack = .ifE saved other false :: r →
       (other ≠ 0 → goesOn (.elsed br f) other (.ifE saved other true :: r) next) ∧
       (other = 0 → inCode → goesOn (.elsed br f) 0 (.ifE saved other true :: r) target.toNat)) ∧
     (∀ saved other e r, f.dst = 0 → off = 0 → b.stack = .ifE saved other e :: r → goesOn (.endif br f) saved r next) ∧
     (f.dst = 0 → off = 0 → b.stack.length < 32 → goesOn (.loop br f) b.mask (.loopE b.mask :: b.stack) next) ∧
     (∀ ifs saved r, f.dst.toNat < 8 → off = 0 → b.stack = ifs ++ .loopE saved :: r →
       (∀ e ∈ ifs, ∃ x y z, e = .ifE x y z) →
       let t := b.mask &&& p
       goesOn (.brk br f) (b.mask &&& ~~~t) (ifs.map (fun e => match e with
         | .ifE x y z => .ifE (x &&& ~~~t) (y &&& ~~~t) z
         | .loopE x => .loopE x) ++ .loopE saved :: r) next) ∧
     (∀ saved r, f.dst = 0 → b.stack = .loopE saved :: r →
       (b.mask ≠ 0 → inCode → goesOn (.endloop br f) b.mask b.stack target.toNat) ∧
       (b.mask = 0 → goesOn (.endloop br f) saved r next))) ∧
  (∀ (s : State) (br : BRef) (w : WorkGroup) (la : Launch) (b : Bundle) (f : Fields),
     Issues s.main br w la b → NoGuard f → f.a = 0 → f.dst = 0 → f.b = 0 → f.c = 0 → f.md = 0 →
     let live := b.live &&& ~~~b.mask
     let leave (x : Word) : Word := x &&& ~~~b.mask
     let b1 : Bundle := { b with
       waiting := none, live := live, mask := 0, ended := live == 0, pc := b.pc + 8
       stack := b.stack.map (fun e => match e with
         | .ifE x y z => .ifE (leave x) (leave y) z
         | .loopE x => .loopE (leave x)) }
     (live ≠ 0 → exec (.exit br f) s = .next (bundleTo s br b1)) ∧
     (live = 0 → exec (.exit br f) s = toMain s (((s.main.putBundle br b1).bundleEnded
         { w with bundles := modWhere w.bundles (fun x => x.idx == br.idx) (fun _ => b1) } b1).wgEnded w.id)))
/-- CSLD and CSST: what a lane loads is what core store holds at its address; what it stores are its registers' bytes, in lane order where
no two lanes meet (R93, R95). A plain LD, a plain ST outside checked mode, and PREF, on lines that nothing holds back (R94, R205); a LD or
ST whose lines wait takes its place at their homes, for all of them together by the model's choice (assumption log 98), and waits (R199,
R208, R215). -/
def Obligations.MemoryAccessResults : Prop :=
  (∀ (s : State) (br : BRef) (w : WorkGroup) (la : Launch) (b : Bundle) (f : Fields), Issues s.main br w la b →
     let n := 2 ^ fieldMod f 18 16
     let at_ (l : Nat) : Nat := w.base + (((b.getV f.a.toNat l).toNat : Int) + signed 16 (fieldMod f 15 0)).toNat
     let lanes := lanesOf (b.effective f)
     let m1 := s.main.settle w b.idx (lanes.map (fun l => (at_ l, n)))
     (Passes csldIns s.main (issueOf br w la b f 6 0) →
       exec (.csld br f) s = toMain s (m1.putBundle br
         { (lanes.foldl (fun b l => b.setVs f.dst.toNat l (loadWords (m1.csRead w.core (at_ l) n))) b.awake) with
           pc := b.pc + 8 })) ∧
     (Passes csstIns s.main (issueOf br w la b f 6 1) → anyOverlap (lanes.map (fun l => (at_ l, n))) = false →
       exec (.csst br f) s = toMain s
         ((m1.csWrite w.core (lanes.map (fun l => (at_ l, b.laneBytes f.dst.toNat l n)))).putBundle br
           { b.awake with pc := b.pc + 8 }))) ∧
  (∀ (s : State) (br : BRef) (w : WorkGroup) (la : Launch) (b : Bundle) (f : Fields), Issues s.main br w la b →
     let i (func : Nat) := issueOf br w la b f 7 func
     let lanes := lanesOf (b.effective f)
     let waits (c : Instr) (func : Nat) : Prop := s.main.laneBlocked (i func) 11 = true → s.main.portClosed w.core = false →
       exec c s = toMain s ((s.main.takeTurns (.bundle br.wg br.idx) (s.main.laneLines (i func) 11)).putBundle br
         { b with waiting := some .line })
     (Passes ldIns s.main (i 0) → waits (.ld br f) 0) ∧ (Passes stIns s.main (i 1) → waits (.st br f) 1) ∧
     (Passes ldIns s.main (i 0) → s.main.laneBlocked (i 0) 11 = false → fieldMod f 15 14 = 0 →
       let r := lanes.foldl (fun (a : List (Nat × Served) × Main) l =>
         (a.1 ++ [(l, (a.2.laneLoad (i 0) l).1)], (a.2.laneLoad (i 0) l).2)) ([], s.main)
       exec (.ld br f) s = toMain s (r.2.putBundle br
         { (r.1.foldl (fun b x => b.setVs f.dst.toNat x.1 (loadWords x.2.data)) b.awake) with
           kept := keptRecords (r.1.map (fun x => (s.main.laneLpa (i 0) 11 x.1 / 128, x.2.rr))), pc := b.pc + 8 })) ∧
     (Passes stIns s.main (i 1) → s.main.laneBlocked (i 1) 11 = false → fieldMod f 15 14 = 0 → la.spec.checked = false →
       anyOverlap (lanes.map (fun l => (s.main.laneLpa (i 1) 11 l, 2 ^ fieldMod f 18 16))) = false →
       exec (.st br f) s = toMain s
         ((lanes.foldl (fun m l =>
           let lpa := m.laneLpa (i 1) 11 l
           m.l1Write w.core (lpa / 128) (lpa % 128) (some la.ctx) (b.laneBytes f.dst.toNat l (2 ^ fieldMod f 18 16)))
             s.main).putBundle br { b.awake with relFence := none, pc := b.pc + 8 })) ∧
     (Passes prefIns s.main (i 2) →
       exec (.pref br f) s = toMain s
         ((lanes.foldl (fun m l => m.lanePref (i 2) l) s.main).putBundle br { b.awake with pc := b.pc + 8 })))
/-- The operations of the atomic table on a location of 32 or 64 bits (R96): the new value from the old.
The atomics of span memory without order and outside checked mode: each lane's operation at its home, and the old value
in v[DST] where MOD[10] asks for it (R96, R209); atomics on lines that wait take their places at the homes (R208). -/
def Obligations.AtomicResults : Prop :=
  (∀ (k : Nat), k = 32 ∨ k = 64 → ∀ (m x new : BitVec k),
     AtomOp.add.apply m x new = m + x ∧
     (AtomOp.smin.apply m x new).toInt = min m.toInt x.toInt ∧ (AtomOp.smax.apply m x new).toInt = max m.toInt x.toInt ∧
     (AtomOp.umin.apply m x new).toNat = min m.toNat x.toNat ∧ (AtomOp.umax.apply m x new).toNat = max m.toNat x.toNat ∧
     AtomOp.and.apply m x new = m &&& x ∧ AtomOp.or.apply m x new = m ||| x ∧ AtomOp.xor.apply m x new = m ^^^ x ∧
     AtomOp.exch.apply m x new = x ∧ AtomOp.cas.apply m x new = (if m = x then new else m) ∧
     (AtomOp.fadd.apply m x new).setWidth 32 = (fAdd .rne (f32 (m.setWidth 32)) (f32 (x.setWidth 32))).1) ∧
  (∀ (s : State) (br : BRef) (w : WorkGroup) (la : Launch) (b : Bundle) (f : Fields), Issues s.main br w la b →
     fieldMod f 15 14 = 0 → la.spec.checked = false →
     ∀ x ∈ ([(.atomicAdd, .add), (.atomicSmin, .smin), (.atomicSmax, .smax), (.atomicUmin, .umin), (.atomicUmax, .umax),
         (.atomicAnd, .and), (.atomicOr, .or), (.atomicXor, .xor), (.atomicExch, .exch), (.atomicCas, .cas),
         (.atomicFadd, .fadd)] : List ((BRef → Fields → Instr) × AtomOp)),
       let i := issueOf br w la b f 8 x.2.code
       let lanes := lanesOf (b.effective f)
       Passes (atomIns x.2) s.main i →
       (s.main.laneBlocked i 10 = true → s.main.portClosed w.core = false → exec (x.1 br f) s =
         toMain s ((s.main.takeTurns (.bundle br.wg br.idx) (s.main.laneLines i 10)).putBundle br { b with waiting := some .line })) ∧
       (s.main.laneBlocked i 10 = false →
       anyOverlap (lanes.map (fun l => (s.main.laneLpa i 10 l, 2 ^ fieldMod f 18 16))) = false →
       let r := lanes.foldl (fun (a : List (Nat × AtomRes) × Main) l =>
         (a.1 ++ [(l, (a.2.laneAtomic i x.2 none l).1)], (a.2.laneAtomic i x.2 none l).2)) ([], s.main)
       let out := r.2.atomResults i r.1
       let kept := keptRecords (lanes.map (fun l =>
         (s.main.laneLpa i 10 l / 128, s.main.lineRecord (s.main.laneLpa i 10 l / 128))))
       exec (x.1 br f) s = toMain s (out.2.putBundle br
         { out.1 with relFence := none, pc := out.1.pc + 8, kept := kept })))
/-- RLD, RST and the remote atomics: one request leaves for each lane, in lane order where no two lanes meet, and what the
bundle waits for is counted; of more than 64 ordered requests the first leave and the other lanes wait (R97, R98, R286, R287). -/
def Obligations.RemoteResults : Prop :=
  ∀ (s : State) (br : BRef) (w : WorkGroup) (la : Launch) (b : Bundle) (f : Fields), Issues s.main br w la b →
    let lanes := lanesOf (b.effective f)
    let n := 2 ^ fieldMod f 3 1
    let ord := f.md.getLsbD 18
    let room : Prop := ord = true → b.ordOut + lanes.length ≤ 64
    let i (func : Nat) := issueOf br w la b f 9 func
    let pend : List PendReg := lanes.map (fun l => ⟨f.dst.toNat, sizeRegs n, l⟩)
    let req (func op lc : Nat) (data : Nat → List Byte) (rr : Option RelRec) (who : Nat → Requester) (m : Main) (l : Nat) :
        WaitReq :=
      { issuer := w.core, slot := m.slotOf la.ctx, span := la.span, rank := (i func).remRank l, op := op,
        addr := (i func).remAddr l, len := n, data := data l, poison := false, ord := ord, lc := lc, rr := rr, who := who l }
    let go (b1 : Bundle) (writes : Bool) (req : Main → Nat → WaitReq) : Outcome :=
      let b2 : Bundle := { b1 with
        waiting := none, pc := b.pc + 8, ordOut := b.ordOut + (if ord then lanes.length else 0),
        rstOut := b.rstOut + (if writes then lanes.length else 0) }
      let m1 := s.main.putBundle br b2
      let m2 := if writes then m1.modLaunch la.id (fun l => { l with rsts := l.rsts + lanes.length }) else m1
      let m3 := lanes.foldl (fun m l => m.issueReq (req m l)) m2
      toMain s (m3.putBundle br ((m3.bundleOf br).getD b2))
    let apart (func : Nat) : Prop :=
      anyOverlap (lanes.map (fun l => ((i func).remRank l * 2 ^ 52 + (i func).remAddr l, n))) = false
    (room → Passes rldIns s.main (i 0) → apart 0 →
      exec (.rld br f) s = go { b with pend := b.pend ++ pend } false
        (req 0 0x01 0 (fun _ => []) none (fun l => .rld br f.dst.toNat (sizeRegs n) l))) ∧
    (room → Passes rstIns s.main (i 1) → apart 1 →
      exec (.rst br f) s = go { b with relFence := none } true
        (req 1 0x30 (fieldMod f 17 4) (fun l => b.laneBytes f.dst.toNat l n) (s.main.writeRecord (i 1) none)
          (fun _ => .rst br la.id))) ∧
    (∀ x ∈ ([(.ratomAdd, .add), (.ratomSmin, .smin), (.ratomSmax, .smax), (.ratomUmin, .umin), (.ratomUmax, .umax),
        (.ratomAnd, .and), (.ratomOr, .or), (.ratomXor, .xor), (.ratomExch, .exch), (.ratomCas, .cas),
        (.ratomFadd, .fadd)] : List ((BRef → Fields → Instr) × AtomOp)),
      let func := 0x10 + x.2.code
      room → Passes (ratomIns x.2) s.main (i func) → apart func →
      let ret := f.md.getLsbD 0
      exec (x.1 br f) s = go { b with relFence := none, pend := if ret then b.pend ++ pend else b.pend } true
        (req func func 0 (fun l =>
            b.laneBytes f.dst.toNat l n ++ (if x.2 = .cas then b.laneBytes (f.dst.toNat + sizeRegs n) l n else []))
          (s.main.writeRecord (i func) none)
          (fun l => .ratom br la.id (if ret then some f.dst.toNat else none) (sizeRegs n) l))) ∧
    (∀ k, ord = true → 0 < k → k < lanes.length → b.ordOut + k = 64 → Passes rstIns s.main (i 1) → apart 1 →
      let sent := lanes.take k
      let b2 : Bundle := { b with
        waiting := some .ordered, sent := sent.foldl (fun x l => x ||| 1#32 <<< l) 0, ordOut := 64, rstOut := b.rstOut + k }
      let m1 := (s.main.putBundle br b2).modLaunch la.id (fun l => { l with rsts := l.rsts + k })
      let m2 := sent.foldl (fun m l => m.issueReq (req 1 0x30 (fieldMod f 17 4) (fun l => b.laneBytes f.dst.toNat l n)
        (s.main.writeRecord (i 1) none) (fun _ => .rst br la.id) m l)) m1
      exec (.rst br f) s = toMain s (m2.putBundle br ((m2.bundleOf br).getD b2))) ∧
    (ord = true → b.ordOut = 64 →
      (Passes rldIns s.main (i 0) →
        exec (.rld br f) s = .next (bundleTo s br { b with waiting := some .ordered })) ∧
      (Passes rstIns s.main (i 1) →
        exec (.rst br f) s = .next (bundleTo s br { b with waiting := some .ordered })))

/-! ### Synchronisation (R99-R103) -/

/-- BARB, BARC and FENCE (R100, R101): a bundle that is not the last to arrive waits; the last to arrive lets all leave.
LCWAIT, LCWAIT_SATISFIED, LCWAIT_TIMEOUT and FWAIT, outside checked mode (R102, R103): on a reached value the predicate
or status and the value last observed are written and the acquire is performed; otherwise the bundle waits. -/
def Obligations.BarriersAndWaits : Prop :=
  (∀ (s : State) (br : BRef) (w : WorkGroup) (la : Launch) (b : Bundle) (f : Fields), Issues s.main br w la b →
     NoGuard f → f.dst = 0 → f.a = 0 → f.b = 0 → f.c = 0 →
     (fieldMod f 18 4 = 0 →
       ∀ x ∈ ([(.barb, false), (.barc, true)] : List ((BRef → Fields → Instr) × Bool)),
         (x.2 = true → (w.xfers.any fun y => y.bundle == b.idx) = false) →
         let id := fieldMod f 3 0
         let b1 : Bundle := { b with waiting := some (.barrier id x.2) }
         let m1 := (s.main.putBundle br b1).modWg w.id (fun w =>
           { w with barriers := modNth w.barriers id (fun y => y ||| (1#64 <<< b.idx)) }.leaveBarrier id)
         exec (x.1 br f) s = toMain s (m1.putBundle br ((m1.bundleOf br).getD b.awake))) ∧
     (fieldMod f 18 16 = 0 → fieldMod f 10 0 = 0 →
       let order := fieldMod f 15 14
       let scope := fieldMod f 13 11
       order ≠ 0 → scope ≤ 5 →
       (2 ≤ order → 1 ≤ scope → (w.xfers.any fun y => y.bundle == b.idx && y.store) = false) →
       (2 ≤ order → 4 ≤ scope → b.rstOut = 0) →
       (la.spec.checked = true → order ≠ 2 → scope ≠ 0 →
         ∀ r ∈ b.kept, agrees r (s.main.posOf w.core scope) = true) →
       let b1 : Bundle := { b.awake with
         relFence := if 2 ≤ order ∧ scope ≠ 0 then some scope else b.relFence
         pc := b.pc + 8 }
       (order = 2 → exec (.fence br f) s = .next (bundleTo s br b1)) ∧
       (order ≠ 2 →
         let m1 := s.main.acquire w.core scope
         exec (.fence br f) s = toMain s (m1.putBundle br (b1.acquired m1 w.core scope))))) ∧
  (∀ (s : State) (br : BRef) (w : WorkGroup) (la : Launch) (b : Bundle) (f : Fields), la.spec.checked = false →
     let scope := fieldMod f 13 11
     let us := (b.getU f.a.toNat).toNat / 2 ^ 32
     let reached (m : Main) (v : DWord) : Outcome :=
       let m1 := m.acquire w.core scope
       toMain s (m1.putBundle br
         ({ ((b.setP f.dst.toNat b.mask 0xFFFFFFFF#32).setU f.c.toNat v) with waiting := none, pc := b.pc + 8 }.acquired
           m1 w.core scope))
     (Issues s.main br w la b → Passes lcwaitIns s.main (issueOf br w la b f 0xA 3) →
       ∀ c, s.main.lcOf la b f = some c →
       ((b.getU f.b.toNat).toNat ≤ c.value.toNat → exec (.lcwait br f) s = reached s.main c.value) ∧
       (c.value.toNat < (b.getU f.b.toNat).toNat →
         exec (.lcwait br f) s = .next (bundleTo s br { b with
           waiting := some (.counter f (if us = 0 then none else some (s.main.time + us * 1000))) }))) ∧
     (∀ d c, s.main.wgOf br.wg = some w → w.state = .running → s.main.bundleOf br = some b →
       s.main.launchOf w.launch = some la → b.waiting = some (.counter f d) → s.main.lcOf la b f = some c →
       ((b.getU f.b.toNat).toNat ≤ c.value.toNat → exec (.lcwaitSatisfied br) s = reached s.main c.value) ∧
       (∀ t, d = some t → c.value.toNat < (b.getU f.b.toNat).toNat →
         exec (.lcwaitTimeout br) s = toMain s ((s.main.until t).putBundle br
           { ((b.setP f.dst.toNat b.mask 0).setU f.c.toNat c.value) with waiting := none, pc := b.pc + 8 }))) ∧
     (Issues s.main br w la b → Passes fwaitIns s.main (issueOf br w la b f 0xA 4) →
       ∀ x, s.main.fwaitFence la b f = some x →
       (x.live = true → fenceReached x.value (b.getU f.b.toNat) = true →
         let m1 := s.main.acquire w.core scope
         exec (.fwait br f) s = toMain s (m1.putBundle br ((b.awake.endFwait f .ok x.value).acquired m1 w.core scope))) ∧
       (x.live = false → exec (.fwait br f) s = .next (bundleTo s br (b.awake.endFwait f .fenceAbandoned x.value))) ∧
       (x.live = true → fenceReached x.value (b.getU f.b.toNat) = false →
         exec (.fwait br f) s = .next (bundleTo s br { b with waiting := some (.fence f) }))))
/-! ### Tiles (R68-R75, R104-R113) -/

/-- TDSET and TDGET move a descriptor, four u registers lowest first, in and out; TLOAD and TSTORE hand a transfer to the
engine, which takes up to 64 of a core; a completed transfer is performed and leaves (R74, R75, R104, R106, R107). A TSTORE of a bank waits
for the TMMAs of its chain that have not completed (R118). -/
def Obligations.TileMoves : Prop :=
  ∀ (s : State) (br : BRef) (w : WorkGroup) (la : Launch) (b : Bundle) (f : Fields),
    (Issues s.main br w la b →
      let i (func : Nat) := issueOf br w la b f 0xB func
      (Passes tdsetIns s.main (i 0) →
        exec (.tdset br f) s = .next (bundleTo s br { (b.awake.setT f.dst (b.getU (f.a.toNat + 3) ++ b.getU (f.a.toNat + 2) ++
          b.getU (f.a.toNat + 1) ++ b.getU f.a.toNat)) with pc := b.pc + 8 })) ∧
      (∀ d, Passes tdgetIns s.main (i 1) → (i 1).desc f.a = some d →
        let n := f.dst.toNat
        exec (.tdget br f) s = .next (bundleTo s br
          { ((((b.awake.setU n (d.extractLsb' 0 64)).setU (n + 1) (d.extractLsb' 64 64)).setU (n + 2)
              (d.extractLsb' 128 64)).setU (n + 3) (d.extractLsb' 192 64)) with pc := b.pc + 8 })) ∧
      (∀ d, (i 2).desc f.dst = some d →
        let ls := (i 2).xferLines d
        let m1 := s.main.settle w b.idx (lineRanges ls)
        let b1 : Bundle := { b.awake with pc := b.pc + 8 }
        m1.coreXfers w.core < 64 →
        (Passes tloadIns s.main (i 2) →
          exec (.tload br f) s = toMain s ((m1.modWg w.id (fun w => { w with xfers := w.xfers ++
            [{ bundle := b.idx, store := false, lines := ls }] })).putBundle br b1)) ∧
        (Passes tstoreIns s.main (i 3) → fieldMod f 16 16 = 0 → m1.rangesBad w.core (lineRanges ls) = false →
          exec (.tstore br f) s = toMain s ((m1.modWg w.id (fun w => { w with xfers := w.xfers ++
            [{ bundle := b.idx, store := true
               lines := ls.map (fun l => { l with data := some (m1.lineBytes w.core l) }) }] })).putBundle br b1))) ∧
      (Passes tstoreIns s.main (i 3) → fieldMod f 16 16 = 1 → (b.mma.any fun r => r.chain == fieldMod f 2 2) = true →
        exec (.tstore br f) s = .next (bundleTo s br { b with waiting := some .tmma }))) ∧
    (∀ n x, s.main.wgOf br.wg = some w → s.main.launchOf w.launch = some la →
      (w.xfers.filter (fun x => x.bundle == br.idx))[n]? = some x →
      s.main.xferHeld la.span x = false →
      exec (.tileTransferComplete br n) s = toMain s (((s.main.performXfer w.core la.span x).modWg w.id (fun w =>
        { w with xfers := w.xfers.erase x })).wgEnded w.id))

/-- TMMA, a TMMA that waited for a bank, and its completion (R69, R108-R111, R118, R135).
TREDUCE, TCONV and TFILL write their destination tile, OR its flags in, and promote no flag that TRAPEN does not name
(R104, R112, R113, R134). -/
def Obligations.TileResults : Prop :=
  (∀ (s : State) (br : BRef) (w : WorkGroup) (la : Launch) (b : Bundle) (f : Fields),
     (∀ p, Issues s.main br w la b → Passes tmmaIns s.main (issueOf br w la b f 0xB 4) →
       (issueOf br w la b f 0xB 4).mmaPlan = some p →
       let m1 := s.main.settle w b.idx (p.ranges w.base)
       m1.rangesBad w.core (p.reads w.base) = false →
       (p.cont = false → 2 ≤ m1.unitBanks w.core ((b.idx + w.w) % 4) →
         exec (.tmma br f) s = .next (bundleTo s br { b with waiting := some (.bank f) })) ∧
       (p.cont = true ∨ m1.unitBanks w.core ((b.idx + w.w) % 4) < 2 →
         let r := m1.mma (issueOf br w la b f 0xB 4) p
         exec (.tmma br f) s = toMain s (r.1.putBundle br r.2) ∧
         (b.waiting = some (.bank f) → s.main.unitBanks w.core ((b.idx + w.w) % 4) < 2 →
           exec (.tmmaBankFree br) s = toMain s (r.1.putBundle br r.2)))) ∧
     (∀ chain r, s.main.wgOf br.wg = some w → s.main.bundleOf br = some b → s.main.launchOf w.launch = some la →
       b.mma.find? (fun r => r.chain == chain) = some r → r.newFlags &&& la.spec.trapEn = 0 →
       exec (.tmmaComplete br chain) s = .next (bundleTo s br { b with mma := b.mma.erase r }))) ∧
  (∀ (s : State) (br : BRef) (w : WorkGroup) (la : Launch) (b : Bundle) (f : Fields), Issues s.main br w la b →
     let i (func : Nat) := issueOf br w la b f 0xB func
     let flagged (m : Main) (d : Desc) (merged own : Byte) : Outcome :=
       let fl := merged ||| own
       toMain s ((m.modLaunch la.id (fun l => { l with flags := l.flags ||| fl })).putBundle br
         { (b.awake.setT f.dst (d ||| ((fl.setWidth 256) <<< 128))) with pc := b.pc + 8 })
     (∀ src d, Passes tconvIns s.main (i 6) → (i 6).desc f.a = some src → (i 6).desc f.dst = some d →
       let m1 := s.main.settle w b.idx (convReads src w.base ++ dWrites d w.base)
       let c := convTile la.spec (m1.readTile w.core w.base src) d
       m1.rangesBad w.core (convReads src w.base) = false → c.2.2 &&& la.spec.trapEn = 0 →
       exec (.tconv br f) s = flagged (m1.writeTile w.core w.base d c.1 c.2.1) d 0 c.2.2) ∧
     (∀ x y d, Passes treduceIns s.main (i 5) → (i 5).desc f.a = some x → (i 5).desc f.b = some y →
       (i 5).desc f.dst = some d →
       let rd := dReads x w.base ++ dReads y w.base
       let m1 := s.main.settle w b.idx (rd ++ dWrites d w.base)
       let c := reduceTile la.spec (fieldMod f 18 17) (m1.readTile w.core w.base x) (m1.readTile w.core w.base y) d
       m1.rangesBad w.core rd = false → c.2.2 &&& la.spec.trapEn = 0 →
       exec (.treduce br f) s = flagged (m1.writeTile w.core w.base d c.1 c.2.1) d (dFlags x ||| dFlags y) c.2.2) ∧
     (∀ d, Passes tfillIns s.main (i 7) → (i 7).desc f.dst = some d →
       let m1 := s.main.settle w b.idx (lineRanges (dPart d 0 w.base 0 0))
       exec (.tfill br f) s = toMain s ((m1.writeTile w.core w.base d (List.replicate (dRows d)
         (List.replicate (dStored d) (fillCode d (b.getU f.a.toNat)))) []).putBundle br { b.awake with pc := b.pc + 8 })))
/-! ### Engine issue and the special class (R57, R79, R114-R116, R136) -/

/-- GISSUE, SISSUE and ENGINE_QUEUE_SPACE: the descriptor joins its engine's queue and the launch counts it; an issue to a
full queue waits (R114, R140). -/
def Obligations.EngineIssueResults : Prop :=
  ∀ (s : State) (br : BRef) (w : WorkGroup) (la : Launch) (b : Bundle) (f : Fields), Issues s.main br w la b →
    ∀ x ∈ ([(.gissue, false), (.sissue, true)] : List ((BRef → Fields → Instr) × Bool)),
      let ins := if x.2 then sissueIns else gissueIns
      let i := issueOf br w la b f 0xC (if x.2 then 1 else 0)
      let e := if x.2 then 64 + w.core / 9 else s.main.gatherPick (w.core / 9) (fieldMod f 1 0)
      let limit := if x.2 then 32 else 64
      let d := s.main.descriptor i
      let rs := (dsRanges x.2 d.1).map (fun r => (w.base + r.1, r.2))
      Passes ins s.main i → ∀ g, d.2.eng[e]? = some g → s.main.eng[e]? = some g →
      (limit ≤ g.queue.length →
        exec (x.1 br f) s = .next (bundleTo s br { b with waiting := some (.engine x.2 f) })) ∧
      (g.queue.length < limit → b.mmaTouches rs = true →
        exec (x.1 br f) s = .next (bundleTo s br { b with waiting := some .tmma })) ∧
      (g.queue.length < limit → b.mmaTouches rs = false → d.2.xfersHeld i rs = false →
        let m1 := d.2.settle w b.idx rs
        let q : EngDesc := { bytes := d.1, core := w.core, launch := la.id, wg := w.id, ctx := la.ctx, span := la.span,
                             base := w.base, seed := la.spec.seed, checked := la.spec.checked }
        let m2 : Main := { m1 with eng := modNth m1.eng e (fun g => { g with queue := g.queue ++ [q] }) }
        let t := toMain s ((m2.modLaunch la.id (fun l => { l with engines := l.engines + 1 })).putBundle br
          { b.awake with pc := b.pc + 8 })
        exec (x.1 br f) s = t ∧ (b.waiting = some (.engine x.2 f) → exec (.engineQueueSpace br) s = t))

/-- NOP, SRD, FLAGRD, FLAGCLR and BKPT of a launch that is not being debugged (R57, R116). -/
def Obligations.SpecialResults : Prop :=
  ∀ (s : State) (br : BRef) (w : WorkGroup) (la : Launch) (b : Bundle) (f : Fields), Issues s.main br w la b →
    NoGuard f → b.mask ≠ 0 → f.c = 0 →
    (f.dst = 0 → f.a = 0 → f.b = 0 → f.md = 0 →
      exec (.nop br f) s = .next (bundleTo s br { b with waiting := none, pc := b.pc + 8 }) ∧
      (la.spec.debug = false → exec (.bkpt br f) s = .next (bundleTo s br { b with waiting := none, pc := b.pc + 8 }))) ∧
    (f.a = 0 → f.b = 0 → f.md = 0 → f.dst.toNat < la.spec.regs → RegsReady b (b.effective f) [] [(f.dst.toNat, 1)] →
      exec (.srd br f) s = .next (bundleTo s br (wroteV b f (fun l => BitVec.ofNat 32 l)))) ∧
    (f.a = 0 → f.b = 0 → f.dst.toNat < 64 →
      ∀ x ∈ ([(1, b.idx), (2, la.spec.bundles), (3, w.lin % la.spec.gridX), (4, w.lin / la.spec.gridX % la.spec.gridY),
          (5, w.lin / (la.spec.gridX * la.spec.gridY)), (6, la.spec.gridX), (7, la.spec.gridY), (8, la.spec.gridZ),
          (9, s.main.coreRank la.span w.core), (0xA, s.main.spanRank la.span), (0xB, s.main.pierCount la.span),
          (0xC, w.cycle / 64), (0xD, s.main.time / 1000 * 1000), (0xE, la.spec.reqId.toNat)] : List (Nat × Nat)),
        f.md.toNat = x.1 → exec (.srd br f) s = .next (bundleTo s br (wroteU b f (BitVec.ofNat 64 x.2)))) ∧
    (f.b = 0 → f.dst.toNat < 64 →
      (f.md = 0 → f.a = 0 → exec (.flagrd br f) s = .next (bundleTo s br (wroteU b f (b.vflags.setWidth 64)))) ∧
      (∀ d, f.md = 1 → (issueOf br w la b f 0xD 2).desc f.a = some d →
        exec (.flagrd br f) s = .next (bundleTo s br (wroteU b f ((d.extractLsb' 128 8).setWidth 64))))) ∧
    (f.dst = 0 → f.a.toNat < 64 →
      let v : Byte := (b.getU f.a.toNat).setWidth 8
      (f.md = 0 → f.b = 0 → exec (.flagclr br f) s = .next (bundleTo s br
        { b with waiting := none, vflags := b.vflags &&& ~~~v, pc := b.pc + 8 })) ∧
      (∀ d, f.md = 1 → (issueOf br w la b f 0xD 3).desc f.b = some d →
        exec (.flagclr br f) s = .next (bundleTo s br
          { (b.awake.setT f.b (d &&& ~~~((v.setWidth 256) <<< 128))) with pc := b.pc + 8 })))

/-- Where an instruction traps (R79, R80, R116-R118, R136): a reserved word, TRAP, BKPT under debug, and fields out of the rules of an
integer instruction; the trap's record names the class, the lane, the program counter and the word. What a recoverable trap does (R136): the
launch keeps the first trap and counts the others, its unstarted and saved work is gone, and no bundle of it is resident. An instruction of
a thread class whose effective mask is empty only moves the program counter on (R56, R81). What error correction finds as an instruction
issues (R65, R479): a corrected error is counted and logged, and a row of core store that cannot be mended is poisoned and recorded, before
the instruction is performed as it would have been; a register's value becomes open and its lane is poisoned. -/
def Obligations.TrapResults : Prop :=
  (∀ (s : State) (br : BRef) (w : WorkGroup) (la : Launch) (b : Bundle) (f : Fields), Issues s.main br w la b →
     let traps (c : Instr) (word : DWord) (t : TrapReq) : Prop :=
       exec c s = toMain s (s.main.raiseTrap w la b.awake word b.pc t)
     (∀ word : DWord, funcListed (word.extractLsb' 60 4).toNat (word.extractLsb' 52 8).toNat = false →
       traps (.illegalInstruction br word) word (.plain .il 0xFF)) ∧
     (NoGuard f → f.dst = 0 → f.a = 0 → f.b = 0 → f.c = 0 → b.mask ≠ 0 →
       (fieldMod f 18 16 = 0 → traps (.trap br f) (fieldWord f 0xD 4)
         { cls := .db, cause := .ok, lane := 0xFF, dbcode := fieldMod f 15 0, flags := 0 }) ∧
       (f.md = 0 → la.spec.debug = true → traps (.bkpt br f) (fieldWord f 0xD 5)
         { cls := .db, cause := .ok, lane := 0xFF, dbcode := 0, flags := 0 })) ∧
     (b.effective f ≠ 0 → la.spec.regs ≤ f.dst.toNat →
       traps (.iadd br f) (fieldWord f 1 0) (.plain .il (nth (lanesOf (b.effective f)) 0 0xFF)))) ∧
  (∀ (m : Main) (w : WorkGroup) (la : Launch) (b : Bundle) (word : DWord) (pc : Nat) (t : TrapReq),
     m.launchOf la.id = some la → la.trap = none → trapRecoverable la t.cls = true →
     let m1 := m.raiseTrap w la b word pc t
     (∃ l, m1.launchOf la.id = some l ∧ l.trap = some (m.trapRec w la b word pc t) ∧ l.saved = [] ∧ l.todo = []) ∧
     (m1.cores.wgs.any fun x => x.launch == la.id) = false) ∧
  (∀ (s : State) (br : BRef) (w : WorkGroup) (la : Launch) (b : Bundle) (f : Fields), Issues s.main br w la b →
     b.effective f = 0 →
     ∀ c ∈ ([.iadd, .imac, .icmp, .pick, .clz, .xlane, .fadd, .fmac, .fsqrt, .fcmp, .cvt, .i2f, .pand, .pnot, .pset, .csld,
         .csst, .ld, .st, .pref, .atomicAdd, .atomicCas, .rld, .rst, .ratomAdd] : List (BRef → Fields → Instr)),
       exec (c br f) s = .next (bundleTo s br { b with waiting := none, pc := b.pc + 8 })) ∧
  (∀ (ins : Ins) (m : Main) (br : BRef) (w : WorkGroup) (la : Launch) (b : Bundle) (f : Fields), Issues m br w la b →
     ins.issue { br with ecc := .corrected } f m =
       ins.issue br f (({ m with cores := { m.cores with corrected := m.cores.corrected + 1 } } : Main).log (.core w.core)) ∧
     (∀ off, ins.issue { br with ecc := .row off } f m = ins.issue br f ((m.csPoison w.core off 1).noteCore w.core off)) ∧
     (∀ reg lane, reg * 32 + lane < b.v.length → reg < 128 → lane < 32 →
       let x := m.coreErr w b (.register reg lane)
       x.1 = m.draw.2.noteCore w.core (reg * 32 + lane) ∧ x.2.poisonOf reg 1 lane ≠ none ∧
       ∀ r l, r < 128 → l < 32 → r ≠ reg ∨ l ≠ lane → x.2.getV r l = b.getV r l))
/-- A write of a vector register changes that register in the lanes of the mask and nothing else a thread can read
(R56, R81); no other bundle of the module changes. -/
def Obligations.RegisterWriteFrame : Prop :=
  (∀ (b : Bundle) (reg : Nat) (mask : Word) (val : Nat → Word) (r l : Nat), b.v.length = 4096 → reg < 128 → r < 128 →
    l < 32 → (b.setV reg mask val).getV r l = (if r = reg ∧ mask.getLsbD l = true then val l else b.getV r l)) ∧
  (∀ (m : Main) (br br2 : BRef) (b b1 : Bundle), m.bundleOf br = some b → b1.idx = b.idx →
    (m.putBundle br b1).bundleOf br2 = (if br2.wg = br.wg ∧ br2.idx = br.idx then some b1 else m.bundleOf br2))

/-! ### Queues, packets and launches (R119-R138, R342, R343, R366-R385) -/

/-- DOORBELL_WRITE (R342, R343): a write of WIDX at offset 0 moves the queue's write index by at most its slots and asks
for a slot; another is out of range, and a write that names no queue is counted and ignored. -/
def Obligations.DoorbellResults : Prop :=
  ∀ (s : State) (fn : Fn) (page off : Nat) (bytes : List Byte),
    (s.main.objs.queues.find? (fun x => x.fn == fn && x.page == page) = none →
      exec (.doorbellWrite fn page off bytes) s = toMain s (s.main.bump 5 2 0 1)) ∧
    (off ≠ 0 ∨ bytes.length < 4 → exec (.doorbellWrite fn page off bytes) s = toMain s (s.main.bump 5 2 0 1)) ∧
    (∀ x c, s.main.objs.queues.find? (fun x => x.fn == fn && x.page == page) = some x → s.main.ctxOf x.ctx = some c →
      (x.destroying = true ∨ c.state = .teardown → exec (.doorbellWrite fn page off bytes) s = toMain s (s.main.bump 5 2 0 1)) ∧
      (x.destroying = false → c.state ≠ .teardown → off = 0 → 4 ≤ bytes.length →
      let w : Word := BitVec.ofNat 32 (fieldAt bytes 0 4)
      let d := (w.toNat + 2 ^ 32 - x.avail.toNat) % 2 ^ 32
      let q : QRef := ⟨x.ctx, x.idx⟩
      (d = 0 → exec (.doorbellWrite fn page off bytes) s = .next s) ∧
      (0 < d → d ≤ x.slots → exec (.doorbellWrite fn page off bytes) s =
        toMain s ((s.main.modQueue q (fun x => { x with avail := w })).wantSlot x.ctx)) ∧
      (x.slots < d → exec (.doorbellWrite fn page off bytes) s =
        toMain s (s.main.postCtx x.ctx 5 .ok (x.idx * 2 ^ 56 + 1)))))

/-- FENCE_SIGNAL, FENCE_WAIT, COUNTER_WAIT and packets of a reserved TYPE (R375, R380-R382).
BARRIER, MARKER and HINT (R383-R385, R454). -/
def Obligations.SyncPackets : Prop :=
  (∀ (s : State) (q : QRef) (pkt : List Byte) (c : Context) (x : Queue) (d : List Byte) (p : Packet) (m2 : Main),
     PacketStarts s.main q pkt c x d p m2 →
     ((pkType d = 0 ∨ 10 ≤ pkType d) →
       exec (.reservedPacket q pkt) s = toMain s (m2.completePacket q p .notPermitted 0 0)) ∧
     (pkType d = 4 → signalLegal d = true →
       let scope := fieldAt p.bytes 2 1
       let handle := fieldAt p.bytes 4 4
       let target := fieldAt p.bytes 8 2
       let v : DWord := BitVec.ofNat 64 (fieldAt p.bytes 0x10 8)
       (∀ f, target = m2.fab.module → m2.fenceOf handle = some f → f.maySignal target target c.num = true → f.live = true →
         exec (.fenceSignalPacket q pkt) s =
           toMain s ((m2.applySignal handle v (if c.checked then some (m2.modPos scope) else none)).completePacket q p .ok
             0 0)) ∧
       (target ≠ m2.fab.module → 4 ≤ scope → m2.routed target = true →
         exec (.fenceSignalPacket q pkt) s = toMain s ((m2.modPacket q p.pidx (fun p =>
           { p with waiting := true, due := m2.time + m2.param 4 * 1000 })).sendCtrl
             (.fenceSignal target (packetNum q p.pidx) handle v 4 c.checked c.num)))) ∧
     (∀ f, pkType d = 5 → fenceWaitLegal d = true → m2.fenceOf (fieldAt p.bytes 4 4) = some f →
       f.mayWait m2.fab.module c.num = true →
       (f.live = true → exec (.fenceWaitPacket q pkt) s =
         toMain s ((m2.packetWaits q p).wakePacket (fieldAt p.bytes 4 4) (q, p))) ∧
       (f.live = false → exec (.fenceWaitPacket q pkt) s =
         toMain s (m2.completePacket q p .fenceAbandoned 0 f.value.toNat))) ∧
     (∀ k, pkType d = 6 → counterWaitLegal d = true → m2.counterOf (fieldAt p.bytes 4 2) = some k → k.ctx = c.num →
       exec (.counterWait q pkt) s = toMain s ((m2.packetWaits q p).wakeCounterPacket (fieldAt p.bytes 4 2) (q, p)))) ∧
  (∀ (s : State) (q : QRef) (pkt : List Byte) (c : Context) (x : Queue) (d : List Byte) (p : Packet) (m2 : Main),
     PacketStarts s.main q pkt c x d p m2 →
     (pkType d = 7 → barrierLegal d = true →
       exec (.barrier q pkt) s = toMain s (m2.waitFor q p (m2.startedOf c.num q.q (some p.pidx) ++
         ((bitsSet 64 (fieldAt p.bytes 8 8)).filter (· != q.q)).flatMap (fun i => m2.startedOf c.num i none)))) ∧
     (pkType d = 9 → markerLegal d = true →
       exec (.marker q pkt) s = toMain s (m2.waitFor q p (m2.startedOf c.num q.q (some p.pidx)))) ∧
     (pkType d = 8 → hintLegal d = true →
       let kind := fieldAt p.bytes 2 1
       let start := m2.time + max 20 (fieldAt p.bytes 4 4) * 1000
       let dur := fieldAt p.bytes 8 4
       let stop := start + (if dur = 0 then 10000 else min dur 1000000) * 1000
       let hints := if kind = 0 then m2.hints.filter (fun h => h.ctx != c.num)
         else m2.hints ++ [{ ctx := c.num, kind := kind, start := start, stop := stop, online := false }]
       exec (.hint q pkt) s = toMain s ({ m2 with hints := hints }.completePacket q p .ok 0 0)))
/-- LAUNCH, DMA and COLLECTIVE packets start: the launch is added with its image's resources, the DMA packet's run is added
at its host mover, the collective begins on this pier (R119-R125, R298, R349, R377). A launch whose image or arguments wait at their homes
waits with them, as a collective does with its input and output (R199, R215). -/
def Obligations.WorkPackets : Prop :=
  ∀ (s : State) (q : QRef) (pkt : List Byte) (c : Context) (x : Queue) (d : List Byte) (p : Packet) (m2 : Main),
    PacketStarts s.main q pkt c x d p m2 →
    (pkType d = 1 → launchLegal d = true → m2.imageHeld c.span p.bytes = true →
      exec (.launch q pkt) s = toMain s (m2.holdPacket q p)) ∧
    (∀ h args m3, pkType d = 1 → launchLegal d = true → m2.imageHeld c.span p.bytes = false →
      m2.readImage c.span p.bytes = (.ok (h, args), m3) →
      let alone := pkBit p.bytes 3 && !(m3.spanCores c.span).isEmpty
      let sp := launchSpec c.seed c.checked c.debug alone p.bytes h args
      let need := m3.coreSetSize c.span alone * maxResident sp * recordSize sp 8
      m3.poolReserved c.num + need ≤ m3.poolBytes c →
      exec (.launch q pkt) s = toMain s (m3.addLaunch (.queue q p.pidx) c.num c.span sp [] 0
        (sp.gridX * sp.gridY * sp.gridZ) need 0 p.tstart)) ∧
    (∀ engine, pkType d = 2 → dmaLegal d = true → s.main.engineFree q x engine = true → m2.dmaRanges c p.bytes = true →
      m2.dmaGlaze p.bytes = none →
      exec (.dma q pkt engine) s = toMain s ((m2.addDma q c p engine 0).dmaPump)) ∧
    (pkType d = 3 → collLegal d = true → m2.collHeld c p.bytes = true → exec (.collective q pkt) s = toMain s (m2.holdPacket q p)) ∧
    (∀ r, pkType d = 3 → collLegal d = true → m2.collHeld c p.bytes = false → m2.recOf c.span = some r →
      m2.collOk c p.bytes r.tableInForce.length (m2.spanRank c.span) = true → (m2.spanCores c.span).isEmpty = false →
      let rank := m2.spanRank c.span
      let i := m2.colls.length
      let run : CollRun :=
        { q := q, pidx := p.pidx, span := c.span, collId := coId p.bytes, epoch := r.inForce.epoch, rank := rank,
          piers := r.tableInForce, packet := p.bytes, parts := [], results := false, flags := 0, poisoned := false,
          due := m2.time + m2.param 6 * 1000000, ended := none }
      let got := ({ m2 with colls := m2.colls ++ [run] } : Main).collInput c.span p.bytes
        (coSizes p.bytes r.tableInForce.length rank).1
      let reduces := coReduces p.bytes && (coOp p.bytes != 1 || rank == coRoot p.bytes)
      let run1 := { run with
        flags := (got.1.map (fun x => (coSend p.bytes x.1).2)).foldl (· ||| ·) 0
        results := !reduces
        poisoned := !coReduces p.bytes && got.1.any (·.2) }
      let m3 := ((got.2.modColl i (fun _ => run1)).sendOpen run1).collSends i run1 got.1
      exec (.collective q pkt) s = toMain s ((if reduces then m3 else m3.sendClose run1).collEarly i run1))

/-- WORK_GROUP_ADMIT, PREEMPT, SAVE_RECORD_WRITTEN, LAUNCH_COMPLETE and WORK_GROUP_BATCH (R77, R123-R128).
SLOT_SCHEDULE always completes: ended slots are freed, and the longest waiter takes a free one (R366-R368). -/
def Obligations.LaunchLife : Prop :=
  (∀ (s : State),
     (∀ launch core l u lin, s.main.launchOf launch = some l → s.main.cores.units[core]? = some u →
       l.head = some (.fresh lin) → s.main.launchRuns l = true → s.main.slotOpen l.ctx = true → s.main.coreOpen l.span core = true → (s.main.onCore core).length < 32 →
       s.main.quadsFit core (u.w % 4) l.spec (.fresh lin) = true →
       s.main.storeFits core l.spec.cstore ≠ [] → 1 ≤ s.main.reserveRoom l →
       let fits := s.main.storeFits core l.spec.cstore
       let base := nth fits (Config.freeNat s.main.free % fits.length) 0
       let m1 := ({ s.main with free := s.main.free + 1 } : Main).modLaunch launch (fun x =>
         { x.popHead with reserve := s.main.reserveFor l 1 })
       exec (.workGroupAdmit launch (.core core)) s =
         toMain s (m1.placeGroup l core (u.w % 4) (base * 16384) (.fresh lin))) ∧
     (∀ launch rank count l c r dest q pidx, s.main.launchOf launch = some l → l.coord = .queue q pidx →
       s.main.ctxOf l.ctx = some c → s.main.recOf l.span = some r → r.tableInForce[rank]? = some dest →
       l.spec.isLocal = false → dest ≠ s.main.fab.module → s.main.launchRuns l = true → s.main.routed dest = true →
       let x := l.batch (min count 64)
       let n := s.main.cores.nextLaunch
       let k := min x.2.2 (s.main.reserveRoom l)
       0 < x.1.length + k →
       let m1 : Main := { s.main with cores := { s.main.cores with nextLaunch := n + 1 } }
       exec (.workGroupAdmit launch (.pier rank count)) s =
         toMain s ((m1.modLaunch launch (fun y =>
           { y.handOut n dest (x.1.length + k) x with reserve := s.main.reserveFor l k })).sendCtrl (.work dest (.work
           { module := s.main.fab.module, launch := n, ctx := c.num, span := l.span, weight := c.weight, spec := l.spec,
             saved := x.1, first := x.2.1, count := x.2.2, room := x.1.length + k })))) ∧
     (∀ wg w, s.main.wgOf wg = some w →
       (w.state = .running →
         exec (.preempt wg) s = toMain s (s.main.modWg wg (fun w => { w with state := .stopping }))) ∧
       (∀ l, s.main.launchOf w.launch = some l → w.state ≠ .running → s.main.drained w = true →
         let sr := s.main.saveRecord w l
         let m1 := s.main.dropGroups (fun x => x.id == wg)
         (∀ q pidx ps, l.coord = .queue q pidx → m1.poolTake l.ctx (sr.record.length / 4096) = some ps →
           exec (.saveRecordWritten wg) s = toMain s ((m1.writePages l.span ps sr.record).modLaunch l.id (fun x =>
             { x with saved := x.saved ++ [{ sr with pages := ps }] }))) ∧
         (∀ module batch, l.coord = .remote module batch →
           exec (.saveRecordWritten wg) s = toMain s ((m1.modLaunch l.id (fun l => { l with room := l.room - 1 })).sendCtrl
             (.work module (.saved batch sr)))))) ∧
     (∀ launch l, s.main.launchOf launch = some l → s.main.launchOver l = true →
       (∀ q pidx, l.coord = .queue q pidx →
         exec (.launchComplete launch) s = toMain s ((s.main.finishLaunch l q pidx).after)) ∧
       (∀ module handle, l.coord = .remote module handle →
         exec (.launchComplete launch) s = toMain s (((s.main.dropLaunch launch).sendCtrl
           (.work module (.report handle l.report))).after))) ∧
     (∀ b r, s.main.recOf b.span = some r → s.main.fenced b.span = false →
       exec (.workGroupBatch (.work b)) s = toMain s (s.main.addLaunch (.remote b.module b.launch) (foreignCtx b.module b.ctx)
         b.span { b.spec with isLocal := false } b.saved b.first b.count 0 b.room s.main.time)) ∧
     (∀ batch r l, s.main.awayOf batch = some l → r.trap = none → r.fatal = false →
       exec (.workGroupBatch (.report batch r)) s = toMain s ((s.main.modLaunch l.id (fun l => l.reported batch r)).modCtx l.ctx
         (fun c => { c with energy := c.energy + r.energy })))) ∧
  (∀ (s : State), ∃ t, exec .slotSchedule s = .next t ∧
     ((∀ w, longest (s.main.retireForeign.freeSlots.slotWaiters.filter s.main.retireForeign.freeSlots.queuesFit) = some w →
       ∀ i, (List.range 48).find? (fun i => s.main.retireForeign.freeSlots.objs.slots[i]? == some none) = some i →
       t = { s with main := s.main.retireForeign.freeSlots.grantSlot i w }) ∧
     (s.main.retireForeign.freeSlots.slotWaiters = [] → t = { s with main := s.main.retireForeign.freeSlots })))
/-- DMA_COMPLETE and COLLECTIVE_COMPLETE: the run leaves, the counter advances, the fence is signalled, the packet is
recorded (R290, R378, R379); COLLECTIVE_TIMER_EXPIRY ends a collective TRACKER_LOST (R304).
The host side of a DMA packet: data that is read, its loss, translations, page requests and their end (R352-R356).
The same of a record that waits for a translation (R353, R373). -/
def Obligations.PacketEnds : Prop :=
  (∀ (s : State) (q : QRef) (pidx : Nat),
     (∀ i d p c, s.main.dmaIdx q pidx = some i → s.main.dmaAt i = some (d, p, c) → d.isOver (dmLen p.bytes) = true →
       d.failed = none → d.tagBad = 0 → d.poisoned = false →
       let m1 : Main := { s.main with host := { s.main.host with dmas := s.main.host.dmas.eraseIdx i } }
       exec (.dmaComplete q pidx) s = toMain s ((((m1.packetSignal c (dmScope p.bytes) (dmFence p.bytes)
         (dmFval p.bytes)).completePacket q p .ok 0 (seenEnergy c.fn p.energy)).dmaPump).after)) ∧
     (∀ i r c x p, s.main.colls.findIdx? (fun r => r.q == q && r.pidx == pidx) = some i → s.main.colls[i]? = some r →
       s.main.ctxOf q.ctx = some c → s.main.queueOf q = some x → x.running.find? (fun p => p.pidx == pidx) = some p →
       r.isOver = true →
       let m1 := ({ s.main with colls := s.main.colls.eraseIdx i } : Main).collRelease r
       (r.ended = none → r.poisoned = false →
         exec (.collectiveComplete q pidx) s = toMain s (((((m1.advanceCounter (coLc r.packet) 1
           (m1.modPos (coScope r.packet))).packetSignal c (coScope r.packet) (coFence r.packet)
           (coFval r.packet)).completePacket q p .ok r.flags (seenEnergy c.fn p.energy))).after)) ∧
       (r.ended = some .notPermitted →
         exec (.collectiveComplete q pidx) s =
           toMain s ((m1.completePacket q p .notPermitted r.flags (seenEnergy c.fn p.energy)).after))) ∧
     (∀ span id i r, s.main.collIdx span id = some i → s.main.colls[i]? = some r → r.isOver = false →
       s.main.collWaits i = false → exec (.collectiveTimerExpiry span id) s =
         toMain s ((s.main.until r.due).failColl i .trackerLost))) ∧
  (∀ (s : State) (q : QRef) (pidx i : Nat) (d : DmaRun) (p : Packet) (c : Context),
     s.main.dmaIdx q pidx = some i → s.main.dmaAt i = some (d, p, c) → s.main.host.dmas[i]? = some d →
     (∀ off x r, d.readAt off = some x → s.main.regionOf (dmRegion p.bytes) = some r →
       (∀ bytes tag, r.glaze = none → x.drop = false → bytes.length = x.len →
         s.main.spanBlocked c.span (dmSaddr p.bytes + off) x.len = false →
         exec (.hostReadCompletion q pidx off (.data bytes tag false)) s =
           toMain s ((((s.main.bump 4 0 d.engine x.len).spanWrite c.span (dmSaddr p.bytes + off) bytes false).modDma i
             (fun d => { d with poisoned := d.poisoned || false })).readOver i off)) ∧
       (∀ bytes tag ep, x.drop = true → bytes.length = x.len →
         exec (.hostReadCompletion q pidx off (.data bytes tag ep)) s = toMain s (s.main.readOver i off)) ∧
       (∀ f, s.main.fnOf c.fn = some f → f.timeout = 0 →
         let m1 := (s.main.until (x.since + 50000000)).aerLog .timeout c.fn (r.iova + dmHoff p.bytes + off)
         exec (.completionTimeout (.packet q pidx) true off) s = toMain s ((m1.modDma i (fun d =>
           { d with failed := d.failed.orElse (fun _ => some .faultUnresolved) })).readOver i off))) ∧
     (∀ f t y, d.st = .translating t y → s.main.fnOf c.fn = some f →
       let write := dmDir p.bytes == 1
       (∀ off, exec (.completionTimeout (.packet q pidx) false off) s = toMain s ((((s.main.until t).aerLog .timeout c.fn y).modDma i (fun d =>
         { d with failed := d.failed.orElse (fun _ => some .faultUnresolved), st := .ready, late := [] })).dmaPump)) ∧
       (∀ size rd wr, 4096 ≤ size → outdated d.late c.fn c.pasid (y / size * size) size = true →
         exec (.translationCompletion (.packet q pidx) (.page size rd wr)) s =
           toMain s (s.main.modDma i (fun d => { d with late := [], st := s.main.asks c.fn y }))) ∧
       (d.late = [] →
         exec (.translationCompletion (.packet q pidx) .rejected) s = toMain s ((s.main.modDma i (fun d =>
           { d with failed := d.failed.orElse (fun _ => some .faultUnresolved), st := .ready, late := [] })).dmaPump) ∧
         (∀ size rd wr, 4096 ≤ size → (if write then wr else rd) = true →
           let e : AtcEntry := { fn := c.fn, pasid := c.pasid, page := y / size * size, size := size, rd := rd, wr := wr }
           exec (.translationCompletion (.packet q pidx) (.page size rd wr)) s =
             toMain s (((((s.main.modDma i (fun d => { d with late := [] })).atcPut c.fn.port e).microPut d.engine e).modDma i
               (fun d => { d with st := .ready, retried := false })).dmaPump)))) ∧
     (∀ t, d.st = .faulted t true →
       (∀ r, s.main.regionOf (dmRegion p.bytes) = some r →
         let a := r.iova + dmHoff p.bytes + d.next
         let x := (s.main.lookupAll d.engine c.fn c.pasid (dmDir p.bytes == 1) (r.needs a)).1.getD a
         exec (.prgResponse (.packet q pidx) .success) s = toMain s ((s.main.pageEnd d.fn).modDma i (fun d =>
           { d with st := s.main.asks d.fn x, retried := true })) ∧
         exec (.prgResponse (.packet q pidx) .invalid) s = toMain s (((s.main.pageEnd d.fn).dmaFault i).dmaPump) ∧
         exec (.prgResponse (.packet q pidx) .failure) s = toMain s (((((s.main.modFn d.fn (fun f =>
           { f with priStopped := true })).pageEnd d.fn).dmaFault i)).dmaPump)) ∧
       exec (.faultTimeout (.packet q pidx)) s = toMain s (((((s.main.until t).pageEnd d.fn).dmaFault i)).dmaPump))) ∧
  (∀ (s : State) (n : Nat) (p : HostPut), s.main.putAt n = some p →
     (∀ f t x size rd, p.st = .translating t x → s.main.fnOf p.fn = some f → p.late = [] → 4096 ≤ size → p.owner.writes = true →
       let e : AtcEntry := { fn := p.fn, pasid := p.pasid, page := x / size * size, size := size, rd := rd, wr := true }
       exec (.translationCompletion (.put n) (.page size rd true)) s =
         toMain s ((((s.main.modPut n (fun p => { p with late := [] })).atcPut p.fn.port e).modPut n
           (fun p => { p with st := .ready })).putsGo) ∧
       exec (.translationCompletion (.put n) .rejected) s = toMain s (s.main.putFails p) ∧
       ∀ read off, exec (.completionTimeout (.put n) read off) s = toMain s (((s.main.until t).aerLog .timeout p.fn x).putFails p)) ∧
     (∀ t, p.st = .faulted t true →
       exec (.prgResponse (.put n) .invalid) s = toMain s ((s.main.pageEnd p.fn).putFails p) ∧
       exec (.faultTimeout (.put n)) s =
         toMain s (((s.main.until t).pageEnd p.fn).putFails p)))
/-! ### Engines (R139-R162, R295-R297) -/

/-- GATHER_DESCRIPTOR, SAMPLER_DESCRIPTOR, STREAM_DESCRIPTOR and RESERVED_DESCRIPTOR (R140, R141, R145, R159, R295): an engine
takes the descriptor at the head of its queue when it runs none.
DESCRIPTOR_END (R140, R141): the outputs and the 16-byte record are written, the descriptor leaves the queue, its
counter advances and its launch has one engine operation less. -/
def Obligations.DescriptorLife : Prop :=
  (∀ (s : State) (e : Nat) (q : EngDesc), s.main.engHead e = some q →
     let running (run : EngRun) (m : Main) : Main := m.modEngine e (fun x => { x with run := some run })
     let no : Outcome := toMain s (running .refused s.main)
     (e < 64 → dsOp q.bytes = 1 →
       s.main.engBlocked q (dsBit q.bytes 3 6) (dsAddr q.bytes 0x18) (gaListLen q.bytes) = false →
       (s.main.gaLegal q = false → exec (.gatherDescriptor e) s = no) ∧
       (s.main.gaLegal q = true → exec (.gatherDescriptor e) s = toMain s (s.main.gatherStart e q))) ∧
     (64 ≤ e → dsOp q.bytes = 2 →
       s.main.engBlocked q (dsBit q.bytes 1 3) (dsAddr q.bytes 8) (saVocab q.bytes * saSize q.bytes) = false →
       (saPen q.bytes = true → s.main.engBlocked q (dsBit q.bytes 1 2) (dsAddr q.bytes 0x10) (ceilDiv (saVocab q.bytes) 8) = false) →
       (s.main.saLegal q = false → exec (.samplerDescriptor e) s = no) ∧
       (s.main.saLegal q = true → ∃ run m, exec (.samplerDescriptor e) s = toMain s (running (.sample run) m))) ∧
     (e < 64 → dsOp q.bytes = 3 →
       (s.main.stLegal q = false → exec (.streamDescriptor e) s = no) ∧
       (s.main.stLegal q = true → exec (.streamDescriptor e) s =
         toMain s ((running (.stream { reqs := stReqs q.bytes, chunks := 0 }) s.main).streamGo e))) ∧
     ((e < 64 → dsOp q.bytes ≠ 1 ∧ dsOp q.bytes ≠ 3) → (64 ≤ e → dsOp q.bytes ≠ 2) →
       exec (.reservedDescriptor e) s = no)) ∧
  (∀ (s : State) (e : Nat) (x : Engine) (r : EngRun) (q : EngDesc) (rest : List EngDesc),
     s.main.eng[e]? = some x → x.run = some r → x.queue = q :: rest → r.finished = true →
     s.main.outBlocked (decide (64 ≤ e)) q r = false →
     let sampler := decide (64 ≤ e)
     let o := s.main.engOutputs q r
     let m1 := (o.2.2.engWrite q (dsRecord sampler q.bytes).2 (dsRecord sampler q.bytes).1 o.1).modEngine e (fun x =>
       { x with queue := rest, run := none })
     exec (.descriptorEnd e) s = toMain s (((m1.advanceCounter (dsCounter sampler q.bytes) o.2.1
       (s.main.engRelease e q)).modLaunch q.launch (fun l => { l with engines := l.engines - 1 })).after) ∧
     (r = .refused → o.1 = toBytes 2 0x0010 ++ List.replicate 14 0))
/-! ### Requests and answers between modules (R252, R253, R265-R268, R282-R291, R321-R323, R472, R484) -/

/-- RD, BULKRD, WR, BULKWR and ATOM at their target (R284, R287, R289-R291): a request whose checks hold is served and
answered, and leaves no older copy at a core of this pier that sent it (R219); one tagged with another epoch, or to a fenced sagger, is
answered so; one whose lines wait takes its place at their homes (R208).
When a request passes the checks of its span, epoch and addresses (R284): the span is known, its sagger is open, the
epoch is the one in force outside a transition, and the pier holds the bytes.
RDATA, ADATA, WACK, ERR, BDATA and MOVE (R268, R285, R323, R484): an answer ends the request whose tracker entry its tag
names, or is an orphan that is counted; a MOVE that names where the data went sends the request on, and one with a reserved bit set is
counted and discarded (R253). -/
def Obligations.RequestResults : Prop :=
  (∀ (s : State) (g : Msg) (m0 : Main), s.main.takeMsg g = some m0 → s.main.inOrder g = true → msgReserved g = false →
     (s.main.spanHeld (some (.message g)) g.span (rqAddr g) (rqBytes g) = true → s.main.hasTurns g = false →
       ∀ x ∈ ([(.rd, 0x01), (.bulkrd, 0x03), (.wr, 0x30), (.bulkwr, 0x31), (.atom, 0x18)] : List ((Msg → Instr) × Nat)),
         g.op = x.2 → exec (x.1 g) s =
           toMain s (s.main.takeTurns (.message g) (s.main.spanLines g.span (rqAddr g) (rqBytes g)))) ∧
     (s.main.spanHeld (some (.message g)) g.span (rqAddr g) (rqBytes g) = false →
     let m1 := m0.leaveTurns (.message g) (fun _ => true)
     let fails (c : Msg → Instr) (m : Main) : Prop := exec (c g) s = toMain s m.after
     let done (c : Msg → Instr) (m : Main) : Prop := exec (c g) s = toMain s (m.ownSees g).after
     let held : Prop := m1.serveCheck g (rqBytes g) = .go
     let small (lc : Bool) : Prop := rqFields g lc = true ∧ rqSmall g = true
     let bulk (lc : Bool) : Prop := rqFields g lc = true ∧ rqBulk g = true
     let rd := m1.spanRead g.span (rqAddr g) (rqBytes g)
     (g.op = 0x01 → small false → g.data.length = 16 →
       (held → done .rd (rd.2.2.respond g 0x20 (padSlots rd.1) rd.2.1)) ∧
       (m1.serveCheck g (rqBytes g) = .err .epochStale → fails .rd ((m1.logStale g).respondErr g .epochStale 0)) ∧
       (m1.serveCheck g (rqBytes g) = .err .saggerClosed →
         fails .rd (m1.respondErr g .saggerClosed (if m1.quiesced then 0 else m1.abortNum g.span)))) ∧
     (g.op = 0x03 → bulk false → g.data.length = 16 → held → done .bulkrd (rd.2.2.respond g 0x40 rd.1 rd.2.1)) ∧
     (∀ x ∈ ([(.wr, 0x30), (.bulkwr, 0x31)] : List ((Msg → Instr) × Nat)), g.op = x.2 →
       (if x.2 = 0x30 then small true ∧ g.data.length = 32
         else bulk true ∧ rqBytes g ≤ 4080 ∧ g.data.length = 16 + rqBytes g) → held →
       (m1.lcLands g.span (rqLc g) = true →
         let m2 := m1.landWrite g ((g.data.drop 16).take (rqBytes g))
         done x.1 ((m2.advanceCounter (rqLc g) (rqBytes g) m2.landing).respond g 0x22 [] false)) ∧
       (m1.lcLands g.span (rqLc g) = false → done x.1 (m1.respondErr g .notPermitted 0))) ∧
     (∀ op lpa, 0x10 ≤ g.op → g.op ≤ 0x1A → small false → (rqBytes g = 4 ∨ (rqBytes g = 8 ∧ g.op ≠ 0x1A)) →
       g.data.length = 32 → held → atomOpOf g.op = some op → m1.mem.translate g.span (rqAddr g) = some lpa →
       let n := rqBytes g
       let r := m1.homeAT lpa op n ((g.data.drop 16).take n) ((g.data.drop (16 + n)).take n) g.rr
       done .atom (if r.1.poison then r.2.respondErr g .poisoned 0 else r.2.respond g 0x21 (padSlots r.1.old) false)))) ∧
  (∀ (m : Main) (g : Msg) (len : Nat),
     (m.recOf g.span = none → m.serveCheck g len = .err .notPermitted) ∧
     (∀ r, m.recOf g.span = some r →
       (m.fenced g.span = true → m.serveCheck g len = .err .saggerClosed) ∧
       (m.fenced g.span = false → r.phase = .stable → g.epoch ≠ r.current.epoch → m.serveCheck g len = .err .epochStale) ∧
       (m.fenced g.span = false → r.phase = .stable → g.epoch = r.current.epoch → r.current.valid = true →
         m.serveCheck g len = (if m.mem.holdsRange g.span (rqAddr g) len then .go else .err .notPermitted)))) ∧
  (∀ (s : State) (g : Msg) (m1 : Main), s.main.takeMsg g = some m1 → msgReserved g = false →
     (∀ x ∈ ([(.rdata, 0x20), (.adata, 0x21), (.wack, 0x22), (.moveMsg, 0x23), (.errMsg, 0x24), (.bdata, 0x40)] :
         List ((Msg → Instr) × Nat)), g.op = x.2 → m1.matchTrack g = none →
       exec (x.1 g) s = toMain s (m1.bump 6 0 g.op 1)) ∧
     (∀ e, m1.matchTrack g = some e →
       (g.op = 0x20 → exec (.rdata g) s = toMain s ((m1.finishTrack e (.data g.data g.poison)).after)) ∧
       (g.op = 0x21 → exec (.adata g) s = toMain s ((m1.finishTrack e (.data g.data g.poison)).after)) ∧
       (g.op = 0x22 → exec (.wack g) s = toMain s ((m1.finishTrack e .ack).after)) ∧
       (g.op = 0x40 → exec (.bdata g) s = toMain s ((m1.finishTrack e (.data (g.data.take e.len) g.poison)).after)) ∧
       (∀ st, g.op = 0x24 → Status.ofCode (fieldAt g.data 0 2) = some st → st ≠ .saggerClosed →
         exec (.errMsg g) s = toMain s ((m1.finishTrack e (.fail st)).after)) ∧
       (g.op = 0x24 → Status.ofCode (fieldAt g.data 0 2) = some .saggerClosed →
         exec (.errMsg g) s = toMain s (((m1.finishTrack e (.fail .saggerClosed)).takeAbort e.span (fieldAt g.data 2 2) ⟨4, 3⟩
           false).after)) ∧
       (g.op = 0x23 →
         let v := ofBytes g.data
         (v / 2 ^ 56 % 2 ^ 72 ≠ 0 ∨ v % 2 ^ 13 ≠ 0 → exec (.moveMsg g) s = toMain s (m1.bump 5 1 0 1).after) ∧
         (v / 2 ^ 56 % 2 ^ 72 = 0 → v % 2 ^ 13 = 0 →
         (v / 2 ^ 39 % 2 = 0 ∨ e.retry = 3 → exec (.moveMsg g) s = toMain s ((m1.finishTrack e (.fail .epochStale)).after)) ∧
         (v / 2 ^ 39 % 2 = 1 → e.retry ≠ 3 →
           let e1 := { e with reissued := true, retry := e.retry + 1, epoch := v / 2 ^ 40 % 2 ^ 16, dest := v / 2 ^ 26 % 2 ^ 13
                              deadline := m1.time + m1.param 4 * 1000 }
           let entries := modWhere m1.fab.entries (fun x => x.bank == e.bank && x.entry == e.entry) (fun _ => e1)
           let m2 : Main := { m1 with fab := { m1.fab with entries := entries } }
           let h := e1.msg m2.fab.module
           (e1.dest = m2.fab.module ∨ m2.candidates h ≠ [] → exec (.moveMsg g) s = toMain s ((m2.send h).after)) ∧
           (e1.dest ≠ m2.fab.module → m2.candidates h = [] →
             exec (.moveMsg g) s = toMain s ((m2.finishTrack e1 (.fail .notPermitted)).after)))))))
/-- CDATA and CFAIL reach their collective, or wait for it to start here (R300, R304); a reserved message is counted and, if
it asks for something, answered (R253). -/
def Obligations.OtherMessages : Prop :=
  ∀ (s : State) (g : Msg) (m1 : Main), s.main.takeMsg g = some m1 →
    (∀ i, msgReserved g = false → m1.collIdx g.span (fieldAt g.data 0 4) = some i → m1.collWaits i = false →
      (g.op = 0x50 → exec (.cdata g) s = toMain s (m1.collTake i g)) ∧
      (g.op = 0x51 → exec (.cfail g) s =
        toMain s (m1.endColl i ((Status.ofCode (fieldAt g.data 4 2)).getD .trackerLost)))) ∧
    (msgReserved g = false → m1.collIdx g.span (fieldAt g.data 0 4) = none →
      (m1.collIds.any fun u => u.span == g.span && u.id == fieldAt g.data 0 4 && u.left.contains g.src) = false →
      (g.op = 0x50 → exec (.cdata g) s = toMain s { m1 with early := m1.early ++ [g] }) ∧
      (g.op = 0x51 → exec (.cfail g) s = toMain s { m1 with early := m1.early ++ [g] })) ∧
    (g.hops = 0 ∨ 4 < g.hops ∨ 256 < msgLen g ∨ (g.tag % 64 ≠ 0 ∧ opChannel g.op ≠ none ∧ opChannel g.op ≠ some 2) ∨ (opChannel g.op = none ∧ ¬(0x60 ≤ g.op ∧ g.op ≤ 0x7F)) →
      ((opChannel g.op = some 0 ∨ opChannel g.op = some 3) →
        exec (.reservedMessage g) s = toMain s ((m1.bump 5 1 0 1).respondErr g .notPermitted 0)) ∧
      (opChannel g.op ≠ some 0 → opChannel g.op ≠ some 3 →
        exec (.reservedMessage g) s = toMain s (m1.bump 5 1 0 1)))

/-! ### Lanes, optics and the fabric's map and time (R243-R279) -/

/-- DATA_FLIT (R250, R254, R257): on a physical lane from which the receiver takes flits, a good one with the expected LSEQ is accepted, and
what it completes is received; another is discarded and the receiver answers NAK. What FEC has corrected, or could not, is counted (R254,
R524), on a looped engine too (R522). NAK, CREDIT and IDLE flits on an active lane (R250, R254, R255, R257, R276): what a flit acknowledges
leaves the replay buffer, and the first flit left is sent again, at most 8 times, after which the lane has failed. -/
def Obligations.FlitResults : Prop :=
  (∀ (s : State) (i phys : Nat) (fl : Flit) (h : BitVec 128) (l : Lane), s.main.fab.lanes[i]? = some l → s.main.laneTests i = true →
     exec (.dataFlit i phys fl) s = toMain s (s.main.countFec i fl.fec) ∧
     (fhKind h = 1 → exec (.idle i h true) s = .next s ∧
       ((s.main.optOf (i / 8)).pattern = 0 → exec (.idle i h false) s = toMain s (s.main.countFec i .uncorrectable)))) ∧
  (∀ (s : State) (i phys : Nat) (fl : Flit) (l : Lane), s.main.fab.lanes[i]? = some l → l.st = .active →
     ((s.main.sparingOf i = none → s.main.takesFrom i l phys = (phys == l.phys)) ∧
      (∀ p c, s.main.sparingOf i = some p → p.hitless = true → p.trained = true → p.cut = some c →
        (s.main.takesFrom i l phys = true ↔ phys = 8 ∨ phys = l.phys ∧ seqFrom c l.rxSeq = false))) ∧
     (s.main.laneTests i = false → s.main.takesFrom i l phys = true →
     let m0 := s.main.countFec i fl.fec
     (flitGood fl = false ∨ fhLseq fl.hdr ≠ l.rxSeq →
       exec (.dataFlit i phys fl) s = toMain s (m0.modLane i (fun l => { l with nakSent := true }))) ∧
     (flitGood fl = true → fhLseq fl.hdr = l.rxSeq →
       let u := unpack l fl
       let heard := l.heard fl.hdr s.main.time
       let m1 := m0.modLane i (fun _ =>
         { heard with
           rxSeq := (l.rxSeq + 1) % 4096, rxAny := true, nakSent := false, incoming := u.2,
           owed := modNth l.owed (fhVc fl.hdr) (· + 1) })
       let m2 := if l.resends ≠ 0 ∧ heard.resends = 0 then m1.log (.replay i) else m1
       exec (.dataFlit i phys fl) s = toMain s ((u.1.foldl (fun m p => m.received i p) (m2.bump 3 1 i 1)).flush)))) ∧
  (∀ (s : State) (i : Nat) (h : BitVec 128) (l : Lane), s.main.fab.lanes[i]? = some l → l.st = .active →
     let l1 := l.heard h s.main.time
     let heard (m : Main) : Main :=
       let m1 := m.modLane i (fun _ => l1)
       if l.resends ≠ 0 ∧ l1.resends = 0 then m1.log (.replay i) else m1
     (fhKind h = 2 →
       let m1 := heard (s.main.bump 3 2 i 1)
       exec (.nak i h) s = toMain s ((if l1.replay = [] then m1 else if 8 ≤ l1.resends then m1.failLane i
         else m1.modLane i (fun x =>
           { x with resends := l1.resends + 1, waitAt := s.main.time, last := l1.replay.getLast?.map (·.flit) })).flush)) ∧
     (fhKind h = 3 → exec (.credit i h) s = toMain s ((heard s.main).flush)) ∧
     (fhKind h = 1 → s.main.laneTests i = false →
       exec (.idle i h true) s = toMain s (((heard s.main).modLane i (fun x =>
         { x with coneAt := s.main.time })).flush) ∧
       exec (.idle i h false) s = .next s))


/-- What makes a lane fail or ask for its spare: acknowledgements that do not come, loss of signal, an error ratio above
the threshold, an optical power alarm, the far end's request, which a spare that this end has begun answers too (R255, R270, R271, R273).
Spares, retraining and training (R243, R260, R270-R275): a trained spare takes its lane over, at once or at a named
LSEQ; a lane comes up when both ends agree and its neighbour is the one its group names; a spare whose far end is another engine's stays
for a lane that lies there (R245). -/
def Obligations.LaneRecovery : Prop :=
  (∀ (s : State) (i : Nat) (l : Lane), s.main.fab.lanes[i]? = some l → l.st = .active →
     let spare (hitless : Bool) (m : Main) : Main := m.modOpt (i / 8) (fun o => { o with
       sparing := some { lane := i, hitless := hitless, known := false, trained := false, lseq := none, cut := none } })
     (l.replay ≠ [] → 8 ≤ l.resends → exec (.laneAckTimeout i) s = toMain s ((s.main.failLane i).flush)) ∧
     (l.replay ≠ [] → l.resends < 8 →
       exec (.laneAckTimeout i) s = toMain s (((s.main.until (l.waitAt + 100000)).failLane i).flush)) ∧
     exec (.laneSignalLoss i) s = toMain s ((s.main.failLane i).flush) ∧
     (s.main.procOut (fabProc i) = false → s.main.laneTests i = false →
     (∀ ber : Word, let m1 := s.main.gauge 3 5 i ber.toNat
       exec (.berWindow i ber) s =
         toMain s (if (f32 (BitVec.ofNat 32 (s.main.param 5))).lt (f32 ber) then m1.degrade i else m1)) ∧
     (∀ uw, exec (.rxPowerAlarm i uw) s = toMain s ((s.main.gauge 3 6 i uw).degrade i)) ∧
     (s.main.spareFree i = true →
       (∀ abrupt, exec (.spareRequest ⟨i, abrupt⟩) s = toMain s (((spare (!abrupt) (if abrupt then s.main.stopLane i else s.main)).sendFabric
         i (.spareGrant i)).sendFabric i (.identity i))) ∧
       s.main.degrade i = ((spare true s.main).sendFabric i (.spareRequest i false)).sendFabric i (.identity i)) ∧
     (s.main.spareFree i = false →
       (s.main.sparingOf i = none → ∀ abrupt, exec (.spareRequest ⟨i, abrupt⟩) s = .next s) ∧ s.main.degrade i = s.main))) ∧
  (∀ (s : State) (i : Nat),
     (s.main.procOut (fabProc i) = false →
     (∀ r abrupt, s.main.sparingOf i = some r →
       let m1 := s.main.sendFabric i (.spareGrant i)
       exec (.spareRequest ⟨i, abrupt⟩) s = toMain s (if abrupt = true ∧ r.hitless = true then (m1.stopLane i).modOpt (i / 8) (fun o =>
         { o with sparing := some { r with hitless := false } }) else m1)) ∧
     (∀ ber : Word, s.main.laneTests i = true →
       exec (.berWindow i ber) s = toMain s (s.main.gauge 3 5 i ber.toNat)) ∧
     (∀ r l named, s.main.sparingOf i = some r → s.main.fab.lanes[i]? = some l → r.known = true →
       let set (r : Sparing) (m : Main) : Main := m.modOpt (i / 8) (fun o => { o with sparing := some r })
       (r.trained = false → r.hitless = false →
         (s.main.laneDark i = false → exec (.spareTrained i named) s = toMain s ((s.main.useSpare i).flush)) ∧
         (s.main.laneDark i = true → exec (.spareTrained i named) s = toMain s (set { r with trained := true } s.main))) ∧
       (r.trained = false → r.hitless = true → l.resends = 0 → s.main.laneDark i = false →
         exec (.spareTrained i named) s =
           toMain s (((set { r with trained := true, lseq := some l.txSeq, cut := some (named % 4096) } s.main).modLane i (fun l =>
             { l with txPhys := 8 })).sendCtrl (.named i l.txSeq))) ∧
       (r.trained = true → r.hitless = true → l.resends = 0 → s.main.laneDark i = false →
         (∀ n f, r.lseq = some n → f ∈ l.replay → seqFrom n (fhLseq f.flit.hdr) = true) →
         (∀ c, r.cut = some c → seqFrom c l.rxSeq = true) →
         exec (.hitlessSpare i) s =
           toMain s ((((s.main.useSpare i).log (.spare i)).postFabric i 1 (s.main.laneNeighbour i)).flush)))) ∧
     (i < 16 → (s.main.optOf i).laserOn = true → (s.main.optOf i).loopback = 0 →
       s.main.procOut (fabProc (i * 8)) = false →
       let m1 := s.main.modOpt i (fun o => { o with spare := if o.spareUsed.isSome then .active else .standby })
       exec (.laneRetrain i) s = toMain s ((rangeFrom (i * 8) 8).foldl (fun m k =>
         if (m.fab.lanes[k]?.any fun l => l.st == .calibrating || l.st == .failed || l.st == .miswired) = true then
           (m.modLane k (fun l => { l with st := .training })).sendCtrl (.identity k)
         else m) m1)) ∧
     (∀ l tx rx trip, s.main.fab.lanes[i]? = some l → s.main.procOut (fabProc i) = false →
       (∀ r, s.main.sparingOf i = some r → r.known = false →
         let wired : Prop := tx = rx ∧ tx.module = s.main.laneNeighbour i ∧ tx.lane = 8
         let known (sp : LaneState) (m : Main) : Main := m.modOpt (i / 8) (fun o =>
           { o with spareFar := some tx, spareTrip := trip, spare := sp, sparing := none })
         let goesOn (m : Main) : Main := if r.hitless then m else m.withdraw i
         (wired → tx.engine = l.farEngine →
           exec (.identityExchange i tx rx trip) s = toMain s (((s.main.modOpt (i / 8) (fun o => { o with
             spareFar := some tx, spareTrip := trip, sparing := some { r with known := true } })).modLane i (fun l =>
               { l with roundTrip := trip })).flush)) ∧
         (wired → tx.engine ≠ l.farEngine → exec (.identityExchange i tx rx trip) s =
           toMain s ((Main.keepingOrder (fun m => goesOn (known .standby m)) s.main).flush)) ∧
         (¬wired → exec (.identityExchange i tx rx trip) s =
           toMain s ((Main.keepingOrder (fun m => goesOn ((known .miswired m).postFabric i 5 tx.module)) s.main).flush))) ∧
       (s.main.sparingOf i = none → l.st = .training ∨ l.st = .calibrating →
       let far (st : LaneState) (m : Main) : Main := m.modLane i (fun l =>
         { l with st := st, farModule := tx.module, farEngine := tx.engine, farLane := tx.lane, roundTrip := trip })
       (s.main.laneGroup i = none → exec (.identityExchange i tx rx trip) s = toMain s (far .training s.main)) ∧
       (∀ g, s.main.laneGroup i = some g →
         (tx = rx → tx.module = g.neighbour →
           let m1 := Main.keepingOrder (fun m => m.modLane i (fun l => l.fresh tx trip m.time)) s.main
           exec (.identityExchange i tx rx trip) s = toMain s ((if s.main.activeIn g = [] ∧ s.main.rcv.phase = .running then
             m1.postFabric g.num 4 g.neighbour else m1).flush)) ∧
         (tx ≠ rx ∨ tx.module ≠ g.neighbour →
           exec (.identityExchange i tx rx trip) s = toMain s ((far .miswired s.main).postFabric i 5 tx.module))))))
/-- Latches, laser sources and the fabric map (R22, R247, R248, R261, R262). -/
def Obligations.OpticsAndMap : Prop :=
  ∀ (s : State) (e : Nat), e < 16 →
    let o := s.main.optOf e
    exec (.connectorLatchOpen e) s = toMain s (((s.main.modOpt e (fun o => { o with latchClosed := false })).darken e).flush) ∧
    (o.latchClosed = false → exec (.connectorLatchClose e) s = toMain s (s.main.modOpt e (fun o =>
      { o with latchClosed := true, closedAt := s.main.time }))) ∧
    (o.latchClosed = true → o.laserOn = false → o.shutdown = false → s.main.rcv.mainRails = true →
      (o.sourceFailed = false ∨ o.onRedundant = true) →
      let m1 := (s.main.until (o.closedAt + 1000000000)).modOpt e (fun o =>
        { o with laserOn := true, spare := .calibrating })
      exec (.laserRelight e) s = toMain s ((rangeFrom (e * 8) 8).foldl (fun m k => m.modLane k (fun l =>
        { l with st := if o.loopback = 0 then .calibrating else .off })) m1)) ∧
    (let pair := if e % 2 = 0 then e + 1 else e - 1
     let m1 := s.main.modOpt e (fun o => { o with sourceFailed := true })
     (o.onRedundant = true ∨ (s.main.optOf pair).onRedundant = true →
       exec (.laserSourceFailure e) s = toMain s ((m1.darken e).flush)) ∧
     (o.onRedundant = false → (s.main.optOf pair).onRedundant = false →
       exec (.laserSourceFailure e) s = toMain s ((m1.modOpt e (fun x =>
         { x with onRedundant := true, takeover := x.laserOn })).postFabric (e * 8) 9 (s.main.laneNeighbour (e * 8))))) ∧
    (o.takeover = true →
      let m1 := s.main.modOpt e (fun o => { o with takeover := false })
      (∀ r, o.sparing = some r → r.trained = true → r.hitless = false →
        s.main.procOut (fabProc r.lane) = false → exec (.laserTakeoverDone e) s = toMain s ((m1.useSpare r.lane).flush)) ∧
      (o.sparing.all (fun r => !r.trained || r.hitless) = true →
        exec (.laserTakeoverDone e) s = toMain s (m1.flush))) ∧
    (∀ f, s.main.rcv.phase = .running → s.main.fab.mapped = false → mapLegal f = true →
      let groups := f.groups.map (fun g => ({ num := g.1, neighbour := g.2.1, spares := g.2.2.1, lanes := g.2.2.2 } : Group))
      let routes := f.routes.map (fun r => ({ dest := r.1, self := r.2.1, hops := r.2.2 } : Route))
      let fab := { s.main.fab with module := f.module, mapped := true, root := f.root, groups := groups, routes := routes }
      exec (.fabricMapWrite f) s = toMain s ((Main.keepingOrder (fun _ => { s.main with fab := fab }) s.main).flush))


/-- Fabric time (R277-R279): it is stepped only before the module has joined; the sources of time and their loss.
Once a module has joined the fabric's time, no exchange and no edge steps it (R277). -/
def Obligations.FabricTime : Prop :=
  (∀ (s : State),
     let stamp (m : Main) : Main := { m with fab := { m.fab with lastHeard := m.time } }
     (∀ n off inB, (s.main.fab.groups.any fun g => g.neighbour == n && !(s.main.activeIn g).isEmpty) = true →
       (s.main.fab.root = s.main.fab.module ∨ s.main.fab.syncing = true ∨ s.main.timingNeighbour n = false →
         exec (.timeExchange n off inB) s = toMain s (s.main.sendCtrl (.timeReply n))) ∧
       (s.main.fab.root ≠ s.main.fab.module → s.main.fab.syncing = false → s.main.timingNeighbour n = true →
         exec (.timeExchange n off inB) s = toMain s (stamp ((s.main.sendCtrl (.timeReply n)).offsetTime off inB)))) ∧
     (s.main.fab.timeState = .locked → s.main.fab.root ≠ s.main.fab.module → s.main.fab.syncing = false →
       let m1 := s.main.until (s.main.fab.lastHeard + 10000000)
       exec .holdover s = toMain s (({ m1 with fab := { m1.fab with timeState := .holdover } } : Main).postFabric 0 6 0)) ∧
     (∀ off spaced,
       (s.main.fab.syncOn = false → exec (.ftimeSync off spaced) s = .next s) ∧
       (s.main.fab.syncOn = true →
         let m1 := if spaced then s.main.offsetTime off true else s.main
         exec (.ftimeSync off spaced) s =
           toMain s { m1 with fab := { m1.fab with lastSync := m1.time, syncLost := false } })) ∧
     (s.main.fab.syncing = true →
       let m1 := s.main.until (s.main.fab.lastSync + 3000000000)
       exec .ftimeSyncLoss s = toMain s { m1 with fab := { m1.fab with syncLost := true, lastHeard := m1.time } }) ∧
     (∀ on, exec (.ftimeSyncEnable on) s = toMain s
       { s.main with fab := { s.main.fab with syncOn := on, syncLost := false, lastSync := s.main.time } })) ∧
  (∀ (s t : State) (c : Instr), s.main.fab.timeState ≠ .unlocked →
     ((∃ n off inB, c = .timeExchange n off inB) ∨ (∃ off sp, c = .ftimeSync off sp)) →
     exec c s = .next t → t.main.time = s.main.time)
/-! ### Messages of the module's own (R334, R335, R380, R452, R471-R473, R485, R505) -/

/-- SAG_NOTICE, PACE_TOKEN, ABORT, REMOTE_FENCE_SIGNAL, PIER_RECEIPT and BANKING_NOTICE. -/
def Obligations.ControlMessages : Prop :=
  ∀ (s : State),
    (∀ sender detected recovered, s.main.rcv.phase = .running →
      (s.main.peers.contains sender = false → exec (.sagNotice sender detected recovered) s = .next s) ∧
      (s.main.peers.contains sender = true →
        exec (.sagNotice sender detected recovered) s = .next (s.sagNotice sender detected recovered))) ∧
    (∀ sender tk limit, s.main.rcv.phase = .running → tk % 100000 = 0 → s.main.peers.contains sender = true →
      (16 ≤ limit → limit ≤ 64 →
        exec (.paceToken sender tk limit) s = .next { s.sagsAct with
          power := s.sagsAct.power.token { module := sender, limit := limit, sagAt := none } }) ∧
      (limit < 16 ∨ 64 < limit → exec (.paceToken sender tk limit) s = toMain s (s.main.bump 5 1 0 1))) ∧
    (∀ span (sl : BitVec 128), sl.toNat % 2 ^ 27 ≠ 0 → exec (.abort span sl) s = toMain s (s.main.bump 5 1 0 1)) ∧
    (∀ span (sl : BitVec 128), sl.toNat % 2 ^ 27 = 0 → ∃ m1, exec (.abort span sl) s = toMain s m1 ∧
      (s.main.recOf span = none → m1 = s.main) ∧
      (∀ r, s.main.recOf span = some r → s.main.abortNum span ≠ 0 → sl.toNat / 2 ^ 40 % 2 ^ 8 ≠ 0x35 →
        let a := sl.toNat / 2 ^ 48 % 2 ^ 16
        let ahead := (a + 2 ^ 16 - s.main.abortNum span) % 2 ^ 16
        (a ≠ 0 → 1 ≤ ahead → ahead ≤ 0x7FFF →
          m1 = (s.main.saggerError span 0x34 ⟨4, 3⟩ none a false (some a)).setAbort span a) ∧
        (ahead = 0 ∨ 0x7FFF < ahead → m1 = s.main))) ∧
    (∀ sig, sig.answer = none →
      let rr : RelRec := { scope := sig.scope, module := sig.sender, cluster := 0, core := 15, host := false, modLevel := true }
      let r := s.main.signalFence s.main.fab.module sig.sender sig.ctx sig.handle sig.value (if sig.checked then some rr else none)
      exec (.remoteFenceSignal sig) s = toMain s (r.2.sendCtrl (.fenceAck sig.sender sig.id r.1))) ∧
    (∀ sig st q p, sig.answer = some st → s.main.signalPacket sig.id = some (q, p) →
      (st = .ok ∨ st = .fenceAbandoned ∨ st = .notPermitted →
        exec (.remoteFenceSignal sig) s = toMain s (s.main.completePacket q p st 0 0)) ∧
      (st = .trackerLost →
        exec (.remoteFenceSignal sig) s = toMain s ((s.main.until p.due).completePacket q p st 0 0))) ∧
    (∀ module, (s.main.fab.groups.any fun g => g.neighbour == module) = false →
      exec (.bankingNotice module) s = toMain s s.main.flush) ∧
    (∀ module g, s.main.fab.groups.filter (fun g => g.neighbour == module && !(s.main.activeIn g).isEmpty) = [g] →
      exec (.bankingNotice module) s = toMain s ((Main.keepingOrder (fun m => ((m.activeIn g).foldl (fun m i =>
        m.modLane i (fun l => { l with st := .failed })) m).groupOut g) s.main).flush))

/-! ### Homes, caching agents and what they exchange (R203-R217) -/

/-- The requests that homes serve when they can serve the line now (R96, R191, R205, R209, R212): a miss of a caching agent is
filled in the state granted, E only for an L1 that is alone; a store miss makes the L1 the owner in M; uncached reads; a
whole-line write drops what copies hold, a partial one has owners write back first; an atomic works at its home.
A request for a line that is held back waits, with the line's entry BUSY, and is served before later ones (R206, R208). -/
def Obligations.HomeRequests : Prop :=
  (∀ (s : State) (line : Nat) (ecc : Ecc), s.main.mem.backed (line * 128) = true →
    (s.main.lineBlocked line = true ∨ ∃ x ∈ s.main.coh.waiting, x.line = line) →
    (s.main.coh.waiting.filter (fun x => homeOf x.line == homeOf line)).length < 1024 →
    (∀ agent ctx, agent < 320 → agent ∉ s.main.coh.dead → s.main.coh.copyOf agent line = none →
      (isL2 agent = true → s.main.inOwnExtent agent line = true) →
      exec (.readShared agent line ecc ctx) s = toMain s (s.main.waitHome (.rd agent line ecc ctx))) ∧
    exec (.uncachedRead line ecc) s = toMain s (s.main.waitHome (.ur line ecc)) ∧
    ∀ r : HomeReq, (s.main.waitHome r).coh.waiting = s.main.coh.waiting ++ [r] ∧ (s.main.waitHome r).mem = s.main.mem ∧
      ∀ e ∈ (s.main.waitHome r).coh.dir, e.line = r.line → e.busy = true) ∧
  ∀ (s : State) (line : Nat) (ecc : Ecc), s.main.mem.backed (line * 128) = true → s.main.lineBlocked line = false →
    (∀ x ∈ s.main.coh.waiting, x.line ≠ line) →
    let m0 := s.main.eccServe line ecc
    (∀ agent, agent < 320 → agent ∉ s.main.coh.dead →
      (∀ ctx, s.main.coh.copyOf agent line = none → (isL2 agent = true → s.main.inOwnExtent agent line = true) →
        let m1 := m0.applyAgent agent line
        let r := m1.homeRD agent line
        exec (.readShared agent line ecc ctx) s = toMain s (r.2.2.fill (newCopy agent line r.1 r.2.1) ctx) ∧
          (r.1 = .e ↔ m1.coh.entryOf line = none ∧ isL2 agent = false)) ∧
      (isL2 agent = false → (∀ c, s.main.coh.copyOf agent line = some c → c.st = .s) →
        let r := (if (s.main.coh.upgrades agent line).isSome then s.main else m0).homeRDX agent line
        exec (.rdx agent line ecc) s =
          toMain s ((({ r.2 with coh := r.2.coh.dropCopy agent line } : Main).applyAgent agent line).fill
            (newCopy agent line .m r.1) none))) ∧
    exec (.uncachedRead line ecc) s = toMain s (m0.homeUR line).2 ∧
    (∀ bytes : List Byte, bytes.length = 128 →
      let m1 := s.main.bump 1 4 (homeOf line) 1
      exec (.iwf line bytes) s = toMain s ((m1.discardLine line).memWrite line bytes false) ∧
      exec (.iwp line 0 bytes) s = exec (.iwf line bytes) s) ∧
    (∀ (off : Nat) (bytes : List Byte), bytes ≠ [] → off + bytes.length ≤ 128 → bytes.length ≠ 128 →
      let m1 := (s.main.bump 1 4 (homeOf line) 1).recallLine line
      exec (.iwp line off bytes) s =
        toMain s (m1.memWrite line (putAt (m1.mem.line line) off bytes) (m1.mem.bad line))) ∧
    (∀ (lpa : Nat) (op : AtomOp) (size : Nat) (x new : BitVec 64), lpa / 128 = line →
      (size = 4 ∨ size = 8) → lpa % size = 0 → (op = .fadd → size = 4) →
      exec (.homeAtomic lpa op size x new) s =
        toMain s (((s.main.bump 1 4 (homeOf line) 1).homeAT lpa op size (toBytes size x.toNat) (toBytes size new.toNat) none).2))

/-- A whole line written by an uncached agent: memory holds the bytes without a mark, no copy is listed, and no byte of
another line changes (R190, R191, R209), once the home can serve the line. -/
def Obligations.WholeLineWrite : Prop :=
  ∀ (s t : State) (line : Nat) (bytes : List Byte), s.main.mem.wf = true → s.main.lineBlocked line = false →
    (∀ x ∈ s.main.coh.waiting, x.line ≠ line) → exec (.iwf line bytes) s = .next t →
    t.main.mem.line line = bytes ∧ t.main.mem.bad line = false ∧ t.main.coh.entryOf line = none ∧ t.main.mem.wf = true ∧
    (∀ a, a / 128 ≠ line → Cells.get t.main.mem.cells a = Cells.get s.main.mem.cells a) ∧
    (∀ l, l ≠ line → t.main.mem.bad l = s.main.mem.bad l)

/-- Notices, invalidations, forwards, range recalls, and agents that die (R209-R216). -/
def Obligations.CoherenceNotices : Prop :=
  ∀ (s : State) (agent line : Nat),
    (∀ c, s.main.coh.copyOf agent line = some c →
      (c.st = .e → exec (.dirtyNotice agent line) s = toMain s (s.main.homeDN agent line)) ∧
      (c.st = .m → exec (.writeBack agent line) s = toMain s (s.main.evict agent line)) ∧
      (c.st ≠ .m → exec (.evictionNotice agent line) s = toMain s (s.main.evict agent line))) ∧
    (agent < 320 →
      (∀ e, s.main.coh.entryOf line = some e → (e.st = .ownedClean ∨ e.st = .ownedDirty) → e.owner = agent →
        agent ∉ s.main.coh.dead →
        let m1 := s.main.writeBackCopy agent line
        exec (.invalidation agent line) s = toMain s { m1 with coh := (m1.coh.dropCopy agent line).dropEntry line }) ∧
      ((∀ e, s.main.coh.entryOf line = some e →
          e.st = .shared ∨ e.st = .home ∨ e.owner ≠ agent ∨ agent ∈ s.main.coh.dead) →
        ∃ m1, exec (.invalidation agent line) s = toMain s m1 ∧ m1.mem = s.main.mem ∧
          m1.coh.copies = s.main.coh.copies ∧
          m1.coh.invq = (if agent ∈ s.main.coh.dead then s.main.coh.invq else s.main.coh.invq ++ [(agent, line)]))) ∧
    (∀ e, s.main.coh.entryOf line = some e → (e.st = .ownedClean ∨ e.st = .ownedDirty) → s.main.lineBlocked line = false →
      (∀ x ∈ s.main.coh.waiting, x.line ≠ line) →
      let m1 := s.main.writeBackCopy e.owner line
      let keep (st : CopyState) := m1.coh.modCopy e.owner line (fun c => { c with st := st, poison := c.backMark, written := [] })
      let toShared := (keep .s).modEntry line (fun x => { x with st := .shared, sharers := x.sharers.clear.add e.owner })
      let toClean := (keep .e).modEntry line (fun x => { x with st := .ownedClean })
      exec (.forward line .own) s = toMain s { m1 with coh := (m1.coh.dropCopy e.owner line).dropEntry line } ∧
      exec (.forward line .shared) s = toMain s { m1 with coh := toShared } ∧
      exec (.forward line .uncached) s = toMain s { m1 with coh := toClean }) ∧
    (∀ c first count, c < 192 → 0 < count → first + count ≤ 1536 →
      let hit := inGranules (c, first, count)
      let m1 := s.main.walkLines hit
      exec (.rangeRecall c first count) s =
        toMain s { m1 with coh := { m1.coh with walks := s.main.coh.walks ++ [(c, first, count)] } } ∧
      ((c, first, count) ∈ s.main.coh.walks → s.main.coh.reclaim = [] →
        exec (.rangeRecallComplete c first count) s =
          toMain s { m1 with coh := { m1.coh with walks := m1.coh.walks.erase (c, first, count) } })) ∧
    (agent < 320 → exec (.agentDeath agent) s = toMain s (s.main.killAgent agent) ∧
      (agent ∉ s.main.coh.dead → s.main.coh.reclaim.length < 5 →
        let m1 := s.main.killAgent agent
        m1.coh.dead = s.main.coh.dead ++ [agent] ∧ m1.coh.reclaim = s.main.coh.reclaim ++ [agent] ∧
        (∀ c ∈ m1.coh.copies, c.agent ≠ agent) ∧ (∀ q ∈ m1.coh.invq, q.1 ≠ agent) ∧ m1.mem = s.main.mem)) ∧
    (∀ a r, s.main.coh.reclaim = a :: r → ∃ m1 : Main, exec .reclaimComplete s = toMain s m1.linesGo ∧
      m1.coh.reclaim = r ∧ a ∉ m1.coh.dead ∧ m1.mem.cells = s.main.mem.cells ∧
      (∀ e ∈ s.main.coh.dir, e.owner = a → e.st = .ownedDirty → m1.mem.bad e.line = true))

/-- Errors of the parts that the module shares (R10, R168, R217, R267, R269, R479, R483, R486). -/
def Obligations.SharedPartErrors : Prop :=
  ∀ (s : State),
    (∀ bank entry e, s.main.fab.entries.find? (fun e => e.bank == bank && e.entry == entry) = some e →
      exec (.requestTimerExpiry bank entry) s =
        toMain s (((s.main.until e.deadline).finishTrack e (.fail .trackerLost)).after)) ∧
    (s.main.fab.waitReqs ≠ [] → s.main.freeEntry ≠ none → exec .trackerEntryFree s = toMain s s.main.pump.after) ∧
    (∀ bank b, s.main.fab.banks[bank]? = some b → b ≠ .retired →
      let m1 : Main := { s.main with fab := { s.main.fab with banks := s.main.fab.banks.set bank .retired } }
      let m2 := (s.main.fab.entries.filter (fun e => e.bank == bank)).foldl (fun m e => m.finishTrack e (.fail .trackerLost)) m1
      exec (.trackerBankError bank) s =
        toMain s ((m2.noteErr { sev := .engine, cause := 0x20, source := ⟨5, bank⟩, detail := bank }).after)) ∧
    (∀ dir wire, dir < 2 → wire < 43008 →
      let m1 : Main := { s.main with rcv := { s.main.rcv with
        badWires := s.main.rcv.badWires.filter (· != (dir, wire)) ++ [(dir, wire)] } }
      exec (.viaductWireError dir wire) s = toMain s (m1.saggerError 0 0x30 ⟨5, dir⟩ none wire false none)) ∧
    (∀ x, s.main.rcv.crossings[x]? = some true →
      let m1 : Main := { s.main with rcv := { s.main.rcv with crossings := s.main.rcv.crossings.set x false } }
      exec (.controlCrossingFailure x) s = toMain s (m1.saggerError 0 0x31 ⟨5, x⟩ none x false none)) ∧
    exec .sealProcessorFault s = toMain s (s.main.deviceError 0x44 ⟨4, 5⟩ none 0 false) ∧
    (∀ home line, homeOf line = home →
      (∀ b, s.main.coh.bufOf line = some b →
        let m1 : Main := { s.main with mem := s.main.mem.poisonLine line, coh := (s.main.coh.dropBuf line).dropEntry line }
        exec (.atomicBufferError home line) s = toMain s ((m1.postMemory (line * 128 / 2 ^ 32) 1 (line * 128)).noteErr
          { sev := .corrected, cause := 0x01, poison := true, status := .poisoned, source := ⟨5, home⟩, detail := line * 128 })) ∧
      (let recent := s.main.rcv.dirErrs.filter (fun x => x.1 == home && decide (s.main.time < x.2 + 86400000000000))
       let sets := dirSets line
       let hit (l : Nat) : Bool :=
         homeOf l == home && [(dirSets l).1, (dirSets l).2].any (fun x => x == sets.1 || x == sets.2)
       let m1 := s.main.walkLines hit
       let m2 : Main := { m1 with rcv := { m1.rcv with
         dirErrs := (home, s.main.time) :: recent ++ m1.rcv.dirErrs.filter (fun x => x.1 != home) } }
       let m3 := m2.noteErr { sev := .engine, cause := 0x21, source := ⟨5, home⟩, detail := line }
       exec (.directoryEntryError home line true) s = toMain s (s.main.log (.directory line)) ∧
       exec (.directoryEntryError home line false) s =
         toMain s (if 3 ≤ recent.length then m3.deviceError 0x44 ⟨5, home⟩ none line false else m3))) ∧
    (∀ k x, s.main.rcv.swaps.find? (fun x => x.cluster == k) = some x →
      let m1 := s.main.until (x.since + 50000000)
      let m2 : Main := { m1 with
        cores := { m1.cores with units := modNth m1.cores.units x.core (fun u => { u with inService := u.inService && !x.bad }) }
        rcv := { m1.rcv with swaps := m1.rcv.swaps.erase x } }
      exec (.swapEscalation k) s = toMain s ((m2.answerHeld (.swap k) (Reply.refuse 0xFFFF)).saggerError
        (s.main.clusterSagger k) 0x40 ⟨0, x.core⟩ none k false none) ∧
      (s.main.clusterStill k = true →
        s.main.rcv.handlings.any (fun h => h.sagger == s.main.clusterSagger k && h.step != .reset) = false →
        s.main.comp.recs.any (fun r => r.handovers.any fun h => h.kind == .core && h.num == k && h.leave && !h.complete) = false →
        let place := match s.main.cores.units[x.core]? with | some u => u.pos | none => 8
        let m3 := (rangeFrom (k * 10) 9).foldl Main.flushAgent s.main
        let units := modNth (modNth m3.cores.units x.core (fun u => { u with good := false, inService := false, pos := 8 }))
          (k * 9 + 8) (fun u => { u with inService := true, pos := place })
        exec (.spareSwapComplete k) s = toMain s (({ m3 with
          cores := { m3.cores with units := units }
          rcv := { m3.rcv with swaps := m3.rcv.swaps.erase x } } : Main).answerHeld (.swap k) (Reply.good []))))

/-- Channels: scrub, zeroing, retirement and failure (R193-R202). -/
def Obligations.ChannelResults : Prop :=
  ∀ (s : State) (c : Nat),
    let x := s.main.chan c
    (∀ found : List (Nat × Ecc), c < 192 → x.state ≠ .retired →
      (∀ y ∈ found, y.1 * 128 / 2 ^ 32 = c ∧ s.main.allocated y.1 = true) →
      exec (.patrolScrub c found) s =
        toMain s (found.foldl (fun m y => if m.mem.bad y.1 then m else m.eccRead y.1 y.2) s.main)) ∧
    ((c, ZeroFor.release) ∈ s.main.mem.zeroing → c < 192 → s.main.coh.reclaim = [] →
      (∀ e ∈ s.main.mem.extents, e.held = true → e.mask.getLsbD c = false) →
      let m0 := s.main.recallChannel c
      let mem := m0.mem.zeroRange (c, 0, 0xC0000000)
      let m1 : Main := { m0 with mem := { mem with zeroing := mem.zeroing.erase (c, .release) } }
      exec (.zeroingComplete (.channel c)) s = toMain s
        ((((m1.modChan c (fun x => { x with state := .idle })).setOwner (.memory, c) .idle).bump 2 4 c 0xC0000000).settleRetire)) ∧
    (∀ e, s.main.mem.extents.find? (fun e => e.idx == c && e.state == .zeroing) = some e → s.main.coh.reclaim = [] →
      let m0 := s.main.walkLines (fun line => e.ranges.any (inRange line))
      ∃ m1 : Main, exec (.zeroingComplete (.extent c)) s =
        toMain s (m1.answerHeld (.extent c) (Reply.good (fields [(0x20, toBytes 2 c), (0x24, toBytes 2 e.choff)]))) ∧
        m1.mem.cells = (e.ranges.foldl Memory.zeroRange m0.mem).cells ∧
        (∀ y : Extent, y ∈ m1.mem.extents → y.idx = c →
          y.state = .active ∨ y.state = .moving ∧ ∃ r ∈ s.main.comp.recs, y.span = r.id ∧ r.phase ≠ .stable)) ∧
    (s.main.retirable c = true → s.main.mustRetire c = true →
      exec (.retirementRequired c) s = toMain s ((s.main.modChan c (fun x => { x with due := true })).settleRetire)) ∧
    (∀ p, x.repl = some p →
      (∀ found : List (Nat × Ecc), x.state = .evacuating → x.copied = false →
        (∀ y ∈ found, y.1 * 128 / 2 ^ 32 = c ∧ s.main.allocated y.1 = true) →
        exec (.evacuationCopyDone c found) s = toMain s ((found.foldl (fun m y =>
          if m.mem.bad y.1 then m else m.eccRead y.1 y.2) s.main).modChan c (fun x => { x with copied := true }))) ∧
      (x.copied = true → exec (.channelMapSwap c) s =
        toMain s (((s.main.zeroUnallocated c).swapMap c p .bound).linesGo.settleRetire))) ∧
    (c < 192 → x.state ≠ .retired →
      (∀ y, (List.range 192).find? (fun y => (s.main.chan y).repl == some c) = some y →
        exec (.channelFailure c) s = toMain s (s.main.replacementFails y c)) ∧
      ((∀ y < 192, (s.main.chan y).repl ≠ some c) →
        let m2 := ((s.main.poisonChannel c).modChan c (fun x => { x with failed := true })).noteErr
          { sev := .corrected, cause := 0x03, poison := true, status := .poisoned, source := ⟨5, c⟩, detail := c }
        exec (.channelFailure c) s = toMain s (if x.repl.isSome then m2 else m2.askRetire c)))

/-! ### The host interface: window, functions, ports, event queues (R338-R362, R428-R432, R536) -/

/-- Accesses of the memory window (R208, R344-R347): a read completes with the bytes when its segment holds it, as Completer Abort
when the span is fenced, as Unsupported Request otherwise and when it is an AtomicOp; a write is performed, or discarded and logged by
AER. A read whose lines cannot be served yet waits in its turn at their homes, and completes once they can be: that all its lines are
asked for together is the model's choice (assumption log 98). -/
def Obligations.WindowResults : Prop :=
  ∀ (s : State) (fn : Fn) (r : FnRec) (off : Nat), s.main.fnOf fn = some r → s.main.fnReach fn = true →
    (∀ m st data ep, Main.windowDone m fn off st data ep =
      { m with host := { m.host with winReads := m.host.winReads ++ [{ fn := fn, off := off, st := st, data := data, ep := ep }] } }) ∧
    (∀ len, 0 < len →
      let who : TurnOf := .window fn off len
      exec (.windowRead fn off len true) s = toMain s (s.main.windowDone fn off .unsupported [] false) ∧
      (⟨fn, off, len⟩ ∉ s.main.host.winWaits → (∀ x ∈ s.main.coh.waiting, x.turnOf ≠ some who) →
        (s.main.window r off len = .none →
          exec (.windowRead fn off len false) s = toMain s (s.main.windowDone fn off .unsupported [] false)) ∧
        (s.main.window r off len = .closed →
          exec (.windowRead fn off len false) s = toMain s (s.main.windowDone fn off .aborted [] false)) ∧
        (∀ g, s.main.window r off len = .mem g →
          (s.main.spanHeld (some who) g.span (g.addr off) len = false →
            let x := s.main.spanRead g.span (g.addr off) len
            exec (.windowRead fn off len false) s = toMain s (x.2.2.windowDone fn off .ok x.1 x.2.1)) ∧
          (s.main.spanHeld (some who) g.span (g.addr off) len = true →
            let m1 := s.main.takeTurns who (s.main.spanLines g.span (g.addr off) len)
            exec (.windowRead fn off len false) s = toMain s
              { m1 with host := { m1.host with winWaits := m1.host.winWaits ++ [⟨fn, off, len⟩] } }))) ∧
      (∀ g, ⟨fn, off, len⟩ ∈ s.main.host.winWaits → s.main.window r off len = .mem g →
        (s.main.spanHeld (some who) g.span (g.addr off) len = true → s.main.windowGo r fn off len = s.main) ∧
        (s.main.spanHeld (some who) g.span (g.addr off) len = false →
          let m1 := s.main.windowGo r fn off len
          ⟨fn, off, len⟩ ∉ m1.host.winWaits ∧ ∃ d ep, m1.host.winReads =
            s.main.host.winReads ++ [{ fn := fn, off := off, st := .ok, data := d, ep := ep }]))) ∧
    (∀ (bytes : List Byte) (bad : Bool), bytes ≠ [] →
      let ur : Main := s.main.aerLog .unsupported fn off
      let ca : Main := s.main.aerLog .aborted fn off
      (s.main.window r off bytes.length = .none → exec (.windowWrite fn off bytes bad) s = toMain s ur) ∧
      (s.main.window r off bytes.length = .closed → exec (.windowWrite fn off bytes bad) s = toMain s ca) ∧
      (∀ g, s.main.window r off bytes.length = .mem g →
        (g.wr = false → exec (.windowWrite fn off bytes bad) s = toMain s ur) ∧
        (g.wr = true → exec (.windowWrite fn off bytes bad) s = toMain s (s.main.spanWrite g.span (g.addr off) bytes bad))))

/-- Resets of functions and ports, BAR2 sizes, page requests, vectors, DOE discovery and ATS invalidations
(R338, R344, R354-R362, R431, R536). What registers read (R3, R4, R339-R341, R345, R401, R428): a reserved offset, a doorbell and a
register that is WO read as zero; an identity register, a mailbox and an event-queue register and a segment entry what the module has
there, at their blocks and in BAR0 alike. An entry that is not VALID reads as zero: the model's choice (assumption log 89). -/
def Obligations.FunctionResults : Prop :=
  ∀ (s : State) (fn : Fn),
    (s.main.fnReach fn = true →
      exec (.flr fn) s = toMain s ((s.main.resetFn fn).dmaPump.after) ∧
      exec (.priEnable fn) s =
        toMain s ((s.main.modFn fn (fun r => { r with pri := true, priStopped := false })).askWaiting fn) ∧
      (∀ v, v < vectors fn → exec (.msixUnmask fn v) s = toMain s (s.main.unmask fn v)) ∧
      (∀ r v, s.main.fnOf fn = some r → r.pendVec.contains v = false →
        s.main.unmask fn v = s.main.modFn fn (fun r =>
          { r with masked := r.masked.filter (· != v), pendVec := r.pendVec.filter (· != v) })) ∧
      (∀ blk off size v, regFn blk = fn →
        let p := regPlace blk off
        ownRow p = false → oneRegister p off size = true → s.main.blockThere p = true →
        exec (.registerWrite blk off size v) s = toMain s ((s.main.placeWrite p size v.toNat).after))) ∧
    ((s.main.fnOf fn).isSome = true → ∀ k, 30 ≤ k → k ≤ (if fn.idx = 0 then 40 else 36) →
      exec (.bar2Resize fn (2 ^ k)) s =
        toMain s ((if fn.idx = 0 then [fn] else vfsOf fn.port).foldl (Main.resizeWindow (2 ^ k)) s.main)) ∧
    (∀ port, port < 2 →
      exec (.perst port) s = toMain s (((s.main.portDown port).modPort port (fun p => { p with perst := true })).after) ∧
      exec (.perstRelease port) s =
        toMain s (s.main.modPort port (fun p => { p with perst := false, linkUp := s.main.rcv.mainRails })) ∧
      (s.main.fnReach ⟨port, 0⟩ = true →
        (∀ f r, f ∈ vfsOf port → s.main.fnOf f = some r → r.present = true →
          exec (.vfEnableClear port) s = toMain s ((s.main.clearVfs port).dmaPump.after)) ∧
        (∀ index, ∃ d, exec (.doeDiscovery port index) s =
          toMain s { s.main with host := { s.main.host with doe := s.main.host.doe ++ [(port, d)] } }))) ∧
    (∀ (v : AtsInv) (r : FnRec), s.main.fnOf v.fn = some r → v.fn.port = v.port →
      (∀ x ∈ s.main.host.invs, x.fn = v.fn → x.itag ≠ v.itag) →
      (s.main.host.invs.filter (fun x => x.fn == v.fn)).length < 32 →
      ∃ m1 x, exec (.atsInvalidationRequest v) s = toMain s m1 ∧ m1.host.invs = s.main.host.invs ++ [x] ∧ x.itag = v.itag ∧
        x.port = v.port ∧ x.fn = v.fn) ∧
    (∀ port itag v, s.main.host.invs.find? (fun v => v.port == port && v.itag == itag && v.engines.isEmpty) = some v →
      exec (.invalidationCompletion port itag) s = toMain s ({ s.main with host := { s.main.host with
        invs := s.main.host.invs.erase v, completed := s.main.host.completed ++ [(port, itag)] } } : Main).settleFlr) ∧
    (∀ e v, s.main.host.invs.find? (fun v => v.engines.contains e) = some v →
      exec (.invalidationAckTimeout e) s = toMain s ((s.main.until (v.since + 10000000)).beginReset ⟨1, e⟩ 0x11 0)) ∧
    (let rd := s.main.registerRead
     let pf : Bool := fn.idx == 0
     (∀ off, barPlace fn off = .reserved ∨ (∃ page at_, barPlace fn off = .doorbell page at_) → rd (.bar0 fn) off 4 = 0) ∧
     (∀ off, barSize fn ≤ off → barPlace fn off = .reserved) ∧
     (∀ off, off < 0x1000 → rd (.bar0 fn) off 4 = rd (.identity fn) off 4) ∧
     (∀ off, off < 0x1000 → rd (.bar0 fn) (0x1000 + off) 4 = rd (.mailbox fn) off 4) ∧
     (∀ q off, q < (if pf then 64 else 8) → off < 64 →
       rd (.bar0 fn) ((if pf then 0x10000 else 0x2000) + 64 * q + off) 4 = rd (.eventQueue fn q) off 4) ∧
     rd (.identity fn) 0 4 = (if pf then 0x0C900100 else 0x0C900101) ∧ rd (.identity fn) 4 4 = s.main.hiStatus fn ∧
     rd (.identity fn) 8 4 = fn.port * 256 + fn.idx ∧ rd (.identity fn) 0xC 4 = 0 ∧
     (s.main.time < 2 ^ 64 → rd (.identity fn) 0x10 8 = if pf then s.main.time else s.main.time / 1000 * 1000) ∧
     (∀ b, s.main.boxOf (.fn fn) = some b → rd (.mailbox fn) 0x10 4 = b.pidx.toNat ∧ rd (.mailbox fn) 0x14 4 = b.cidx.toNat ∧
       rd (.mailbox fn) 8 8 = b.base.toNat) ∧
     (∀ q x, s.main.eqOf fn q = some x → rd (.eventQueue fn q) 0x18 4 = x.head.toNat ∧ rd (.eventQueue fn q) 0x1C 4 = x.tail.toNat) ∧
     (∀ r g, s.main.fnOf fn = some r → r.segs.find? (fun x => x.idx == g.idx) = some g → g.span < 2 ^ 20 → g.wbase < 2 ^ 19 →
       g.sbase < 2 ^ 31 → g.len < 2 ^ 20 →
       rd (.segments fn) (16 * g.idx) 8 = 2 ^ 63 + b2n g.wr * 2 ^ 62 + g.span * 2 ^ 40 + g.wbase * 2 ^ 21 ∧
       rd (.segments fn) (16 * g.idx + 8) 8 = g.sbase * 2 ^ 21 + g.len) ∧
     (∀ r, s.main.fnOf fn = some r → (∀ x ∈ r.segs, x.idx ≠ 0) → rd (.segments fn) 0 8 = 0 ∧ rd (.segments fn) 8 8 = 0))

/-- Event-queue registers (R429-R432): EN set in OFF starts the queue armed and empty; EN cleared turns it OFF once no write of it is in
progress; EQ_HEAD takes a value up to TAIL and no other; EQ_ERR is cleared by a one. -/
def Obligations.EventQueueRegisters : Prop :=
  ∀ (s : State) (fn : Fn) (q : Nat) (x : EvQ) (w : Word), s.main.fnReach fn = true → s.main.eqOf fn q = some x →
    exec (.eqCtlEnSet fn q) s = toMain s (s.main.modEq fn q EvQ.start) ∧
    (x.en = false → x.state = .off → x.start = { x with
      en := true, state := .run, armed := true, head := 0, tail := 0, lost := 0, lostFull := 0, lostSince := 0 }) ∧
    (x.en = true ∨ x.state ≠ .off → x.start = { x with en := true }) ∧
    (let mine (p : HostPut) : Bool := p.fn == fn && (match p.owner with | .event k _ => k == q | _ => false)
     (s.main.host.puts.any mine = false →
       exec (.eqCtlEnClear fn q) s = toMain s (s.main.modEq fn q (fun x => { x with en := false, state := .off }))) ∧
     (s.main.host.puts.any mine = true → ∃ m1, exec (.eqCtlEnClear fn q) s = toMain s m1 ∧
       m1.host.puts.filter mine = (s.main.host.puts.filter mine).take 1 ∧
       ∀ y, m1.eqOf fn q = some y → y.en = false ∧ y.state = x.state)) ∧
    ((x.tail - x.head).toNat < (w - x.head).toNat → exec (.eqHead fn q w) s = .next s) ∧
    ((w - x.head).toNat ≤ (x.tail - x.head).toNat → x.lostFull = 0 → exec (.eqHead fn q w) s =
      toMain s ((s.main.modEq fn q (fun x => { x with head := w, armed := true })).eqNotify fn q)) ∧
    exec (.eqErrClear fn q w) s = toMain s (s.main.modEq fn q (fun x => { x with err := x.err && !w.getLsbD 0 }))

/-- The Event Gatherer (R423-R427): a running processor writes the windows it may write, any other write is ignored and
counted; a source that rises becomes pending; what may be delivered is delivered. -/
def Obligations.GathererResults : Prop :=
  ∀ (s : State) (cpu bank source : Nat) (w : BitVec 64) (x : Word),
    (cpu < 12 → bank < 16 → s.main.procUp cpu = true →
      let win (f : EgBank → EgBank) : Main := (s.main.modBank bank f).egSettle
      (s.main.egMayWrite cpu bank = true →
        exec (.egPendSet cpu bank w) s = toMain s (win fun b => { b with pend := b.pend ||| w }) ∧
        exec (.egPendClr cpu bank w) s = toMain s (win fun b => { b with pend := b.pend &&& ~~~w }) ∧
        exec (.egMaskSet cpu bank w) s = toMain s (win fun b => { b with mask := b.mask ||| w }) ∧
        exec (.egMaskClr cpu bank w) s = toMain s (win fun b => { b with mask := b.mask &&& ~~~w }) ∧
        exec (.egDone cpu bank w) s = toMain s (win fun b =>
          b.finish (Config.egLevel bank) (if cpu = 3 then w else w &&& b.ofProc cpu))) ∧
      (s.main.egMayWrite cpu bank = false →
        ∀ c ∈ [Instr.egPendSet cpu bank w, .egPendClr cpu bank w, .egMaskSet cpu bank w, .egMaskClr cpu bank w],
          exec c s = toMain s (s.main.bump 5 3 0 1)) ∧
      (∀ b, s.main.egMayWrite cpu bank = false → s.main.eg.banks[bank]? = some b →
        (b.ofProc cpu = 0 → exec (.egDone cpu bank w) s = toMain s (s.main.bump 5 3 0 1)) ∧
        (b.ofProc cpu ≠ 0 → exec (.egDone cpu bank w) s = toMain s (win fun b =>
          b.finish (Config.egLevel bank) (if cpu = 3 then w else w &&& b.ofProc cpu))))) ∧
    (s.main.egMayWrite cpu bank = true ↔
      bank < 12 ∧ cpu = bank ∨ 12 ≤ bank ∧ (cpu = 3 ∨ ∃ i, i < 64 ∧ s.main.eg.target bank i = cpu)) ∧
    (s.main.procUp 3 = true →
      exec (.egMode 3 x) s = toMain s (({ s.main with eg := { s.main.eg with mode := x &&& 1 } } : Main).egSettle) ∧
      (768 ≤ source → source < 1024 →
        let new (old : Word) : Word := BitVec.ofNat 32
          (routeField (bits old.toNat 11 8) (bits x.toNat 11 8) * 256 + routeField (bits old.toNat 3 0) (bits x.toNat 3 0))
        exec (.egRoute 3 source x) s = toMain s
          (({ s.main with eg := { s.main.eg with route := modNth s.main.eg.route (source - 768) new } } : Main).egSettle))) ∧
    (cpu < 12 → cpu ≠ 3 → s.main.procUp cpu = true →
      exec (.egMode cpu x) s = toMain s (s.main.bump 5 3 0 1) ∧
      (768 ≤ source → source < 1024 → exec (.egRoute cpu source x) s = toMain s (s.main.bump 5 3 0 1))) ∧
    (source < 920 → source ≠ 916 → source ≠ 917 →
      let one : BitVec 64 := 1#64 <<< (source % 64)
      exec (.sourceAssert source true) s = toMain s ((s.main.modBank (source / 64) (fun b =>
        { b with pend := if (b.input &&& one) = 0 then b.pend ||| one else b.pend, input := b.input ||| one })).egSettle) ∧
      exec (.sourceAssert source false) s =
        toMain s ((s.main.modBank (source / 64) (fun b => { b with input := b.input &&& ~~~one })).egSettle))

/-! ### The Elbor mailboxes and what the BMC sends beside commands (R401-R408, R417, R487, R507) -/

/-- Mailbox registers, slots and responses (R353, R401-R405, R416): a slot is read, and a response written, once its page is
translated; a response's bytes 8 to 255 go before its bytes 0 to 7, and MSI-X follows. -/
def Obligations.MailboxResults : Prop :=
  ∀ (s : State) (fn : Fn) (b : Mailbox), s.main.boxOf (.fn fn) = some b →
    (s.main.fnReach fn = true →
      (b.en = false → b.state = .off → exec (.mbCtlEnSet fn) s = toMain s (s.main.modBox (.fn fn) (fun x =>
        { x with en := true, state := .run, pidx := 0, cidx := 0 }))) ∧
      (b.en = true ∨ b.state ≠ .off → exec (.mbCtlEnSet fn) s = toMain s (s.main.modBox (.fn fn) (fun x => { x with en := true }))) ∧
      exec (.mbCtlEnClear fn) s = toMain s (s.main.modBox (.fn fn) (fun x => ({ x with en := false } : Mailbox).settle)) ∧
      (∀ w : Word,
        (b.state ≠ .run → exec (.mbPidx fn w) s = .next s) ∧
        (b.state = .run → w ≠ b.pidx → (w - b.pidx).toNat ≤ 64 → (w - b.cidx).toNat ≤ 64 →
          exec (.mbPidx fn w) s = toMain s (s.main.modBox (.fn fn) (fun x => { x with pidx := w }))) ∧
        (b.state = .run → w ≠ b.pidx → (64 < (w - b.pidx).toNat ∨ 64 < (w - b.cidx).toNat) →
          exec (.mbPidx fn w) s = toMain s (s.main.mbError fn 0)) ∧
        exec (.mbErrClear fn w) s =
          toMain s (s.main.modBox (.fn fn) (fun x => { x with err := x.err &&& (7 - w.toNat % 8) })))) ∧
    (s.main.ready fn = true → b.en = true → b.state = .run → b.cidx ≠ b.pidx → s.main.slotBusy fn b b.cidx.toNat = false →
      ∀ slot : List Byte,
      let page := s.main.needPage fn 0 (b.base.toNat + 512 * (b.cidx.toNat % 64)) .slot
      (∀ m1 ok, page = .wait m1 → exec (.mailboxSlotRead fn slot ok) s = toMain s m1) ∧
      (∀ m1 ok, page = .lost m1 → exec (.mailboxSlotRead fn slot ok) s = toMain s (m1.mbError fn 1)) ∧
      (∀ m0, page = .have m0 →
        exec (.mailboxSlotRead fn slot false) s = toMain s (m0.mbError fn 1) ∧
        (slot.length = 256 →
          let c : MbCmd := { idx := b.cidx.toNat, bytes := slot, since := s.main.time, stale := s.main.elbor.saturated }
          let m1 := m0.modBox (.fn fn) (fun x =>
            { x with cidx := x.cidx + 1, inflight := x.inflight + 1, waiting := x.waiting ++ [c] })
          (s.main.busyNow c = false → exec (.mailboxSlotRead fn slot true) s = toMain s m1.saturate) ∧
          (s.main.busyNow c = true →
            exec (.mailboxSlotRead fn slot true) s = toMain s (m1.reply (.fn fn) c (.busy s.main.retryUs)))))) ∧
    (∀ r rest, b.ready = r :: rest →
      let m1 := s.main.modBox (.fn fn) (fun x => { x with ready := rest })
      let place := b.base.toNat + 512 * (r.idx % 64) + 0x100
      let freed (m : Main) : Main := m.modBox (.fn fn) (fun x => ({ x with inflight := x.inflight - 1 } : Mailbox).settle)
      (∀ f, s.main.fnOf fn = some f → s.main.fnReach fn = true → m1.putsOf fn (.response r.idx) = [] →
        (∀ m2, m1.pageOf fn 0 place true = some m2 →
          let out := (m2.hostWrite fn 0 (place + 8) (r.bytes.drop 8) false).hostWrite fn 0 place (r.bytes.take 8) false
          exec (.mailboxResponse (.fn fn) true) s =
            toMain s (freed (if b.vec.getLsbD 31 then out.sendMsix fn (b.vec.toNat % 128) else out))) ∧
        (m1.pageOf fn 0 place true = none →
          exec (.mailboxResponse (.fn fn) true) s = toMain s (m1.addPut fn 0 place r.bytes (.response r.idx) place)) ∧
        (f.ats = false → m1.pageOf fn 0 place true = some m1)) ∧
      exec (.mailboxResponse (.fn fn) false) s = toMain s (freed (m1.mbError fn 2))) ∧
    (∀ b1 r rest ok, s.main.boxOf .bmc = some b1 → b1.ready = r :: rest →
      let m1 := s.main.modBox .bmc (fun x => { x with ready := rest })
      exec (.mailboxResponse .bmc ok) s = toMain s (if ok then
        { m1 with bmcOut := m1.bmcOut ++ mctpPackets Config.bmcEid m1.bmcEid (r.idx % 8) (mctpHead ++ r.bytes ++ r.out) } else m1))

/-- The management messages (R407, R408, R417, R433, R487, R525), by the layouts that the model presumes (assumption log 13).
SPDM (R493, R507-R509): version 1.3, then capabilities, then algorithms, then what those allow; a request out of its turn
is answered with an ERROR and changes nothing. A message sent to another SMBus address than 0x62 finds nothing (R532). -/
def Obligations.ManagementMessages : Prop :=
  (∀ (s : State), s.main.core3Up = true →
     (∀ f, mctpHere f = true →
     (∀ req, exec (.mctpControl ⟨f, req⟩) s = toMain s (s.main.mctp f req)) ∧
     (∀ eid, ∃ out, s.main.mctp f (.setEid eid) = { s.main with bmcEid := eid, bmcOut := s.main.bmcOut ++ out }) ∧
     (s.main.elbor.paused = none →
       (∀ b ∈ s.main.elbor.boxes, s.main.served b.mb = true → ∀ c ∈ b.waiting, c.onCores = true ∨ c.cls = none) →
       (∀ req, exec (.pldmBase ⟨f, req⟩) s = .next (s.pldmBase f req)) ∧
       (∀ req, exec (.pldmPlatform ⟨f, req⟩) s = .next (s.pldmPlatform f req)) ∧
       (∀ req img, exec (.pldmFirmwareUpdate f req img) s = .next (s.pldmUpdate f req img)) ∧
       (∀ comp v img, comp < 6 → s.main.switches comp = false → s.main.imageOk comp img = true →
         Config.imageVersion img % 2 ^ 32 = v.toNat →
         s.pldmUpdate f (.stage comp v) img =
           ({ s with main := s.main.modFw comp (fun f => f.stage img) } : State).pldmSay f 5 0x18 [0]) ∧
       (∀ comp img s1, comp < 6 → s.activate comp = .begun s1 ∨ s.activate comp = .deferred s1 →
         s.pldmUpdate f (.activate comp) img = s1.pldmSay f 5 0x1A [0, 0, 0]))) ∧
     (∀ mb b seq c outOk, s.main.boxOf mb = some b →
       b.waiting.find? (fun c => c.seq == seq.toNat && c.cls == some .query) = some c → c.stale = true → c.noStale = false →
       s.main.served mb = true → s.main.coresUp c = true →
       let i : EcsIn := { mb := mb, cmd := c, input := some [] }
       let s1 : State := { s with snap := some s.snapNow }
       ∀ r, queryAns i s1 = some r → s.main.banked = false → maySend (callerOf mb) c.op = true → i.header = none →
         exec (.staleSnapshot mb seq outOk) s = .next (s1.answer i outOk (s1.staleReply s1.snapNow i r) s1)) ∧
     (∀ x i now old, now.status = .ok → queryAns i { s with main := x.main, power := x.power } = some old → old.status = .ok →
       s.staleReply x i now = { old with status := .stale, aux := (s.main.time - x.main.time) / 1000000 })) ∧
  (∀ (s : State) (f : MctpFrom), mctpHere f = false →
     (∀ req, exec (.mctpControl ⟨f, req⟩) s = .next s) ∧ (∀ req, exec (.pldmBase ⟨f, req⟩) s = .next s) ∧
     (∀ req, exec (.pldmPlatform ⟨f, req⟩) s = .next s) ∧ (∀ req img, exec (.pldmFirmwareUpdate f req img) s = .next s) ∧
     exec (.spdmGetVersion (.mctp f)) s = .next s) ∧
  (∀ (s : State) (p : SpdmPort), s.main.procUp 5 = true →
     (match p with
       | .doe port => s.main.fnReach ⟨port, 0⟩ = true
       | .mctp f => mctpHere f = true ∧ s.main.standby = true) →
     let at_ := s.main.spdmAt p
     exec (.spdmGetVersion p) s = toMain s (s.main.spdmVersion p) ∧
     (at_ = .version → exec (.spdmGetCapabilities p) s = toMain s (s.main.spdmCaps p)) ∧
     (at_ = .caps → ∀ a, exec (.spdmNegotiateAlgorithms p a) s = toMain s (s.main.spdmAlgs p a)) ∧
     (at_ = .algs →
       exec (.spdmGetDigests p) s = toMain s (s.main.spdmDigests p) ∧
       (∀ slot off len, exec (.spdmGetCertificate p slot off len) s = toMain s (s.main.spdmCert p slot off len)) ∧
       (∀ slot nonce, exec (.spdmChallenge p slot nonce) s = toMain s (s.main.spdmChallenge p slot nonce)) ∧
       (∀ index raw sign nonce,
         exec (.spdmGetMeasurements p index raw sign nonce) s = toMain s (s.main.spdmMeasure p index raw sign nonce))) ∧
     (∀ a slot off len nonce index raw sign,
       let early (c : Instr) : Prop := exec c s = toMain s (s.main.spdmSend p [0x13, 0x7F, 4, 0])
       (at_ ≠ .version → early (.spdmGetCapabilities p)) ∧ (at_ ≠ .caps → early (.spdmNegotiateAlgorithms p a)) ∧
       (at_ ≠ .algs → early (.spdmGetDigests p) ∧ early (.spdmGetCertificate p slot off len) ∧
         early (.spdmChallenge p slot nonce) ∧ early (.spdmGetMeasurements p index raw sign nonce))))
/-! ### The supply, the limiters and the Kiln (R334, R335, R436-R456) -/

/-- Sags, surges and excursions of the supply (R334, R436, R439-R441, R460): a sag puts the module at the floor at once, is
logged, posted and told to the peers; its end takes the floor away. A sag that meets a floor of which the peers were told tells them
nothing; they are told of the recovery once nothing holds the floor any more (R334). -/
def Obligations.SupplyResults : Prop :=
  ∀ (s : State) (mv : Nat), s.main.standby = true →
    (mv < 44000 → s.power.sag = false → ∃ t, exec (.sag mv) s = .next t ∧ t = s.sagBegin mv ∧ t.power.sag = true ∧
      t.power.loc ≤ 16 ∧ t.power.inputMv = mv) ∧
    (45000 ≤ mv → s.power.sag = true → ∃ t, exec (.sagEnd mv) s = .next t ∧ t = s.sagOver mv ∧ t.power.sag = false) ∧
    (s.main.rcv.phase = .running → s.power.told = [] →
      s.notifySag.main.fab.ctrlOut =
        s.main.fab.ctrlOut ++ s.main.peers.map (fun d => CtrlMsg.sagNotice d s.main.time false) ∧ s.notifySag.power.told = s.main.peers) ∧
    (s.power.told ≠ [] → s.notifySag = s) ∧ (s.power.floor = true → s.notifyOver = s) ∧
    (s.main.rcv.phase = .running → s.power.floor = false →
      s.notifyOver.main.fab.ctrlOut =
        s.main.fab.ctrlOut ++ s.power.told.map (fun d => CtrlMsg.sagNotice d s.main.time true) ∧ s.notifyOver.power.told = []) ∧
    (59500 < mv → mv ≤ 80000 → s.power.surging = false → exec (.surge mv) s = .next (s.surgeBegin mv)) ∧
    (s.power.surging = true → s.power.surgeHolds s.main.time = true →
      exec .surgeEnd s = .next { s with power := { s.power.endLog 2 s.main.time with above := none } } ∧
      (59500 < mv → mv ≤ 80000 → exec (.surge mv) s = .next { s with power := s.power.reads s.main.time mv })) ∧
    (s.power.surgeHolds s.main.time = true ↔
      s.power.lasted 2 s.main.time ≤ 10000 ∧ ∀ t, s.power.above = some t → s.main.time ≤ t + 100000) ∧
    (s.power.surging = true → (s.power.reads s.main.time mv).above =
      if 72000 < mv then some (s.power.above.getD s.main.time) else none) ∧
    (∀ us, shortEnough mv us = true → exec (.shortExcursion mv us) s = .next (s.excursion mv us)) ∧
    (exec .overvoltageSwitchOpen s = .next s.powerGone ∧ exec .standbyLoss s = .next s.powerGone ∧
      s.powerGone.main.rcv.phase = .off ∧ s.powerGone.main.mem.cells = [] ∧ s.powerGone.main.comp.recs = []) ∧
    (∀ bulk, bulk ≤ 41000 → s.power.sag = true → s.main.rcv.mainRails = true → s.main.bankable = true →
      ∃ t, exec (.undervoltageBank bulk) s = .next t ∧ t.main.rcv.banking = some 0x51)

/-- The pins and the limiters (R445, R447, R448): the brake and a rail's alert force the floor, BUS_WARN# a limit of 32, the
thermal limiter a limit that moves by one a step and is the floor at 105 °C.
What moves no limiter leaves the limits of all engaged limiters alone, and L never exceeds the lowest of them while the
Kiln loop runs (R445, R446). Sources 916 and 917 of the Event Gatherer are the alert and the brake (R422). The energy of each rail is
divided in proportion to what its counters count, and all of it is (R455, R456). -/
def Obligations.LimiterResults : Prop :=
  (∀ (s : State), s.main.standby = true →
     (s.power.brake = false → exec .pwrbrakeAssert s =
       .next (((s.source 917 true).limit (fun p => { p with brake := true })).postPower 5 .ok 0)) ∧
     (s.power.brake = true → exec .pwrbrakeRelease s =
       .next (((s.source 917 false).limit (fun p => { p with brake := false })).postPower 6 .ok 0).notifyOver) ∧
     (∀ rail, rail < 6 → rail ∉ s.power.alerts → exec (.regulatorAlert rail) s =
       .next (((s.source 916 true).limit (fun p => { p with alerts := p.alerts ++ [rail] })).postPower 7 .ok rail)) ∧
     (s.power.alerts ≠ [] → exec .regulatorAlertRelease s =
       .next ((s.source 916 false).limit (fun p => { p with alerts := [] })).notifyOver) ∧
     (s.power.brake = false → exec (.sourceAssert 917 true) s = exec .pwrbrakeAssert s) ∧
     (s.power.brake = true → exec (.sourceAssert 917 false) s = exec .pwrbrakeRelease s) ∧
     (s.power.alerts ≠ [] → exec (.sourceAssert 916 false) s = exec .regulatorAlertRelease s) ∧
     (s.power.alerts = [] → ∃ t, exec (.sourceAssert 916 true) s = .next t ∧ t.power.floor = true) ∧
     (∀ cluster, cluster < 32 → s.main.rcv.mainRails = true →
       (cluster ∉ s.power.drooping → exec (.droop cluster false) s = .next { s with
         main := s.main.bump 1 7 cluster 1, power := { s.power with drooping := s.power.drooping ++ [cluster] } }) ∧
       (cluster ∈ s.power.drooping → exec (.droop cluster true) s =
         .next { s with power := { s.power with drooping := s.power.drooping.erase cluster } })) ∧
     (s.kilnLoops = true →
       (s.power.busWarn = false → exec .busWarnAssert s =
         .next (((s.source 918 true).limit (fun p => { p with busWarn := true })).postPower 8 .ok 0)) ∧
       (s.power.busWarn = true → exec .busWarnRelease s =
         .next (((s.source 918 false).limit (fun p => { p with busWarn := false })).postPower 9 .ok 0)) ∧
       (∀ hot, exec (.thermalStep hot) s = .next (s.thermalMove hot) ∧ (s.thermalMove hot).power.thermal =
         (if 1050 ≤ hot then 16 else if 1000 ≤ hot then max 16 (s.power.thermal - 1) else if hot ≤ 970 then min 64 (s.power.thermal + 1) else s.power.thermal)) ∧
       (∀ hot, 1050 ≤ hot → exec (.thermal105 hot) s = .next (s.thermalTo hot 16) ∧ (s.thermalTo hot 16).power.thermal = 16) ∧
       (∀ w mv, w ≤ s.mostWatts → exec (.kilnLoop w mv) s = .next (s.loopOnce w mv)) ∧
       (∀ mj rails uses, measurable mj rails = true → (∀ u ∈ uses, u.rail < 5 ∧ u.kind < 3) →
         let m := s.main.until (s.power.metered + 1000000)
         let shares := lossShares mj rails uses
         let acc := m.spanShares s.power.spanAcc shares
         let p : Power := { s.power with energy := (s.power.energy + mj) % 2 ^ 64, railMj := rails, metered := m.time }
         exec (.energyMeter mj ⟨rails, uses⟩) s = .next { s with
           main := shares.foldl Main.creditGrain m
           power := if s.power.spanFrom + 100000000 ≤ m.time then { p with spanMean := acc, spanAcc := [], spanFrom := m.time }
             else { p with spanAcc := acc } })) ∧
     (∀ hot, 1150 ≤ hot → s.main.rcv.thermtrip = false →
       ∃ t, exec (.thermtrip hot) s = .next t ∧ t.main.rcv.thermtrip = true ∧ t.power.hottest = hot ∧
         (s.main.bankable = true → t.main.rcv.banking = some 0x52))) ∧
  (∀ (rails : List Nat) (uses : List GrainUse) (r : Nat), r < 5 → ((uses.filter (fun u => u.rail == r)).map (·.count)).sum ≠ 0 →
     (((railShares rails uses).filter (fun x => x.1.rail == r)).map (·.2)).sum = nth rails r 0 * 1000000) ∧
  (∀ (s : State) (f : Power → Power), (s.limit f).power.stopped = false →
     (s.limit f).power.loc = min (f s.power).loc (f s.power).limit ∧ (s.limit f).power.limit = (f s.power).limit)
/-- Span lockstep (R335, R452, R453): a round sends L to every peer at a multiple of 100 µs; its application 50 µs later makes S
of every span the least of L at the round and its peers' limits.
Hints (R454): phases come online at their start unless they are over or the floor holds, and go offline at their end. -/
def Obligations.LockstepAndHints : Prop :=
  (∀ (s : State), s.main.rcv.phase = .running →
     (let tk := max ((s.power.roundAt / 100000 + 1) * 100000) (roundUp s.main.time 100000)
      let m1 := s.main.until tk
      exec .paceRound s = .next { s with
        main := m1.peers.foldl (fun m d => m.sendCtrl (.paceToken d tk s.power.loc)) m1
        power := { s.power with atRound := s.power.loc, roundAt := tk } }) ∧
     (s.power.applied ≠ s.power.roundAt → ∃ t, exec .paceApply s = .next t ∧ t.power.applied = s.power.roundAt ∧
       let m1 := s.main.until (s.power.roundAt + 50000)
       t.power.paces = s.main.comp.recs.map (fun r => (r.id,
         (s.power.tokens.filter (fun k => (m1.otherPiers r.id).contains k.module)).foldl
           (fun a k => min a (k.now m1.time)) s.power.atRound)))) ∧
  (∀ (s : State) (ctx : Nat) (h : Hint),
     (s.main.hints.find? (s.main.nextHint ctx false) = some h →
       let m := s.main.until h.start
       let with_ (f : Hint → Option Hint) : Outcome := toMain s { m with hints := changeHint (s.main.nextHint ctx false) f m.hints }
       (h.stop ≤ m.time → exec (.hintPhaseStart ctx) s = with_ (fun _ => none)) ∧
       (m.time < h.stop → s.power.floor = false →
         exec (.hintPhaseStart ctx) s = with_ (fun h => some { h with online := true }))) ∧
     (s.main.hints.find? (s.main.nextHint ctx true) = some h →
       let m := s.main.until h.stop
       exec (.hintPhaseEnd ctx) s = toMain s { m with hints := changeHint (s.main.nextHint ctx true) (fun _ => none) m.hints }) ∧
     (∀ online, s.main.hints.find? (s.main.nextHint ctx online) = some h → h.ctx = ctx ∧ h.online = online ∧
       ∀ x ∈ s.main.hints, x.ctx = ctx → x.online = online → if online then h.stop ≤ x.stop else h.start ≤ x.start))
/-! ### Starts and the banked state (R421, R436, R448, R462-R466, R475, R476, R481, R485, R533-R538) -/

/-- What a start leaves as its first step begins (R458, R462, R464, R487, R506, R511, R523): no work, no lane in service, no
mailbox, debug locked; a cold start clears the parameters, fixed-frequency mode and a HOLD, composition and memory. -/
def Obligations.StartLeaves : Prop :=
  ∀ (s : State) (cold : Bool),
    let t := s.restart cold
    t.main.rcv.phase = (if cold then .cold 1 else .warm 1) ∧ t.main.rcv.mainRails = false ∧ t.main.rcv.handlings = [] ∧
    t.main.rcv.resets = [] ∧ t.main.cores.wgs = [] ∧ t.main.cores.launches = [] ∧ t.main.objs = Objs.reset ∧
    t.main.coh = Coh.reset ∧ t.main.fab.entries = [] ∧ t.main.fab.timeState = .unlocked ∧ t.main.host.dmas = [] ∧
    t.main.colls = [] ∧ t.main.drills = List.replicate 16 Drill.reset ∧ t.main.eg = Gatherer.reset ∧
    t.main.sec.unlocked = false ∧ t.main.sec.unlocking = none ∧ t.main.sec.revokes = [] ∧ t.tap.opened = false ∧
    (∀ l ∈ t.main.fab.lanes, l.st = .off) ∧ (s.main.rcv.raised = [] → t.main.rcv.errs = s.main.rcv.errs) ∧
    (cold = true → t.main.params = [24, 1024, 16, 2000, 0x38D1B717, 50, 100, 256] ∧ t.power.fixed = false ∧
      t.power.hold = none ∧ t.main.comp.recs = [] ∧ t.main.mem.cells = [] ∧ t.main.mem.extents = [] ∧
      t.main.sec.blocked = false ∧ t.main.fab.mapped = false) ∧
    (cold = false → t.main.params = s.main.params ∧ t.main.sec.blocked = s.main.sec.blocked ∧
      (∀ r ∈ t.main.comp.recs, (∃ p, s.main.rcv.preserve = some p ∧ r.id ∈ p.spans)))

/-- What begins a start, holds it or takes power away. The steps of a start: one that ends well leads to the next, the last to a module that
runs; one that fails or passes its limit starts anew, three times at most. -/
def Obligations.StartProgress : Prop :=
  (∀ (s : State),
     (s.main.standby = false →
       (s.main.rcv.coldFail < 3 → exec .standbyPowerApplied s = .next s.beginCold) ∧
       (3 ≤ s.main.rcv.coldFail → exec .standbyPowerApplied s =
         .next ({ s with main := s.main.bankEnter 0x53 ⟨8, 0⟩ none } : State).bankFinish.standbyUp)) ∧
     (s.main.standby = true → (s.main.rcv.phase = .held → s.main.rcv.tripHold = true) →
       ∃ t, exec .modReset s = .next t ∧ t.main.rcv.phase = .held ∧ t.main.rcv.tripHold = false ∧ t.main.rcv.mainRails = false ∧
         t.main.comp.recs = [] ∧ t.main.mem.cells = [] ∧ t.main.eg = Gatherer.reset ∧ t.power = s.power ∧
         t.main.rcv.errs = s.main.rcv.errs) ∧
     (s.main.rcv.phase = .held → s.main.rcv.tripHold = false → exec .modResetRelease s = .next s.beginCold) ∧
     (s.main.rcv.tripHold = true → exec .thermtripHoldEnd s =
       .next (({ s with power := { s.power with hottest := min s.power.hottest 950 } } : State).restart true)) ∧
     (s.power.hottest ≤ 950 → s.beginCold = s.restart true) ∧
     (950 < s.power.hottest → s.beginCold.main.rcv.phase = .held ∧ s.beginCold.main.rcv.tripHold = true ∧
       s.beginCold.main.rcv.thermtrip = true ∧ s.beginCold.main.rcv.stbyOk = true) ∧
     (∀ d, s.main.rcv.dev = some d → s.main.rcv.banking = none → s.main.allFenced = true →
       (d.cold = true → exec .coldStart s = .next (s.restart true)) ∧
       (d.cold = false → exec .warmStart s = .next (s.restart false)))) ∧
  (∀ (s : State) (n : Nat), stepOf s.main.rcv.phase = some n → s.main.rcv.banking = none →
     (∀ rep, (s.main.rcv.phase = .cold 3 ∨ s.main.rcv.phase = .warm 1 → 44000 ≤ s.power.inputMv) →
       (∀ m, s.main.endStep rep = some m →
         (s.main.rcv.phase ≠ .warm 6 ∨ s.tap.needCold = false → exec (.startStepDone rep) s = toMain s m.nextStep) ∧
         (s.main.rcv.phase = .warm 6 → s.tap.needCold = true →
           exec (.startStepDone rep) s = .next (({ s with main := m } : State).restart true))) ∧
       (s.main.endStep rep = none → exec (.startStepDone rep) s = .next (s.failStart n))) ∧
     (∀ lim, stepLimit s.main.rcv.phase s.main.rcv.savedValid = some lim → exec .startStepTimeout s =
       .next (({ s with main := s.main.until (s.main.rcv.stepAt + lim) } : State).failStart n)) ∧
     (∀ m : Main, m.rcv.phase = .cold 8 ∨ m.rcv.phase = .warm 6 →
       m.nextStep.rcv.phase = .running ∧ m.nextStep.rcv.joining = true ∧ m.nextStep.rcv.warmFail = 0))
/-- Joining the fabric, and the way into the banked state: its events and its last step, after which only what the banked
state keeps is left. -/
def Obligations.BankedResults : Prop :=
  ∀ (s : State),
    (∀ rep, stepOf s.main.rcv.phase = none → s.main.rcv.joining = true → s.main.fab.mapped = true →
      (s.main.fab.root = s.main.fab.module ∨ s.main.fab.timeState ≠ .unlocked) →
      ∃ t, exec (.startStepDone rep) s = .next t ∧ t.main.rcv.joining = false ∧ t.main.fab.timeState ≠ .unlocked) ∧
    (∀ cause, s.main.rcv.banking = some cause → ∃ t, exec (.banked cause) s = .next t ∧ t.main.rcv.phase = .banked ∧
      t.main.rcv.banking = none ∧ t.main.rcv.mainRails = false ∧ t.main.comp.recs = [] ∧ t.main.mem.cells = [] ∧
      t.main.cores.wgs = [] ∧ t.main.objs = Objs.reset ∧ t.power.stopped = false) ∧
    (∀ d, s.main.rcv.dev = some d → ∃ t, exec .deviceResetEscalation s = .next t ∧ t.main.rcv.banking = some 0x50) ∧
    (s.main.core3Up = true →
      let again := match s.main.rcv.lastCore3 with | some x => decide (s.main.time < x + 10000000000) | none => false
      (again = true → s.main.bankable = true → ∃ t, exec .elborCore3Stall s = .next t ∧ t.main.rcv.banking = some 0x55) ∧
      (again = false → exec .elborCore3Stall s = toMain s (({ s.main with rcv := { s.main.rcv with
        stallMark := some s.main.time, lastCore3 := some s.main.time } } : Main).egResetProc 3)))

/-! ### Saggers and engine resets (R467-R486) -/

/-- Stalled cones, engine resets and their escalation (R475, R480, R481).
The steps of a sagger's handling (R468-R470, R474, R481, R505): fence, reset, reopen; 50 ms without reopening escalate to
a device reset. -/
def Obligations.ResetsAndSaggers : Prop :=
  (∀ (s : State) (e : EngineId),
     (engValid e = true → s.main.engWorks e = true → e ≠ ⟨4, 4⟩ →
       let c := coneCause e
       let m1 := s.main.post 0x31 6 ((if e.kind = 4 then 3 else e.kind) * 4096 + e.num) .ok c.2
       (∀ l, e.kind = 2 → s.main.fab.lanes[e.num]? = some l → l.st = .active →
         let m2 := (s.main.until (l.coneAt + c.2 * 1000)).post 0x31 6 (8192 + e.num) .ok c.2
         exec (.coneStall e) s = toMain s ((m2.failLane e.num).flush)) ∧
       (e.kind ≠ 2 → exec (.coneStall e) s = toMain s (m1.beginReset e c.1 0))) ∧
     (s.main.engWorks ⟨4, 4⟩ = true → ∃ t, exec (.coneStall ⟨4, 4⟩) s = .next t ∧ t.power.loc = min s.power.loc 56) ∧
     (∀ r, s.main.rcv.resets.find? (fun r => r.eng == e) = some r →
       let m1 (t : Nat) : Main := { (s.main.until t) with rcv := { s.main.rcv with resets := s.main.rcv.resets.erase r } }
       (∀ flushed ok, (e = ⟨4, 3⟩ → s.main.rcv.stallMark = none) →
         exec (.engineResetDone e flushed ok) s = toMain s
           (((((({ s.main with rcv := { s.main.rcv with resets := s.main.rcv.resets.erase r } } : Main).resetEffect e flushed ok).closeErr
             r.recId .done .ok).dmaPump).after).egSettle)) ∧
       exec (.engineResetEscalation e) s = toMain s (((m1 (r.since + 1000000)).closeErr r.recId .escalated .ok).saggerError
         (s.main.engSagger e) 0x40 e (some r.recId) 0 false none)) ∧
     (∀ flushed ok, s.main.rcv.stallMark.isSome = true → exec (.engineResetDone ⟨4, 3⟩ flushed ok) s = toMain s s.main.core3Back)) ∧
  (∀ (s : State) (span : Nat) (h : Handling), s.main.rcv.handlings.find? (fun h => h.sagger == span) = some h →
     (∀ dead, span ≠ 0 → h.step = .fence → s.main.fenceComplete span = true → exec (.saggerFenceComplete span dead) s =
       toMain s ((((s.main.spanClusters span).foldl Main.resetCluster (s.main.killAgents span dead)).modHandling span
         (fun h => { h with step := .reset })).payReceipts span)) ∧
     (∀ bad, span ≠ 0 → h.step = .reset →
       let m1 := (sparesFirst (bad.filter (fun c => (s.main.spanClusters span).contains (c / 9)))).foldl Main.admitWithout s.main
       exec (.saggerReopen span bad) s = toMain s ((if h.scrub then m1.scrubSpan span else m1).reopen h .spanAborted)) ∧
     (h.step ≠ .waiting → exec (.saggerEscalation span) s =
       toMain s (((s.main.until (h.since + 50000000)).closeErr h.recId .escalated .ok).deviceError 0x41 ⟨4, 3⟩ (some h.recId) span false)) ∧
     (span = 0 →
       (h.step = .waiting → s.main.mayHandle 0 = true → exec .moduleQuiesce s = toMain s (s.main.startHandling h none)) ∧
       (h.step ≠ .waiting → s.main.atRest = true →
         let m1 := s.main.recallAll
         let m2 : Main := { m1 with
           fab := { m1.fab with banks := replaceBanks m1.fab.banks }
           rcv := m1.rcv.remap }
         exec .moduleQuiesce s = toMain s (((([6, 7, 8, 9, 10, 11].foldl Main.egResetProc m2).reopen h .ok).dmaPump.fabricBack).egSettle))))
/-! ### The test port (R526, R527) -/

/-- Receipts and firmware switches (R461, R487, R505, R512).
The test port: while it is locked every instruction that would take the pins acts as BYPASS; TRST locks it. -/
def Obligations.SealAndTestPortEvents : Prop :=
  (∀ (s : State),
     (∀ module slot,
       let one (r : Revoke) : Revoke := if r.slot = slot then { r with piers := r.piers.filter (· != module) } else r
       exec (.pierReceipt module slot) s = .next (({ s with main := { s.main with sec := { s.main.sec with
         revokes := s.main.sec.revokes.map one } } } : State).settleSeal)) ∧
     (∀ slot r, s.main.sec.revokes.find? (fun r => r.slot == slot && !r.piers.isEmpty) = some r →
       let m1 := s.main.until (r.since + 50000000)
       let one (x : Revoke) : Revoke := if x = r then { x with silent := x.piers, piers := [] } else x
       exec (.pierReceiptTimeout slot) s = .next (({ s with
         main := { m1 with sec := { m1.sec with revokes := m1.sec.revokes.map one } } } : State).settleSeal)) ∧
     (∀ e t0, ((s.main.takeReceipts.sec.revokes.find? (fun r => r.engines.contains e)).map (·.since) = some t0 ∨
         ((s.main.takeReceipts.sec.revokes.find? (fun r => r.engines.contains e)) = none ∧
           ∃ l, s.main.takeReceipts.sec.unlocking = some (t0, l) ∧ l.contains e = true)) →
       exec (.engineReceiptTimeout e) s = .next (({ s with
         main := (s.main.takeReceipts.until (t0 + 10000000)).beginReset ⟨1, e⟩ 0x11 0 } : State).settleSeal)) ∧
     (∀ comp k, s.main.sec.switching = some (comp, k) →
       (k + 1 < switchSteps comp → comp ≠ 0 → exec (.firmwareActivationDone comp) s = .next (s.switchOne comp (k + 1)).settleFabric) ∧
       (switchSteps comp ≤ k + 1 →
         (comp ≠ 0 → exec (.firmwareActivationDone comp) s = .next (s.endSwitch comp true)) ∧
         (comp = 0 → exec .elborServicePauseEnd s = .next (s.endSwitch 0 true))) ∧
       exec (.firmwareHeartbeatFail comp) s = .next (s.endSwitch comp false))) ∧
  (∀ (s : State), s.main.standby = true →
     let tap (t : Tap) : Outcome := .next { s with tap := t }
     exec .tapBypass s = tap { s.tap with ir := 0xFF, dr := 0, pins := false } ∧
     exec .tapIdcode s = tap { s.tap with ir := 0x01, dr := 0x10C90A9D, pins := false } ∧
     (∃ t, exec .tapSamplePreload s = .next t ∧ t.tap = { s.tap with ir := 0x02, dr := t.tap.dr, pins := false } ∧
       t.power = s.power ∧ t.main = { s.main with free := s.main.free + 1 }) ∧
     exec .trst s = tap { s.tap with ir := 0x01, dr := 0x10C90A9D, opened := false, pins := false } ∧
     (∀ x ∈ [(Instr.tapExtest, 0x00), (.tapClamp, 0x04), (.tapHighz, 0x05)],
       (s.tap.opened = false → exec x.1 s = exec .tapBypass s) ∧
       (s.tap.opened = true → exec x.1 s = tap { s.tap with ir := x.2, pins := true, needCold := true })))
/-! ### ECS commands (R404-R421 and the chapters of their effects) -/

/-- How an answer is given (R405, R406, R411, R412): without output it is the response alone; output is written first, and
where it does not fit or cannot be written the command has no effect; a command of no row is refused at its opcode.
The commands that read (R309, R397, R409, R413, R414, R457, R459, R488, R510, R514, R520, R524, R544): each answers what
its chapter lists, with OK where its arguments are good, and changes nothing but what open values it draws. -/
def Obligations.EcsQueries : Prop :=
  (∀ (s t : State) (mb : Mbx) (c : Cmd) (cmd : MbCmd) (r : Reply) (outOk : Bool),
     let i := ecsIn mb c cmd
     let say (x : State) (r : Reply) : State := { x with main := (x.main.reply mb cmd r).saturate }
     (r.out = [] → s.answer i outOk r t = say t r) ∧
     (r.out ≠ [] → (i.hasOut = false ∨ i.outLen < r.out.length) → s.answer i outOk r t = say s (.refuse 0x14)) ∧
     (r.out ≠ [] → i.hasOut = true → r.out.length ≤ i.outLen → outOk = false →
       s.answer i outOk r t = say s { status := .faultUnresolved }) ∧
     (r.out ≠ [] → i.hasOut = true → r.out.length ≤ i.outLen → outOk = true →
       (mb = .bmc → s.answer i outOk r t = say t r) ∧
       (∀ f, mb = .fn f → cmd.orphan = false →
         let page := s.main.needBuffer i (i.arg 0x18 8) r.out.length true
         (∀ m, page = .have m → s.answer i outOk r t = say { t with main := t.main.hostWrite f 0 (i.arg 0x18 8) r.out false } r) ∧
         (∀ m, page = .wait m → s.answer i outOk r t = { s with main := m }) ∧
         (∀ m, page = .lost m → s.answer i outOk r t = say { s with main := m } { status := .faultUnresolved }))) ∧
     (classOf cmd.op = none → EcsBegins s mb c cmd cmd.op → exec (.reservedCommand mb c) s =
       .next (s.answer i c.outOk (.refuse (if cmd.opcode < 4096 then 0 else 1)) s))) ∧
  (∀ (s : State) (mb : Mbx) (c : Cmd) (cmd : MbCmd),
     let i := ecsIn mb c cmd
     let reports (x : Instr) (op : Nat) (r : Reply) : Prop := EcsBegins s mb c cmd op → exec x s = .next (s.answer i c.outOk r s)
     (reports (.identify mb c) 0x000 (identifyReply i s) ∧ reports (.moduleStatus mb c) 0x001 (statusReply i s) ∧
       reports (.telemetryRead mb c) 0x002 (telemetryReply i s) ∧ reports (.fabricQuery mb c) 0x003 (fabricReply i s) ∧
       reports (.getParam mb c) 0x005 (getParamReply i s) ∧ reports (.spanQuery mb c) 0x105 (spanQueryReply i s) ∧
       reports (.spanList mb c) 0x106 (spanListReply i s) ∧ reports (.extQuery mb c) 0x302 (extQueryReply i s) ∧
       reports (.errRead mb c) 0x500 (errReply i s) ∧ reports (.debugRead mb c) 0x506 (debugReply i s) ∧
       reports (.secQuery mb c) 0x600 (secReply i s) ∧ reports (.fwQuery mb c) 0x702 (fwReply i s) ∧
       reports (.drillQuery mb c) 0x803 (drillReply i s)) ∧
     (EcsBegins s mb c cmd 0x403 → exec (.powerQuery mb c) s = .next (s.answer i c.outOk (powerReply i s).1 (powerReply i s).2)) ∧
     (i.reserved [] = none → (identifyReply i s).status = .ok ∧ (statusReply i s).status = .ok ∧
       (spanListReply i s).status = .ok ∧ (fwReply i s).status = .ok) ∧
     (∀ r, i.reserved [(0x20, 2)] = none → paramRange (i.arg 0x20 2) = some r →
       getParamReply i s = .good (fields [(0x20, toBytes 8 (s.main.param (i.arg 0x20 2)))])) ∧
     (∀ x, OnContext s i [] x → EcsBegins s mb c cmd 0x202 →
       let entry (k : Nat) : List Byte := toBytes 2 k ++ toBytes 2 0 ++ toBytes 4 (s.main.utilisation x.num k)
       let energy := if i.vf.isSome then ctxEnergy x else roundEnergy ⟨0, 0⟩ x.energy
       exec (.ctxQuery mb c) s = .next (s.answer i c.outOk
         { status := .ok
           result := fields [(0x20, toBytes 1 x.state.code), (0x24, toBytes 4 (s.main.slotCount x.num)), (0x28, toBytes 8 x.jobs),
             (0x30, toBytes 8 energy), (0x38, toBytes 8 (s.main.poolReserved x.num)),
             (0x40, toBytes 8 ((s.main.poolUsed x.num).length * 4096)),
             (0x48, toBytes 4 (s.main.objs.queues.filter (fun y => y.ctx == x.num)).length),
             (0x4C, toBytes 4 (s.main.objs.fences.filter (fun y => y.owner == x.num)).length),
             (0x50, toBytes 8 ((s.main.objs.regions.filter (fun y => y.ctx == x.num)).map (·.len)).sum)]
           out := if i.wantsOut then (s.main.spanClusters x.span).flatMap entry else [] } s)) ∧
     (∀ x q, OnContext s i [(0x24, 1)] x → s.main.queueOf ⟨x.num, i.arg 0x24 1⟩ = some q → EcsBegins s mb c cmd 0x212 →
       exec (.queueQuery mb c) s = .next (s.answer i c.outOk (.good (fields [(0x20, toBytes 1 (b2n q.halted)),
         (0x24, toBytes 4 q.avail.toNat), (0x28, toBytes 4 q.ridx.toNat), (0x2C, toBytes 4 q.done.toNat)])) s)) ∧
     (∀ x f, OnContext s i [(0x24, 4)] x → s.main.mayFence i (i.arg 0x24 4) = true → s.main.fenceOf (i.arg 0x24 4) = some f →
       f.owner = x.num → EcsBegins s mb c cmd 0x224 →
       let mir := if f.mirror = none then 0 else if f.mirrorOn = true then 1 else 2
       exec (.fenceQuery mb c) s = .next (s.answer i c.outOk (.good (fields [(0x20, toBytes 8 f.value.toNat),
         (0x28, toBytes 1 (b2n !f.live)), (0x29, toBytes 1 mir), (0x2C, toBytes 4 f.regress)])) s)))
/-- Commands on the module (R197-R202, R247, R409, R413, R414, R449, R451, R457, R478, R485, R488, R544): parameters, bindings, lasers,
power, error records, resets, swaps, channel retirement, banking. -/
def Obligations.EcsModuleCommands : Prop :=
  ∀ (s : State) (mb : Mbx) (c : Cmd) (cmd : MbCmd),
    let i := ecsIn mb c cmd
    let done (x : Instr) (r : Reply) (t : State) : Prop := exec x s = .next (s.answer i c.outOk r t)
    let main (x : Instr) (r : Reply) (m : Main) : Prop := done x r { s with main := m }
    let held (why : HeldFor) (m : Main) : Main := (m.hold mb cmd why).saturate
    (EcsBegins s mb c cmd 0x004 → i.reserved [(0x20, 2), (0x28, 8)] = none → ∀ r, paramRange (i.arg 0x20 2) = some r →
      r.1 ≤ i.arg 0x28 8 → i.arg 0x28 8 ≤ r.2 → main (.setParam mb c) (.good [])
        (({ s.main with params := modNth s.main.params (i.arg 0x20 2 - 1) (fun _ => i.arg 0x28 8) } : Main).saturate)) ∧
    (EcsBegins s mb c cmd 0x006 → i.reserved [(0x20, 3), (0x24, 4)] = none → i.arg 0x20 1 < 2 → i.arg 0x21 1 ≠ 0 →
      i.high 0x22 1 1 = none → i.high 0x24 4 20 = none →
      let vf : Fn := ⟨i.arg 0x20 1, i.arg 0x21 1⟩
      let rest := s.main.elbor.bound.filter (· != (vf, i.arg 0x24 4))
      ∀ r, s.main.fnOf vf = some r → r.present = true →
      (bit (i.arg 0x22 1) 0 = false → (s.main.recOf (i.arg 0x24 4)).isSome = true → main (.fnBind mb c) (.good [])
        { s.main with elbor := { s.main.elbor with bound := rest ++ [(vf, i.arg 0x24 4)] } }) ∧
      (bit (i.arg 0x22 1) 0 = true → (∀ x ∈ s.main.objs.ctxs, x.fn = vf → x.span ≠ i.arg 0x24 4) →
        main (.fnBind mb c) (.good []) { s.main with elbor := { s.main.elbor with bound := rest } })) ∧
    (EcsBegins s mb c cmd 0x404 → i.reserved [(0x20, 3)] = none → i.arg 0x22 1 ≤ 1 →
      let act (m : Main) (e : Nat) : Main := if i.arg 0x22 1 = 0 then (m.modOpt e (fun o => { o with shutdown := true })).darken e
        else m.modOpt e (fun o => { o with shutdown := false })
      let m1 := ((bitsSet 16 (i.arg 0x20 2)).foldl act s.main).flush
      main (.laserShutdown mb c) (.good (fields [(0x20, toBytes 2 m1.heldOff)])) m1) ∧
    (EcsBegins s mb c cmd 0x400 → i.reserved [(0x20, 2)] = none → 1200 ≤ i.arg 0x20 2 → i.arg 0x20 2 ≤ 3200 → i.arg 0x20 2 % 10 = 0 →
      (s.power.fixed = true → i.arg 0x20 2 = 3200) → done (.powerCapSet mb c) (.good (fields [(0x20, toBytes 2 (i.arg 0x20 2))]))
        (({ s with power := { s.power with cap := i.arg 0x20 2 } } : State).postPower 15 .ok (i.arg 0x20 2))) ∧
    (EcsBegins s mb c cmd 0x401 → i.reserved [(0x20, 2)] = none →
      (i.arg 0x20 1 = 0 → 16 ≤ i.arg 0x21 1 → i.arg 0x21 1 ≤ 64 →
        done (.powerEmergency mb c) (.good []) (s.limit (fun p => { p with hold := some (i.arg 0x21 1) }))) ∧
      (i.arg 0x20 1 = 1 → i.arg 0x21 1 = 0 →
        done (.powerEmergency mb c) (.good []) (s.limit (fun p => { p with hold := none })))) ∧
    (EcsBegins s mb c cmd 0x402 → i.reserved [(0x20, 1)] = none → i.high 0x20 1 1 = none →
      let on := bit (i.arg 0x20 1) 0
      3200 ≤ s.power.cap → done (.fixedFreq mb c) (.good (fields [(0x20, toBytes 1 (b2n on))]))
        (s.limit (fun p => { p with fixed := on, capLim := if on then max 56 p.capLim else p.capLim }))) ∧
    (EcsBegins s mb c cmd 0x501 → i.reserved [(0x20, 4), (0x24, 2)] = none →
      let errs := s.main.rcv.errs.filter (fun e => e.isOpen ||
        !(decide (i.arg 0x20 4 ≤ e.id) && decide (e.id < i.arg 0x20 4 + i.arg 0x24 2)))
      main (.errAck mb c) (.good []) { s.main with rcv := { s.main.rcv with errs := errs } }) ∧
    (EcsBegins s mb c cmd 0x502 → i.reserved [(0x20, 4), (0x24, 1)] = none → i.high 0x20 4 20 = none → i.high 0x24 1 1 = none →
      let span := i.arg 0x20 4
      let scrub := bit (i.arg 0x24 1) 0
      (span ≠ 0 → (s.main.recOf span).isSome = true) → (scrub = true → span ≠ 0 ∧ ∀ x ∈ s.main.objs.ctxs, x.span ≠ span) →
      exec (.saggerReset mb c) s =
        toMain s ((held (.reopen span) (s.main.saggerError span 0x35 ⟨7, 0x502⟩ none 0 scrub none)).after)) ∧
    (EcsBegins s mb c cmd 0x503 → i.reserved [(0x20, 1), (0x24, 2), (0x28, 4), (0x2C, 1), (0x30, 0)] = none → i.arg 0x20 1 ≤ 1 →
      i.arg 0x2C 1 = 0 → main (.deviceReset mb c) (.good [])
        (s.main.deviceError 0x43 ⟨7, 0x503⟩ none 0 (bit (i.arg 0x20 1) 0))) ∧
    (∀ n, EcsBegins s mb c cmd 0x503 → i.arg 0x2C 1 = n → n ≤ 40 →
      i.reserved [(0x20, 1), (0x24, 2), (0x28, 4), (0x2C, 1), (0x30, 4 * n)] = none → i.arg 0x20 1 = 2 → i.arg 0x24 2 < 256 →
      i.unstable s.main n = none → s.main.rcv.dev = none →
      let p : Preserve := { slot := i.arg 0x24 2, gen := i.arg 0x28 4, spans := (List.range n).map (fun k => i.arg (0x30 + 4 * k) 4) }
      main (.deviceReset mb c) (.good [])
        (({ s.main with rcv := { s.main.rcv with preserve := some p } } : Main).deviceError 0x43 ⟨7, 0x503⟩ none 0 false)) ∧
    (EcsBegins s mb c cmd 0x504 → i.reserved [(0x20, 2)] = none → i.arg 0x20 1 < 32 → i.arg 0x21 1 < 8 →
      (∀ u, s.main.cores.units[i.arg 0x20 1 * 9 + 8]? = some u → u.good = true → u.inService = false →
        (∀ x ∈ s.main.rcv.swaps, x.cluster ≠ i.arg 0x20 1) → exec (.coreSpareSwap mb c) s =
          toMain s (held (.swap (i.arg 0x20 1)) (s.main.beginSwap (i.arg 0x20 1 * 9 + i.arg 0x21 1))))) ∧
    (EcsBegins s mb c cmd 0x303 → i.reserved [(0x20, 1)] = none → i.arg 0x20 1 < 192 →
      let k := i.arg 0x20 1
      (s.main.chan k).state ≠ .retired →
      ((s.main.chan k).repl = none → (∀ y, y < 192 → (s.main.chan y).repl ≠ some k) →
        exec (.chRetire mb c) s =
          toMain s ((held (.retire k) (s.main.modChan k (fun x => { x with due := true }))).settleRetire)) ∧
      ((s.main.chan k).repl.isSome = true → exec (.chRetire mb c) s =
        toMain (s.answer i c.outOk (.good []) s) (s.answer i c.outOk (.good []) s).main.settleRetire)) ∧
    (EcsBegins s mb c cmd 0x505 → i.reserved [(0x20, 4)] = none → i.arg 0x20 4 = 0x4B4E4142 → s.main.bankable = true →
      main (.enterBanked mb c) (.good []) (s.main.bankEnter 0x54 ⟨7, 0x505⟩ none))

/-- Commands on contexts, queues, fences, partitions, landing counters and regions (R172-R176, R289, R292, R363-R373,
R388-R399, R412). -/
def Obligations.EcsContextCommands : Prop :=
  ∀ (s : State) (mb : Mbx) (c : Cmd) (cmd : MbCmd) (x : Context),
    let i := ecsIn mb c cmd
    let m := s.main
    let main (y : Instr) (r : Reply) (m1 : Main) : Prop := exec y s = .next (s.answer i c.outOk r { s with main := m1 })
    let held (why : HeldFor) (m1 : Main) : Main := (m1.hold mb cmd why).saturate
    let on (op : Nat) (named : List (Nat × Nat)) : Prop := EcsBegins s mb c cmd op ∧ OnContext s i named x ∧ x.accepts
    (EcsBegins s mb c cmd 0x201 → OnContext s i [] x →
      exec (.ctxDestroy mb c) s = toMain s ((held (.teardown x.num) (m.beginTeardown x.num)).dmaPump.after)) ∧
    (on 0x203 [] → m.fenced x.span = false →
      main (.ctxEvict mb c) (.good []) (if x.state = .resident then m.giveUp x.num else m)) ∧
    (∀ y, on 0x211 [(0x24, 1)] → m.fenced x.span = false → m.queueOf ⟨x.num, i.arg 0x24 1⟩ = some y →
      let q : QRef := ⟨x.num, i.arg 0x24 1⟩
      (y.destroying = true → exec (.queueDestroy mb c) s = toMain s (held .again m).settleQueues) ∧
      (y.destroying = false → exec (.queueDestroy mb c) s = toMain s ((held (.queue q)
        (((m.modQueue q (fun y => { y with avail := y.ridx, destroying := true })).cutPuts
          (fun p => p.owner == .ring q)).restWaiting x.num)).settleQueues))) ∧
    (∀ idx (mirror : Option Loc), on 0x220 [(0x28, 8), (0x30, 16)] → i.high 0x31 3 0 = none →
      (i.arg 0x30 1 = 2 ∧ mirror = none ∨ i.arg 0x30 1 = 0 ∧ mirror = some (.region (i.arg 0x34 4) (i.arg 0x38 8)) ∧
        ∃ r, m.regionOf (i.arg 0x34 4) = some r ∧ r.ctx = i.arg 0x20 4 ∧ r.write = true ∧ r.glaze = none ∧
          i.arg 0x38 8 + 16 ≤ r.len) →
      (m.objs.fences.filter (fun f => f.owner == x.num)).length < 4096 → lowestFree (m.objs.fences.map (·.index)) 262144 = some idx →
      let g := match m.objs.fenceGens.find? (fun y => y.1 == idx) with | some y => y.2 | none => 1
      let f : Fence := { gen := g, index := idx, owner := x.num, value := BitVec.ofNat 64 (i.arg 0x28 8), live := true, grants := []
                         regress := 0, rr := none, mirror := mirror, mirrorOn := mirror.isSome }
      main (.fenceCreate mb c) (.good (fields [(0x20, toBytes 4 f.handle)]))
        (({ m with objs := { m.objs with fences := m.objs.fences ++ [f] } } : Main).writeMirror f.handle)) ∧
    (∀ f, m.mayFence i (i.arg 0x24 4) = true → m.fenceOf (i.arg 0x24 4) = some f →
      (on 0x221 [(0x24, 4)] → f.owner = x.num →
        main (.fenceDestroy mb c) (.good []) ((m.abandonFence f.handle).freeFence f.handle)) ∧
      (on 0x221 [(0x24, 4)] → f.owner ≠ x.num → m.granted f x = true →
        let drop (f : Fence) : Fence := { f with grants := f.grants.filter (fun g => !(g.module == m.fab.module && g.ctx == x.num)) }
        main (.fenceDestroy mb c) (.good []) ((m.modFence f.handle drop).freeFence f.handle)) ∧
      (on 0x222 [(0x24, 4), (0x28, 2), (0x2C, 4), (0x30, 1)] → f.owner = x.num → i.high 0x28 2 13 = none →
        i.high 0x2C 4 16 = none → i.arg 0x30 1 = 128 →
        let rest := f.grants.filter (fun y => !(y.module == i.arg 0x28 2 && y.ctx == i.arg 0x2C 4))
        main (.fenceGrant mb c) (.good []) ((m.modFence f.handle (fun f => { f with grants := rest })).freeFence f.handle)) ∧
      (∀ g : Grant, on 0x222 [(0x24, 4), (0x28, 2), (0x2C, 4), (0x30, 1)] → f.owner = x.num → i.high 0x28 2 13 = none →
        i.high 0x2C 4 16 = none → g.module = i.arg 0x28 2 → g.ctx = i.arg 0x2C 4 → g.wait = bit (i.arg 0x30 1) 0 →
        g.signal = bit (i.arg 0x30 1) 1 → i.arg 0x30 1 < 4 → (g.wait = true ∨ g.signal = true) →
        (g.wait = true → g.module = m.fab.module) →
        let rest := f.grants.filter (fun y => !(y.module == g.module && y.ctx == g.ctx))
        rest.length < 32 →
        main (.fenceGrant mb c) (.good []) (m.modFence f.handle (fun f => { f with grants := rest ++ [g] }))) ∧
      (on 0x223 [(0x24, 4), (0x28, 8)] → f.maySignal m.fab.module m.fab.module x.num = true →
        let r := m.signalFence m.fab.module m.fab.module x.num f.handle (BitVec.ofNat 64 (i.arg 0x28 8))
          (if x.checked then some m.hostPos else none)
        main (.fenceSignal mb c) { status := r.1 } r.2)) ∧
    (on 0x230 [(0x24, 4), (0x28, 2)] → m.fenced x.span = false → i.high 0x28 2 12 = none →
      (∀ k ∈ bitsSet 32 (i.arg 0x24 4), k ∈ m.spanClusters x.span ∧
        ((nth m.l2 k L2Part.reset).assign x.num (i.arg 0x28 2)).isSome = true) →
      let set (l : List L2Part) (k : Nat) : List L2Part :=
        match (nth m.l2 k L2Part.reset).assign x.num (i.arg 0x28 2) with | some p => l.set k p | none => l
      main (.ctxL2part mb c) (.good []) { m with l2 := (bitsSet 32 (i.arg 0x24 4)).foldl set m.l2 }) ∧
    (let n := i.arg 0x24 2
     let used := m.objs.counters.map (·.idx)
     let free := ((List.range (min 16384 (used.length + n))).filter (fun k => !used.contains k)).take n
     on 0x240 [(0x24, 2)] → m.fenced x.span = false → 0 < n → n ≤ 1024 → n ≤ free.length →
      m.fabricOut = false → ∃ r, r.status = .ok ∧
      main (.lcAlloc mb c) r { m with objs := { m.objs with
        counters := m.objs.counters ++ free.map (fun k => { idx := k, ctx := x.num, value := 0, last := none }) } }) ∧
    (on 0x241 [(0x24, 2), (0x28, 8)] → m.fenced x.span = false → m.ownsCounter x (i.arg 0x24 2) = true →
      let k := i.arg 0x24 2
      let m1 := m.modCounter k (fun y => { y with value := BitVec.ofNat 64 (i.arg 0x28 8) })
      main (.lcSet mb c) (.good []) ((m1.counterWaiters k).foldl (fun m w => m.wakeCounterPacket k w) m1)) ∧
    (∀ n, i.arg 0x24 2 = n → 0 < n → n ≤ 96 → on 0x242 [(0x24, 2), (0x28, 2 * n)] → m.fenced x.span = false →
      let idxs := (List.range n).map (fun k => i.arg (0x28 + 2 * k) 2)
      (∀ k ∈ idxs, m.ownsCounter x k = true) → main (.lcFree mb c) (.good []) (idxs.foldl Main.freeCounter m)) ∧
    (∀ n, i.arg 0x24 2 = n → 96 < n → 2 * n ≤ i.data.length → on 0x242 [(0x24, 2), (0x28, 0)] → m.fenced x.span = false →
      let idxs := (List.range n).map (fun k => fieldAt i.data (2 * k) 2)
      (∀ k ∈ idxs, m.ownsCounter x k = true) → main (.lcFree mb c) (.good []) (idxs.foldl Main.freeCounter m)) ∧
    (∀ glaze : Option Nat, on 0x320 [(0x28, 8), (0x30, 8), (0x38, 1), (0x3C, 2)] → i.arg 0x28 8 % 4096 = 0 → 0 < i.arg 0x30 8 →
      i.arg 0x28 8 + i.arg 0x30 8 ≤ 2 ^ 64 → i.high 0x38 1 2 = none →
      (i.arg 0x3C 2 = 0xFFFF ∧ glaze = none ∨ i.arg 0x3C 2 < 256 ∧ m.slotServes x (i.arg 0x3C 2) = true ∧
        i.arg 0x30 8 % 4096 = 0 ∧ glaze = some (i.arg 0x3C 2)) →
      (m.objs.regions.filter (fun r => r.ctx == x.num)).length < 256 → m.objs.regions.length < 65536 →
      let r : Region := { handle := m.newHandle, ctx := x.num, iova := i.arg 0x28 8, len := i.arg 0x30 8
                          read := bit (i.arg 0x38 1) 0, write := bit (i.arg 0x38 1) 1, glaze := glaze }
      main (.regionRegister mb c) (.good (fields [(0x20, toBytes 4 m.newHandle)]))
        { m with objs := { m.objs with regions := m.objs.regions ++ [r], nextRegion := m.newHandle + 1 } }) ∧
    (∀ r, on 0x321 [(0x24, 4)] → m.regionOf (i.arg 0x24 4) = some r → r.ctx = x.num → m.regionUsed x.num (i.arg 0x24 4) = false →
      main (.regionRelease mb c) (.good [])
        { m with objs := { m.objs with regions := m.objs.regions.filter (fun r => r.handle != i.arg 0x24 4) } })

/-- Commands that create contexts and queues, on extents, channels and window segments (R130, R182-R188, R196-R202, R344,
R345, R348, R365, R366, R370, R371). -/
def Obligations.EcsMemoryCommands : Prop :=
  ∀ (s : State) (fn : Fn) (c : Cmd) (cmd : MbCmd),
    let mb := Mbx.fn fn
    let i := ecsIn mb c cmd
    let m := s.main
    let main (y : Instr) (r : Reply) (m1 : Main) : Prop := exec y s = .next (s.answer i c.outOk r { s with main := m1 })
    let held (why : HeldFor) (m1 : Main) : Main := (m1.hold mb cmd why).saturate
    let span := i.arg 0x20 4
    let onSpan (op : Nat) (named : List (Nat × Nat)) : Prop := EcsBegins s mb c cmd op ∧ m.mayName mb span = true ∧
      i.reserved ((0x20, 4) :: named) = none ∧ i.high 0x20 4 20 = none
    (∀ n num, i.arg 0x26 1 = n → 0 < n → n ≤ 16 →
      onSpan 0x200 [(0x24, 1), (0x25, 1), (0x26, 1), (0x28, 4), (0x2C, 2), (0x30, 8), (0x40, 8 * n)] →
      (m.recOf span).isSome = true → i.high 0x25 1 2 = none → i.high 0x28 4 20 = none →
      (∃ r, m.fnOf fn = some r ∧ i.arg 0x2C 2 < r.eqs.length) → (∀ y ∈ m.poolNamed i span n, ∃ e, y.2 = some e ∧ e.state = .active ∧ m.leaves e = false) →
      m.fenced span = false → lowestFree (m.objs.ctxs.map (·.num)) 65536 = some num →
      let new : Context :=
        { num := num, span := span, fn := fn, pasid := i.arg 0x28 4, seed := BitVec.ofNat 64 (i.arg 0x30 8)
          weight := if i.arg 0x24 1 = 0 then 16 else i.arg 0x24 1
          checked := bit (i.arg 0x25 1) 0, debug := bit (i.arg 0x25 1) 1
          pool := ((m.poolNamed i span n).filterMap (fun y => y.2.map (·.base))).eraseDups, evq := i.arg 0x2C 2, state := .idle
          credit := 0, creditZero := none, waitFrom := none, jobs := 0, energy := 0, kept := [] }
      main (.ctxCreate mb c) (.good (fields [(0x20, toBytes 4 num)])) { m with objs := { m.objs with ctxs := m.objs.ctxs ++ [new] } }) ∧
    (∀ x idx page, EcsBegins s mb c cmd 0x210 → OnContext s i [(0x24, 1), (0x25, 1), (0x30, 64)] x → x.accepts →
      m.fenced x.span = false → 4 ≤ i.arg 0x24 1 → i.arg 0x24 1 ≤ 16 → i.arg 0x25 1 ≤ 1 →
      let slots := 2 ^ i.arg 0x24 1
      m.badLoc i x 0x30 (64 * slots) false = none → m.badLoc i x 0x40 (32 * slots) true = none → m.badLoc i x 0x50 16 true = none →
      m.badLoc i x 0x60 64 true = none →
      lowestFree ((m.objs.queues.filter (fun y => y.ctx == x.num)).map (·.idx)) 64 = some idx →
      lowestFree ((m.objs.queues.filter (fun y => y.fn == x.fn)).map (·.page)) (pageCount x.fn) = some page →
      m.residentQueues < 1024 →
      let q : Queue :=
        { ctx := x.num, idx := idx, fn := x.fn, page := page, ring := i.loc 0x30, slots := slots, cring := i.loc 0x40
          status := i.loc 0x50, traprec := i.loc 0x60, cevt := bit (i.arg 0x25 1) 0, proc := m.pickProc x.span
          avail := 0, ridx := 0, done := 0, doneOut := [], halted := false, destroying := false, running := [], held := []
          lastLaunch := none }
      main (.queueCreate mb c) (.good (fields [(0x20, toBytes 1 idx), (0x24, toBytes 2 page)]))
        { m with objs := { m.objs with queues := m.objs.queues ++ [q] } }) ∧
    (∀ g idx,
      let base := i.arg 0x28 8
      let len := i.arg 0x30 4
      let mask : BitVec 192 := BitVec.ofNat 192 (i.arg 0x38 24)
      let chans := bitsSet 192 mask.toNat
      onSpan 0x300 [(0x28, 8), (0x30, 4), (0x34, 2), (0x38, 24)] → (m.recOf span).isSome = true → base % 0x200000 = 0 →
      base + len * 0x200000 ≤ 2 ^ 52 →
      (∀ t, t = span ∨ (∃ k ∈ chans, m.channelGoes span k = .span t) → (m.extentsOf t).length < 4096 ∧
        ∀ e ∈ m.extentsOf t, (e.base + e.len) * 0x200000 ≤ base ∨ base + len * 0x200000 ≤ e.base * 0x200000) →
      0 < len → len ≤ 294912 → chans ≠ [] → len % chans.length = 0 →
      (∀ k ∈ chans, nth m.comp.memOwner k .idle = .span span) → m.splits span chans = false → m.fenced span = false →
      (i.arg 0x34 2 = 0xFFFF ∧ m.lowestFit mask (len / chans.length) = some g ∨
        i.arg 0x34 2 = g ∧ g ≠ 0xFFFF ∧ m.granulesFree mask g (len / chans.length) = true) → lowestFree (m.mem.extents.map (·.idx)) 65536 = some idx →
      let e : Extent := { idx := idx, state := .zeroing, span := span, base := base / 0x200000, choff := g, len := len, mask := mask }
      exec (.extCreate mb c) s = toMain s (held (.extent idx) { m with mem := { m.mem with
        extents := insertExtent e m.mem.extents, zeroing := m.mem.zeroing ++ [(idx, .extent idx)] } })) ∧
    (∀ e, onSpan 0x301 [(0x28, 8)] → (m.recOf span).isSome = true →
      m.mem.extents.find? (fun e => e.span == span && e.base * 0x200000 == i.arg 0x28 8) = some e → m.fenced span = false →
      e.state ≠ .zeroing → m.coh.reclaim = [] → m.inPools e = false → main (.extDestroy mb c) (.good []) (m.dropExtent e)) ∧
    (∀ r k, m.fnOf fn = some r →
      (onSpan 0x310 [(0x24, 4), (0x28, 4), (0x30, 8), (0x38, 1)] → (∃ x ∈ m.objs.ctxs, x.fn = fn ∧ x.span = span) →
        i.high 0x24 4 19 = none →
        (∀ x ∈ r.segs, x.wbase + x.len ≤ i.arg 0x24 4 ∨ i.arg 0x24 4 + i.arg 0x28 4 ≤ x.wbase) → 0 < i.arg 0x28 4 →
        i.arg 0x28 4 ≤ 524288 → (i.arg 0x24 4 + i.arg 0x28 4) * 0x200000 ≤ r.bar2 → i.arg 0x30 8 % 0x200000 = 0 →
        i.arg 0x30 8 < 2 ^ 52 → i.arg 0x38 1 ≤ 1 → lowestFree (r.segs.map (·.idx)) (segCount fn) = some k →
        let seg : Segment := { idx := k, wr := bit (i.arg 0x38 1) 0, span := span, wbase := i.arg 0x24 4
                               sbase := i.arg 0x30 8 / 0x200000, len := i.arg 0x28 4 }
        main (.winMap mb c) (.good (fields [(0x20, toBytes 2 k)])) (m.modFn fn (fun r => { r with segs := r.segs ++ [seg] }))) ∧
      (EcsBegins s mb c cmd 0x311 → i.reserved [(0x20, 2)] = none → (∃ x ∈ r.segs, x.idx = i.arg 0x20 2) →
        main (.winUnmap mb c) (.good []) (m.dropSegment fn (i.arg 0x20 2))))

/-- Commands of composition (R306-R318): a span is created on idle grains that become its own, destroyed when no context has
it, a transition is prepared, committed or given up. -/
def Obligations.EcsCompositionCommands : Prop :=
  ∀ (s : State) (mb : Mbx) (c : Cmd) (cmd : MbCmd),
    let i := ecsIn mb c cmd
    let m := s.main
    let span := i.arg 0x20 4
    let table := i.words (i.arg 0x2C 2 + 1)
    let set := i.grains true
    (EcsBegins s mb c cmd 0x100 → m.recOf span = none → i.reserved spanFields = none → i.high 0x2E 1 1 = none →
      (∀ o ∈ m.spanChecks i 0 false, o = none) → (∀ g ∈ set.only GrainSet.none, m.grainFree span g = true) →
      m.badTable false table = none → m.comp.recs.length < 40 →
      let r : SpanRec :=
        { id := span, tenant := BitVec.ofNat 32 (i.arg 0x24 4), phase := .stable, switchT := 0, closeT := 0, drainUs := i.arg 0x30 4
          late := false, drill := bit (i.arg 0x2E 1) 0, committed := false, current := set, shadow := GrainSet.none, piers := table
          nextPiers := [], reloc := [], handovers := [], gone := [], waiting := [] }
      exec (.spanCreate mb c) s = .next (s.answer i c.outOk (.good [])
        { s with main := (set.only GrainSet.none).foldl (fun m g => m.bindGrain span g) (m.addRec r) })) ∧
    (∀ r, EcsBegins s mb c cmd 0x101 → i.reserved [(0x20, 4)] = none → i.high 0x20 4 20 = none → m.recOf span = some r →
      r.phase = .stable → (∀ x ∈ m.objs.ctxs, x.span ≠ r.id) → m.coh.reclaim = [] →
      (∀ k, k < 192 → m.ownerOf (.memory, k) = .span r.id → (m.chan k).state ≠ .evacuating) →
      let m1 := ((m.handBackAll r.id).endWork r.id).dropExtents r.id
      let t := s.answer i c.outOk (.good []) { s with main := ((m1.grainsOf r.id).foldl Main.releaseGrain m1).freeRec r.id }
      exec (.spanDestroy mb c) s = toMain t t.main.settleRetire.after) ∧
    (let r := m.joinRec i
     let n := i.arg 0x2C 2 + 1
     let leave := bit (i.arg 0x2E 1) 1
     let nreloc := i.arg 0x34 1
     let reloc := (i.words (n + nreloc)).drop n
     let shadow := i.grains (!leave)
     let takes := shadow.only r.current
     let gives := r.current.only shadow
     EcsBegins s mb c cmd 0x102 → r.phase = .stable → i.reserved ((0x34, 1) :: (0x35, 1) :: spanFields) = none →
      i.high 0x2E 1 2 = none → i.arg 0x24 4 = r.tenant.toNat → i.arg 0x28 2 = (r.current.epoch + 1) % 65536 → nreloc ≤ 64 →
      1 ≤ i.arg 0x35 1 → i.arg 0x35 1 ≤ 8 → (∀ g ∈ takes, g.1 = .core → i.arg 0x35 1 ≤ m.activeCores g.2) →
      (∀ o ∈ m.spanChecks i nreloc leave, o = none) →
      (leave = true → i.high 0x2A 2 0 = none ∧ i.high 0x40 4 0 = none ∧ i.high 0x48 24 0 = none ∧ i.high 0x60 16 0 = none) →
      (∀ g ∈ takes, m.mayTake r.id r.tenant g = true) → (∀ g ∈ allGrains, shadow.has g = true → m.laneLooped g = false) →
      m.extentsFit r.id r.current shadow = true → m.takersFit r.id (r.current.mem &&& ~~~shadow.mem) = true → m.badTable leave table = none → badReloc r table reloc = none →
      (∀ g ∈ takes ++ gives, g.1 = .memory → (m.chan g.2).state ≠ .evacuating) →
      (∀ e ∈ m.mem.extents, e.span = r.id → (∃ g ∈ gives, g.1 = .memory ∧ e.mask.getLsbD g.2 = true) →
        e.state ≠ .zeroing ∧ m.inPools e = false) →
      (m.recOf r.id = none → leave = false ∧ m.comp.recs.length < 40) →
      let r1 : SpanRec := { r with
        phase := .prepare, shadow := shadow, nextPiers := table, reloc := reloc, drainUs := i.arg 0x30 4, switchT := 0, closeT := 0
        late := false, committed := false, handovers := [], gone := [] }
      exec (.composePrepare mb c) s = .next (s.answer i c.outOk (.good [])
        { s with main := (if (m.recOf r.id).isNone then m.addRec r1 else m.modRec r.id (fun _ => r1)).markMoving })) ∧
    (∀ r, m.recOf span = some r → r.phase = .prepare → r.committed = false → i.arg 0x28 2 = r.shadow.epoch → i.high 0x20 4 20 = none →
      (let t := i.arg 0x30 8
       let close := t + r.drainUs * 1000
       let late := decide (t ≤ m.time + 10000)
       EcsBegins s mb c cmd 0x103 → i.reserved [(0x20, 4), (0x28, 2), (0x30, 8)] = none → m.giversReady r close = true →
        let m1 := m.modRec r.id (fun r => { r with committed := true, switchT := t, closeT := close, late := late })
        let u := s.answer i c.outOk (.good (fields [(0x20, toBytes 1 (b2n late)), (0x28, toBytes 8 close)]))
          { s with main := if late then m1.switchSpan r else m1 }
        exec (.composeCommit mb c) s = toMain u u.main.after) ∧
      (EcsBegins s mb c cmd 0x104 → i.reserved [(0x20, 4), (0x28, 2)] = none →
        (∀ g ∈ r.current.only r.shadow, ∀ t, m.taker r.id g = some t → t.committed = false) → m.coh.reclaim = [] →
        (∀ k, k < 192 → m.ownerOf (.memory, k) = .span r.id → r.current.mem.getLsbD k = false → (m.chan k).state ≠ .evacuating ∧
          ∀ e ∈ m.mem.extents, e.span = r.id → (e.mask &&& r.current.mem) ≠ 0 → e.mask.getLsbD k = false) →
        ∃ m2 : Main, let u := s.answer i c.outOk (.good []) { s with main := m2.serveList r.id r.waiting }
          exec (.composeAbort mb c) s = toMain u u.main.settleRetire.after ∧
          (r.current.valid = true → ∀ y, m2.recOf span = some y → y.phase = .stable ∧ y.shadow = GrainSet.none) ∧
          (r.current.valid = false → m2.recOf span = none)))

/-- What happens to an armed transition (R319, R321, R325, R327-R331): the switch, memory grains handed over, the close, the
record of a leaving pier freed 10 µs later, and a handover that runs 50 ms past the close. -/
def Obligations.CompositionEvents : Prop :=
  ∀ (s : State) (span : Nat) (r : SpanRec), s.main.recOf span = some r →
    (r.phase = .prepare → r.committed = true →
      exec (.switch span) s = toMain s (((s.main.until r.switchT).switchSpan r).after)) ∧
    (∀ c, (∃ h ∈ r.handovers, h.kind = .memory ∧ h.num = c ∧ h.leave = true ∧ h.complete = false) → s.main.handoverHeld span = false →
      s.main.zeroingOn span c = false →
      exec (.memoryGrainHandover span c) s = toMain s (((s.main.handMemory span c).settleHandovers).settleRetire.after)) ∧
    (∀ r1, s.main.settleHandovers.recOf span = some r1 → r1.phase = .drain → (∀ h ∈ r1.handovers, h.complete = true) →
      let m := s.main.settleHandovers
      (r1.shadow.valid = true → exec (.close span) s = toMain s (((m.until r1.closeT).closeSpan r1).settleRetire.after)) ∧
      (r1.shadow.valid = false →
        exec (.close span) s = toMain s (((m.until r1.closeT).closeLeaving r1).after) ∧
        exec (.leavingRecordFree span) s = toMain s (((m.until (r1.closeT + 10000)).closeSpan r1).settleRetire.after))) ∧
    (r.phase = .drain → (∃ h ∈ r.handovers, h.leave = true ∧ h.complete = false) → exec (.handoverEscalation span) s =
      toMain s ((s.main.until (r.closeT + 50000000)).saggerError span 0x33 ⟨4, 2⟩ none 0 false none))

/-- What a transition's events need to complete (R319, R325, R328, R331): SWITCH an accepted COMMIT; the handover of a memory grain that
leaves its extents zeroed, its span's sagger open and no dead agent to reclaim; CLOSE, and the freeing of a leaving pier's record, every
handover complete; the escalation one that is not. -/
def Obligations.CompositionCompletes : Prop :=
  ∀ (s : State) (span : Nat) (r : SpanRec), s.main.recOf span = some r →
    (r.phase = .prepare → r.committed = true → ∃ t, exec (.switch span) s = .next t) ∧
    (∀ h ∈ r.handovers, h.kind = .memory → h.leave = true → h.complete = false → s.main.fenced span = false →
      s.main.coh.reclaim = [] → (∀ e ∈ s.main.mem.extents, e.span = span → e.state ≠ .zeroing) →
      ∃ t, exec (.memoryGrainHandover span h.num) s = .next t) ∧
    (r.phase = .drain → (∀ h ∈ r.handovers, h.complete = true) →
      (∃ t, exec (.close span) s = .next t) ∧
      (r.shadow.valid = false → ∃ t, exec (.leavingRecordFree span) s = .next t)) ∧
    (∀ h ∈ r.handovers, r.phase = .drain → h.leave = true → h.complete = false →
      ∃ t, exec (.handoverEscalation span) s = .next t)

/-- Commands of the Seal processor, on firmware, drills and loopbacks (R425, R487, R488, R494, R495, R505, R511-R514,
R516-R523). -/
def Obligations.EcsSealAndTestCommands : Prop :=
  ∀ (s : State) (mb : Mbx) (c : Cmd) (cmd : MbCmd),
    let i := ecsIn mb c cmd
    let m := s.main
    let main (y : Instr) (r : Reply) (m1 : Main) : Prop := exec y s = .next (s.answer i c.outOk r { s with main := m1 })
    let held (why : HeldFor) (m1 : Main) : State := { s with main := (m1.hold mb cmd why).saturate }
    (∀ k, EcsBegins s mb c cmd 0x601 → i.reserved [(0x20, 2), (0x24, 4)] = none → m.sec.blocked = false →
      (i.arg 0x20 2 = k ∧ k < 256 ∨ i.arg 0x20 2 = 0xFFFF ∧ m.sec.slots.findIdx? (fun x => x.st == .free) = some k) →
      (m.gslot k).st = .free →
      let t := i.arg 0x24 4
      let g := (m.gslot k).gen
      main (.slotAssign mb c) (.good (fields [(0x20, toBytes 2 k), (0x24, toBytes 4 g)]))
        ((m.modGslot k (fun x => { x with st := .assigned, tenant := t, ctr := 0 })).postSecurity 1 k .ok (t * 2 ^ 32 + g))) ∧
    (let k := i.arg 0x20 2
     let fence := bit (i.arg 0x22 1) 0
     EcsBegins s mb c cmd 0x602 → i.reserved [(0x20, 2), (0x22, 1)] = none → k < 256 → i.high 0x22 1 2 = none →
      (m.gslot k).st = .assigned → (fence = true ∨ ∀ r ∈ m.objs.regions, r.glaze ≠ some k) →
      let spans := if fence then m.spansOf (m.gslot k).tenant else []
      let m2 := spans.foldl (fun m x => m.saggerError x 0x35 ⟨7, 0x602⟩ none 0 false none)
        (m.modGslot k (fun x => { x with st := .draining }))
      let r : Revoke := { slot := k, release := bit (i.arg 0x22 1) 1, engines := List.range 64
                          piers := (spans.flatMap m.otherPiers).eraseDups, silent := [], since := m.time }
      exec (.slotRevoke mb c) s =
        .next (held (.revoke k) { m2 with sec := { m2.sec with revokes := m2.sec.revokes ++ [r] } }).settleSeal) ∧
    (EcsBegins s mb c cmd 0x602 → i.reserved [(0x20, 2), (0x22, 1)] = none → i.arg 0x20 2 < 256 → i.high 0x22 1 2 = none →
      (m.gslot (i.arg 0x20 2)).st = .draining →
      exec (.slotRevoke mb c) s = .next (held (.revoke (i.arg 0x20 2)) m).settleSeal) ∧
    (EcsBegins s mb c cmd 0x603 → i.reserved [] = none → i.hasIn = true → i.data.length = 160 →
      let m1 := m.newChallenge
      (m.tokenOk i.data = true → m.sec.unlocking = none → exec (.debugUnlock mb c) s =
        .next (held .unlock { m1 with sec := { m1.sec with unlocking := some (m1.time, List.range 64) } }).settleSeal) ∧
      (m.tokenOk i.data = false → exec (.debugUnlock mb c) s =
        .next (s.answer i c.outOk (.refuse 0xFFFF) { s with main := m1.postSecurity 8 0 .ok 0 }).settleSeal)) ∧
    (EcsBegins s mb c cmd 0x700 → i.reserved [(0x20, 1), (0x24, 4)] = none → i.arg 0x20 1 < 6 → i.hasIn = true →
      i.arg 0x24 4 = i.data.length → m.switches (i.arg 0x20 1) = false → m.imageOk (i.arg 0x20 1) i.data = true →
      main (.fwStage mb c) (.good (fields [(0x20, toBytes 1 (b2n (!(m.fwOf (i.arg 0x20 1)).onB))),
        (0x24, toBytes 4 (Config.imageVersion i.data))])) (m.modFw (i.arg 0x20 1) (fun f => f.stage i.data))) ∧
    (let comp := i.arg 0x20 1
     EcsBegins s mb c cmd 0x701 → i.reserved [(0x20, 1)] = none → comp < 6 → m.rcv.handlings = [] → m.rcv.dev = none →
      m.sec.switching = none → (m.fwOf comp).staged = true →
      (comp = 2 ∨ comp = 5 → main (.fwActivate mb c) (.good (fields [(0x20, toBytes 1 1)]))
        (m.modFw comp (fun f => { f with pending := true }))) ∧
      (comp ≠ 2 → comp ≠ 5 →
        let t := s.switchOne comp 0
        exec (.fwActivate mb c) s = .next { t with main := (t.main.hold mb cmd (.activate comp)).saturate })) ∧
    (∀ id r, EcsBegins s mb c cmd 0x800 → m.drills.findIdx? (fun d => d.st == .free) = some id →
      i.reserved [(0x20, 4), (0x24, 4), (0x28, 2), (0x2C, 12), (0x38, 4), (0x40, 8), (0x48, 16)] = none → i.high 0x20 4 20 = none →
      m.recOf (i.arg 0x20 4) = some r → r.drill = true → r.current.valid = true → i.arg 0x24 1 ≤ 3 → i.arg 0x25 1 ≤ 2 →
      (i.arg 0x24 1 = 3 → 1 ≤ i.arg 0x26 1 ∧ i.arg 0x26 1 ≤ 64) → (i.arg 0x24 1 ≠ 3 → i.arg 0x26 1 = 0) → i.high 0x27 1 7 = none →
      bits (i.arg 0x28 2) 14 13 = 0 → (i.arg 0x25 1 = 1 → i.arg 0x2C 4 ≠ 0 ∧ i.arg 0x34 4 ≠ 0 ∧ i.arg 0x38 4 ≠ 0) →
      let named := bitsSet 128 (BitVec.ofNat 128 (i.arg 0x48 16)).toNat
      (∀ l ∈ named, r.current.links.getLsbD l = true ∧ nth m.comp.linkOwner l .idle = .span (i.arg 0x20 4) ∧
        m.groupShared r.tenant l = false) →
      let d : Drill :=
        { st := .armed, span := i.arg 0x20 4, action := i.arg 0x24 1, mode := i.arg 0x25 1, hold := i.arg 0x26 1, vcMask := i.arg 0x27 1
          destEn := bit (i.arg 0x28 2) 15, dest := i.arg 0x28 2 % 2 ^ 13, limit := i.arg 0x2C 4, thresh := i.arg 0x30 4
          start := i.arg 0x34 4, period := i.arg 0x38 4, seed := BitVec.ofNat 64 (i.arg 0x40 8), links := BitVec.ofNat 128 (i.arg 0x48 16)
          passed := 0, injected := 0 }
      main (.drillArm mb c) (.good (fields [(0x20, toBytes 1 id)]))
        (named.foldl (fun (m : Main) l => m.giveBack l (fun g => !m.drillAllows g.span l))
          (((named.filterMap m.laneGroup).eraseDups).foldl (fun (m : Main) g => m.orderAside r.tenant g)
            { m with drills := m.drills.set id d })).flush) ∧
    (EcsBegins s mb c cmd 0x801 → i.reserved [(0x20, 1)] = none →
      (i.arg 0x20 1 = 0xFF → main (.drillDisarm mb c) (.good [])
        (({ m with drills := List.replicate 16 Drill.reset } : Main).flush)) ∧
      (i.arg 0x20 1 < 16 → main (.drillDisarm mb c) (.good [])
        (({ m with drills := m.drills.set (i.arg 0x20 1) Drill.reset } : Main).flush))) ∧
    (let e := i.arg 0x20 1
     let mode := i.arg 0x21 1
     EcsBegins s mb c cmd 0x802 → i.reserved [(0x20, 3)] = none → e < 16 → mode ≤ 2 → i.arg 0x22 1 ≤ 1 →
      (mode ≠ 0 → (m.optOf e).spareUsed = none ∧ ∀ l ∈ engineLanes e, nth m.comp.linkOwner l .held = .idle) →
      let m1 := (if mode = 0 then m.loopOff e else m.loopOn e mode (i.arg 0x22 1)).flush
      main (.loopbackSet mb c) (.good []) (m1.egSetMode (m1.looped || m1.rcv.dev.isSome)))

/-! ### The whole block -/

/-- No command changes the queue of the commands that wait: a step takes its front away and nothing else does. -/
def Obligations.QueueUntouched : Prop :=
  ∀ (c : Instr) (s t : State), exec c s = .next t → t.pending = s.pending

/-- The test port opens only in a command of the Seal processor, whose unlock takes hold there (R512, R527): no other command
opens it. -/
def Obligations.TestPortOpens : Prop :=
  ∀ (c : Instr) (s t : State), exec c s = .next t → s.tap.opened = false → t.tap.opened = true →
    (∃ mb x, c = .slotRevoke mb x ∨ c = .debugUnlock mb x) ∨
      (∃ n k, c = .pierReceipt n k ∨ c = .pierReceiptTimeout n ∨ c = .engineReceiptTimeout n)

/-- Every step keeps the power side legal: L and every limit stay codes, L stays at most the lowest limit while the Kiln loop
runs, the cap stays one that POWER_CAP_SET takes (R445, R446, R449, R451, R457, R461). -/
def Obligations.PowerStaysLegal : Prop :=
  ∀ (s t : State), s.power.legal → step s = .next t → t.power.legal

/-- What reset leaves (R423, R449, R458, R462, R527): standby power in the first step of a cold start, with nothing
composed, no memory written, nothing outstanding, the Event Gatherer masked and static, the test port locked, the power side
legal at the default cap. Values that the spec does not give are the model's (assumption logs 14 and 15). -/
def Obligations.ResetState : Prop :=
  State.reset.power.legal ∧ State.reset.power.cap = 3200 ∧ State.reset.power.fixed = false ∧ State.reset.power.hold = none ∧
    State.reset.main.rcv.phase = .cold 1 ∧ State.reset.main.comp.recs = [] ∧ State.reset.main.mem.wf = true ∧
    State.reset.main.mem.cells = [] ∧ State.reset.main.fab.entries = [] ∧ State.reset.main.fab.timeState = .unlocked ∧
    State.reset.main.params = [24, 1024, 16, 2000, 0x38D1B717, 50, 100, 256] ∧ State.reset.tap.opened = false ∧
    State.reset.main.eg.mode = 1 ∧ State.reset.main.eg.route = List.replicate 256 0x303 ∧
    (∀ b ∈ State.reset.main.eg.banks, b.pend = 0 ∧ b.serv = 0 ∧ b.mask = BitVec.allOnes 64) ∧ State.reset.pending = []
end

