-- ==== Sys2Proof/Laws/Ecs.lean ====
section
/-! SUPPORT. What an ECS command that begins comes to, and when the checks of its arguments pass. -/

namespace Sys2Proof.Machine

/-- A command that begins comes to what its body says. -/
theorem State.ecsOp_begins {s : State} {mb : Mbx} {c : Cmd} {cmd : MbCmd} {op : Nat} {body : EcsIn → State → Ans}
    (h : EcsBegins s mb c cmd op) :
    State.ecsOp op body mb c s =
      (match body (ecsIn mb c cmd) s with
       | .done r s1 => .next (s.answer (ecsIn mb c cmd) c.outOk r s1)
       | .hold why s1 => .next { s1 with main := (s1.main.hold mb cmd why).saturate }
       | .again => .next { s with main := (s.main.hold mb cmd .again).saturate }) := by
  obtain ⟨h1, h2, h3, h4, h6, h7, h8, h9, h10, h11⟩ := h
  have hb : s.begin_ (ecsIn mb c cmd) body = body (ecsIn mb c cmd) s := by
    have e1 : (s.main.banked && !bankedOps.contains op) = false := by
      cases hk : s.main.banked
      · rfl
      · rw [h8 hk]; rfl
    have e2 : ((ecsIn mb c cmd).hasIn && (ecsIn mb c cmd).input.isNone) = false := by
      cases hk : (ecsIn mb c cmd).hasIn
      · rfl
      · have := (h11 hk).1
        cases hc : (ecsIn mb c cmd).input <;> simp_all
    unfold State.begin_
    simp only [e1, h2, h9, h10, e2, Bool.not_true, Bool.false_eq_true, if_false]
  have hr : s.beginRead (ecsIn mb c cmd) c.outOk body = s.beginNow (ecsIn mb c cmd) c.outOk body := by
    unfold State.beginRead
    cases hk : (ecsIn mb c cmd).hasIn
    · rfl
    · simp only [(h11 hk).2, Bool.not_true, Bool.false_eq_true, if_false]
  have hn : s.beginNow (ecsIn mb c cmd) c.outOk body =
      (match body (ecsIn mb c cmd) s with
       | .done r s1 => s.answer (ecsIn mb c cmd) c.outOk r s1
       | .hold why s1 => { s1 with main := (s1.main.hold mb cmd why).saturate }
       | .again => { s with main := (s.main.hold mb cmd .again).saturate }) := by
    unfold State.beginNow
    rw [hb]
    all_goals (cases body (ecsIn mb c cmd) s <;> rfl)
  unfold State.ecsOp State.ecs
  rcases h1 with h1 | ⟨h1, h12, h13⟩
  · simp only [h1, h2, h3, h4, h6, h7, beq_self_eq_true, Bool.not_true, Bool.false_eq_true, if_false, and_false]
    refine (congrArg Host.Outcome.next (hr.trans hn)).trans ?_
    all_goals (cases body (ecsIn mb c cmd) s <;> rfl)
  · simp only [h1, h2, h3, h4, h6, h7, h12, h13, beq_self_eq_true, Bool.not_true, Bool.or_self, Bool.false_eq_true, if_false, if_true]
    refine (congrArg Host.Outcome.next (hr.trans hn)).trans ?_
    all_goals (cases body (ecsIn mb c cmd) s <;> rfl)

/-- No offset fails when every one of a list passes. -/
theorem EcsIn.lowest_none {l : List (Option Nat)} (h : ∀ o ∈ l, o = none) : EcsIn.lowest l = none := by
  have key : ∀ (l : List (Option Nat)), (∀ o ∈ l, o = none) → ∀ a : Option Nat, a = none →
      l.foldl (fun a x => match a, x with
        | none, x => x
        | a, none => a
        | some a, some x => some (min a x)) a = none := by
    intro l
    induction l with
    | nil => intro _ a ha; exact ha
    | cons x r ih =>
      intro hl a ha
      subst ha
      have hx := hl x List.mem_cons_self
      subst hx
      exact ih (fun o ho => hl o (List.mem_cons_of_mem _ ho)) none rfl
  exact key l h none rfl

/-- A check that does not fail names no offset. -/
@[simp] theorem EcsIn.fails_false (off : Nat) : EcsIn.fails false off = none := rfl

/-- A command on a context whose checks pass comes to its own meaning (R389, R390). -/
theorem onCtx_go {s : State} {i : EcsIn} {named : List (Nat × Nat)} {query needs : Bool} {bad : Context → List (Option Nat)}
    {go : Context → Ans} {x : Context} (h : OnContext s i named x) (hb : ∀ o ∈ bad x, o = none)
    (hq : query = true ∨ x.accepts) (hn : needs = true → s.main.fenced x.span = false) :
    onCtx i s named query needs bad go = go x := by
  obtain ⟨h1, h2, h3, h4⟩ := h
  have hl : EcsIn.lowest ([i.reserved ((0x20, 4) :: named), i.high 0x20 4 16] ++ bad x) = none := by
    apply EcsIn.lowest_none
    intro o ho
    rcases List.mem_append.1 ho with ho | ho
    · simp only [List.mem_cons, List.not_mem_nil, or_false] at ho
      rcases ho with rfl | rfl
      · exact h3
      · exact h4
    · exact hb o ho
  have e1 : (!query && (x.state == .lost || x.state == .teardown)) = false := by
    rcases hq with rfl | ⟨a, b⟩
    · rfl
    · simp [a, b]
  have e2 : (needs && s.main.fenced x.span) = false := by
    cases hk : needs
    · rfl
    · simp [hn hk]
  unfold onCtx
  simp only [h1, h2, hl, e1, e2, Bool.not_true, Bool.false_eq_true, if_false]

/-- On a function without ATS no page is waited for (R353). -/
theorem Main.needPage_have {m : Main} {fn : Fn} {pasid a : Nat} {o : PutOwner} (hf : (m.fnOf fn).map (·.ats) = some false)
    (hp : m.host.puts = []) : m.needPage fn pasid a o = .have m := by
  have h1 : m.putsOf fn o = [] := by unfold Main.putsOf; simp [hp]
  cases hr : m.fnOf fn with
  | none => simp [hr] at hf
  | some r =>
    have h2 : r.ats = false := by simpa [hr] using hf
    have h3 : m.pageOf fn pasid a o.writes = some m := by unfold Main.pageOf; simp [hr, h2]
    unfold Main.needPage
    rw [h1, h3]
    rfl

/-- So a command's buffers are there. -/
theorem Main.needBuffer_have {m : Main} {i : EcsIn} {fn : Fn} {a n : Nat} {write : Bool} (hm : i.mb = .fn fn)
    (hf : (m.fnOf fn).map (·.ats) = some false) (hp : m.host.puts = []) : m.needBuffer i a n write = .have m := by
  unfold Main.needBuffer
  simp only [hm, Main.needPage_have hf hp, ite_self]

end Sys2Proof.Machine
end

