-- ==== Sys2Proof/Laws/Issue.lean ====
section
/-! SUPPORT. What the issue of an instruction can come to. -/

namespace Sys2Proof.Machine

/-- An instruction that passes its checks is performed. -/
theorem Ins.exec_of_passes {ins : Ins} {m : Main} {i : Issue} (h : Passes ins m i) : ins.exec m i = ins.run m i := by
  obtain ⟨ht, hu, hg, hl, hp, hm, hw, ha, hx⟩ := h
  unfold Ins.exec
  simp only [hg, hl, hp, ha, hm, hw, hx, Bool.and_true, Bool.not_true, Bool.false_eq_true, if_false]
  cases hk : ins.kind
  · simp only [if_neg (ht hk)]
  · simp only [if_neg (hu hk)]
  · rfl

/-- The bundle issues what it is told: the outcome is that of the instruction's checks and effect. -/
theorem Ins.issue_of_issues {ins : Ins} {m : Main} {br : BRef} {w : WorkGroup} {la : Launch} {b : Bundle} {f : Fields}
    (h : Issues m br w la b) :
    ins.issue br f m =
      (match ins.exec m (issueOf br w la b f ins.cls ins.func) with
       | .done m1 b1 => .next (m1.putBundle br b1)
       | .trap t => .next (m.raiseTrap w la b.awake (fieldWord f ins.cls ins.func) b.pc t)
       | .late m1 b1 t => .next ((m1.putBundle br b1).raiseTrap w la b1 (fieldWord f ins.cls ins.func) b.pc t)
       | .wait m1 x => .next (m1.putBundle br { b with waiting := some x })
       | .stop r => .refused r) := by
  obtain ⟨h1, h2, h3, h4, h5, h6, h7, h8, h9, h10⟩ := h
  have hf : m.fetch w la b = .held m := by
    unfold Main.fetch
    rw [if_neg (by omega)]
    simp only [h7, if_true]
  have hm : b.awake.effective f &&& ~~~b.awake.sent = b.awake.effective f := by
    rw [show b.awake.sent = 0 from h9, show (~~~(0 : Word)) = BitVec.allOnes 32 from rfl, BitVec.and_allOnes]
  have he : m.coreErr w { b with waiting := none } br.ecc = (m, b.awake) := by rw [h8]; rfl
  have hb : ({ br with ecc := .clean } : BRef) = br := by rw [← h8]
  have hg : ∀ x : Main, x.goesOn br b = x := fun x => if_neg h10
  unfold Ins.issue
  simp only [h1, h2, h3, h4, h5, hf, Bool.not_true, Bool.or_false, Bool.false_eq_true, if_false]
  rw [he]
  simp only [hm, hb, hg, ite_self]
  change (match ins.exec m (issueOf br w la b f ins.cls ins.func) with
    | .done m1 b1 => _ | .trap t => _ | .late m1 b1 t => _ | .wait m1 x => _ | .stop r => _) = _
  cases ins.exec m (issueOf br w la b f ins.cls ins.func) <;> rfl

/-- An instruction that completes. -/
theorem Ins.issue_done {ins : Ins} {m m1 : Main} {br : BRef} {w : WorkGroup} {la : Launch} {b b1 : Bundle} {f : Fields}
    (h : Issues m br w la b) (hp : Passes ins m (issueOf br w la b f ins.cls ins.func))
    (hr : ins.run m (issueOf br w la b f ins.cls ins.func) = .done m1 b1) :
    ins.issue br f m = .next (m1.putBundle br b1) := by
  rw [Ins.issue_of_issues h, Ins.exec_of_passes hp, hr]

/-- Lanes that find their registers ready meet no poison and no operation in flight. -/
theorem RegsReady.passes {b : Bundle} {mask : Word} {reads writes : List (Nat × Nat)} (h : RegsReady b mask reads writes) :
    (((List.range 32).filter fun l => mask.getLsbD l).any fun l => (reads ++ writes).any fun r => b.pending r.1 r.2 l) = false ∧
      poisonedLane b ((List.range 32).filter fun l => mask.getLsbD l) reads (fun _ => none) = none := by
  constructor
  · simp only [List.any_eq_false, List.mem_filter, List.mem_range]
    intro l hl
    simp only [List.any_eq_true, not_exists, not_and]
    intro r hr
    simp [(h l hl.1 hl.2).2 r hr]
  · unfold poisonedLane
    rw [List.findSome?_eq_none_iff]
    intro l hl
    simp only [List.mem_filter, List.mem_range] at hl
    have : reads.findSome? (fun r => b.poisonOf r.1 r.2 l) = none := by
      rw [List.findSome?_eq_none_iff]
      exact (h l hl.1 hl.2).1
    simp [this]

end Sys2Proof.Machine
end

