-- ==== Sys2Proof/Laws/Memory.lean ====
section
/-! SUPPORT. Cells and memory: a read after a write, and the canonical form that every operation keeps. -/

namespace Sys2Proof.Machine

/-- The form, said of the whole list: rising addresses, no zero byte. -/
theorem Cells.wf_iff (c : List Host.Cell) :
    Cells.wf c = true ↔ c.Pairwise (fun x y => x.1 < y.1) ∧ ∀ x ∈ c, x.2 ≠ 0 := by
  induction c with
  | nil => simp [Cells.wf]
  | cons x r ih =>
    obtain ⟨a, b⟩ := x
    cases r with
    | nil => simp [Cells.wf]
    | cons y r =>
      obtain ⟨a2, b2⟩ := y
      simp only [Cells.wf, Bool.and_eq_true, bne_iff_ne, ne_eq, decide_eq_true_eq, ih]
      constructor
      · rintro ⟨⟨h1, h2⟩, h3, h4⟩
        refine ⟨List.pairwise_cons.2 ⟨?_, h3⟩, ?_⟩
        · intro z hz
          rcases List.mem_cons.1 hz with rfl | hz
          · exact h2
          · exact Nat.lt_trans h2 ((List.pairwise_cons.1 h3).1 z hz)
        · intro z hz
          rcases List.mem_cons.1 hz with rfl | hz
          · exact h1
          · exact h4 z hz
      · rintro ⟨h1, h2⟩
        have h := List.pairwise_cons.1 h1
        exact ⟨⟨h2 _ List.mem_cons_self, h.1 _ List.mem_cons_self⟩, h.2, fun z hz => h2 z (List.mem_cons_of_mem _ hz)⟩

/-- An address below every listed one reads as 0. -/
theorem Cells.get_below {c : List Host.Cell} {a : Nat} (h : ∀ x ∈ c, a < x.1) : Cells.get c a = 0 := by
  cases c with
  | nil => rfl
  | cons x r =>
    obtain ⟨k, b⟩ := x
    have h1 : a < k := h (k, b) List.mem_cons_self
    simp only [Cells.get]
    rw [if_neg (by omega), if_pos h1]

theorem Cells.mem_set {c : List Host.Cell} {a : Nat} {v : Byte} {x : Host.Cell} (h : x ∈ Cells.set c a v) :
    x ∈ c ∨ (x = (a, v) ∧ v ≠ 0) := by
  induction c with
  | nil =>
    unfold Cells.set at h
    split at h
    · cases h
    · rename_i hv
      exact .inr ⟨List.mem_singleton.1 h, hv⟩
  | cons y r ih =>
    obtain ⟨k, b⟩ := y
    unfold Cells.set at h
    split at h
    · split at h
      · exact .inl (List.mem_cons_of_mem _ h)
      · rename_i hv
        rcases List.mem_cons.1 h with h | h
        · exact .inr ⟨h, hv⟩
        · exact .inl (List.mem_cons_of_mem _ h)
    · split at h
      · split at h
        · exact .inl h
        · rename_i hv
          rcases List.mem_cons.1 h with h | h
          · exact .inr ⟨h, hv⟩
          · exact .inl h
      · rcases List.mem_cons.1 h with h | h
        · exact .inl (h ▸ List.mem_cons_self)
        · rcases ih h with h | h
          · exact .inl (List.mem_cons_of_mem _ h)
          · exact .inr h

/-- A write of one byte keeps the form. -/
theorem Cells.set_wf {c : List Host.Cell} (h : Cells.wf c = true) (a : Nat) (v : Byte) :
    Cells.wf (Cells.set c a v) = true := by
  rw [Cells.wf_iff] at h ⊢
  obtain ⟨h1, h2⟩ := h
  refine ⟨?_, ?_⟩
  · clear h2
    induction c with
    | nil => unfold Cells.set; split <;> simp
    | cons y r ih =>
      obtain ⟨k, b⟩ := y
      have hp := List.pairwise_cons.1 h1
      unfold Cells.set
      split
      · rename_i he
        subst he
        split
        · exact hp.2
        · exact List.pairwise_cons.2 ⟨hp.1, hp.2⟩
      · split
        · rename_i hlt
          split
          · exact h1
          · refine List.pairwise_cons.2 ⟨?_, h1⟩
            intro z hz
            rcases List.mem_cons.1 hz with rfl | hz
            · exact hlt
            · exact Nat.lt_trans hlt (hp.1 z hz)
        · rename_i hne hge
          refine List.pairwise_cons.2 ⟨?_, ih hp.2⟩
          intro z hz
          rcases Cells.mem_set hz with hz | ⟨rfl, -⟩
          · exact hp.1 z hz
          · change k < a
            omega
  · intro x hx
    rcases Cells.mem_set hx with hx | ⟨rfl, hv⟩
    · exact h2 x hx
    · exact hv

/-- A byte just written reads as written; every other byte reads as before. -/
theorem Cells.get_set {c : List Host.Cell} (h : Cells.wf c = true) (a : Nat) (v : Byte) (x : Nat) :
    Cells.get (Cells.set c a v) x = if x = a then v else Cells.get c x := by
  rw [Cells.wf_iff] at h
  obtain ⟨h1, -⟩ := h
  induction c with
  | nil =>
    unfold Cells.set
    split
    · rename_i hv
      subst hv
      simp [Cells.get]
    · simp only [Cells.get]
      by_cases hx : x = a
      · simp [hx]
      · rw [if_neg (Ne.symm hx), if_neg hx]
        split <;> rfl
  | cons y r ih =>
    obtain ⟨k, b⟩ := y
    have hp := List.pairwise_cons.1 h1
    have below : ∀ z, z ≤ k → Cells.get r z = 0 := fun z hz =>
      Cells.get_below (fun w hw => Nat.lt_of_le_of_lt hz (hp.1 w hw))
    unfold Cells.set
    split
    · rename_i he
      subst he
      split
      · rename_i hv
        subst hv
        by_cases hx : x = k
        · rw [if_pos hx, hx]
          exact below k (Nat.le_refl k)
        · rw [if_neg hx]
          simp only [Cells.get]
          rw [if_neg (Ne.symm hx)]
          split
          · rename_i hlt
            exact below x (Nat.le_of_lt hlt)
          · rfl
      · by_cases hx : x = k
        · simp [Cells.get, hx]
        · simp only [Cells.get]
          rw [if_neg (Ne.symm hx), if_neg (Ne.symm hx), if_neg hx]
    · rename_i hne
      split
      · rename_i hlt
        split
        · rename_i hv
          subst hv
          by_cases hx : x = a
          · subst hx
            simp only [Cells.get]
            rw [if_neg hne, if_pos hlt]
            simp
          · rw [if_neg hx]
        · by_cases hx : x = a
          · simp [Cells.get, hx]
          · rw [if_neg hx]
            rw [Cells.get, if_neg (Ne.symm hx)]
            split
            · simp only [Cells.get]
              rw [if_neg (by omega), if_pos (by omega)]
            · rfl
      · rename_i hge
        simp only [Cells.get]
        rw [ih hp.2]
        by_cases hk : k = x
        · subst hk
          rw [if_pos rfl, if_pos rfl, if_neg hne]
        · rw [if_neg hk, if_neg hk]
          by_cases hx : x = a
          · rw [if_neg (show ¬x < k by omega), if_pos hx, if_pos hx]
          · rw [if_neg hx, if_neg hx]

/-- Bytes written one after another keep the form. -/
theorem Cells.write_wf {c : List Host.Cell} (h : Cells.wf c = true) (a : Nat) (d : List Byte) :
    Cells.wf (Cells.write c a d) = true := by
  induction d generalizing c a with
  | nil => exact h
  | cons b r ih => exact ih (Cells.set_wf h a b) (a + 1)

/-- What an address reads as after a write of bytes. -/
theorem Cells.get_write {c : List Host.Cell} (h : Cells.wf c = true) (a : Nat) (d : List Byte) (x : Nat) :
    Cells.get (Cells.write c a d) x = if a ≤ x ∧ x < a + d.length then nth d (x - a) 0 else Cells.get c x := by
  induction d generalizing c a with
  | nil => simp [Cells.write] <;> omega
  | cons b r ih =>
    rw [Cells.write, ih (Cells.set_wf h a b) (a + 1), Cells.get_set h]
    simp only [List.length_cons]
    by_cases h1 : x = a
    · subst h1
      rw [if_neg (by omega), if_pos rfl, if_pos (by omega)]
      simp [nth]
    · by_cases h2 : a + 1 ≤ x ∧ x < a + 1 + r.length
      · rw [if_pos h2, if_pos (by omega)]
        have : x - a = (x - (a + 1)) + 1 := by omega
        rw [this]
        simp [nth]
      · rw [if_neg h2, if_neg h1, if_neg (by omega)]

/-- Clearing a range keeps the form. -/
theorem Cells.clear_wf {c : List Host.Cell} (h : Cells.wf c = true) (a n : Nat) : Cells.wf (Cells.clear c a n) = true := by
  rw [Cells.wf_iff] at h ⊢
  exact ⟨h.1.filter _, fun x hx => h.2 x (List.mem_filter.1 hx).1⟩

/-- A line written keeps the form. -/
theorem Memory.setLine_wf {m : Memory} (h : m.wf = true) (l : Nat) (d : List Byte) (p : Bool) :
    (m.setLine l d p).wf = true := Cells.write_wf h _ d

/-- A poison mark keeps the form. -/
theorem Memory.poisonLine_wf {m : Memory} (h : m.wf = true) (l : Nat) : (m.poisonLine l).wf = true := h

/-- A zeroed range keeps the form. -/
theorem Memory.zeroRange_wf {m : Memory} (h : m.wf = true) (r : Nat × Nat × Nat) : (m.zeroRange r).wf = true :=
  Cells.clear_wf h _ _

/-- Reset memory has the form. -/
theorem Memory.reset_wf : Memory.reset.wf = true := rfl

/-- The byte of a line written, at its offset. -/
theorem Memory.setLine_get {m : Memory} (h : m.wf = true) (l : Nat) {d : List Byte} (hd : d.length = 128) (p : Bool)
    (x : Nat) :
    Cells.get (m.setLine l d p).cells x = if x / 128 = l then nth d (x % 128) 0 else Cells.get m.cells x := by
  unfold Memory.setLine
  rw [Cells.get_write h, hd]
  by_cases hx : x / 128 = l
  · rw [if_pos hx, if_pos (by omega)]
    congr 1
    omega
  · rw [if_neg hx, if_neg (by omega)]

/-- A line written reads back whole. -/
theorem Memory.line_setLine {m : Memory} (h : m.wf = true) (l : Nat) {d : List Byte} (hd : d.length = 128) (p : Bool) :
    (m.setLine l d p).line l = d := by
  apply List.ext_getElem
  · simp [Memory.line, Cells.read, rangeFrom, hd]
  · intro i h1 h2
    have hi : i < 128 := by simpa [Memory.line, Cells.read, rangeFrom] using h1
    simp only [Memory.line, Cells.read, rangeFrom, List.map_map, List.getElem_map, List.getElem_range, Function.comp]
    rw [Memory.setLine_get h l hd, if_pos (by omega)]
    have : (i + l * 128) % 128 = i := by omega
    rw [this]
    simp [nth, h2]

/-- Another line reads as before. -/
theorem Memory.line_setLine_other {m : Memory} (h : m.wf = true) {l k : Nat} (hk : k ≠ l) {d : List Byte}
    (hd : d.length = 128) (p : Bool) : (m.setLine l d p).line k = m.line k := by
  unfold Memory.line Cells.read
  apply List.map_congr_left
  intro x hx
  simp only [rangeFrom, List.mem_map, List.mem_range] at hx
  obtain ⟨i, hi, rfl⟩ := hx
  rw [Memory.setLine_get h l hd, if_neg (by omega)]

/-! ### What every place where memory is written keeps -/

/-- A home's write of memory keeps the form. -/
theorem Main.memWrite_wf {m : Main} (h : m.mem.wf = true) (l : Nat) (d : List Byte) (p : Bool) :
    (m.memWrite l d p).mem.wf = true := by
  unfold Main.memWrite
  exact Memory.setLine_wf h l d p

/-- Ranges zeroed one after another keep the form. -/
theorem Memory.zeroRanges_wf {m : Memory} (h : m.wf = true) (l : List (Nat × Nat × Nat)) :
    (l.foldl Memory.zeroRange m).wf = true := by
  induction l generalizing m with
  | nil => exact h
  | cons r l ih => exact ih (Memory.zeroRange_wf h r)

/-- A write of core store keeps its form. -/
theorem Main.csWrite_wf {m : Main} (h : Cells.wf m.cores.store = true) (core : Nat) (parts : List (Nat × List Byte)) :
    Cells.wf (m.csWrite core parts).cores.store = true := by
  unfold Main.csWrite
  dsimp only
  revert h
  generalize m.cores.store = c
  induction parts generalizing c with
  | nil => exact id
  | cons p l ih => exact fun h => ih _ (Cells.write_wf h _ _)

end Sys2Proof.Machine
end

