-- ==== Sys2Proof/Laws/State.lean ====
section
/-! SUPPORT. What each update of Main leaves of each field, and what the updates of the whole state leave. -/

namespace Sys2Proof.Machine

/-! ### until -/

@[simp] theorem Main.until_time (m : Main) (t : Nat) : (m.until t).time = max m.time t := rfl
@[simp] theorem Main.until_free (m : Main) (t : Nat) : (m.until t).free = m.free := rfl
@[simp] theorem Main.until_params (m : Main) (t : Nat) : (m.until t).params = m.params := rfl
@[simp] theorem Main.until_cores (m : Main) (t : Nat) : (m.until t).cores = m.cores := rfl
@[simp] theorem Main.until_mem (m : Main) (t : Nat) : (m.until t).mem = m.mem := rfl
@[simp] theorem Main.until_coh (m : Main) (t : Nat) : (m.until t).coh = m.coh := rfl
@[simp] theorem Main.until_l2 (m : Main) (t : Nat) : (m.until t).l2 = m.l2 := rfl
@[simp] theorem Main.until_objs (m : Main) (t : Nat) : (m.until t).objs = m.objs := rfl
@[simp] theorem Main.until_comp (m : Main) (t : Nat) : (m.until t).comp = m.comp := rfl
@[simp] theorem Main.until_fab (m : Main) (t : Nat) : (m.until t).fab = m.fab := rfl
@[simp] theorem Main.until_eng (m : Main) (t : Nat) : (m.until t).eng = m.eng := rfl
@[simp] theorem Main.until_colls (m : Main) (t : Nat) : (m.until t).colls = m.colls := rfl
@[simp] theorem Main.until_collIds (m : Main) (t : Nat) : (m.until t).collIds = m.collIds := rfl
@[simp] theorem Main.until_early (m : Main) (t : Nat) : (m.until t).early = m.early := rfl
@[simp] theorem Main.until_host (m : Main) (t : Nat) : (m.until t).host = m.host := rfl
@[simp] theorem Main.until_elbor (m : Main) (t : Nat) : (m.until t).elbor = m.elbor := rfl
@[simp] theorem Main.until_rcv (m : Main) (t : Nat) : (m.until t).rcv = m.rcv := rfl
@[simp] theorem Main.until_sec (m : Main) (t : Nat) : (m.until t).sec = m.sec := rfl
@[simp] theorem Main.until_drills (m : Main) (t : Nat) : (m.until t).drills = m.drills := rfl
@[simp] theorem Main.until_hints (m : Main) (t : Nat) : (m.until t).hints = m.hints := rfl
@[simp] theorem Main.until_tele (m : Main) (t : Nat) : (m.until t).tele = m.tele := rfl
@[simp] theorem Main.until_eg (m : Main) (t : Nat) : (m.until t).eg = m.eg := rfl
@[simp] theorem Main.until_bmcOut (m : Main) (t : Nat) : (m.until t).bmcOut = m.bmcOut := rfl
@[simp] theorem Main.until_bmcReceiver (m : Main) (t : Nat) : (m.until t).bmcReceiver = m.bmcReceiver := rfl
@[simp] theorem Main.until_bmcEid (m : Main) (t : Nat) : (m.until t).bmcEid = m.bmcEid := rfl
@[simp] theorem Main.until_bmcTid (m : Main) (t : Nat) : (m.until t).bmcTid = m.bmcTid := rfl

/-! ### bump -/

@[simp] theorem Main.bump_time (m : Main) (g c i n : Nat) : (m.bump g c i n).time = m.time := rfl
@[simp] theorem Main.bump_free (m : Main) (g c i n : Nat) : (m.bump g c i n).free = m.free := rfl
@[simp] theorem Main.bump_params (m : Main) (g c i n : Nat) : (m.bump g c i n).params = m.params := rfl
@[simp] theorem Main.bump_cores (m : Main) (g c i n : Nat) : (m.bump g c i n).cores = m.cores := rfl
@[simp] theorem Main.bump_mem (m : Main) (g c i n : Nat) : (m.bump g c i n).mem = m.mem := rfl
@[simp] theorem Main.bump_coh (m : Main) (g c i n : Nat) : (m.bump g c i n).coh = m.coh := rfl
@[simp] theorem Main.bump_l2 (m : Main) (g c i n : Nat) : (m.bump g c i n).l2 = m.l2 := rfl
@[simp] theorem Main.bump_objs (m : Main) (g c i n : Nat) : (m.bump g c i n).objs = m.objs := rfl
@[simp] theorem Main.bump_comp (m : Main) (g c i n : Nat) : (m.bump g c i n).comp = m.comp := rfl
@[simp] theorem Main.bump_fab (m : Main) (g c i n : Nat) : (m.bump g c i n).fab = m.fab := rfl
@[simp] theorem Main.bump_eng (m : Main) (g c i n : Nat) : (m.bump g c i n).eng = m.eng := rfl
@[simp] theorem Main.bump_colls (m : Main) (g c i n : Nat) : (m.bump g c i n).colls = m.colls := rfl
@[simp] theorem Main.bump_collIds (m : Main) (g c i n : Nat) : (m.bump g c i n).collIds = m.collIds := rfl
@[simp] theorem Main.bump_early (m : Main) (g c i n : Nat) : (m.bump g c i n).early = m.early := rfl
@[simp] theorem Main.bump_host (m : Main) (g c i n : Nat) : (m.bump g c i n).host = m.host := rfl
@[simp] theorem Main.bump_elbor (m : Main) (g c i n : Nat) : (m.bump g c i n).elbor = m.elbor := rfl
@[simp] theorem Main.bump_rcv (m : Main) (g c i n : Nat) : (m.bump g c i n).rcv = m.rcv := rfl
@[simp] theorem Main.bump_sec (m : Main) (g c i n : Nat) : (m.bump g c i n).sec = m.sec := rfl
@[simp] theorem Main.bump_drills (m : Main) (g c i n : Nat) : (m.bump g c i n).drills = m.drills := rfl
@[simp] theorem Main.bump_hints (m : Main) (g c i n : Nat) : (m.bump g c i n).hints = m.hints := rfl
@[simp] theorem Main.bump_tele (m : Main) (g c i n : Nat) : (m.bump g c i n).tele = teleAdd (teleId g c i) n m.tele := rfl
@[simp] theorem Main.bump_eg (m : Main) (g c i n : Nat) : (m.bump g c i n).eg = m.eg := rfl
@[simp] theorem Main.bump_bmcOut (m : Main) (g c i n : Nat) : (m.bump g c i n).bmcOut = m.bmcOut := rfl
@[simp] theorem Main.bump_bmcReceiver (m : Main) (g c i n : Nat) : (m.bump g c i n).bmcReceiver = m.bmcReceiver := rfl
@[simp] theorem Main.bump_bmcEid (m : Main) (g c i n : Nat) : (m.bump g c i n).bmcEid = m.bmcEid := rfl
@[simp] theorem Main.bump_bmcTid (m : Main) (g c i n : Nat) : (m.bump g c i n).bmcTid = m.bmcTid := rfl

/-! ### modLane -/

@[simp] theorem Main.modLane_time (m : Main) (i : Nat) (f : Lane → Lane) : (m.modLane i f).time = m.time := rfl
@[simp] theorem Main.modLane_free (m : Main) (i : Nat) (f : Lane → Lane) : (m.modLane i f).free = m.free := rfl
@[simp] theorem Main.modLane_params (m : Main) (i : Nat) (f : Lane → Lane) : (m.modLane i f).params = m.params := rfl
@[simp] theorem Main.modLane_cores (m : Main) (i : Nat) (f : Lane → Lane) : (m.modLane i f).cores = m.cores := rfl
@[simp] theorem Main.modLane_mem (m : Main) (i : Nat) (f : Lane → Lane) : (m.modLane i f).mem = m.mem := rfl
@[simp] theorem Main.modLane_coh (m : Main) (i : Nat) (f : Lane → Lane) : (m.modLane i f).coh = m.coh := rfl
@[simp] theorem Main.modLane_l2 (m : Main) (i : Nat) (f : Lane → Lane) : (m.modLane i f).l2 = m.l2 := rfl
@[simp] theorem Main.modLane_objs (m : Main) (i : Nat) (f : Lane → Lane) : (m.modLane i f).objs = m.objs := rfl
@[simp] theorem Main.modLane_comp (m : Main) (i : Nat) (f : Lane → Lane) : (m.modLane i f).comp = m.comp := rfl
@[simp] theorem Main.modLane_fab (m : Main) (i : Nat) (f : Lane → Lane) : (m.modLane i f).fab = { m.fab with lanes := modNth m.fab.lanes i f } := rfl
@[simp] theorem Main.modLane_eng (m : Main) (i : Nat) (f : Lane → Lane) : (m.modLane i f).eng = m.eng := rfl
@[simp] theorem Main.modLane_colls (m : Main) (i : Nat) (f : Lane → Lane) : (m.modLane i f).colls = m.colls := rfl
@[simp] theorem Main.modLane_collIds (m : Main) (i : Nat) (f : Lane → Lane) : (m.modLane i f).collIds = m.collIds := rfl
@[simp] theorem Main.modLane_early (m : Main) (i : Nat) (f : Lane → Lane) : (m.modLane i f).early = m.early := rfl
@[simp] theorem Main.modLane_host (m : Main) (i : Nat) (f : Lane → Lane) : (m.modLane i f).host = m.host := rfl
@[simp] theorem Main.modLane_elbor (m : Main) (i : Nat) (f : Lane → Lane) : (m.modLane i f).elbor = m.elbor := rfl
@[simp] theorem Main.modLane_rcv (m : Main) (i : Nat) (f : Lane → Lane) : (m.modLane i f).rcv = m.rcv := rfl
@[simp] theorem Main.modLane_sec (m : Main) (i : Nat) (f : Lane → Lane) : (m.modLane i f).sec = m.sec := rfl
@[simp] theorem Main.modLane_drills (m : Main) (i : Nat) (f : Lane → Lane) : (m.modLane i f).drills = m.drills := rfl
@[simp] theorem Main.modLane_hints (m : Main) (i : Nat) (f : Lane → Lane) : (m.modLane i f).hints = m.hints := rfl
@[simp] theorem Main.modLane_tele (m : Main) (i : Nat) (f : Lane → Lane) : (m.modLane i f).tele = m.tele := rfl
@[simp] theorem Main.modLane_eg (m : Main) (i : Nat) (f : Lane → Lane) : (m.modLane i f).eg = m.eg := rfl
@[simp] theorem Main.modLane_bmcOut (m : Main) (i : Nat) (f : Lane → Lane) : (m.modLane i f).bmcOut = m.bmcOut := rfl
@[simp] theorem Main.modLane_bmcReceiver (m : Main) (i : Nat) (f : Lane → Lane) : (m.modLane i f).bmcReceiver = m.bmcReceiver := rfl
@[simp] theorem Main.modLane_bmcEid (m : Main) (i : Nat) (f : Lane → Lane) : (m.modLane i f).bmcEid = m.bmcEid := rfl
@[simp] theorem Main.modLane_bmcTid (m : Main) (i : Nat) (f : Lane → Lane) : (m.modLane i f).bmcTid = m.bmcTid := rfl

/-! ### modOpt -/

@[simp] theorem Main.modOpt_time (m : Main) (e : Nat) (f : OptEngine → OptEngine) : (m.modOpt e f).time = m.time := rfl
@[simp] theorem Main.modOpt_free (m : Main) (e : Nat) (f : OptEngine → OptEngine) : (m.modOpt e f).free = m.free := rfl
@[simp] theorem Main.modOpt_params (m : Main) (e : Nat) (f : OptEngine → OptEngine) : (m.modOpt e f).params = m.params := rfl
@[simp] theorem Main.modOpt_cores (m : Main) (e : Nat) (f : OptEngine → OptEngine) : (m.modOpt e f).cores = m.cores := rfl
@[simp] theorem Main.modOpt_mem (m : Main) (e : Nat) (f : OptEngine → OptEngine) : (m.modOpt e f).mem = m.mem := rfl
@[simp] theorem Main.modOpt_coh (m : Main) (e : Nat) (f : OptEngine → OptEngine) : (m.modOpt e f).coh = m.coh := rfl
@[simp] theorem Main.modOpt_l2 (m : Main) (e : Nat) (f : OptEngine → OptEngine) : (m.modOpt e f).l2 = m.l2 := rfl
@[simp] theorem Main.modOpt_objs (m : Main) (e : Nat) (f : OptEngine → OptEngine) : (m.modOpt e f).objs = m.objs := rfl
@[simp] theorem Main.modOpt_comp (m : Main) (e : Nat) (f : OptEngine → OptEngine) : (m.modOpt e f).comp = m.comp := rfl
@[simp] theorem Main.modOpt_fab (m : Main) (e : Nat) (f : OptEngine → OptEngine) : (m.modOpt e f).fab = { m.fab with engines := modNth m.fab.engines e f } := rfl
@[simp] theorem Main.modOpt_eng (m : Main) (e : Nat) (f : OptEngine → OptEngine) : (m.modOpt e f).eng = m.eng := rfl
@[simp] theorem Main.modOpt_colls (m : Main) (e : Nat) (f : OptEngine → OptEngine) : (m.modOpt e f).colls = m.colls := rfl
@[simp] theorem Main.modOpt_collIds (m : Main) (e : Nat) (f : OptEngine → OptEngine) : (m.modOpt e f).collIds = m.collIds := rfl
@[simp] theorem Main.modOpt_early (m : Main) (e : Nat) (f : OptEngine → OptEngine) : (m.modOpt e f).early = m.early := rfl
@[simp] theorem Main.modOpt_host (m : Main) (e : Nat) (f : OptEngine → OptEngine) : (m.modOpt e f).host = m.host := rfl
@[simp] theorem Main.modOpt_elbor (m : Main) (e : Nat) (f : OptEngine → OptEngine) : (m.modOpt e f).elbor = m.elbor := rfl
@[simp] theorem Main.modOpt_rcv (m : Main) (e : Nat) (f : OptEngine → OptEngine) : (m.modOpt e f).rcv = m.rcv := rfl
@[simp] theorem Main.modOpt_sec (m : Main) (e : Nat) (f : OptEngine → OptEngine) : (m.modOpt e f).sec = m.sec := rfl
@[simp] theorem Main.modOpt_drills (m : Main) (e : Nat) (f : OptEngine → OptEngine) : (m.modOpt e f).drills = m.drills := rfl
@[simp] theorem Main.modOpt_hints (m : Main) (e : Nat) (f : OptEngine → OptEngine) : (m.modOpt e f).hints = m.hints := rfl
@[simp] theorem Main.modOpt_tele (m : Main) (e : Nat) (f : OptEngine → OptEngine) : (m.modOpt e f).tele = m.tele := rfl
@[simp] theorem Main.modOpt_eg (m : Main) (e : Nat) (f : OptEngine → OptEngine) : (m.modOpt e f).eg = m.eg := rfl
@[simp] theorem Main.modOpt_bmcOut (m : Main) (e : Nat) (f : OptEngine → OptEngine) : (m.modOpt e f).bmcOut = m.bmcOut := rfl
@[simp] theorem Main.modOpt_bmcReceiver (m : Main) (e : Nat) (f : OptEngine → OptEngine) : (m.modOpt e f).bmcReceiver = m.bmcReceiver := rfl
@[simp] theorem Main.modOpt_bmcEid (m : Main) (e : Nat) (f : OptEngine → OptEngine) : (m.modOpt e f).bmcEid = m.bmcEid := rfl
@[simp] theorem Main.modOpt_bmcTid (m : Main) (e : Nat) (f : OptEngine → OptEngine) : (m.modOpt e f).bmcTid = m.bmcTid := rfl

/-! ### modBank -/

@[simp] theorem Main.modBank_time (m : Main) (b : Nat) (f : EgBank → EgBank) : (m.modBank b f).time = m.time := rfl
@[simp] theorem Main.modBank_free (m : Main) (b : Nat) (f : EgBank → EgBank) : (m.modBank b f).free = m.free := rfl
@[simp] theorem Main.modBank_params (m : Main) (b : Nat) (f : EgBank → EgBank) : (m.modBank b f).params = m.params := rfl
@[simp] theorem Main.modBank_cores (m : Main) (b : Nat) (f : EgBank → EgBank) : (m.modBank b f).cores = m.cores := rfl
@[simp] theorem Main.modBank_mem (m : Main) (b : Nat) (f : EgBank → EgBank) : (m.modBank b f).mem = m.mem := rfl
@[simp] theorem Main.modBank_coh (m : Main) (b : Nat) (f : EgBank → EgBank) : (m.modBank b f).coh = m.coh := rfl
@[simp] theorem Main.modBank_l2 (m : Main) (b : Nat) (f : EgBank → EgBank) : (m.modBank b f).l2 = m.l2 := rfl
@[simp] theorem Main.modBank_objs (m : Main) (b : Nat) (f : EgBank → EgBank) : (m.modBank b f).objs = m.objs := rfl
@[simp] theorem Main.modBank_comp (m : Main) (b : Nat) (f : EgBank → EgBank) : (m.modBank b f).comp = m.comp := rfl
@[simp] theorem Main.modBank_fab (m : Main) (b : Nat) (f : EgBank → EgBank) : (m.modBank b f).fab = m.fab := rfl
@[simp] theorem Main.modBank_eng (m : Main) (b : Nat) (f : EgBank → EgBank) : (m.modBank b f).eng = m.eng := rfl
@[simp] theorem Main.modBank_colls (m : Main) (b : Nat) (f : EgBank → EgBank) : (m.modBank b f).colls = m.colls := rfl
@[simp] theorem Main.modBank_collIds (m : Main) (b : Nat) (f : EgBank → EgBank) : (m.modBank b f).collIds = m.collIds := rfl
@[simp] theorem Main.modBank_early (m : Main) (b : Nat) (f : EgBank → EgBank) : (m.modBank b f).early = m.early := rfl
@[simp] theorem Main.modBank_host (m : Main) (b : Nat) (f : EgBank → EgBank) : (m.modBank b f).host = m.host := rfl
@[simp] theorem Main.modBank_elbor (m : Main) (b : Nat) (f : EgBank → EgBank) : (m.modBank b f).elbor = m.elbor := rfl
@[simp] theorem Main.modBank_rcv (m : Main) (b : Nat) (f : EgBank → EgBank) : (m.modBank b f).rcv = m.rcv := rfl
@[simp] theorem Main.modBank_sec (m : Main) (b : Nat) (f : EgBank → EgBank) : (m.modBank b f).sec = m.sec := rfl
@[simp] theorem Main.modBank_drills (m : Main) (b : Nat) (f : EgBank → EgBank) : (m.modBank b f).drills = m.drills := rfl
@[simp] theorem Main.modBank_hints (m : Main) (b : Nat) (f : EgBank → EgBank) : (m.modBank b f).hints = m.hints := rfl
@[simp] theorem Main.modBank_tele (m : Main) (b : Nat) (f : EgBank → EgBank) : (m.modBank b f).tele = m.tele := rfl
@[simp] theorem Main.modBank_eg (m : Main) (b : Nat) (f : EgBank → EgBank) : (m.modBank b f).eg = { m.eg with banks := modNth m.eg.banks b f } := rfl
@[simp] theorem Main.modBank_bmcOut (m : Main) (b : Nat) (f : EgBank → EgBank) : (m.modBank b f).bmcOut = m.bmcOut := rfl
@[simp] theorem Main.modBank_bmcReceiver (m : Main) (b : Nat) (f : EgBank → EgBank) : (m.modBank b f).bmcReceiver = m.bmcReceiver := rfl
@[simp] theorem Main.modBank_bmcEid (m : Main) (b : Nat) (f : EgBank → EgBank) : (m.modBank b f).bmcEid = m.bmcEid := rfl
@[simp] theorem Main.modBank_bmcTid (m : Main) (b : Nat) (f : EgBank → EgBank) : (m.modBank b f).bmcTid = m.bmcTid := rfl

/-! ### modFn -/

@[simp] theorem Main.modFn_time (m : Main) (fn : Fn) (f : FnRec → FnRec) : (m.modFn fn f).time = m.time := rfl
@[simp] theorem Main.modFn_free (m : Main) (fn : Fn) (f : FnRec → FnRec) : (m.modFn fn f).free = m.free := rfl
@[simp] theorem Main.modFn_params (m : Main) (fn : Fn) (f : FnRec → FnRec) : (m.modFn fn f).params = m.params := rfl
@[simp] theorem Main.modFn_cores (m : Main) (fn : Fn) (f : FnRec → FnRec) : (m.modFn fn f).cores = m.cores := rfl
@[simp] theorem Main.modFn_mem (m : Main) (fn : Fn) (f : FnRec → FnRec) : (m.modFn fn f).mem = m.mem := rfl
@[simp] theorem Main.modFn_coh (m : Main) (fn : Fn) (f : FnRec → FnRec) : (m.modFn fn f).coh = m.coh := rfl
@[simp] theorem Main.modFn_l2 (m : Main) (fn : Fn) (f : FnRec → FnRec) : (m.modFn fn f).l2 = m.l2 := rfl
@[simp] theorem Main.modFn_objs (m : Main) (fn : Fn) (f : FnRec → FnRec) : (m.modFn fn f).objs = m.objs := rfl
@[simp] theorem Main.modFn_comp (m : Main) (fn : Fn) (f : FnRec → FnRec) : (m.modFn fn f).comp = m.comp := rfl
@[simp] theorem Main.modFn_fab (m : Main) (fn : Fn) (f : FnRec → FnRec) : (m.modFn fn f).fab = m.fab := rfl
@[simp] theorem Main.modFn_eng (m : Main) (fn : Fn) (f : FnRec → FnRec) : (m.modFn fn f).eng = m.eng := rfl
@[simp] theorem Main.modFn_colls (m : Main) (fn : Fn) (f : FnRec → FnRec) : (m.modFn fn f).colls = m.colls := rfl
@[simp] theorem Main.modFn_collIds (m : Main) (fn : Fn) (f : FnRec → FnRec) : (m.modFn fn f).collIds = m.collIds := rfl
@[simp] theorem Main.modFn_early (m : Main) (fn : Fn) (f : FnRec → FnRec) : (m.modFn fn f).early = m.early := rfl
@[simp] theorem Main.modFn_host (m : Main) (fn : Fn) (f : FnRec → FnRec) : (m.modFn fn f).host = { m.host with fns := modWhere m.host.fns (fun r => r.fn == fn) f } := rfl
@[simp] theorem Main.modFn_elbor (m : Main) (fn : Fn) (f : FnRec → FnRec) : (m.modFn fn f).elbor = m.elbor := rfl
@[simp] theorem Main.modFn_rcv (m : Main) (fn : Fn) (f : FnRec → FnRec) : (m.modFn fn f).rcv = m.rcv := rfl
@[simp] theorem Main.modFn_sec (m : Main) (fn : Fn) (f : FnRec → FnRec) : (m.modFn fn f).sec = m.sec := rfl
@[simp] theorem Main.modFn_drills (m : Main) (fn : Fn) (f : FnRec → FnRec) : (m.modFn fn f).drills = m.drills := rfl
@[simp] theorem Main.modFn_hints (m : Main) (fn : Fn) (f : FnRec → FnRec) : (m.modFn fn f).hints = m.hints := rfl
@[simp] theorem Main.modFn_tele (m : Main) (fn : Fn) (f : FnRec → FnRec) : (m.modFn fn f).tele = m.tele := rfl
@[simp] theorem Main.modFn_eg (m : Main) (fn : Fn) (f : FnRec → FnRec) : (m.modFn fn f).eg = m.eg := rfl
@[simp] theorem Main.modFn_bmcOut (m : Main) (fn : Fn) (f : FnRec → FnRec) : (m.modFn fn f).bmcOut = m.bmcOut := rfl
@[simp] theorem Main.modFn_bmcReceiver (m : Main) (fn : Fn) (f : FnRec → FnRec) : (m.modFn fn f).bmcReceiver = m.bmcReceiver := rfl
@[simp] theorem Main.modFn_bmcEid (m : Main) (fn : Fn) (f : FnRec → FnRec) : (m.modFn fn f).bmcEid = m.bmcEid := rfl
@[simp] theorem Main.modFn_bmcTid (m : Main) (fn : Fn) (f : FnRec → FnRec) : (m.modFn fn f).bmcTid = m.bmcTid := rfl

/-! ### modDma -/

@[simp] theorem Main.modDma_time (m : Main) (i : Nat) (f : DmaRun → DmaRun) : (m.modDma i f).time = m.time := rfl
@[simp] theorem Main.modDma_free (m : Main) (i : Nat) (f : DmaRun → DmaRun) : (m.modDma i f).free = m.free := rfl
@[simp] theorem Main.modDma_params (m : Main) (i : Nat) (f : DmaRun → DmaRun) : (m.modDma i f).params = m.params := rfl
@[simp] theorem Main.modDma_cores (m : Main) (i : Nat) (f : DmaRun → DmaRun) : (m.modDma i f).cores = m.cores := rfl
@[simp] theorem Main.modDma_mem (m : Main) (i : Nat) (f : DmaRun → DmaRun) : (m.modDma i f).mem = m.mem := rfl
@[simp] theorem Main.modDma_coh (m : Main) (i : Nat) (f : DmaRun → DmaRun) : (m.modDma i f).coh = m.coh := rfl
@[simp] theorem Main.modDma_l2 (m : Main) (i : Nat) (f : DmaRun → DmaRun) : (m.modDma i f).l2 = m.l2 := rfl
@[simp] theorem Main.modDma_objs (m : Main) (i : Nat) (f : DmaRun → DmaRun) : (m.modDma i f).objs = m.objs := rfl
@[simp] theorem Main.modDma_comp (m : Main) (i : Nat) (f : DmaRun → DmaRun) : (m.modDma i f).comp = m.comp := rfl
@[simp] theorem Main.modDma_fab (m : Main) (i : Nat) (f : DmaRun → DmaRun) : (m.modDma i f).fab = m.fab := rfl
@[simp] theorem Main.modDma_eng (m : Main) (i : Nat) (f : DmaRun → DmaRun) : (m.modDma i f).eng = m.eng := rfl
@[simp] theorem Main.modDma_colls (m : Main) (i : Nat) (f : DmaRun → DmaRun) : (m.modDma i f).colls = m.colls := rfl
@[simp] theorem Main.modDma_collIds (m : Main) (i : Nat) (f : DmaRun → DmaRun) : (m.modDma i f).collIds = m.collIds := rfl
@[simp] theorem Main.modDma_early (m : Main) (i : Nat) (f : DmaRun → DmaRun) : (m.modDma i f).early = m.early := rfl
@[simp] theorem Main.modDma_host (m : Main) (i : Nat) (f : DmaRun → DmaRun) : (m.modDma i f).host = { m.host with dmas := modNth m.host.dmas i f } := rfl
@[simp] theorem Main.modDma_elbor (m : Main) (i : Nat) (f : DmaRun → DmaRun) : (m.modDma i f).elbor = m.elbor := rfl
@[simp] theorem Main.modDma_rcv (m : Main) (i : Nat) (f : DmaRun → DmaRun) : (m.modDma i f).rcv = m.rcv := rfl
@[simp] theorem Main.modDma_sec (m : Main) (i : Nat) (f : DmaRun → DmaRun) : (m.modDma i f).sec = m.sec := rfl
@[simp] theorem Main.modDma_drills (m : Main) (i : Nat) (f : DmaRun → DmaRun) : (m.modDma i f).drills = m.drills := rfl
@[simp] theorem Main.modDma_hints (m : Main) (i : Nat) (f : DmaRun → DmaRun) : (m.modDma i f).hints = m.hints := rfl
@[simp] theorem Main.modDma_tele (m : Main) (i : Nat) (f : DmaRun → DmaRun) : (m.modDma i f).tele = m.tele := rfl
@[simp] theorem Main.modDma_eg (m : Main) (i : Nat) (f : DmaRun → DmaRun) : (m.modDma i f).eg = m.eg := rfl
@[simp] theorem Main.modDma_bmcOut (m : Main) (i : Nat) (f : DmaRun → DmaRun) : (m.modDma i f).bmcOut = m.bmcOut := rfl
@[simp] theorem Main.modDma_bmcReceiver (m : Main) (i : Nat) (f : DmaRun → DmaRun) : (m.modDma i f).bmcReceiver = m.bmcReceiver := rfl
@[simp] theorem Main.modDma_bmcEid (m : Main) (i : Nat) (f : DmaRun → DmaRun) : (m.modDma i f).bmcEid = m.bmcEid := rfl
@[simp] theorem Main.modDma_bmcTid (m : Main) (i : Nat) (f : DmaRun → DmaRun) : (m.modDma i f).bmcTid = m.bmcTid := rfl

/-! ### modChan -/

@[simp] theorem Main.modChan_time (m : Main) (c : Nat) (f : Channel → Channel) : (m.modChan c f).time = m.time := rfl
@[simp] theorem Main.modChan_free (m : Main) (c : Nat) (f : Channel → Channel) : (m.modChan c f).free = m.free := rfl
@[simp] theorem Main.modChan_params (m : Main) (c : Nat) (f : Channel → Channel) : (m.modChan c f).params = m.params := rfl
@[simp] theorem Main.modChan_cores (m : Main) (c : Nat) (f : Channel → Channel) : (m.modChan c f).cores = m.cores := rfl
@[simp] theorem Main.modChan_mem (m : Main) (c : Nat) (f : Channel → Channel) : (m.modChan c f).mem = { m.mem with channels := modNth m.mem.channels c f } := rfl
@[simp] theorem Main.modChan_coh (m : Main) (c : Nat) (f : Channel → Channel) : (m.modChan c f).coh = m.coh := rfl
@[simp] theorem Main.modChan_l2 (m : Main) (c : Nat) (f : Channel → Channel) : (m.modChan c f).l2 = m.l2 := rfl
@[simp] theorem Main.modChan_objs (m : Main) (c : Nat) (f : Channel → Channel) : (m.modChan c f).objs = m.objs := rfl
@[simp] theorem Main.modChan_comp (m : Main) (c : Nat) (f : Channel → Channel) : (m.modChan c f).comp = m.comp := rfl
@[simp] theorem Main.modChan_fab (m : Main) (c : Nat) (f : Channel → Channel) : (m.modChan c f).fab = m.fab := rfl
@[simp] theorem Main.modChan_eng (m : Main) (c : Nat) (f : Channel → Channel) : (m.modChan c f).eng = m.eng := rfl
@[simp] theorem Main.modChan_colls (m : Main) (c : Nat) (f : Channel → Channel) : (m.modChan c f).colls = m.colls := rfl
@[simp] theorem Main.modChan_collIds (m : Main) (c : Nat) (f : Channel → Channel) : (m.modChan c f).collIds = m.collIds := rfl
@[simp] theorem Main.modChan_early (m : Main) (c : Nat) (f : Channel → Channel) : (m.modChan c f).early = m.early := rfl
@[simp] theorem Main.modChan_host (m : Main) (c : Nat) (f : Channel → Channel) : (m.modChan c f).host = m.host := rfl
@[simp] theorem Main.modChan_elbor (m : Main) (c : Nat) (f : Channel → Channel) : (m.modChan c f).elbor = m.elbor := rfl
@[simp] theorem Main.modChan_rcv (m : Main) (c : Nat) (f : Channel → Channel) : (m.modChan c f).rcv = m.rcv := rfl
@[simp] theorem Main.modChan_sec (m : Main) (c : Nat) (f : Channel → Channel) : (m.modChan c f).sec = m.sec := rfl
@[simp] theorem Main.modChan_drills (m : Main) (c : Nat) (f : Channel → Channel) : (m.modChan c f).drills = m.drills := rfl
@[simp] theorem Main.modChan_hints (m : Main) (c : Nat) (f : Channel → Channel) : (m.modChan c f).hints = m.hints := rfl
@[simp] theorem Main.modChan_tele (m : Main) (c : Nat) (f : Channel → Channel) : (m.modChan c f).tele = m.tele := rfl
@[simp] theorem Main.modChan_eg (m : Main) (c : Nat) (f : Channel → Channel) : (m.modChan c f).eg = m.eg := rfl
@[simp] theorem Main.modChan_bmcOut (m : Main) (c : Nat) (f : Channel → Channel) : (m.modChan c f).bmcOut = m.bmcOut := rfl
@[simp] theorem Main.modChan_bmcReceiver (m : Main) (c : Nat) (f : Channel → Channel) : (m.modChan c f).bmcReceiver = m.bmcReceiver := rfl
@[simp] theorem Main.modChan_bmcEid (m : Main) (c : Nat) (f : Channel → Channel) : (m.modChan c f).bmcEid = m.bmcEid := rfl
@[simp] theorem Main.modChan_bmcTid (m : Main) (c : Nat) (f : Channel → Channel) : (m.modChan c f).bmcTid = m.bmcTid := rfl

/-! ### setMemOwner -/

@[simp] theorem Main.setMemOwner_time (m : Main) (c : Nat) (o : Owner) : (m.setMemOwner c o).time = m.time := rfl
@[simp] theorem Main.setMemOwner_free (m : Main) (c : Nat) (o : Owner) : (m.setMemOwner c o).free = m.free := rfl
@[simp] theorem Main.setMemOwner_params (m : Main) (c : Nat) (o : Owner) : (m.setMemOwner c o).params = m.params := rfl
@[simp] theorem Main.setMemOwner_cores (m : Main) (c : Nat) (o : Owner) : (m.setMemOwner c o).cores = m.cores := rfl
@[simp] theorem Main.setMemOwner_mem (m : Main) (c : Nat) (o : Owner) : (m.setMemOwner c o).mem = m.mem := rfl
@[simp] theorem Main.setMemOwner_coh (m : Main) (c : Nat) (o : Owner) : (m.setMemOwner c o).coh = m.coh := rfl
@[simp] theorem Main.setMemOwner_l2 (m : Main) (c : Nat) (o : Owner) : (m.setMemOwner c o).l2 = m.l2 := rfl
@[simp] theorem Main.setMemOwner_objs (m : Main) (c : Nat) (o : Owner) : (m.setMemOwner c o).objs = m.objs := rfl
@[simp] theorem Main.setMemOwner_comp (m : Main) (c : Nat) (o : Owner) : (m.setMemOwner c o).comp = { m.comp with memOwner := modNth m.comp.memOwner c (fun _ => o) } := rfl
@[simp] theorem Main.setMemOwner_fab (m : Main) (c : Nat) (o : Owner) : (m.setMemOwner c o).fab = m.fab := rfl
@[simp] theorem Main.setMemOwner_eng (m : Main) (c : Nat) (o : Owner) : (m.setMemOwner c o).eng = m.eng := rfl
@[simp] theorem Main.setMemOwner_colls (m : Main) (c : Nat) (o : Owner) : (m.setMemOwner c o).colls = m.colls := rfl
@[simp] theorem Main.setMemOwner_collIds (m : Main) (c : Nat) (o : Owner) : (m.setMemOwner c o).collIds = m.collIds := rfl
@[simp] theorem Main.setMemOwner_early (m : Main) (c : Nat) (o : Owner) : (m.setMemOwner c o).early = m.early := rfl
@[simp] theorem Main.setMemOwner_host (m : Main) (c : Nat) (o : Owner) : (m.setMemOwner c o).host = m.host := rfl
@[simp] theorem Main.setMemOwner_elbor (m : Main) (c : Nat) (o : Owner) : (m.setMemOwner c o).elbor = m.elbor := rfl
@[simp] theorem Main.setMemOwner_rcv (m : Main) (c : Nat) (o : Owner) : (m.setMemOwner c o).rcv = m.rcv := rfl
@[simp] theorem Main.setMemOwner_sec (m : Main) (c : Nat) (o : Owner) : (m.setMemOwner c o).sec = m.sec := rfl
@[simp] theorem Main.setMemOwner_drills (m : Main) (c : Nat) (o : Owner) : (m.setMemOwner c o).drills = m.drills := rfl
@[simp] theorem Main.setMemOwner_hints (m : Main) (c : Nat) (o : Owner) : (m.setMemOwner c o).hints = m.hints := rfl
@[simp] theorem Main.setMemOwner_tele (m : Main) (c : Nat) (o : Owner) : (m.setMemOwner c o).tele = m.tele := rfl
@[simp] theorem Main.setMemOwner_eg (m : Main) (c : Nat) (o : Owner) : (m.setMemOwner c o).eg = m.eg := rfl
@[simp] theorem Main.setMemOwner_bmcOut (m : Main) (c : Nat) (o : Owner) : (m.setMemOwner c o).bmcOut = m.bmcOut := rfl
@[simp] theorem Main.setMemOwner_bmcReceiver (m : Main) (c : Nat) (o : Owner) : (m.setMemOwner c o).bmcReceiver = m.bmcReceiver := rfl
@[simp] theorem Main.setMemOwner_bmcEid (m : Main) (c : Nat) (o : Owner) : (m.setMemOwner c o).bmcEid = m.bmcEid := rfl
@[simp] theorem Main.setMemOwner_bmcTid (m : Main) (c : Nat) (o : Owner) : (m.setMemOwner c o).bmcTid = m.bmcTid := rfl

/-! ### modRec -/

@[simp] theorem Main.modRec_time (m : Main) (span : Nat) (f : SpanRec → SpanRec) : (m.modRec span f).time = m.time := rfl
@[simp] theorem Main.modRec_free (m : Main) (span : Nat) (f : SpanRec → SpanRec) : (m.modRec span f).free = m.free := rfl
@[simp] theorem Main.modRec_params (m : Main) (span : Nat) (f : SpanRec → SpanRec) : (m.modRec span f).params = m.params := rfl
@[simp] theorem Main.modRec_cores (m : Main) (span : Nat) (f : SpanRec → SpanRec) : (m.modRec span f).cores = m.cores := rfl
@[simp] theorem Main.modRec_mem (m : Main) (span : Nat) (f : SpanRec → SpanRec) : (m.modRec span f).mem = m.mem := rfl
@[simp] theorem Main.modRec_coh (m : Main) (span : Nat) (f : SpanRec → SpanRec) : (m.modRec span f).coh = m.coh := rfl
@[simp] theorem Main.modRec_l2 (m : Main) (span : Nat) (f : SpanRec → SpanRec) : (m.modRec span f).l2 = m.l2 := rfl
@[simp] theorem Main.modRec_objs (m : Main) (span : Nat) (f : SpanRec → SpanRec) : (m.modRec span f).objs = m.objs := rfl
@[simp] theorem Main.modRec_comp (m : Main) (span : Nat) (f : SpanRec → SpanRec) : (m.modRec span f).comp = { m.comp with recs := modWhere m.comp.recs (fun r => r.id == span) f } := rfl
@[simp] theorem Main.modRec_fab (m : Main) (span : Nat) (f : SpanRec → SpanRec) : (m.modRec span f).fab = m.fab := rfl
@[simp] theorem Main.modRec_eng (m : Main) (span : Nat) (f : SpanRec → SpanRec) : (m.modRec span f).eng = m.eng := rfl
@[simp] theorem Main.modRec_colls (m : Main) (span : Nat) (f : SpanRec → SpanRec) : (m.modRec span f).colls = m.colls := rfl
@[simp] theorem Main.modRec_collIds (m : Main) (span : Nat) (f : SpanRec → SpanRec) : (m.modRec span f).collIds = m.collIds := rfl
@[simp] theorem Main.modRec_early (m : Main) (span : Nat) (f : SpanRec → SpanRec) : (m.modRec span f).early = m.early := rfl
@[simp] theorem Main.modRec_host (m : Main) (span : Nat) (f : SpanRec → SpanRec) : (m.modRec span f).host = m.host := rfl
@[simp] theorem Main.modRec_elbor (m : Main) (span : Nat) (f : SpanRec → SpanRec) : (m.modRec span f).elbor = m.elbor := rfl
@[simp] theorem Main.modRec_rcv (m : Main) (span : Nat) (f : SpanRec → SpanRec) : (m.modRec span f).rcv = m.rcv := rfl
@[simp] theorem Main.modRec_sec (m : Main) (span : Nat) (f : SpanRec → SpanRec) : (m.modRec span f).sec = m.sec := rfl
@[simp] theorem Main.modRec_drills (m : Main) (span : Nat) (f : SpanRec → SpanRec) : (m.modRec span f).drills = m.drills := rfl
@[simp] theorem Main.modRec_hints (m : Main) (span : Nat) (f : SpanRec → SpanRec) : (m.modRec span f).hints = m.hints := rfl
@[simp] theorem Main.modRec_tele (m : Main) (span : Nat) (f : SpanRec → SpanRec) : (m.modRec span f).tele = m.tele := rfl
@[simp] theorem Main.modRec_eg (m : Main) (span : Nat) (f : SpanRec → SpanRec) : (m.modRec span f).eg = m.eg := rfl
@[simp] theorem Main.modRec_bmcOut (m : Main) (span : Nat) (f : SpanRec → SpanRec) : (m.modRec span f).bmcOut = m.bmcOut := rfl
@[simp] theorem Main.modRec_bmcReceiver (m : Main) (span : Nat) (f : SpanRec → SpanRec) : (m.modRec span f).bmcReceiver = m.bmcReceiver := rfl
@[simp] theorem Main.modRec_bmcEid (m : Main) (span : Nat) (f : SpanRec → SpanRec) : (m.modRec span f).bmcEid = m.bmcEid := rfl
@[simp] theorem Main.modRec_bmcTid (m : Main) (span : Nat) (f : SpanRec → SpanRec) : (m.modRec span f).bmcTid = m.bmcTid := rfl

/-! ### modCtx -/

@[simp] theorem Main.modCtx_time (m : Main) (n : Nat) (f : Context → Context) : (m.modCtx n f).time = m.time := rfl
@[simp] theorem Main.modCtx_free (m : Main) (n : Nat) (f : Context → Context) : (m.modCtx n f).free = m.free := rfl
@[simp] theorem Main.modCtx_params (m : Main) (n : Nat) (f : Context → Context) : (m.modCtx n f).params = m.params := rfl
@[simp] theorem Main.modCtx_cores (m : Main) (n : Nat) (f : Context → Context) : (m.modCtx n f).cores = m.cores := rfl
@[simp] theorem Main.modCtx_mem (m : Main) (n : Nat) (f : Context → Context) : (m.modCtx n f).mem = m.mem := rfl
@[simp] theorem Main.modCtx_coh (m : Main) (n : Nat) (f : Context → Context) : (m.modCtx n f).coh = m.coh := rfl
@[simp] theorem Main.modCtx_l2 (m : Main) (n : Nat) (f : Context → Context) : (m.modCtx n f).l2 = m.l2 := rfl
@[simp] theorem Main.modCtx_objs (m : Main) (n : Nat) (f : Context → Context) : (m.modCtx n f).objs = { m.objs with ctxs := modWhere m.objs.ctxs (fun c => c.num == n) f } := rfl
@[simp] theorem Main.modCtx_comp (m : Main) (n : Nat) (f : Context → Context) : (m.modCtx n f).comp = m.comp := rfl
@[simp] theorem Main.modCtx_fab (m : Main) (n : Nat) (f : Context → Context) : (m.modCtx n f).fab = m.fab := rfl
@[simp] theorem Main.modCtx_eng (m : Main) (n : Nat) (f : Context → Context) : (m.modCtx n f).eng = m.eng := rfl
@[simp] theorem Main.modCtx_colls (m : Main) (n : Nat) (f : Context → Context) : (m.modCtx n f).colls = m.colls := rfl
@[simp] theorem Main.modCtx_collIds (m : Main) (n : Nat) (f : Context → Context) : (m.modCtx n f).collIds = m.collIds := rfl
@[simp] theorem Main.modCtx_early (m : Main) (n : Nat) (f : Context → Context) : (m.modCtx n f).early = m.early := rfl
@[simp] theorem Main.modCtx_host (m : Main) (n : Nat) (f : Context → Context) : (m.modCtx n f).host = m.host := rfl
@[simp] theorem Main.modCtx_elbor (m : Main) (n : Nat) (f : Context → Context) : (m.modCtx n f).elbor = m.elbor := rfl
@[simp] theorem Main.modCtx_rcv (m : Main) (n : Nat) (f : Context → Context) : (m.modCtx n f).rcv = m.rcv := rfl
@[simp] theorem Main.modCtx_sec (m : Main) (n : Nat) (f : Context → Context) : (m.modCtx n f).sec = m.sec := rfl
@[simp] theorem Main.modCtx_drills (m : Main) (n : Nat) (f : Context → Context) : (m.modCtx n f).drills = m.drills := rfl
@[simp] theorem Main.modCtx_hints (m : Main) (n : Nat) (f : Context → Context) : (m.modCtx n f).hints = m.hints := rfl
@[simp] theorem Main.modCtx_tele (m : Main) (n : Nat) (f : Context → Context) : (m.modCtx n f).tele = m.tele := rfl
@[simp] theorem Main.modCtx_eg (m : Main) (n : Nat) (f : Context → Context) : (m.modCtx n f).eg = m.eg := rfl
@[simp] theorem Main.modCtx_bmcOut (m : Main) (n : Nat) (f : Context → Context) : (m.modCtx n f).bmcOut = m.bmcOut := rfl
@[simp] theorem Main.modCtx_bmcReceiver (m : Main) (n : Nat) (f : Context → Context) : (m.modCtx n f).bmcReceiver = m.bmcReceiver := rfl
@[simp] theorem Main.modCtx_bmcEid (m : Main) (n : Nat) (f : Context → Context) : (m.modCtx n f).bmcEid = m.bmcEid := rfl
@[simp] theorem Main.modCtx_bmcTid (m : Main) (n : Nat) (f : Context → Context) : (m.modCtx n f).bmcTid = m.bmcTid := rfl

/-! ### modQueue -/

@[simp] theorem Main.modQueue_time (m : Main) (q : QRef) (f : Queue → Queue) : (m.modQueue q f).time = m.time := rfl
@[simp] theorem Main.modQueue_free (m : Main) (q : QRef) (f : Queue → Queue) : (m.modQueue q f).free = m.free := rfl
@[simp] theorem Main.modQueue_params (m : Main) (q : QRef) (f : Queue → Queue) : (m.modQueue q f).params = m.params := rfl
@[simp] theorem Main.modQueue_cores (m : Main) (q : QRef) (f : Queue → Queue) : (m.modQueue q f).cores = m.cores := rfl
@[simp] theorem Main.modQueue_mem (m : Main) (q : QRef) (f : Queue → Queue) : (m.modQueue q f).mem = m.mem := rfl
@[simp] theorem Main.modQueue_coh (m : Main) (q : QRef) (f : Queue → Queue) : (m.modQueue q f).coh = m.coh := rfl
@[simp] theorem Main.modQueue_l2 (m : Main) (q : QRef) (f : Queue → Queue) : (m.modQueue q f).l2 = m.l2 := rfl
@[simp] theorem Main.modQueue_objs (m : Main) (q : QRef) (f : Queue → Queue) : (m.modQueue q f).objs = { m.objs with queues := modWhere m.objs.queues (fun x => x.ctx == q.ctx && x.idx == q.q) f } := rfl
@[simp] theorem Main.modQueue_comp (m : Main) (q : QRef) (f : Queue → Queue) : (m.modQueue q f).comp = m.comp := rfl
@[simp] theorem Main.modQueue_fab (m : Main) (q : QRef) (f : Queue → Queue) : (m.modQueue q f).fab = m.fab := rfl
@[simp] theorem Main.modQueue_eng (m : Main) (q : QRef) (f : Queue → Queue) : (m.modQueue q f).eng = m.eng := rfl
@[simp] theorem Main.modQueue_colls (m : Main) (q : QRef) (f : Queue → Queue) : (m.modQueue q f).colls = m.colls := rfl
@[simp] theorem Main.modQueue_collIds (m : Main) (q : QRef) (f : Queue → Queue) : (m.modQueue q f).collIds = m.collIds := rfl
@[simp] theorem Main.modQueue_early (m : Main) (q : QRef) (f : Queue → Queue) : (m.modQueue q f).early = m.early := rfl
@[simp] theorem Main.modQueue_host (m : Main) (q : QRef) (f : Queue → Queue) : (m.modQueue q f).host = m.host := rfl
@[simp] theorem Main.modQueue_elbor (m : Main) (q : QRef) (f : Queue → Queue) : (m.modQueue q f).elbor = m.elbor := rfl
@[simp] theorem Main.modQueue_rcv (m : Main) (q : QRef) (f : Queue → Queue) : (m.modQueue q f).rcv = m.rcv := rfl
@[simp] theorem Main.modQueue_sec (m : Main) (q : QRef) (f : Queue → Queue) : (m.modQueue q f).sec = m.sec := rfl
@[simp] theorem Main.modQueue_drills (m : Main) (q : QRef) (f : Queue → Queue) : (m.modQueue q f).drills = m.drills := rfl
@[simp] theorem Main.modQueue_hints (m : Main) (q : QRef) (f : Queue → Queue) : (m.modQueue q f).hints = m.hints := rfl
@[simp] theorem Main.modQueue_tele (m : Main) (q : QRef) (f : Queue → Queue) : (m.modQueue q f).tele = m.tele := rfl
@[simp] theorem Main.modQueue_eg (m : Main) (q : QRef) (f : Queue → Queue) : (m.modQueue q f).eg = m.eg := rfl
@[simp] theorem Main.modQueue_bmcOut (m : Main) (q : QRef) (f : Queue → Queue) : (m.modQueue q f).bmcOut = m.bmcOut := rfl
@[simp] theorem Main.modQueue_bmcReceiver (m : Main) (q : QRef) (f : Queue → Queue) : (m.modQueue q f).bmcReceiver = m.bmcReceiver := rfl
@[simp] theorem Main.modQueue_bmcEid (m : Main) (q : QRef) (f : Queue → Queue) : (m.modQueue q f).bmcEid = m.bmcEid := rfl
@[simp] theorem Main.modQueue_bmcTid (m : Main) (q : QRef) (f : Queue → Queue) : (m.modQueue q f).bmcTid = m.bmcTid := rfl

/-! ### modFence -/

@[simp] theorem Main.modFence_time (m : Main) (h : Nat) (f : Fence → Fence) : (m.modFence h f).time = m.time := rfl
@[simp] theorem Main.modFence_free (m : Main) (h : Nat) (f : Fence → Fence) : (m.modFence h f).free = m.free := rfl
@[simp] theorem Main.modFence_params (m : Main) (h : Nat) (f : Fence → Fence) : (m.modFence h f).params = m.params := rfl
@[simp] theorem Main.modFence_cores (m : Main) (h : Nat) (f : Fence → Fence) : (m.modFence h f).cores = m.cores := rfl
@[simp] theorem Main.modFence_mem (m : Main) (h : Nat) (f : Fence → Fence) : (m.modFence h f).mem = m.mem := rfl
@[simp] theorem Main.modFence_coh (m : Main) (h : Nat) (f : Fence → Fence) : (m.modFence h f).coh = m.coh := rfl
@[simp] theorem Main.modFence_l2 (m : Main) (h : Nat) (f : Fence → Fence) : (m.modFence h f).l2 = m.l2 := rfl
@[simp] theorem Main.modFence_objs (m : Main) (h : Nat) (f : Fence → Fence) : (m.modFence h f).objs = { m.objs with fences := modWhere m.objs.fences (fun x => x.handle == h) f } := rfl
@[simp] theorem Main.modFence_comp (m : Main) (h : Nat) (f : Fence → Fence) : (m.modFence h f).comp = m.comp := rfl
@[simp] theorem Main.modFence_fab (m : Main) (h : Nat) (f : Fence → Fence) : (m.modFence h f).fab = m.fab := rfl
@[simp] theorem Main.modFence_eng (m : Main) (h : Nat) (f : Fence → Fence) : (m.modFence h f).eng = m.eng := rfl
@[simp] theorem Main.modFence_colls (m : Main) (h : Nat) (f : Fence → Fence) : (m.modFence h f).colls = m.colls := rfl
@[simp] theorem Main.modFence_collIds (m : Main) (h : Nat) (f : Fence → Fence) : (m.modFence h f).collIds = m.collIds := rfl
@[simp] theorem Main.modFence_early (m : Main) (h : Nat) (f : Fence → Fence) : (m.modFence h f).early = m.early := rfl
@[simp] theorem Main.modFence_host (m : Main) (h : Nat) (f : Fence → Fence) : (m.modFence h f).host = m.host := rfl
@[simp] theorem Main.modFence_elbor (m : Main) (h : Nat) (f : Fence → Fence) : (m.modFence h f).elbor = m.elbor := rfl
@[simp] theorem Main.modFence_rcv (m : Main) (h : Nat) (f : Fence → Fence) : (m.modFence h f).rcv = m.rcv := rfl
@[simp] theorem Main.modFence_sec (m : Main) (h : Nat) (f : Fence → Fence) : (m.modFence h f).sec = m.sec := rfl
@[simp] theorem Main.modFence_drills (m : Main) (h : Nat) (f : Fence → Fence) : (m.modFence h f).drills = m.drills := rfl
@[simp] theorem Main.modFence_hints (m : Main) (h : Nat) (f : Fence → Fence) : (m.modFence h f).hints = m.hints := rfl
@[simp] theorem Main.modFence_tele (m : Main) (h : Nat) (f : Fence → Fence) : (m.modFence h f).tele = m.tele := rfl
@[simp] theorem Main.modFence_eg (m : Main) (h : Nat) (f : Fence → Fence) : (m.modFence h f).eg = m.eg := rfl
@[simp] theorem Main.modFence_bmcOut (m : Main) (h : Nat) (f : Fence → Fence) : (m.modFence h f).bmcOut = m.bmcOut := rfl
@[simp] theorem Main.modFence_bmcReceiver (m : Main) (h : Nat) (f : Fence → Fence) : (m.modFence h f).bmcReceiver = m.bmcReceiver := rfl
@[simp] theorem Main.modFence_bmcEid (m : Main) (h : Nat) (f : Fence → Fence) : (m.modFence h f).bmcEid = m.bmcEid := rfl
@[simp] theorem Main.modFence_bmcTid (m : Main) (h : Nat) (f : Fence → Fence) : (m.modFence h f).bmcTid = m.bmcTid := rfl

/-! ### modCounter -/

@[simp] theorem Main.modCounter_time (m : Main) (i : Nat) (f : Counter → Counter) : (m.modCounter i f).time = m.time := rfl
@[simp] theorem Main.modCounter_free (m : Main) (i : Nat) (f : Counter → Counter) : (m.modCounter i f).free = m.free := rfl
@[simp] theorem Main.modCounter_params (m : Main) (i : Nat) (f : Counter → Counter) : (m.modCounter i f).params = m.params := rfl
@[simp] theorem Main.modCounter_cores (m : Main) (i : Nat) (f : Counter → Counter) : (m.modCounter i f).cores = m.cores := rfl
@[simp] theorem Main.modCounter_mem (m : Main) (i : Nat) (f : Counter → Counter) : (m.modCounter i f).mem = m.mem := rfl
@[simp] theorem Main.modCounter_coh (m : Main) (i : Nat) (f : Counter → Counter) : (m.modCounter i f).coh = m.coh := rfl
@[simp] theorem Main.modCounter_l2 (m : Main) (i : Nat) (f : Counter → Counter) : (m.modCounter i f).l2 = m.l2 := rfl
@[simp] theorem Main.modCounter_objs (m : Main) (i : Nat) (f : Counter → Counter) : (m.modCounter i f).objs = { m.objs with counters := modWhere m.objs.counters (fun c => c.idx == i) f } := rfl
@[simp] theorem Main.modCounter_comp (m : Main) (i : Nat) (f : Counter → Counter) : (m.modCounter i f).comp = m.comp := rfl
@[simp] theorem Main.modCounter_fab (m : Main) (i : Nat) (f : Counter → Counter) : (m.modCounter i f).fab = m.fab := rfl
@[simp] theorem Main.modCounter_eng (m : Main) (i : Nat) (f : Counter → Counter) : (m.modCounter i f).eng = m.eng := rfl
@[simp] theorem Main.modCounter_colls (m : Main) (i : Nat) (f : Counter → Counter) : (m.modCounter i f).colls = m.colls := rfl
@[simp] theorem Main.modCounter_collIds (m : Main) (i : Nat) (f : Counter → Counter) : (m.modCounter i f).collIds = m.collIds := rfl
@[simp] theorem Main.modCounter_early (m : Main) (i : Nat) (f : Counter → Counter) : (m.modCounter i f).early = m.early := rfl
@[simp] theorem Main.modCounter_host (m : Main) (i : Nat) (f : Counter → Counter) : (m.modCounter i f).host = m.host := rfl
@[simp] theorem Main.modCounter_elbor (m : Main) (i : Nat) (f : Counter → Counter) : (m.modCounter i f).elbor = m.elbor := rfl
@[simp] theorem Main.modCounter_rcv (m : Main) (i : Nat) (f : Counter → Counter) : (m.modCounter i f).rcv = m.rcv := rfl
@[simp] theorem Main.modCounter_sec (m : Main) (i : Nat) (f : Counter → Counter) : (m.modCounter i f).sec = m.sec := rfl
@[simp] theorem Main.modCounter_drills (m : Main) (i : Nat) (f : Counter → Counter) : (m.modCounter i f).drills = m.drills := rfl
@[simp] theorem Main.modCounter_hints (m : Main) (i : Nat) (f : Counter → Counter) : (m.modCounter i f).hints = m.hints := rfl
@[simp] theorem Main.modCounter_tele (m : Main) (i : Nat) (f : Counter → Counter) : (m.modCounter i f).tele = m.tele := rfl
@[simp] theorem Main.modCounter_eg (m : Main) (i : Nat) (f : Counter → Counter) : (m.modCounter i f).eg = m.eg := rfl
@[simp] theorem Main.modCounter_bmcOut (m : Main) (i : Nat) (f : Counter → Counter) : (m.modCounter i f).bmcOut = m.bmcOut := rfl
@[simp] theorem Main.modCounter_bmcReceiver (m : Main) (i : Nat) (f : Counter → Counter) : (m.modCounter i f).bmcReceiver = m.bmcReceiver := rfl
@[simp] theorem Main.modCounter_bmcEid (m : Main) (i : Nat) (f : Counter → Counter) : (m.modCounter i f).bmcEid = m.bmcEid := rfl
@[simp] theorem Main.modCounter_bmcTid (m : Main) (i : Nat) (f : Counter → Counter) : (m.modCounter i f).bmcTid = m.bmcTid := rfl

/-! ### modLaunch -/

@[simp] theorem Main.modLaunch_time (m : Main) (id : Nat) (f : Launch → Launch) : (m.modLaunch id f).time = m.time := rfl
@[simp] theorem Main.modLaunch_free (m : Main) (id : Nat) (f : Launch → Launch) : (m.modLaunch id f).free = m.free := rfl
@[simp] theorem Main.modLaunch_params (m : Main) (id : Nat) (f : Launch → Launch) : (m.modLaunch id f).params = m.params := rfl
@[simp] theorem Main.modLaunch_cores (m : Main) (id : Nat) (f : Launch → Launch) : (m.modLaunch id f).cores = { m.cores with launches := modWhere m.cores.launches (fun l => l.id == id) f } := rfl
@[simp] theorem Main.modLaunch_mem (m : Main) (id : Nat) (f : Launch → Launch) : (m.modLaunch id f).mem = m.mem := rfl
@[simp] theorem Main.modLaunch_coh (m : Main) (id : Nat) (f : Launch → Launch) : (m.modLaunch id f).coh = m.coh := rfl
@[simp] theorem Main.modLaunch_l2 (m : Main) (id : Nat) (f : Launch → Launch) : (m.modLaunch id f).l2 = m.l2 := rfl
@[simp] theorem Main.modLaunch_objs (m : Main) (id : Nat) (f : Launch → Launch) : (m.modLaunch id f).objs = m.objs := rfl
@[simp] theorem Main.modLaunch_comp (m : Main) (id : Nat) (f : Launch → Launch) : (m.modLaunch id f).comp = m.comp := rfl
@[simp] theorem Main.modLaunch_fab (m : Main) (id : Nat) (f : Launch → Launch) : (m.modLaunch id f).fab = m.fab := rfl
@[simp] theorem Main.modLaunch_eng (m : Main) (id : Nat) (f : Launch → Launch) : (m.modLaunch id f).eng = m.eng := rfl
@[simp] theorem Main.modLaunch_colls (m : Main) (id : Nat) (f : Launch → Launch) : (m.modLaunch id f).colls = m.colls := rfl
@[simp] theorem Main.modLaunch_collIds (m : Main) (id : Nat) (f : Launch → Launch) : (m.modLaunch id f).collIds = m.collIds := rfl
@[simp] theorem Main.modLaunch_early (m : Main) (id : Nat) (f : Launch → Launch) : (m.modLaunch id f).early = m.early := rfl
@[simp] theorem Main.modLaunch_host (m : Main) (id : Nat) (f : Launch → Launch) : (m.modLaunch id f).host = m.host := rfl
@[simp] theorem Main.modLaunch_elbor (m : Main) (id : Nat) (f : Launch → Launch) : (m.modLaunch id f).elbor = m.elbor := rfl
@[simp] theorem Main.modLaunch_rcv (m : Main) (id : Nat) (f : Launch → Launch) : (m.modLaunch id f).rcv = m.rcv := rfl
@[simp] theorem Main.modLaunch_sec (m : Main) (id : Nat) (f : Launch → Launch) : (m.modLaunch id f).sec = m.sec := rfl
@[simp] theorem Main.modLaunch_drills (m : Main) (id : Nat) (f : Launch → Launch) : (m.modLaunch id f).drills = m.drills := rfl
@[simp] theorem Main.modLaunch_hints (m : Main) (id : Nat) (f : Launch → Launch) : (m.modLaunch id f).hints = m.hints := rfl
@[simp] theorem Main.modLaunch_tele (m : Main) (id : Nat) (f : Launch → Launch) : (m.modLaunch id f).tele = m.tele := rfl
@[simp] theorem Main.modLaunch_eg (m : Main) (id : Nat) (f : Launch → Launch) : (m.modLaunch id f).eg = m.eg := rfl
@[simp] theorem Main.modLaunch_bmcOut (m : Main) (id : Nat) (f : Launch → Launch) : (m.modLaunch id f).bmcOut = m.bmcOut := rfl
@[simp] theorem Main.modLaunch_bmcReceiver (m : Main) (id : Nat) (f : Launch → Launch) : (m.modLaunch id f).bmcReceiver = m.bmcReceiver := rfl
@[simp] theorem Main.modLaunch_bmcEid (m : Main) (id : Nat) (f : Launch → Launch) : (m.modLaunch id f).bmcEid = m.bmcEid := rfl
@[simp] theorem Main.modLaunch_bmcTid (m : Main) (id : Nat) (f : Launch → Launch) : (m.modLaunch id f).bmcTid = m.bmcTid := rfl

/-! ### modWg -/

@[simp] theorem Main.modWg_time (m : Main) (id : Nat) (f : WorkGroup → WorkGroup) : (m.modWg id f).time = m.time := rfl
@[simp] theorem Main.modWg_free (m : Main) (id : Nat) (f : WorkGroup → WorkGroup) : (m.modWg id f).free = m.free := rfl
@[simp] theorem Main.modWg_params (m : Main) (id : Nat) (f : WorkGroup → WorkGroup) : (m.modWg id f).params = m.params := rfl
@[simp] theorem Main.modWg_cores (m : Main) (id : Nat) (f : WorkGroup → WorkGroup) : (m.modWg id f).cores = { m.cores with wgs := modWhere m.cores.wgs (fun w => w.id == id) f } := rfl
@[simp] theorem Main.modWg_mem (m : Main) (id : Nat) (f : WorkGroup → WorkGroup) : (m.modWg id f).mem = m.mem := rfl
@[simp] theorem Main.modWg_coh (m : Main) (id : Nat) (f : WorkGroup → WorkGroup) : (m.modWg id f).coh = m.coh := rfl
@[simp] theorem Main.modWg_l2 (m : Main) (id : Nat) (f : WorkGroup → WorkGroup) : (m.modWg id f).l2 = m.l2 := rfl
@[simp] theorem Main.modWg_objs (m : Main) (id : Nat) (f : WorkGroup → WorkGroup) : (m.modWg id f).objs = m.objs := rfl
@[simp] theorem Main.modWg_comp (m : Main) (id : Nat) (f : WorkGroup → WorkGroup) : (m.modWg id f).comp = m.comp := rfl
@[simp] theorem Main.modWg_fab (m : Main) (id : Nat) (f : WorkGroup → WorkGroup) : (m.modWg id f).fab = m.fab := rfl
@[simp] theorem Main.modWg_eng (m : Main) (id : Nat) (f : WorkGroup → WorkGroup) : (m.modWg id f).eng = m.eng := rfl
@[simp] theorem Main.modWg_colls (m : Main) (id : Nat) (f : WorkGroup → WorkGroup) : (m.modWg id f).colls = m.colls := rfl
@[simp] theorem Main.modWg_collIds (m : Main) (id : Nat) (f : WorkGroup → WorkGroup) : (m.modWg id f).collIds = m.collIds := rfl
@[simp] theorem Main.modWg_early (m : Main) (id : Nat) (f : WorkGroup → WorkGroup) : (m.modWg id f).early = m.early := rfl
@[simp] theorem Main.modWg_host (m : Main) (id : Nat) (f : WorkGroup → WorkGroup) : (m.modWg id f).host = m.host := rfl
@[simp] theorem Main.modWg_elbor (m : Main) (id : Nat) (f : WorkGroup → WorkGroup) : (m.modWg id f).elbor = m.elbor := rfl
@[simp] theorem Main.modWg_rcv (m : Main) (id : Nat) (f : WorkGroup → WorkGroup) : (m.modWg id f).rcv = m.rcv := rfl
@[simp] theorem Main.modWg_sec (m : Main) (id : Nat) (f : WorkGroup → WorkGroup) : (m.modWg id f).sec = m.sec := rfl
@[simp] theorem Main.modWg_drills (m : Main) (id : Nat) (f : WorkGroup → WorkGroup) : (m.modWg id f).drills = m.drills := rfl
@[simp] theorem Main.modWg_hints (m : Main) (id : Nat) (f : WorkGroup → WorkGroup) : (m.modWg id f).hints = m.hints := rfl
@[simp] theorem Main.modWg_tele (m : Main) (id : Nat) (f : WorkGroup → WorkGroup) : (m.modWg id f).tele = m.tele := rfl
@[simp] theorem Main.modWg_eg (m : Main) (id : Nat) (f : WorkGroup → WorkGroup) : (m.modWg id f).eg = m.eg := rfl
@[simp] theorem Main.modWg_bmcOut (m : Main) (id : Nat) (f : WorkGroup → WorkGroup) : (m.modWg id f).bmcOut = m.bmcOut := rfl
@[simp] theorem Main.modWg_bmcReceiver (m : Main) (id : Nat) (f : WorkGroup → WorkGroup) : (m.modWg id f).bmcReceiver = m.bmcReceiver := rfl
@[simp] theorem Main.modWg_bmcEid (m : Main) (id : Nat) (f : WorkGroup → WorkGroup) : (m.modWg id f).bmcEid = m.bmcEid := rfl
@[simp] theorem Main.modWg_bmcTid (m : Main) (id : Nat) (f : WorkGroup → WorkGroup) : (m.modWg id f).bmcTid = m.bmcTid := rfl

/-! ### putBundle -/

@[simp] theorem Main.putBundle_time (m : Main) (br : BRef) (b : Bundle) : (m.putBundle br b).time = m.time := rfl
@[simp] theorem Main.putBundle_free (m : Main) (br : BRef) (b : Bundle) : (m.putBundle br b).free = m.free := rfl
@[simp] theorem Main.putBundle_params (m : Main) (br : BRef) (b : Bundle) : (m.putBundle br b).params = m.params := rfl
@[simp] theorem Main.putBundle_mem (m : Main) (br : BRef) (b : Bundle) : (m.putBundle br b).mem = m.mem := rfl
@[simp] theorem Main.putBundle_coh (m : Main) (br : BRef) (b : Bundle) : (m.putBundle br b).coh = m.coh := rfl
@[simp] theorem Main.putBundle_l2 (m : Main) (br : BRef) (b : Bundle) : (m.putBundle br b).l2 = m.l2 := rfl
@[simp] theorem Main.putBundle_objs (m : Main) (br : BRef) (b : Bundle) : (m.putBundle br b).objs = m.objs := rfl
@[simp] theorem Main.putBundle_comp (m : Main) (br : BRef) (b : Bundle) : (m.putBundle br b).comp = m.comp := rfl
@[simp] theorem Main.putBundle_fab (m : Main) (br : BRef) (b : Bundle) : (m.putBundle br b).fab = m.fab := rfl
@[simp] theorem Main.putBundle_eng (m : Main) (br : BRef) (b : Bundle) : (m.putBundle br b).eng = m.eng := rfl
@[simp] theorem Main.putBundle_colls (m : Main) (br : BRef) (b : Bundle) : (m.putBundle br b).colls = m.colls := rfl
@[simp] theorem Main.putBundle_collIds (m : Main) (br : BRef) (b : Bundle) : (m.putBundle br b).collIds = m.collIds := rfl
@[simp] theorem Main.putBundle_early (m : Main) (br : BRef) (b : Bundle) : (m.putBundle br b).early = m.early := rfl
@[simp] theorem Main.putBundle_host (m : Main) (br : BRef) (b : Bundle) : (m.putBundle br b).host = m.host := rfl
@[simp] theorem Main.putBundle_elbor (m : Main) (br : BRef) (b : Bundle) : (m.putBundle br b).elbor = m.elbor := rfl
@[simp] theorem Main.putBundle_rcv (m : Main) (br : BRef) (b : Bundle) : (m.putBundle br b).rcv = m.rcv := rfl
@[simp] theorem Main.putBundle_sec (m : Main) (br : BRef) (b : Bundle) : (m.putBundle br b).sec = m.sec := rfl
@[simp] theorem Main.putBundle_drills (m : Main) (br : BRef) (b : Bundle) : (m.putBundle br b).drills = m.drills := rfl
@[simp] theorem Main.putBundle_hints (m : Main) (br : BRef) (b : Bundle) : (m.putBundle br b).hints = m.hints := rfl
@[simp] theorem Main.putBundle_tele (m : Main) (br : BRef) (b : Bundle) : (m.putBundle br b).tele = m.tele := rfl
@[simp] theorem Main.putBundle_eg (m : Main) (br : BRef) (b : Bundle) : (m.putBundle br b).eg = m.eg := rfl
@[simp] theorem Main.putBundle_bmcOut (m : Main) (br : BRef) (b : Bundle) : (m.putBundle br b).bmcOut = m.bmcOut := rfl
@[simp] theorem Main.putBundle_bmcReceiver (m : Main) (br : BRef) (b : Bundle) : (m.putBundle br b).bmcReceiver = m.bmcReceiver := rfl
@[simp] theorem Main.putBundle_bmcEid (m : Main) (br : BRef) (b : Bundle) : (m.putBundle br b).bmcEid = m.bmcEid := rfl
@[simp] theorem Main.putBundle_bmcTid (m : Main) (br : BRef) (b : Bundle) : (m.putBundle br b).bmcTid = m.bmcTid := rfl

/-! ### modErr -/

@[simp] theorem Main.modErr_time (m : Main) (id : Nat) (f : ErrRec → ErrRec) : (m.modErr id f).time = m.time := rfl
@[simp] theorem Main.modErr_free (m : Main) (id : Nat) (f : ErrRec → ErrRec) : (m.modErr id f).free = m.free := rfl
@[simp] theorem Main.modErr_params (m : Main) (id : Nat) (f : ErrRec → ErrRec) : (m.modErr id f).params = m.params := rfl
@[simp] theorem Main.modErr_cores (m : Main) (id : Nat) (f : ErrRec → ErrRec) : (m.modErr id f).cores = m.cores := rfl
@[simp] theorem Main.modErr_mem (m : Main) (id : Nat) (f : ErrRec → ErrRec) : (m.modErr id f).mem = m.mem := rfl
@[simp] theorem Main.modErr_coh (m : Main) (id : Nat) (f : ErrRec → ErrRec) : (m.modErr id f).coh = m.coh := rfl
@[simp] theorem Main.modErr_l2 (m : Main) (id : Nat) (f : ErrRec → ErrRec) : (m.modErr id f).l2 = m.l2 := rfl
@[simp] theorem Main.modErr_objs (m : Main) (id : Nat) (f : ErrRec → ErrRec) : (m.modErr id f).objs = m.objs := rfl
@[simp] theorem Main.modErr_comp (m : Main) (id : Nat) (f : ErrRec → ErrRec) : (m.modErr id f).comp = m.comp := rfl
@[simp] theorem Main.modErr_fab (m : Main) (id : Nat) (f : ErrRec → ErrRec) : (m.modErr id f).fab = m.fab := rfl
@[simp] theorem Main.modErr_eng (m : Main) (id : Nat) (f : ErrRec → ErrRec) : (m.modErr id f).eng = m.eng := rfl
@[simp] theorem Main.modErr_colls (m : Main) (id : Nat) (f : ErrRec → ErrRec) : (m.modErr id f).colls = m.colls := rfl
@[simp] theorem Main.modErr_collIds (m : Main) (id : Nat) (f : ErrRec → ErrRec) : (m.modErr id f).collIds = m.collIds := rfl
@[simp] theorem Main.modErr_early (m : Main) (id : Nat) (f : ErrRec → ErrRec) : (m.modErr id f).early = m.early := rfl
@[simp] theorem Main.modErr_host (m : Main) (id : Nat) (f : ErrRec → ErrRec) : (m.modErr id f).host = m.host := rfl
@[simp] theorem Main.modErr_elbor (m : Main) (id : Nat) (f : ErrRec → ErrRec) : (m.modErr id f).elbor = m.elbor := rfl
@[simp] theorem Main.modErr_rcv (m : Main) (id : Nat) (f : ErrRec → ErrRec) : (m.modErr id f).rcv = { m.rcv with errs := modWhere m.rcv.errs (fun r => r.id == id) f } := rfl
@[simp] theorem Main.modErr_sec (m : Main) (id : Nat) (f : ErrRec → ErrRec) : (m.modErr id f).sec = m.sec := rfl
@[simp] theorem Main.modErr_drills (m : Main) (id : Nat) (f : ErrRec → ErrRec) : (m.modErr id f).drills = m.drills := rfl
@[simp] theorem Main.modErr_hints (m : Main) (id : Nat) (f : ErrRec → ErrRec) : (m.modErr id f).hints = m.hints := rfl
@[simp] theorem Main.modErr_tele (m : Main) (id : Nat) (f : ErrRec → ErrRec) : (m.modErr id f).tele = m.tele := rfl
@[simp] theorem Main.modErr_eg (m : Main) (id : Nat) (f : ErrRec → ErrRec) : (m.modErr id f).eg = m.eg := rfl
@[simp] theorem Main.modErr_bmcOut (m : Main) (id : Nat) (f : ErrRec → ErrRec) : (m.modErr id f).bmcOut = m.bmcOut := rfl
@[simp] theorem Main.modErr_bmcReceiver (m : Main) (id : Nat) (f : ErrRec → ErrRec) : (m.modErr id f).bmcReceiver = m.bmcReceiver := rfl
@[simp] theorem Main.modErr_bmcEid (m : Main) (id : Nat) (f : ErrRec → ErrRec) : (m.modErr id f).bmcEid = m.bmcEid := rfl
@[simp] theorem Main.modErr_bmcTid (m : Main) (id : Nat) (f : ErrRec → ErrRec) : (m.modErr id f).bmcTid = m.bmcTid := rfl

/-! ### modGslot -/

@[simp] theorem Main.modGslot_time (m : Main) (s : Nat) (f : GSlot → GSlot) : (m.modGslot s f).time = m.time := rfl
@[simp] theorem Main.modGslot_free (m : Main) (s : Nat) (f : GSlot → GSlot) : (m.modGslot s f).free = m.free := rfl
@[simp] theorem Main.modGslot_params (m : Main) (s : Nat) (f : GSlot → GSlot) : (m.modGslot s f).params = m.params := rfl
@[simp] theorem Main.modGslot_cores (m : Main) (s : Nat) (f : GSlot → GSlot) : (m.modGslot s f).cores = m.cores := rfl
@[simp] theorem Main.modGslot_mem (m : Main) (s : Nat) (f : GSlot → GSlot) : (m.modGslot s f).mem = m.mem := rfl
@[simp] theorem Main.modGslot_coh (m : Main) (s : Nat) (f : GSlot → GSlot) : (m.modGslot s f).coh = m.coh := rfl
@[simp] theorem Main.modGslot_l2 (m : Main) (s : Nat) (f : GSlot → GSlot) : (m.modGslot s f).l2 = m.l2 := rfl
@[simp] theorem Main.modGslot_objs (m : Main) (s : Nat) (f : GSlot → GSlot) : (m.modGslot s f).objs = m.objs := rfl
@[simp] theorem Main.modGslot_comp (m : Main) (s : Nat) (f : GSlot → GSlot) : (m.modGslot s f).comp = m.comp := rfl
@[simp] theorem Main.modGslot_fab (m : Main) (s : Nat) (f : GSlot → GSlot) : (m.modGslot s f).fab = m.fab := rfl
@[simp] theorem Main.modGslot_eng (m : Main) (s : Nat) (f : GSlot → GSlot) : (m.modGslot s f).eng = m.eng := rfl
@[simp] theorem Main.modGslot_colls (m : Main) (s : Nat) (f : GSlot → GSlot) : (m.modGslot s f).colls = m.colls := rfl
@[simp] theorem Main.modGslot_collIds (m : Main) (s : Nat) (f : GSlot → GSlot) : (m.modGslot s f).collIds = m.collIds := rfl
@[simp] theorem Main.modGslot_early (m : Main) (s : Nat) (f : GSlot → GSlot) : (m.modGslot s f).early = m.early := rfl
@[simp] theorem Main.modGslot_host (m : Main) (s : Nat) (f : GSlot → GSlot) : (m.modGslot s f).host = m.host := rfl
@[simp] theorem Main.modGslot_elbor (m : Main) (s : Nat) (f : GSlot → GSlot) : (m.modGslot s f).elbor = m.elbor := rfl
@[simp] theorem Main.modGslot_rcv (m : Main) (s : Nat) (f : GSlot → GSlot) : (m.modGslot s f).rcv = m.rcv := rfl
@[simp] theorem Main.modGslot_sec (m : Main) (s : Nat) (f : GSlot → GSlot) : (m.modGslot s f).sec = { m.sec with slots := modNth m.sec.slots s f } := rfl
@[simp] theorem Main.modGslot_drills (m : Main) (s : Nat) (f : GSlot → GSlot) : (m.modGslot s f).drills = m.drills := rfl
@[simp] theorem Main.modGslot_hints (m : Main) (s : Nat) (f : GSlot → GSlot) : (m.modGslot s f).hints = m.hints := rfl
@[simp] theorem Main.modGslot_tele (m : Main) (s : Nat) (f : GSlot → GSlot) : (m.modGslot s f).tele = m.tele := rfl
@[simp] theorem Main.modGslot_eg (m : Main) (s : Nat) (f : GSlot → GSlot) : (m.modGslot s f).eg = m.eg := rfl
@[simp] theorem Main.modGslot_bmcOut (m : Main) (s : Nat) (f : GSlot → GSlot) : (m.modGslot s f).bmcOut = m.bmcOut := rfl
@[simp] theorem Main.modGslot_bmcReceiver (m : Main) (s : Nat) (f : GSlot → GSlot) : (m.modGslot s f).bmcReceiver = m.bmcReceiver := rfl
@[simp] theorem Main.modGslot_bmcEid (m : Main) (s : Nat) (f : GSlot → GSlot) : (m.modGslot s f).bmcEid = m.bmcEid := rfl
@[simp] theorem Main.modGslot_bmcTid (m : Main) (s : Nat) (f : GSlot → GSlot) : (m.modGslot s f).bmcTid = m.bmcTid := rfl

/-! ### modFw -/

@[simp] theorem Main.modFw_time (m : Main) (c : Nat) (f : FwComp → FwComp) : (m.modFw c f).time = m.time := rfl
@[simp] theorem Main.modFw_free (m : Main) (c : Nat) (f : FwComp → FwComp) : (m.modFw c f).free = m.free := rfl
@[simp] theorem Main.modFw_params (m : Main) (c : Nat) (f : FwComp → FwComp) : (m.modFw c f).params = m.params := rfl
@[simp] theorem Main.modFw_cores (m : Main) (c : Nat) (f : FwComp → FwComp) : (m.modFw c f).cores = m.cores := rfl
@[simp] theorem Main.modFw_mem (m : Main) (c : Nat) (f : FwComp → FwComp) : (m.modFw c f).mem = m.mem := rfl
@[simp] theorem Main.modFw_coh (m : Main) (c : Nat) (f : FwComp → FwComp) : (m.modFw c f).coh = m.coh := rfl
@[simp] theorem Main.modFw_l2 (m : Main) (c : Nat) (f : FwComp → FwComp) : (m.modFw c f).l2 = m.l2 := rfl
@[simp] theorem Main.modFw_objs (m : Main) (c : Nat) (f : FwComp → FwComp) : (m.modFw c f).objs = m.objs := rfl
@[simp] theorem Main.modFw_comp (m : Main) (c : Nat) (f : FwComp → FwComp) : (m.modFw c f).comp = m.comp := rfl
@[simp] theorem Main.modFw_fab (m : Main) (c : Nat) (f : FwComp → FwComp) : (m.modFw c f).fab = m.fab := rfl
@[simp] theorem Main.modFw_eng (m : Main) (c : Nat) (f : FwComp → FwComp) : (m.modFw c f).eng = m.eng := rfl
@[simp] theorem Main.modFw_colls (m : Main) (c : Nat) (f : FwComp → FwComp) : (m.modFw c f).colls = m.colls := rfl
@[simp] theorem Main.modFw_collIds (m : Main) (c : Nat) (f : FwComp → FwComp) : (m.modFw c f).collIds = m.collIds := rfl
@[simp] theorem Main.modFw_early (m : Main) (c : Nat) (f : FwComp → FwComp) : (m.modFw c f).early = m.early := rfl
@[simp] theorem Main.modFw_host (m : Main) (c : Nat) (f : FwComp → FwComp) : (m.modFw c f).host = m.host := rfl
@[simp] theorem Main.modFw_elbor (m : Main) (c : Nat) (f : FwComp → FwComp) : (m.modFw c f).elbor = m.elbor := rfl
@[simp] theorem Main.modFw_rcv (m : Main) (c : Nat) (f : FwComp → FwComp) : (m.modFw c f).rcv = m.rcv := rfl
@[simp] theorem Main.modFw_sec (m : Main) (c : Nat) (f : FwComp → FwComp) : (m.modFw c f).sec = { m.sec with fw := modNth m.sec.fw c f } := rfl
@[simp] theorem Main.modFw_drills (m : Main) (c : Nat) (f : FwComp → FwComp) : (m.modFw c f).drills = m.drills := rfl
@[simp] theorem Main.modFw_hints (m : Main) (c : Nat) (f : FwComp → FwComp) : (m.modFw c f).hints = m.hints := rfl
@[simp] theorem Main.modFw_tele (m : Main) (c : Nat) (f : FwComp → FwComp) : (m.modFw c f).tele = m.tele := rfl
@[simp] theorem Main.modFw_eg (m : Main) (c : Nat) (f : FwComp → FwComp) : (m.modFw c f).eg = m.eg := rfl
@[simp] theorem Main.modFw_bmcOut (m : Main) (c : Nat) (f : FwComp → FwComp) : (m.modFw c f).bmcOut = m.bmcOut := rfl
@[simp] theorem Main.modFw_bmcReceiver (m : Main) (c : Nat) (f : FwComp → FwComp) : (m.modFw c f).bmcReceiver = m.bmcReceiver := rfl
@[simp] theorem Main.modFw_bmcEid (m : Main) (c : Nat) (f : FwComp → FwComp) : (m.modFw c f).bmcEid = m.bmcEid := rfl
@[simp] theorem Main.modFw_bmcTid (m : Main) (c : Nat) (f : FwComp → FwComp) : (m.modFw c f).bmcTid = m.bmcTid := rfl

/-! ### modColl -/

@[simp] theorem Main.modColl_time (m : Main) (i : Nat) (f : CollRun → CollRun) : (m.modColl i f).time = m.time := rfl
@[simp] theorem Main.modColl_free (m : Main) (i : Nat) (f : CollRun → CollRun) : (m.modColl i f).free = m.free := rfl
@[simp] theorem Main.modColl_params (m : Main) (i : Nat) (f : CollRun → CollRun) : (m.modColl i f).params = m.params := rfl
@[simp] theorem Main.modColl_cores (m : Main) (i : Nat) (f : CollRun → CollRun) : (m.modColl i f).cores = m.cores := rfl
@[simp] theorem Main.modColl_mem (m : Main) (i : Nat) (f : CollRun → CollRun) : (m.modColl i f).mem = m.mem := rfl
@[simp] theorem Main.modColl_coh (m : Main) (i : Nat) (f : CollRun → CollRun) : (m.modColl i f).coh = m.coh := rfl
@[simp] theorem Main.modColl_l2 (m : Main) (i : Nat) (f : CollRun → CollRun) : (m.modColl i f).l2 = m.l2 := rfl
@[simp] theorem Main.modColl_objs (m : Main) (i : Nat) (f : CollRun → CollRun) : (m.modColl i f).objs = m.objs := rfl
@[simp] theorem Main.modColl_comp (m : Main) (i : Nat) (f : CollRun → CollRun) : (m.modColl i f).comp = m.comp := rfl
@[simp] theorem Main.modColl_fab (m : Main) (i : Nat) (f : CollRun → CollRun) : (m.modColl i f).fab = m.fab := rfl
@[simp] theorem Main.modColl_eng (m : Main) (i : Nat) (f : CollRun → CollRun) : (m.modColl i f).eng = m.eng := rfl
@[simp] theorem Main.modColl_colls (m : Main) (i : Nat) (f : CollRun → CollRun) : (m.modColl i f).colls = modNth m.colls i f := rfl
@[simp] theorem Main.modColl_collIds (m : Main) (i : Nat) (f : CollRun → CollRun) : (m.modColl i f).collIds = m.collIds := rfl
@[simp] theorem Main.modColl_early (m : Main) (i : Nat) (f : CollRun → CollRun) : (m.modColl i f).early = m.early := rfl
@[simp] theorem Main.modColl_host (m : Main) (i : Nat) (f : CollRun → CollRun) : (m.modColl i f).host = m.host := rfl
@[simp] theorem Main.modColl_elbor (m : Main) (i : Nat) (f : CollRun → CollRun) : (m.modColl i f).elbor = m.elbor := rfl
@[simp] theorem Main.modColl_rcv (m : Main) (i : Nat) (f : CollRun → CollRun) : (m.modColl i f).rcv = m.rcv := rfl
@[simp] theorem Main.modColl_sec (m : Main) (i : Nat) (f : CollRun → CollRun) : (m.modColl i f).sec = m.sec := rfl
@[simp] theorem Main.modColl_drills (m : Main) (i : Nat) (f : CollRun → CollRun) : (m.modColl i f).drills = m.drills := rfl
@[simp] theorem Main.modColl_hints (m : Main) (i : Nat) (f : CollRun → CollRun) : (m.modColl i f).hints = m.hints := rfl
@[simp] theorem Main.modColl_tele (m : Main) (i : Nat) (f : CollRun → CollRun) : (m.modColl i f).tele = m.tele := rfl
@[simp] theorem Main.modColl_eg (m : Main) (i : Nat) (f : CollRun → CollRun) : (m.modColl i f).eg = m.eg := rfl
@[simp] theorem Main.modColl_bmcOut (m : Main) (i : Nat) (f : CollRun → CollRun) : (m.modColl i f).bmcOut = m.bmcOut := rfl
@[simp] theorem Main.modColl_bmcReceiver (m : Main) (i : Nat) (f : CollRun → CollRun) : (m.modColl i f).bmcReceiver = m.bmcReceiver := rfl
@[simp] theorem Main.modColl_bmcEid (m : Main) (i : Nat) (f : CollRun → CollRun) : (m.modColl i f).bmcEid = m.bmcEid := rfl
@[simp] theorem Main.modColl_bmcTid (m : Main) (i : Nat) (f : CollRun → CollRun) : (m.modColl i f).bmcTid = m.bmcTid := rfl

/-! ### modEngine -/

@[simp] theorem Main.modEngine_time (m : Main) (e : Nat) (f : Engine → Engine) : (m.modEngine e f).time = m.time := rfl
@[simp] theorem Main.modEngine_free (m : Main) (e : Nat) (f : Engine → Engine) : (m.modEngine e f).free = m.free := rfl
@[simp] theorem Main.modEngine_params (m : Main) (e : Nat) (f : Engine → Engine) : (m.modEngine e f).params = m.params := rfl
@[simp] theorem Main.modEngine_cores (m : Main) (e : Nat) (f : Engine → Engine) : (m.modEngine e f).cores = m.cores := rfl
@[simp] theorem Main.modEngine_mem (m : Main) (e : Nat) (f : Engine → Engine) : (m.modEngine e f).mem = m.mem := rfl
@[simp] theorem Main.modEngine_coh (m : Main) (e : Nat) (f : Engine → Engine) : (m.modEngine e f).coh = m.coh := rfl
@[simp] theorem Main.modEngine_l2 (m : Main) (e : Nat) (f : Engine → Engine) : (m.modEngine e f).l2 = m.l2 := rfl
@[simp] theorem Main.modEngine_objs (m : Main) (e : Nat) (f : Engine → Engine) : (m.modEngine e f).objs = m.objs := rfl
@[simp] theorem Main.modEngine_comp (m : Main) (e : Nat) (f : Engine → Engine) : (m.modEngine e f).comp = m.comp := rfl
@[simp] theorem Main.modEngine_fab (m : Main) (e : Nat) (f : Engine → Engine) : (m.modEngine e f).fab = m.fab := rfl
@[simp] theorem Main.modEngine_eng (m : Main) (e : Nat) (f : Engine → Engine) : (m.modEngine e f).eng = modNth m.eng e f := rfl
@[simp] theorem Main.modEngine_colls (m : Main) (e : Nat) (f : Engine → Engine) : (m.modEngine e f).colls = m.colls := rfl
@[simp] theorem Main.modEngine_collIds (m : Main) (e : Nat) (f : Engine → Engine) : (m.modEngine e f).collIds = m.collIds := rfl
@[simp] theorem Main.modEngine_early (m : Main) (e : Nat) (f : Engine → Engine) : (m.modEngine e f).early = m.early := rfl
@[simp] theorem Main.modEngine_host (m : Main) (e : Nat) (f : Engine → Engine) : (m.modEngine e f).host = m.host := rfl
@[simp] theorem Main.modEngine_elbor (m : Main) (e : Nat) (f : Engine → Engine) : (m.modEngine e f).elbor = m.elbor := rfl
@[simp] theorem Main.modEngine_rcv (m : Main) (e : Nat) (f : Engine → Engine) : (m.modEngine e f).rcv = m.rcv := rfl
@[simp] theorem Main.modEngine_sec (m : Main) (e : Nat) (f : Engine → Engine) : (m.modEngine e f).sec = m.sec := rfl
@[simp] theorem Main.modEngine_drills (m : Main) (e : Nat) (f : Engine → Engine) : (m.modEngine e f).drills = m.drills := rfl
@[simp] theorem Main.modEngine_hints (m : Main) (e : Nat) (f : Engine → Engine) : (m.modEngine e f).hints = m.hints := rfl
@[simp] theorem Main.modEngine_tele (m : Main) (e : Nat) (f : Engine → Engine) : (m.modEngine e f).tele = m.tele := rfl
@[simp] theorem Main.modEngine_eg (m : Main) (e : Nat) (f : Engine → Engine) : (m.modEngine e f).eg = m.eg := rfl
@[simp] theorem Main.modEngine_bmcOut (m : Main) (e : Nat) (f : Engine → Engine) : (m.modEngine e f).bmcOut = m.bmcOut := rfl
@[simp] theorem Main.modEngine_bmcReceiver (m : Main) (e : Nat) (f : Engine → Engine) : (m.modEngine e f).bmcReceiver = m.bmcReceiver := rfl
@[simp] theorem Main.modEngine_bmcEid (m : Main) (e : Nat) (f : Engine → Engine) : (m.modEngine e f).bmcEid = m.bmcEid := rfl
@[simp] theorem Main.modEngine_bmcTid (m : Main) (e : Nat) (f : Engine → Engine) : (m.modEngine e f).bmcTid = m.bmcTid := rfl

/-! ### log -/

@[simp] theorem Main.log_time (m : Main) (w : LogWhat) : (m.log w).time = m.time := rfl
@[simp] theorem Main.log_free (m : Main) (w : LogWhat) : (m.log w).free = m.free := rfl
@[simp] theorem Main.log_params (m : Main) (w : LogWhat) : (m.log w).params = m.params := rfl
@[simp] theorem Main.log_cores (m : Main) (w : LogWhat) : (m.log w).cores = m.cores := rfl
@[simp] theorem Main.log_mem (m : Main) (w : LogWhat) : (m.log w).mem = m.mem := rfl
@[simp] theorem Main.log_coh (m : Main) (w : LogWhat) : (m.log w).coh = m.coh := rfl
@[simp] theorem Main.log_l2 (m : Main) (w : LogWhat) : (m.log w).l2 = m.l2 := rfl
@[simp] theorem Main.log_objs (m : Main) (w : LogWhat) : (m.log w).objs = m.objs := rfl
@[simp] theorem Main.log_comp (m : Main) (w : LogWhat) : (m.log w).comp = m.comp := rfl
@[simp] theorem Main.log_fab (m : Main) (w : LogWhat) : (m.log w).fab = m.fab := rfl
@[simp] theorem Main.log_eng (m : Main) (w : LogWhat) : (m.log w).eng = m.eng := rfl
@[simp] theorem Main.log_colls (m : Main) (w : LogWhat) : (m.log w).colls = m.colls := rfl
@[simp] theorem Main.log_collIds (m : Main) (w : LogWhat) : (m.log w).collIds = m.collIds := rfl
@[simp] theorem Main.log_early (m : Main) (w : LogWhat) : (m.log w).early = m.early := rfl
@[simp] theorem Main.log_host (m : Main) (w : LogWhat) : (m.log w).host = m.host := rfl
@[simp] theorem Main.log_elbor (m : Main) (w : LogWhat) : (m.log w).elbor = m.elbor := rfl
@[simp] theorem Main.log_rcv (m : Main) (w : LogWhat) : (m.log w).rcv = { m.rcv with log := m.rcv.log ++ [{ time := m.time, what := w }] } := rfl
@[simp] theorem Main.log_sec (m : Main) (w : LogWhat) : (m.log w).sec = m.sec := rfl
@[simp] theorem Main.log_drills (m : Main) (w : LogWhat) : (m.log w).drills = m.drills := rfl
@[simp] theorem Main.log_hints (m : Main) (w : LogWhat) : (m.log w).hints = m.hints := rfl
@[simp] theorem Main.log_tele (m : Main) (w : LogWhat) : (m.log w).tele = m.tele := rfl
@[simp] theorem Main.log_eg (m : Main) (w : LogWhat) : (m.log w).eg = m.eg := rfl
@[simp] theorem Main.log_bmcOut (m : Main) (w : LogWhat) : (m.log w).bmcOut = m.bmcOut := rfl
@[simp] theorem Main.log_bmcReceiver (m : Main) (w : LogWhat) : (m.log w).bmcReceiver = m.bmcReceiver := rfl
@[simp] theorem Main.log_bmcEid (m : Main) (w : LogWhat) : (m.log w).bmcEid = m.bmcEid := rfl
@[simp] theorem Main.log_bmcTid (m : Main) (w : LogWhat) : (m.log w).bmcTid = m.bmcTid := rfl

/-! ### aerLog -/

@[simp] theorem Main.aerLog_time (m : Main) (k : AerKind) (fn : Fn) (a : Nat) : (m.aerLog k fn a).time = m.time := rfl
@[simp] theorem Main.aerLog_params (m : Main) (k : AerKind) (fn : Fn) (a : Nat) : (m.aerLog k fn a).params = m.params := rfl
@[simp] theorem Main.aerLog_cores (m : Main) (k : AerKind) (fn : Fn) (a : Nat) : (m.aerLog k fn a).cores = m.cores := rfl
@[simp] theorem Main.aerLog_mem (m : Main) (k : AerKind) (fn : Fn) (a : Nat) : (m.aerLog k fn a).mem = m.mem := rfl
@[simp] theorem Main.aerLog_coh (m : Main) (k : AerKind) (fn : Fn) (a : Nat) : (m.aerLog k fn a).coh = m.coh := rfl
@[simp] theorem Main.aerLog_l2 (m : Main) (k : AerKind) (fn : Fn) (a : Nat) : (m.aerLog k fn a).l2 = m.l2 := rfl
@[simp] theorem Main.aerLog_objs (m : Main) (k : AerKind) (fn : Fn) (a : Nat) : (m.aerLog k fn a).objs = m.objs := rfl
@[simp] theorem Main.aerLog_comp (m : Main) (k : AerKind) (fn : Fn) (a : Nat) : (m.aerLog k fn a).comp = m.comp := rfl
@[simp] theorem Main.aerLog_fab (m : Main) (k : AerKind) (fn : Fn) (a : Nat) : (m.aerLog k fn a).fab = m.fab := rfl
@[simp] theorem Main.aerLog_eng (m : Main) (k : AerKind) (fn : Fn) (a : Nat) : (m.aerLog k fn a).eng = m.eng := rfl
@[simp] theorem Main.aerLog_colls (m : Main) (k : AerKind) (fn : Fn) (a : Nat) : (m.aerLog k fn a).colls = m.colls := rfl
@[simp] theorem Main.aerLog_collIds (m : Main) (k : AerKind) (fn : Fn) (a : Nat) : (m.aerLog k fn a).collIds = m.collIds := rfl
@[simp] theorem Main.aerLog_early (m : Main) (k : AerKind) (fn : Fn) (a : Nat) : (m.aerLog k fn a).early = m.early := rfl
@[simp] theorem Main.aerLog_elbor (m : Main) (k : AerKind) (fn : Fn) (a : Nat) : (m.aerLog k fn a).elbor = m.elbor := rfl
@[simp] theorem Main.aerLog_rcv (m : Main) (k : AerKind) (fn : Fn) (a : Nat) : (m.aerLog k fn a).rcv = m.rcv := rfl
@[simp] theorem Main.aerLog_sec (m : Main) (k : AerKind) (fn : Fn) (a : Nat) : (m.aerLog k fn a).sec = m.sec := rfl
@[simp] theorem Main.aerLog_drills (m : Main) (k : AerKind) (fn : Fn) (a : Nat) : (m.aerLog k fn a).drills = m.drills := rfl
@[simp] theorem Main.aerLog_hints (m : Main) (k : AerKind) (fn : Fn) (a : Nat) : (m.aerLog k fn a).hints = m.hints := rfl
@[simp] theorem Main.aerLog_tele (m : Main) (k : AerKind) (fn : Fn) (a : Nat) : (m.aerLog k fn a).tele = m.tele := rfl
@[simp] theorem Main.aerLog_eg (m : Main) (k : AerKind) (fn : Fn) (a : Nat) : (m.aerLog k fn a).eg = m.eg := rfl
@[simp] theorem Main.aerLog_bmcOut (m : Main) (k : AerKind) (fn : Fn) (a : Nat) : (m.aerLog k fn a).bmcOut = m.bmcOut := rfl
@[simp] theorem Main.aerLog_bmcReceiver (m : Main) (k : AerKind) (fn : Fn) (a : Nat) : (m.aerLog k fn a).bmcReceiver = m.bmcReceiver := rfl
@[simp] theorem Main.aerLog_bmcEid (m : Main) (k : AerKind) (fn : Fn) (a : Nat) : (m.aerLog k fn a).bmcEid = m.bmcEid := rfl
@[simp] theorem Main.aerLog_bmcTid (m : Main) (k : AerKind) (fn : Fn) (a : Nat) : (m.aerLog k fn a).bmcTid = m.bmcTid := rfl

/-! ### waitHome -/

@[simp] theorem Main.waitHome_time (m : Main) (r : HomeReq) : (m.waitHome r).time = m.time := rfl
@[simp] theorem Main.waitHome_free (m : Main) (r : HomeReq) : (m.waitHome r).free = m.free := rfl
@[simp] theorem Main.waitHome_params (m : Main) (r : HomeReq) : (m.waitHome r).params = m.params := rfl
@[simp] theorem Main.waitHome_cores (m : Main) (r : HomeReq) : (m.waitHome r).cores = m.cores := rfl
@[simp] theorem Main.waitHome_mem (m : Main) (r : HomeReq) : (m.waitHome r).mem = m.mem := rfl
@[simp] theorem Main.waitHome_l2 (m : Main) (r : HomeReq) : (m.waitHome r).l2 = m.l2 := rfl
@[simp] theorem Main.waitHome_objs (m : Main) (r : HomeReq) : (m.waitHome r).objs = m.objs := rfl
@[simp] theorem Main.waitHome_comp (m : Main) (r : HomeReq) : (m.waitHome r).comp = m.comp := rfl
@[simp] theorem Main.waitHome_fab (m : Main) (r : HomeReq) : (m.waitHome r).fab = m.fab := rfl
@[simp] theorem Main.waitHome_eng (m : Main) (r : HomeReq) : (m.waitHome r).eng = m.eng := rfl
@[simp] theorem Main.waitHome_colls (m : Main) (r : HomeReq) : (m.waitHome r).colls = m.colls := rfl
@[simp] theorem Main.waitHome_collIds (m : Main) (r : HomeReq) : (m.waitHome r).collIds = m.collIds := rfl
@[simp] theorem Main.waitHome_early (m : Main) (r : HomeReq) : (m.waitHome r).early = m.early := rfl
@[simp] theorem Main.waitHome_host (m : Main) (r : HomeReq) : (m.waitHome r).host = m.host := rfl
@[simp] theorem Main.waitHome_elbor (m : Main) (r : HomeReq) : (m.waitHome r).elbor = m.elbor := rfl
@[simp] theorem Main.waitHome_rcv (m : Main) (r : HomeReq) : (m.waitHome r).rcv = m.rcv := rfl
@[simp] theorem Main.waitHome_sec (m : Main) (r : HomeReq) : (m.waitHome r).sec = m.sec := rfl
@[simp] theorem Main.waitHome_drills (m : Main) (r : HomeReq) : (m.waitHome r).drills = m.drills := rfl
@[simp] theorem Main.waitHome_hints (m : Main) (r : HomeReq) : (m.waitHome r).hints = m.hints := rfl
@[simp] theorem Main.waitHome_tele (m : Main) (r : HomeReq) : (m.waitHome r).tele = m.tele := rfl
@[simp] theorem Main.waitHome_eg (m : Main) (r : HomeReq) : (m.waitHome r).eg = m.eg := rfl
@[simp] theorem Main.waitHome_bmcOut (m : Main) (r : HomeReq) : (m.waitHome r).bmcOut = m.bmcOut := rfl
@[simp] theorem Main.waitHome_bmcReceiver (m : Main) (r : HomeReq) : (m.waitHome r).bmcReceiver = m.bmcReceiver := rfl
@[simp] theorem Main.waitHome_bmcEid (m : Main) (r : HomeReq) : (m.waitHome r).bmcEid = m.bmcEid := rfl
@[simp] theorem Main.waitHome_bmcTid (m : Main) (r : HomeReq) : (m.waitHome r).bmcTid = m.bmcTid := rfl

/-! ### settleBusy -/

@[simp] theorem Main.settleBusy_time (m : Main) (l : Nat) : (m.settleBusy l).time = m.time := rfl
@[simp] theorem Main.settleBusy_free (m : Main) (l : Nat) : (m.settleBusy l).free = m.free := rfl
@[simp] theorem Main.settleBusy_params (m : Main) (l : Nat) : (m.settleBusy l).params = m.params := rfl
@[simp] theorem Main.settleBusy_cores (m : Main) (l : Nat) : (m.settleBusy l).cores = m.cores := rfl
@[simp] theorem Main.settleBusy_mem (m : Main) (l : Nat) : (m.settleBusy l).mem = m.mem := rfl
@[simp] theorem Main.settleBusy_l2 (m : Main) (l : Nat) : (m.settleBusy l).l2 = m.l2 := rfl
@[simp] theorem Main.settleBusy_objs (m : Main) (l : Nat) : (m.settleBusy l).objs = m.objs := rfl
@[simp] theorem Main.settleBusy_comp (m : Main) (l : Nat) : (m.settleBusy l).comp = m.comp := rfl
@[simp] theorem Main.settleBusy_fab (m : Main) (l : Nat) : (m.settleBusy l).fab = m.fab := rfl
@[simp] theorem Main.settleBusy_eng (m : Main) (l : Nat) : (m.settleBusy l).eng = m.eng := rfl
@[simp] theorem Main.settleBusy_colls (m : Main) (l : Nat) : (m.settleBusy l).colls = m.colls := rfl
@[simp] theorem Main.settleBusy_collIds (m : Main) (l : Nat) : (m.settleBusy l).collIds = m.collIds := rfl
@[simp] theorem Main.settleBusy_early (m : Main) (l : Nat) : (m.settleBusy l).early = m.early := rfl
@[simp] theorem Main.settleBusy_host (m : Main) (l : Nat) : (m.settleBusy l).host = m.host := rfl
@[simp] theorem Main.settleBusy_elbor (m : Main) (l : Nat) : (m.settleBusy l).elbor = m.elbor := rfl
@[simp] theorem Main.settleBusy_rcv (m : Main) (l : Nat) : (m.settleBusy l).rcv = m.rcv := rfl
@[simp] theorem Main.settleBusy_sec (m : Main) (l : Nat) : (m.settleBusy l).sec = m.sec := rfl
@[simp] theorem Main.settleBusy_drills (m : Main) (l : Nat) : (m.settleBusy l).drills = m.drills := rfl
@[simp] theorem Main.settleBusy_hints (m : Main) (l : Nat) : (m.settleBusy l).hints = m.hints := rfl
@[simp] theorem Main.settleBusy_tele (m : Main) (l : Nat) : (m.settleBusy l).tele = m.tele := rfl
@[simp] theorem Main.settleBusy_eg (m : Main) (l : Nat) : (m.settleBusy l).eg = m.eg := rfl
@[simp] theorem Main.settleBusy_bmcOut (m : Main) (l : Nat) : (m.settleBusy l).bmcOut = m.bmcOut := rfl
@[simp] theorem Main.settleBusy_bmcReceiver (m : Main) (l : Nat) : (m.settleBusy l).bmcReceiver = m.bmcReceiver := rfl
@[simp] theorem Main.settleBusy_bmcEid (m : Main) (l : Nat) : (m.settleBusy l).bmcEid = m.bmcEid := rfl
@[simp] theorem Main.settleBusy_bmcTid (m : Main) (l : Nat) : (m.settleBusy l).bmcTid = m.bmcTid := rfl

/-! ### dropGroups -/

@[simp] theorem Main.dropGroups_time (m : Main) (g : WorkGroup → Bool) : (m.dropGroups g).time = m.time := rfl
@[simp] theorem Main.dropGroups_free (m : Main) (g : WorkGroup → Bool) : (m.dropGroups g).free = m.free := rfl
@[simp] theorem Main.dropGroups_params (m : Main) (g : WorkGroup → Bool) : (m.dropGroups g).params = m.params := rfl
@[simp] theorem Main.dropGroups_mem (m : Main) (g : WorkGroup → Bool) : (m.dropGroups g).mem = m.mem := rfl
@[simp] theorem Main.dropGroups_coh (m : Main) (g : WorkGroup → Bool) : (m.dropGroups g).coh = m.coh := rfl
@[simp] theorem Main.dropGroups_l2 (m : Main) (g : WorkGroup → Bool) : (m.dropGroups g).l2 = m.l2 := rfl
@[simp] theorem Main.dropGroups_objs (m : Main) (g : WorkGroup → Bool) : (m.dropGroups g).objs = m.objs := rfl
@[simp] theorem Main.dropGroups_comp (m : Main) (g : WorkGroup → Bool) : (m.dropGroups g).comp = m.comp := rfl
@[simp] theorem Main.dropGroups_fab (m : Main) (g : WorkGroup → Bool) : (m.dropGroups g).fab = m.fab := rfl
@[simp] theorem Main.dropGroups_eng (m : Main) (g : WorkGroup → Bool) : (m.dropGroups g).eng = m.eng := rfl
@[simp] theorem Main.dropGroups_colls (m : Main) (g : WorkGroup → Bool) : (m.dropGroups g).colls = m.colls := rfl
@[simp] theorem Main.dropGroups_collIds (m : Main) (g : WorkGroup → Bool) : (m.dropGroups g).collIds = m.collIds := rfl
@[simp] theorem Main.dropGroups_early (m : Main) (g : WorkGroup → Bool) : (m.dropGroups g).early = m.early := rfl
@[simp] theorem Main.dropGroups_host (m : Main) (g : WorkGroup → Bool) : (m.dropGroups g).host = m.host := rfl
@[simp] theorem Main.dropGroups_elbor (m : Main) (g : WorkGroup → Bool) : (m.dropGroups g).elbor = m.elbor := rfl
@[simp] theorem Main.dropGroups_rcv (m : Main) (g : WorkGroup → Bool) : (m.dropGroups g).rcv = m.rcv := rfl
@[simp] theorem Main.dropGroups_sec (m : Main) (g : WorkGroup → Bool) : (m.dropGroups g).sec = m.sec := rfl
@[simp] theorem Main.dropGroups_drills (m : Main) (g : WorkGroup → Bool) : (m.dropGroups g).drills = m.drills := rfl
@[simp] theorem Main.dropGroups_hints (m : Main) (g : WorkGroup → Bool) : (m.dropGroups g).hints = m.hints := rfl
@[simp] theorem Main.dropGroups_tele (m : Main) (g : WorkGroup → Bool) : (m.dropGroups g).tele = m.tele := rfl
@[simp] theorem Main.dropGroups_eg (m : Main) (g : WorkGroup → Bool) : (m.dropGroups g).eg = m.eg := rfl
@[simp] theorem Main.dropGroups_bmcOut (m : Main) (g : WorkGroup → Bool) : (m.dropGroups g).bmcOut = m.bmcOut := rfl
@[simp] theorem Main.dropGroups_bmcReceiver (m : Main) (g : WorkGroup → Bool) : (m.dropGroups g).bmcReceiver = m.bmcReceiver := rfl
@[simp] theorem Main.dropGroups_bmcEid (m : Main) (g : WorkGroup → Bool) : (m.dropGroups g).bmcEid = m.bmcEid := rfl
@[simp] theorem Main.dropGroups_bmcTid (m : Main) (g : WorkGroup → Bool) : (m.dropGroups g).bmcTid = m.bmcTid := rfl

/-! ### windowDone -/

@[simp] theorem Main.windowDone_time (m : Main) (fn : Fn) (off : Nat) (st : WinSt) (d : List Byte) (ep : Bool) : (m.windowDone fn off st d ep).time = m.time := rfl
@[simp] theorem Main.windowDone_free (m : Main) (fn : Fn) (off : Nat) (st : WinSt) (d : List Byte) (ep : Bool) : (m.windowDone fn off st d ep).free = m.free := rfl
@[simp] theorem Main.windowDone_params (m : Main) (fn : Fn) (off : Nat) (st : WinSt) (d : List Byte) (ep : Bool) : (m.windowDone fn off st d ep).params = m.params := rfl
@[simp] theorem Main.windowDone_cores (m : Main) (fn : Fn) (off : Nat) (st : WinSt) (d : List Byte) (ep : Bool) : (m.windowDone fn off st d ep).cores = m.cores := rfl
@[simp] theorem Main.windowDone_mem (m : Main) (fn : Fn) (off : Nat) (st : WinSt) (d : List Byte) (ep : Bool) : (m.windowDone fn off st d ep).mem = m.mem := rfl
@[simp] theorem Main.windowDone_coh (m : Main) (fn : Fn) (off : Nat) (st : WinSt) (d : List Byte) (ep : Bool) : (m.windowDone fn off st d ep).coh = m.coh := rfl
@[simp] theorem Main.windowDone_l2 (m : Main) (fn : Fn) (off : Nat) (st : WinSt) (d : List Byte) (ep : Bool) : (m.windowDone fn off st d ep).l2 = m.l2 := rfl
@[simp] theorem Main.windowDone_objs (m : Main) (fn : Fn) (off : Nat) (st : WinSt) (d : List Byte) (ep : Bool) : (m.windowDone fn off st d ep).objs = m.objs := rfl
@[simp] theorem Main.windowDone_comp (m : Main) (fn : Fn) (off : Nat) (st : WinSt) (d : List Byte) (ep : Bool) : (m.windowDone fn off st d ep).comp = m.comp := rfl
@[simp] theorem Main.windowDone_fab (m : Main) (fn : Fn) (off : Nat) (st : WinSt) (d : List Byte) (ep : Bool) : (m.windowDone fn off st d ep).fab = m.fab := rfl
@[simp] theorem Main.windowDone_eng (m : Main) (fn : Fn) (off : Nat) (st : WinSt) (d : List Byte) (ep : Bool) : (m.windowDone fn off st d ep).eng = m.eng := rfl
@[simp] theorem Main.windowDone_colls (m : Main) (fn : Fn) (off : Nat) (st : WinSt) (d : List Byte) (ep : Bool) : (m.windowDone fn off st d ep).colls = m.colls := rfl
@[simp] theorem Main.windowDone_collIds (m : Main) (fn : Fn) (off : Nat) (st : WinSt) (d : List Byte) (ep : Bool) : (m.windowDone fn off st d ep).collIds = m.collIds := rfl
@[simp] theorem Main.windowDone_early (m : Main) (fn : Fn) (off : Nat) (st : WinSt) (d : List Byte) (ep : Bool) : (m.windowDone fn off st d ep).early = m.early := rfl
@[simp] theorem Main.windowDone_elbor (m : Main) (fn : Fn) (off : Nat) (st : WinSt) (d : List Byte) (ep : Bool) : (m.windowDone fn off st d ep).elbor = m.elbor := rfl
@[simp] theorem Main.windowDone_rcv (m : Main) (fn : Fn) (off : Nat) (st : WinSt) (d : List Byte) (ep : Bool) : (m.windowDone fn off st d ep).rcv = m.rcv := rfl
@[simp] theorem Main.windowDone_sec (m : Main) (fn : Fn) (off : Nat) (st : WinSt) (d : List Byte) (ep : Bool) : (m.windowDone fn off st d ep).sec = m.sec := rfl
@[simp] theorem Main.windowDone_drills (m : Main) (fn : Fn) (off : Nat) (st : WinSt) (d : List Byte) (ep : Bool) : (m.windowDone fn off st d ep).drills = m.drills := rfl
@[simp] theorem Main.windowDone_hints (m : Main) (fn : Fn) (off : Nat) (st : WinSt) (d : List Byte) (ep : Bool) : (m.windowDone fn off st d ep).hints = m.hints := rfl
@[simp] theorem Main.windowDone_tele (m : Main) (fn : Fn) (off : Nat) (st : WinSt) (d : List Byte) (ep : Bool) : (m.windowDone fn off st d ep).tele = m.tele := rfl
@[simp] theorem Main.windowDone_eg (m : Main) (fn : Fn) (off : Nat) (st : WinSt) (d : List Byte) (ep : Bool) : (m.windowDone fn off st d ep).eg = m.eg := rfl
@[simp] theorem Main.windowDone_bmcOut (m : Main) (fn : Fn) (off : Nat) (st : WinSt) (d : List Byte) (ep : Bool) : (m.windowDone fn off st d ep).bmcOut = m.bmcOut := rfl
@[simp] theorem Main.windowDone_bmcReceiver (m : Main) (fn : Fn) (off : Nat) (st : WinSt) (d : List Byte) (ep : Bool) : (m.windowDone fn off st d ep).bmcReceiver = m.bmcReceiver := rfl
@[simp] theorem Main.windowDone_bmcEid (m : Main) (fn : Fn) (off : Nat) (st : WinSt) (d : List Byte) (ep : Bool) : (m.windowDone fn off st d ep).bmcEid = m.bmcEid := rfl
@[simp] theorem Main.windowDone_bmcTid (m : Main) (fn : Fn) (off : Nat) (st : WinSt) (d : List Byte) (ep : Bool) : (m.windowDone fn off st d ep).bmcTid = m.bmcTid := rfl

/-! ### holdPacket -/

@[simp] theorem Main.holdPacket_time (m : Main) (q : QRef) (p : Packet) : (m.holdPacket q p).time = m.time := rfl
@[simp] theorem Main.holdPacket_free (m : Main) (q : QRef) (p : Packet) : (m.holdPacket q p).free = m.free := rfl
@[simp] theorem Main.holdPacket_params (m : Main) (q : QRef) (p : Packet) : (m.holdPacket q p).params = m.params := rfl
@[simp] theorem Main.holdPacket_cores (m : Main) (q : QRef) (p : Packet) : (m.holdPacket q p).cores = m.cores := rfl
@[simp] theorem Main.holdPacket_mem (m : Main) (q : QRef) (p : Packet) : (m.holdPacket q p).mem = m.mem := rfl
@[simp] theorem Main.holdPacket_coh (m : Main) (q : QRef) (p : Packet) : (m.holdPacket q p).coh = m.coh := rfl
@[simp] theorem Main.holdPacket_l2 (m : Main) (q : QRef) (p : Packet) : (m.holdPacket q p).l2 = m.l2 := rfl
@[simp] theorem Main.holdPacket_comp (m : Main) (q : QRef) (p : Packet) : (m.holdPacket q p).comp = m.comp := rfl
@[simp] theorem Main.holdPacket_fab (m : Main) (q : QRef) (p : Packet) : (m.holdPacket q p).fab = m.fab := rfl
@[simp] theorem Main.holdPacket_eng (m : Main) (q : QRef) (p : Packet) : (m.holdPacket q p).eng = m.eng := rfl
@[simp] theorem Main.holdPacket_colls (m : Main) (q : QRef) (p : Packet) : (m.holdPacket q p).colls = m.colls := rfl
@[simp] theorem Main.holdPacket_collIds (m : Main) (q : QRef) (p : Packet) : (m.holdPacket q p).collIds = m.collIds := rfl
@[simp] theorem Main.holdPacket_early (m : Main) (q : QRef) (p : Packet) : (m.holdPacket q p).early = m.early := rfl
@[simp] theorem Main.holdPacket_host (m : Main) (q : QRef) (p : Packet) : (m.holdPacket q p).host = m.host := rfl
@[simp] theorem Main.holdPacket_elbor (m : Main) (q : QRef) (p : Packet) : (m.holdPacket q p).elbor = m.elbor := rfl
@[simp] theorem Main.holdPacket_rcv (m : Main) (q : QRef) (p : Packet) : (m.holdPacket q p).rcv = m.rcv := rfl
@[simp] theorem Main.holdPacket_sec (m : Main) (q : QRef) (p : Packet) : (m.holdPacket q p).sec = m.sec := rfl
@[simp] theorem Main.holdPacket_drills (m : Main) (q : QRef) (p : Packet) : (m.holdPacket q p).drills = m.drills := rfl
@[simp] theorem Main.holdPacket_hints (m : Main) (q : QRef) (p : Packet) : (m.holdPacket q p).hints = m.hints := rfl
@[simp] theorem Main.holdPacket_tele (m : Main) (q : QRef) (p : Packet) : (m.holdPacket q p).tele = m.tele := rfl
@[simp] theorem Main.holdPacket_eg (m : Main) (q : QRef) (p : Packet) : (m.holdPacket q p).eg = m.eg := rfl
@[simp] theorem Main.holdPacket_bmcOut (m : Main) (q : QRef) (p : Packet) : (m.holdPacket q p).bmcOut = m.bmcOut := rfl
@[simp] theorem Main.holdPacket_bmcReceiver (m : Main) (q : QRef) (p : Packet) : (m.holdPacket q p).bmcReceiver = m.bmcReceiver := rfl
@[simp] theorem Main.holdPacket_bmcEid (m : Main) (q : QRef) (p : Packet) : (m.holdPacket q p).bmcEid = m.bmcEid := rfl
@[simp] theorem Main.holdPacket_bmcTid (m : Main) (q : QRef) (p : Packet) : (m.holdPacket q p).bmcTid = m.bmcTid := rfl

/-! ### modPut -/

@[simp] theorem Main.modPut_time (m : Main) (n : Nat) (f : HostPut → HostPut) : (m.modPut n f).time = m.time := rfl
@[simp] theorem Main.modPut_free (m : Main) (n : Nat) (f : HostPut → HostPut) : (m.modPut n f).free = m.free := rfl
@[simp] theorem Main.modPut_params (m : Main) (n : Nat) (f : HostPut → HostPut) : (m.modPut n f).params = m.params := rfl
@[simp] theorem Main.modPut_cores (m : Main) (n : Nat) (f : HostPut → HostPut) : (m.modPut n f).cores = m.cores := rfl
@[simp] theorem Main.modPut_mem (m : Main) (n : Nat) (f : HostPut → HostPut) : (m.modPut n f).mem = m.mem := rfl
@[simp] theorem Main.modPut_coh (m : Main) (n : Nat) (f : HostPut → HostPut) : (m.modPut n f).coh = m.coh := rfl
@[simp] theorem Main.modPut_l2 (m : Main) (n : Nat) (f : HostPut → HostPut) : (m.modPut n f).l2 = m.l2 := rfl
@[simp] theorem Main.modPut_objs (m : Main) (n : Nat) (f : HostPut → HostPut) : (m.modPut n f).objs = m.objs := rfl
@[simp] theorem Main.modPut_comp (m : Main) (n : Nat) (f : HostPut → HostPut) : (m.modPut n f).comp = m.comp := rfl
@[simp] theorem Main.modPut_fab (m : Main) (n : Nat) (f : HostPut → HostPut) : (m.modPut n f).fab = m.fab := rfl
@[simp] theorem Main.modPut_eng (m : Main) (n : Nat) (f : HostPut → HostPut) : (m.modPut n f).eng = m.eng := rfl
@[simp] theorem Main.modPut_colls (m : Main) (n : Nat) (f : HostPut → HostPut) : (m.modPut n f).colls = m.colls := rfl
@[simp] theorem Main.modPut_collIds (m : Main) (n : Nat) (f : HostPut → HostPut) : (m.modPut n f).collIds = m.collIds := rfl
@[simp] theorem Main.modPut_early (m : Main) (n : Nat) (f : HostPut → HostPut) : (m.modPut n f).early = m.early := rfl
@[simp] theorem Main.modPut_host (m : Main) (n : Nat) (f : HostPut → HostPut) : (m.modPut n f).host = { m.host with puts := modWhere m.host.puts (fun p => p.num == n) f } := rfl
@[simp] theorem Main.modPut_elbor (m : Main) (n : Nat) (f : HostPut → HostPut) : (m.modPut n f).elbor = m.elbor := rfl
@[simp] theorem Main.modPut_rcv (m : Main) (n : Nat) (f : HostPut → HostPut) : (m.modPut n f).rcv = m.rcv := rfl
@[simp] theorem Main.modPut_sec (m : Main) (n : Nat) (f : HostPut → HostPut) : (m.modPut n f).sec = m.sec := rfl
@[simp] theorem Main.modPut_drills (m : Main) (n : Nat) (f : HostPut → HostPut) : (m.modPut n f).drills = m.drills := rfl
@[simp] theorem Main.modPut_hints (m : Main) (n : Nat) (f : HostPut → HostPut) : (m.modPut n f).hints = m.hints := rfl
@[simp] theorem Main.modPut_tele (m : Main) (n : Nat) (f : HostPut → HostPut) : (m.modPut n f).tele = m.tele := rfl
@[simp] theorem Main.modPut_eg (m : Main) (n : Nat) (f : HostPut → HostPut) : (m.modPut n f).eg = m.eg := rfl
@[simp] theorem Main.modPut_bmcOut (m : Main) (n : Nat) (f : HostPut → HostPut) : (m.modPut n f).bmcOut = m.bmcOut := rfl
@[simp] theorem Main.modPut_bmcReceiver (m : Main) (n : Nat) (f : HostPut → HostPut) : (m.modPut n f).bmcReceiver = m.bmcReceiver := rfl
@[simp] theorem Main.modPut_bmcEid (m : Main) (n : Nat) (f : HostPut → HostPut) : (m.modPut n f).bmcEid = m.bmcEid := rfl
@[simp] theorem Main.modPut_bmcTid (m : Main) (n : Nat) (f : HostPut → HostPut) : (m.modPut n f).bmcTid = m.bmcTid := rfl

/-! ### modPort -/

@[simp] theorem Main.modPort_time (m : Main) (p : Nat) (f : Port → Port) : (m.modPort p f).time = m.time := rfl
@[simp] theorem Main.modPort_free (m : Main) (p : Nat) (f : Port → Port) : (m.modPort p f).free = m.free := rfl
@[simp] theorem Main.modPort_params (m : Main) (p : Nat) (f : Port → Port) : (m.modPort p f).params = m.params := rfl
@[simp] theorem Main.modPort_cores (m : Main) (p : Nat) (f : Port → Port) : (m.modPort p f).cores = m.cores := rfl
@[simp] theorem Main.modPort_mem (m : Main) (p : Nat) (f : Port → Port) : (m.modPort p f).mem = m.mem := rfl
@[simp] theorem Main.modPort_coh (m : Main) (p : Nat) (f : Port → Port) : (m.modPort p f).coh = m.coh := rfl
@[simp] theorem Main.modPort_l2 (m : Main) (p : Nat) (f : Port → Port) : (m.modPort p f).l2 = m.l2 := rfl
@[simp] theorem Main.modPort_objs (m : Main) (p : Nat) (f : Port → Port) : (m.modPort p f).objs = m.objs := rfl
@[simp] theorem Main.modPort_comp (m : Main) (p : Nat) (f : Port → Port) : (m.modPort p f).comp = m.comp := rfl
@[simp] theorem Main.modPort_fab (m : Main) (p : Nat) (f : Port → Port) : (m.modPort p f).fab = m.fab := rfl
@[simp] theorem Main.modPort_eng (m : Main) (p : Nat) (f : Port → Port) : (m.modPort p f).eng = m.eng := rfl
@[simp] theorem Main.modPort_colls (m : Main) (p : Nat) (f : Port → Port) : (m.modPort p f).colls = m.colls := rfl
@[simp] theorem Main.modPort_collIds (m : Main) (p : Nat) (f : Port → Port) : (m.modPort p f).collIds = m.collIds := rfl
@[simp] theorem Main.modPort_early (m : Main) (p : Nat) (f : Port → Port) : (m.modPort p f).early = m.early := rfl
@[simp] theorem Main.modPort_host (m : Main) (p : Nat) (f : Port → Port) : (m.modPort p f).host = { m.host with ports := modNth m.host.ports p f } := rfl
@[simp] theorem Main.modPort_elbor (m : Main) (p : Nat) (f : Port → Port) : (m.modPort p f).elbor = m.elbor := rfl
@[simp] theorem Main.modPort_rcv (m : Main) (p : Nat) (f : Port → Port) : (m.modPort p f).rcv = m.rcv := rfl
@[simp] theorem Main.modPort_sec (m : Main) (p : Nat) (f : Port → Port) : (m.modPort p f).sec = m.sec := rfl
@[simp] theorem Main.modPort_drills (m : Main) (p : Nat) (f : Port → Port) : (m.modPort p f).drills = m.drills := rfl
@[simp] theorem Main.modPort_hints (m : Main) (p : Nat) (f : Port → Port) : (m.modPort p f).hints = m.hints := rfl
@[simp] theorem Main.modPort_tele (m : Main) (p : Nat) (f : Port → Port) : (m.modPort p f).tele = m.tele := rfl
@[simp] theorem Main.modPort_eg (m : Main) (p : Nat) (f : Port → Port) : (m.modPort p f).eg = m.eg := rfl
@[simp] theorem Main.modPort_bmcOut (m : Main) (p : Nat) (f : Port → Port) : (m.modPort p f).bmcOut = m.bmcOut := rfl
@[simp] theorem Main.modPort_bmcReceiver (m : Main) (p : Nat) (f : Port → Port) : (m.modPort p f).bmcReceiver = m.bmcReceiver := rfl
@[simp] theorem Main.modPort_bmcEid (m : Main) (p : Nat) (f : Port → Port) : (m.modPort p f).bmcEid = m.bmcEid := rfl
@[simp] theorem Main.modPort_bmcTid (m : Main) (p : Nat) (f : Port → Port) : (m.modPort p f).bmcTid = m.bmcTid := rfl

/-! ### mctpSend -/

@[simp] theorem Main.mctpSend_time (m : Main) (eid tag : Nat) (own : Bool) (msg : List Byte) : (m.mctpSend eid tag own msg).time = m.time := rfl
@[simp] theorem Main.mctpSend_free (m : Main) (eid tag : Nat) (own : Bool) (msg : List Byte) : (m.mctpSend eid tag own msg).free = m.free := rfl
@[simp] theorem Main.mctpSend_params (m : Main) (eid tag : Nat) (own : Bool) (msg : List Byte) : (m.mctpSend eid tag own msg).params = m.params := rfl
@[simp] theorem Main.mctpSend_cores (m : Main) (eid tag : Nat) (own : Bool) (msg : List Byte) : (m.mctpSend eid tag own msg).cores = m.cores := rfl
@[simp] theorem Main.mctpSend_mem (m : Main) (eid tag : Nat) (own : Bool) (msg : List Byte) : (m.mctpSend eid tag own msg).mem = m.mem := rfl
@[simp] theorem Main.mctpSend_coh (m : Main) (eid tag : Nat) (own : Bool) (msg : List Byte) : (m.mctpSend eid tag own msg).coh = m.coh := rfl
@[simp] theorem Main.mctpSend_l2 (m : Main) (eid tag : Nat) (own : Bool) (msg : List Byte) : (m.mctpSend eid tag own msg).l2 = m.l2 := rfl
@[simp] theorem Main.mctpSend_objs (m : Main) (eid tag : Nat) (own : Bool) (msg : List Byte) : (m.mctpSend eid tag own msg).objs = m.objs := rfl
@[simp] theorem Main.mctpSend_comp (m : Main) (eid tag : Nat) (own : Bool) (msg : List Byte) : (m.mctpSend eid tag own msg).comp = m.comp := rfl
@[simp] theorem Main.mctpSend_fab (m : Main) (eid tag : Nat) (own : Bool) (msg : List Byte) : (m.mctpSend eid tag own msg).fab = m.fab := rfl
@[simp] theorem Main.mctpSend_eng (m : Main) (eid tag : Nat) (own : Bool) (msg : List Byte) : (m.mctpSend eid tag own msg).eng = m.eng := rfl
@[simp] theorem Main.mctpSend_colls (m : Main) (eid tag : Nat) (own : Bool) (msg : List Byte) : (m.mctpSend eid tag own msg).colls = m.colls := rfl
@[simp] theorem Main.mctpSend_collIds (m : Main) (eid tag : Nat) (own : Bool) (msg : List Byte) : (m.mctpSend eid tag own msg).collIds = m.collIds := rfl
@[simp] theorem Main.mctpSend_early (m : Main) (eid tag : Nat) (own : Bool) (msg : List Byte) : (m.mctpSend eid tag own msg).early = m.early := rfl
@[simp] theorem Main.mctpSend_host (m : Main) (eid tag : Nat) (own : Bool) (msg : List Byte) : (m.mctpSend eid tag own msg).host = m.host := rfl
@[simp] theorem Main.mctpSend_elbor (m : Main) (eid tag : Nat) (own : Bool) (msg : List Byte) : (m.mctpSend eid tag own msg).elbor = m.elbor := rfl
@[simp] theorem Main.mctpSend_rcv (m : Main) (eid tag : Nat) (own : Bool) (msg : List Byte) : (m.mctpSend eid tag own msg).rcv = m.rcv := rfl
@[simp] theorem Main.mctpSend_sec (m : Main) (eid tag : Nat) (own : Bool) (msg : List Byte) : (m.mctpSend eid tag own msg).sec = m.sec := rfl
@[simp] theorem Main.mctpSend_drills (m : Main) (eid tag : Nat) (own : Bool) (msg : List Byte) : (m.mctpSend eid tag own msg).drills = m.drills := rfl
@[simp] theorem Main.mctpSend_hints (m : Main) (eid tag : Nat) (own : Bool) (msg : List Byte) : (m.mctpSend eid tag own msg).hints = m.hints := rfl
@[simp] theorem Main.mctpSend_tele (m : Main) (eid tag : Nat) (own : Bool) (msg : List Byte) : (m.mctpSend eid tag own msg).tele = m.tele := rfl
@[simp] theorem Main.mctpSend_eg (m : Main) (eid tag : Nat) (own : Bool) (msg : List Byte) : (m.mctpSend eid tag own msg).eg = m.eg := rfl
@[simp] theorem Main.mctpSend_bmcOut (m : Main) (eid tag : Nat) (own : Bool) (msg : List Byte) : (m.mctpSend eid tag own msg).bmcOut = m.bmcOut ++ mctpPackets eid m.bmcEid (b2n own * 8 + tag % 8) msg := rfl
@[simp] theorem Main.mctpSend_bmcReceiver (m : Main) (eid tag : Nat) (own : Bool) (msg : List Byte) : (m.mctpSend eid tag own msg).bmcReceiver = m.bmcReceiver := rfl
@[simp] theorem Main.mctpSend_bmcEid (m : Main) (eid tag : Nat) (own : Bool) (msg : List Byte) : (m.mctpSend eid tag own msg).bmcEid = m.bmcEid := rfl
@[simp] theorem Main.mctpSend_bmcTid (m : Main) (eid tag : Nat) (own : Bool) (msg : List Byte) : (m.mctpSend eid tag own msg).bmcTid = m.bmcTid := rfl

/-! ### Open values -/

@[simp] theorem Main.draw_free (m : Main) : m.draw.2.free = m.free + 1 := rfl
@[simp] theorem Main.draw_value (m : Main) : m.draw.1 = Config.freeNat m.free := rfl
@[simp] theorem Main.drawList_free (m : Main) (n : Nat) : (m.drawList n).2.free = m.free + n := rfl

@[simp] theorem Main.draw_time (m : Main) : m.draw.2.time = m.time := rfl
@[simp] theorem Main.drawList_time (m : Main) (n : Nat) : (m.drawList n).2.time = m.time := rfl
@[simp] theorem Main.draw_params (m : Main) : m.draw.2.params = m.params := rfl
@[simp] theorem Main.drawList_params (m : Main) (n : Nat) : (m.drawList n).2.params = m.params := rfl
@[simp] theorem Main.draw_cores (m : Main) : m.draw.2.cores = m.cores := rfl
@[simp] theorem Main.drawList_cores (m : Main) (n : Nat) : (m.drawList n).2.cores = m.cores := rfl
@[simp] theorem Main.draw_mem (m : Main) : m.draw.2.mem = m.mem := rfl
@[simp] theorem Main.drawList_mem (m : Main) (n : Nat) : (m.drawList n).2.mem = m.mem := rfl
@[simp] theorem Main.draw_coh (m : Main) : m.draw.2.coh = m.coh := rfl
@[simp] theorem Main.drawList_coh (m : Main) (n : Nat) : (m.drawList n).2.coh = m.coh := rfl
@[simp] theorem Main.draw_l2 (m : Main) : m.draw.2.l2 = m.l2 := rfl
@[simp] theorem Main.drawList_l2 (m : Main) (n : Nat) : (m.drawList n).2.l2 = m.l2 := rfl
@[simp] theorem Main.draw_objs (m : Main) : m.draw.2.objs = m.objs := rfl
@[simp] theorem Main.drawList_objs (m : Main) (n : Nat) : (m.drawList n).2.objs = m.objs := rfl
@[simp] theorem Main.draw_comp (m : Main) : m.draw.2.comp = m.comp := rfl
@[simp] theorem Main.drawList_comp (m : Main) (n : Nat) : (m.drawList n).2.comp = m.comp := rfl
@[simp] theorem Main.draw_fab (m : Main) : m.draw.2.fab = m.fab := rfl
@[simp] theorem Main.drawList_fab (m : Main) (n : Nat) : (m.drawList n).2.fab = m.fab := rfl
@[simp] theorem Main.draw_eng (m : Main) : m.draw.2.eng = m.eng := rfl
@[simp] theorem Main.drawList_eng (m : Main) (n : Nat) : (m.drawList n).2.eng = m.eng := rfl
@[simp] theorem Main.draw_colls (m : Main) : m.draw.2.colls = m.colls := rfl
@[simp] theorem Main.drawList_colls (m : Main) (n : Nat) : (m.drawList n).2.colls = m.colls := rfl
@[simp] theorem Main.draw_collIds (m : Main) : m.draw.2.collIds = m.collIds := rfl
@[simp] theorem Main.drawList_collIds (m : Main) (n : Nat) : (m.drawList n).2.collIds = m.collIds := rfl
@[simp] theorem Main.draw_early (m : Main) : m.draw.2.early = m.early := rfl
@[simp] theorem Main.drawList_early (m : Main) (n : Nat) : (m.drawList n).2.early = m.early := rfl
@[simp] theorem Main.draw_host (m : Main) : m.draw.2.host = m.host := rfl
@[simp] theorem Main.drawList_host (m : Main) (n : Nat) : (m.drawList n).2.host = m.host := rfl
@[simp] theorem Main.draw_elbor (m : Main) : m.draw.2.elbor = m.elbor := rfl
@[simp] theorem Main.drawList_elbor (m : Main) (n : Nat) : (m.drawList n).2.elbor = m.elbor := rfl
@[simp] theorem Main.draw_rcv (m : Main) : m.draw.2.rcv = m.rcv := rfl
@[simp] theorem Main.drawList_rcv (m : Main) (n : Nat) : (m.drawList n).2.rcv = m.rcv := rfl
@[simp] theorem Main.draw_sec (m : Main) : m.draw.2.sec = m.sec := rfl
@[simp] theorem Main.drawList_sec (m : Main) (n : Nat) : (m.drawList n).2.sec = m.sec := rfl
@[simp] theorem Main.draw_drills (m : Main) : m.draw.2.drills = m.drills := rfl
@[simp] theorem Main.drawList_drills (m : Main) (n : Nat) : (m.drawList n).2.drills = m.drills := rfl
@[simp] theorem Main.draw_hints (m : Main) : m.draw.2.hints = m.hints := rfl
@[simp] theorem Main.drawList_hints (m : Main) (n : Nat) : (m.drawList n).2.hints = m.hints := rfl
@[simp] theorem Main.draw_tele (m : Main) : m.draw.2.tele = m.tele := rfl
@[simp] theorem Main.drawList_tele (m : Main) (n : Nat) : (m.drawList n).2.tele = m.tele := rfl
@[simp] theorem Main.draw_eg (m : Main) : m.draw.2.eg = m.eg := rfl
@[simp] theorem Main.drawList_eg (m : Main) (n : Nat) : (m.drawList n).2.eg = m.eg := rfl
@[simp] theorem Main.draw_bmcOut (m : Main) : m.draw.2.bmcOut = m.bmcOut := rfl
@[simp] theorem Main.drawList_bmcOut (m : Main) (n : Nat) : (m.drawList n).2.bmcOut = m.bmcOut := rfl
@[simp] theorem Main.draw_bmcReceiver (m : Main) : m.draw.2.bmcReceiver = m.bmcReceiver := rfl
@[simp] theorem Main.drawList_bmcReceiver (m : Main) (n : Nat) : (m.drawList n).2.bmcReceiver = m.bmcReceiver := rfl
@[simp] theorem Main.draw_bmcEid (m : Main) : m.draw.2.bmcEid = m.bmcEid := rfl
@[simp] theorem Main.drawList_bmcEid (m : Main) (n : Nat) : (m.drawList n).2.bmcEid = m.bmcEid := rfl
@[simp] theorem Main.draw_bmcTid (m : Main) : m.draw.2.bmcTid = m.bmcTid := rfl
@[simp] theorem Main.drawList_bmcTid (m : Main) (n : Nat) : (m.drawList n).2.bmcTid = m.bmcTid := rfl

/-! ### Places at homes -/

/-- Places given up change the homes alone. -/
theorem Main.leaveTurns_coh (m : Main) (who : TurnOf) (hit : Nat → Bool) :
    ∃ c, m.leaveTurns who hit = { m with coh := c } := by
  have key : ∀ (l : List Nat) (m : Main), ∃ c, l.foldl Main.settleBusy m = { m with coh := c } := by
    intro l
    induction l with
    | nil => exact fun m => ⟨m.coh, rfl⟩
    | cons x r ih =>
      intro m
      obtain ⟨c, hc⟩ := ih (m.settleBusy x)
      exact ⟨c, hc.trans rfl⟩
  obtain ⟨c, hc⟩ := key _ _
  exact ⟨c, hc⟩

/-- Places taken change the homes alone. -/
theorem Main.takeTurns_coh (m : Main) (who : TurnOf) (lines : List Nat) :
    ∃ c, m.takeTurns who lines = { m with coh := c } := by
  have key : ∀ (l : List Nat) (m : Main), ∃ c, l.foldl (fun m l =>
      if m.coh.waiting.any (fun r => r.turnOf == some who && r.line == l) then m else m.waitHome (.turn who l)) m
        = { m with coh := c } := by
    intro l
    induction l with
    | nil => exact fun m => ⟨m.coh, rfl⟩
    | cons x r ih =>
      intro m
      simp only [List.foldl_cons]
      split
      · exact ih m
      · obtain ⟨c, hc⟩ := ih (m.waitHome (.turn who x))
        exact ⟨c, hc.trans rfl⟩
  obtain ⟨c, hc⟩ := m.leaveTurns_coh who (fun l => !lines.contains l)
  obtain ⟨d, hd⟩ := key lines (m.leaveTurns who (fun l => !lines.contains l))
  exact ⟨d, by rw [hc] at hd; exact (show m.takeTurns who lines = _ from by unfold Main.takeTurns; rw [hc]; exact hd)⟩

/-! ### The whole state -/

/-- A POWER event leaves the queue and the test port. -/
@[simp] theorem State.postPower_pending (s : State) (c : Nat) (st : Status) (d : Nat) :
    (s.postPower c st d).pending = s.pending := by
  unfold State.postPower
  dsimp only
  split <;> rfl

@[simp] theorem State.postPower_tap (s : State) (c : Nat) (st : Status) (d : Nat) : (s.postPower c st d).tap = s.tap := by
  unfold State.postPower
  dsimp only
  split <;> rfl

/-- A limiter's change leaves everything but the power side and the POWER events. -/
@[simp] theorem State.limit_pending (s : State) (f : Power → Power) : (s.limit f).pending = s.pending := by
  unfold State.limit
  simp only []
  repeat' split
  all_goals simp

@[simp] theorem State.limit_tap (s : State) (f : Power → Power) : (s.limit f).tap = s.tap := by
  unfold State.limit
  simp only []
  repeat' split
  all_goals simp

/-- What a meaning on Main comes to when it goes on: Main alone changes. -/
theorem onMain_next {f : Main → Out} {s t : State} (h : onMain f s = .next t) :
    ∃ m, f s.main = .next m ∧ t = { s with main := m } := by
  unfold onMain at h
  split at h
  · rename_i m hm
    exact ⟨m, hm, by cases h; rfl⟩
  · cases h
  · cases h

/-- A meaning on Main that goes on, as a meaning on the state. -/
theorem onMain_of_next {f : Main → Out} {s : State} {m : Main} (h : f s.main = .next m) :
    onMain f s = .next { s with main := m } := by
  unfold onMain
  rw [h]

/-- What a row of the supply comes to when it goes on. -/
theorem State.onSupply_next {kiln : Bool} {bad : Option String} {go : State → State} {s t : State}
    (h : State.onSupply kiln bad go s = .next t) : s.main.standby = true ∧ bad = none ∧ t = go s := by
  unfold State.onSupply at h
  split at h
  · cases h
  · rename_i h1
    split at h
    · cases h
    · split at h
      · cases h
      · refine ⟨by simpa using h1, rfl, ?_⟩
        cases h
        rfl

/-- A row of the test port changes the test port alone. -/
theorem State.onTap_next {f : Tap → Tap} {s t : State} (h : State.onTap f s = .next t) :
    s.main.standby = true ∧ t = { s with tap := f s.tap } := by
  unfold State.onTap at h
  split at h
  · rename_i h1
    exact ⟨h1, by cases h; rfl⟩
  · cases h

end Sys2Proof.Machine
end

