-- ==== Sys2Proof/WellFormed.lean ====
section
/-! DEFINITION. Which operands a command of each row can carry: the widths and ranges the spec gives the things they name.
Meanings do not rely on it: they look their operands up and refuse what is not there. -/

namespace Sys2Proof

/-- A number below a bound. -/
def lt (a n : Nat) : Bool := decide (a < n)

/-- 128 registers of 32 lanes, 2 MiB of core store (R56, R65). -/
def CoreEcc.wf : CoreEcc → Bool
  | .clean => true
  | .corrected => true
  | .register reg lane => lt reg 128 && lt lane 32
  | .row off => lt off (2 ^ 21)

/-- A work group has 1 to 64 bundles (R53). -/
def BRef.wf (b : BRef) : Bool := lt b.idx 64 && b.ecc.wf

/-- Two ports, each a PF and 63 VFs (R337). -/
def Fn.wf (f : Fn) : Bool := lt f.port 2 && lt f.idx 64

/-- 65,536 contexts, 64 queues each (R363). -/
def QRef.wf (q : QRef) : Bool := lt q.ctx 65536 && lt q.q 64

/-- A mailbox of a function, or the BMC's (R400). -/
def Mbx.wf : Mbx → Bool
  | .fn f => f.wf
  | .bmc => true

/-- A command of the BMC carries its 256 bytes and the tag of its message, one of 8 (R407); one of a ring is named by its number (R403). -/
def Cmd.wf (c : Cmd) (mb : Mbx) : Bool :=
  match mb with
  | .fn f => f.wf && lt c.idx (2 ^ 64)
  | .bmc => c.bytes.length == 256 && lt c.idx 8

/-- The fields of the message header (R252). -/
def Msg.wf (g : Msg) : Bool :=
  lt g.op 256 && lt g.dest 8192 && lt g.src 8192 && lt g.span (2 ^ 20) && lt g.epoch (2 ^ 16) && lt g.hops 8 &&
    lt g.tag (2 ^ 40) && g.data.length % 16 == 0 && lt (g.data.length / 16) 512

/-- A flit's payload (R250). -/
def Flit.wf (f : Flit) : Bool := f.payload.length == 240

/-- A packet is read whole from its ring, or not at all: packets are 64 bytes (R374). -/
def pktWf (p : List Byte) : Bool := p.length == 0 || p.length == 64

/-- A physical lane of a module: 16 engines of eight lanes and a spare (R243, R275). -/
def LaneEnd.wf (e : LaneEnd) : Bool := lt e.module 8192 && lt e.engine 16 && lt e.lane 9

def EngineId.wf (e : EngineId) : Bool := lt e.kind 5

def FenceSignal.wf (f : FenceSignal) : Bool := lt f.sender 8192 && lt f.handle (2 ^ 32) && lt f.scope 6

/-- A message of MCTP: an endpoint, a tag, an instance number, and the SMBus address it was sent to, if on SMBus (R407, R408, R532). -/
def MctpFrom.wf (f : MctpFrom) : Bool :=
  lt f.eid 256 && lt f.tag 8 && lt f.inst 32 && (match f.smbus with | some a => lt a 128 | none => true)

def SpdmPort.wf : SpdmPort → Bool
  | .doe p => lt p 2
  | .mctp f => f.wf

def ZeroJob.wf : ZeroJob → Bool
  | .channel c => lt c 192
  | .extent i => lt i 65536

def MoveRef.wf : MoveRef → Bool
  | .packet q pidx => q.wf && lt pidx (2 ^ 32)
  | .put _ => true

def AtsInv.wf (v : AtsInv) : Bool := lt v.port 2 && lt v.itag 32 && v.fn.wf

/-- The registers of a function's blocks (R340). -/
def RegBlock.wf : RegBlock → Bool
  | .mailbox f => f.wf
  | .eventQueue f q => f.wf && lt q 64
  | .identity f => f.wf
  | .segments f => f.wf
  | .msix f v => f.wf && lt v 128
  | .command f => f.wf
  | .devControl f => f.wf
  | .atsControl f => f.wf
  | .sriov p => lt p 2
  | .msixCap f => f.wf
  | .aer f => f.wf
  | .bar0 f => f.wf

def FabricMap.wf (f : FabricMap) : Bool := lt f.module 8192 && lt f.root 8192

/-- A bundle of a launch: its registers are there (R56-R59, R109). -/
def Machine.Bundle.wf (b : Machine.Bundle) (regs : Nat) : Bool :=
  [b.v.length, b.p.length, b.u.length, b.t.length, b.chains.length] == [regs * 32, 8, 64, 16, 2]

/-- A save record of a launch holds what R128 lists. -/
def Machine.SaveRec.wf (r : Machine.SaveRec) (s : Machine.LaunchSpec) : Bool :=
  r.wg.bundles.map (·.idx) == List.range s.bundles && r.wg.bundles.all (fun b => b.wf s.regs) &&
    r.wg.barriers.length == 16 && r.store.length == s.cstore * 16384 && r.pages.all (fun p => p % 4096 == 0)

/-- A batch holds up to 64 work groups (R124). -/
def WgBatch.wf (b : WgBatch) : Bool :=
  lt b.module 8192 && lt b.ctx 65536 && lt (b.saved.length + b.count) 65 && b.saved.all (fun r => r.wf b.spec)

def WgMail.wf : WgMail → Bool
  | .work b => b.wf
  | .stop m _ => lt m 8192
  | .saved _ _ => true
  | .read _ _ => true
  | .report _ r => lt r.more 256

/-- 288 cores; spans of up to 8,192 piers; batches of up to 64 (R11, R124, R307). -/
def WorkPlace.wf : WorkPlace → Bool
  | .core c => lt c 288
  | .pier rank count => lt rank 8192 && lt count 65

/-- The cores, physical channels, banks and components a step reports on exist (R462). -/
def StepReport.wf (r : StepReport) : Bool :=
  r.coresBad.all (lt · 288) && r.physBad.all (lt · 192) && r.crossingsBad.all (lt · 2) && r.viaductBad.length == 2 &&
    r.images.all (fun x => lt x.1 6)

/-- Five rails and grains of three kinds (R456). -/
def GrainUse.wf (u : GrainUse) : Bool := lt u.rail 5 && lt u.kind 3

/-- Whether a command's operands name what the spec lets its row name. -/
def Instr.wf : Instr → Bool
  | .iadd b _ => b.wf
  | .isub b _ => b.wf
  | .imul b _ => b.wf
  | .imulhs b _ => b.wf
  | .imulhu b _ => b.wf
  | .imac b _ => b.wf
  | .andv b _ => b.wf
  | .orv b _ => b.wf
  | .xorv b _ => b.wf
  | .shl b _ => b.wf
  | .shr b _ => b.wf
  | .sar b _ => b.wf
  | .imins b _ => b.wf
  | .imaxs b _ => b.wf
  | .iminu b _ => b.wf
  | .imaxu b _ => b.wf
  | .icmp b _ => b.wf
  | .pick b _ => b.wf
  | .bitcnt b _ => b.wf
  | .clz b _ => b.wf
  | .movv b _ => b.wf
  | .xlane b _ => b.wf
  | .fadd b _ => b.wf
  | .fsub b _ => b.wf
  | .fmul b _ => b.wf
  | .fmac b _ => b.wf
  | .fdiv b _ => b.wf
  | .fsqrt b _ => b.wf
  | .fmin b _ => b.wf
  | .fmax b _ => b.wf
  | .fcmp b _ => b.wf
  | .fpow2 b _ => b.wf
  | .flog2 b _ => b.wf
  | .cvt b _ => b.wf
  | .i2f b _ => b.wf
  | .f2i b _ => b.wf
  | .pand b _ => b.wf
  | .por b _ => b.wf
  | .pxor b _ => b.wf
  | .pnot b _ => b.wf
  | .pset b _ => b.wf
  | .uadd b _ => b.wf
  | .usub b _ => b.wf
  | .umul b _ => b.wf
  | .uand b _ => b.wf
  | .uor b _ => b.wf
  | .uxor b _ => b.wf
  | .ushl b _ => b.wf
  | .ushr b _ => b.wf
  | .usar b _ => b.wf
  | .umov b _ => b.wf
  | .uldi b _ => b.wf
  | .uldhi b _ => b.wf
  | .ucmp b _ => b.wf
  | .uaddi b _ => b.wf
  | .ulane b _ => b.wf
  | .uvote b _ => b.wf
  | .bra b _ => b.wf
  | .bru b _ => b.wf
  | .call b _ => b.wf
  | .ret b _ => b.wf
  | .ifd b _ => b.wf
  | .elsed b _ => b.wf
  | .endif b _ => b.wf
  | .loop b _ => b.wf
  | .brk b _ => b.wf
  | .endloop b _ => b.wf
  | .exit b _ => b.wf
  | .csld b _ => b.wf
  | .csst b _ => b.wf
  | .ld b _ => b.wf
  | .st b _ => b.wf
  | .pref b _ => b.wf
  | .atomicAdd b _ => b.wf
  | .atomicSmin b _ => b.wf
  | .atomicSmax b _ => b.wf
  | .atomicUmin b _ => b.wf
  | .atomicUmax b _ => b.wf
  | .atomicAnd b _ => b.wf
  | .atomicOr b _ => b.wf
  | .atomicXor b _ => b.wf
  | .atomicExch b _ => b.wf
  | .atomicCas b _ => b.wf
  | .atomicFadd b _ => b.wf
  | .rld b _ => b.wf
  | .rst b _ => b.wf
  | .ratomAdd b _ => b.wf
  | .ratomSmin b _ => b.wf
  | .ratomSmax b _ => b.wf
  | .ratomUmin b _ => b.wf
  | .ratomUmax b _ => b.wf
  | .ratomAnd b _ => b.wf
  | .ratomOr b _ => b.wf
  | .ratomXor b _ => b.wf
  | .ratomExch b _ => b.wf
  | .ratomCas b _ => b.wf
  | .ratomFadd b _ => b.wf
  | .barb b _ => b.wf
  | .barc b _ => b.wf
  | .fence b _ => b.wf
  | .lcwait b _ => b.wf
  | .lcwaitSatisfied b => b.wf
  | .lcwaitTimeout b => b.wf
  | .fwait b _ => b.wf
  | .tdset b _ => b.wf
  | .tdget b _ => b.wf
  | .tload b _ => b.wf
  | .tstore b _ => b.wf
  | .tileTransferComplete b _ => b.wf
  | .tmma b _ => b.wf
  | .tmmaBankFree b => b.wf
  | .tmmaComplete b chain => b.wf && lt chain 2
  | .treduce b _ => b.wf
  | .tconv b _ => b.wf
  | .tfill b _ => b.wf
  | .gissue b _ => b.wf
  | .sissue b _ => b.wf
  | .engineQueueSpace b => b.wf
  | .nop b _ => b.wf
  | .srd b _ => b.wf
  | .flagrd b _ => b.wf
  | .flagclr b _ => b.wf
  | .trap b _ => b.wf
  | .bkpt b _ => b.wf
  | .doorbellWrite fn _ _ _ => fn.wf
  | .launch q pkt => q.wf && pktWf pkt
  | .dma q pkt engine => q.wf && pktWf pkt && lt engine 96
  | .collective q pkt => q.wf && pktWf pkt
  | .fenceSignalPacket q pkt => q.wf && pktWf pkt
  | .fenceWaitPacket q pkt => q.wf && pktWf pkt
  | .counterWait q pkt => q.wf && pktWf pkt
  | .barrier q pkt => q.wf && pktWf pkt
  | .hint q pkt => q.wf && pktWf pkt
  | .marker q pkt => q.wf && pktWf pkt
  | .workGroupAdmit _ place => place.wf
  | .preempt _ => true
  | .saveRecordWritten _ => true
  | .launchComplete _ => true
  | .dmaComplete q pidx => q.wf && lt pidx (2 ^ 32)
  | .collectiveComplete q pidx => q.wf && lt pidx (2 ^ 32)
  | .gatherDescriptor engine => lt engine 96
  | .samplerDescriptor engine => lt engine 96
  | .streamDescriptor engine => lt engine 96
  | .descriptorEnd engine => lt engine 96
  | .rd g => g.wf
  | .bulkrd g => g.wf
  | .atom g => g.wf
  | .wr g => g.wf
  | .bulkwr g => g.wf
  | .rdata g => g.wf
  | .adata g => g.wf
  | .wack g => g.wf
  | .moveMsg g => g.wf
  | .errMsg g => g.wf
  | .bdata g => g.wf
  | .cdata g => g.wf
  | .cfail g => g.wf
  | .sagNotice sender _ _ => lt sender 8192
  | .paceToken sender _ _ => lt sender 8192
  | .abort span _ => lt span (2 ^ 20)
  | .remoteFenceSignal sig => sig.wf
  | .pierReceipt module _ => lt module 8192
  | .bankingNotice module => lt module 8192
  | .spareRequest ask => lt ask.lane 128
  | .identityExchange lane tx rx _ => lt lane 128 && tx.wf && rx.wf
  | .timeExchange neighbour _ _ => lt neighbour 8192
  | .dataFlit lane phys fl => lt lane 128 && lt phys 9 && fl.wf
  | .nak lane _ => lt lane 128
  | .credit lane _ => lt lane 128
  | .idle lane _ _ => lt lane 128
  | .laneAckTimeout lane => lt lane 128
  | .laneSignalLoss lane => lt lane 128
  | .berWindow lane _ => lt lane 128
  | .hitlessSpare lane => lt lane 128
  | .spareTrained lane named => lt lane 128 && lt named 4096
  | .laneRetrain engine => lt engine 96
  | .connectorLatchOpen engine => lt engine 96
  | .connectorLatchClose engine => lt engine 96
  | .laserRelight engine => lt engine 96
  | .laserSourceFailure engine => lt engine 96
  | .laserTakeoverDone engine => lt engine 96
  | .holdover => true
  | .ftimeSync _ _ => true
  | .ftimeSyncLoss => true
  | .requestTimerExpiry bank entry => lt bank 18 && lt entry 1024
  | .trackerEntryFree => true
  | .collectiveTimerExpiry span collId => lt span (2 ^ 20) && lt collId (2 ^ 32)
  | .readShared agent line _ ctx => lt agent 320 && lt (line / 2 ^ 25) 192 && ctx.all (fun c => lt c 65536)
  | .rdx agent line _ => lt agent 320 && lt (line / 2 ^ 25) 192
  | .dirtyNotice agent line => lt agent 320 && lt (line / 2 ^ 25) 192
  | .writeBack agent line => lt agent 320 && lt (line / 2 ^ 25) 192
  | .evictionNotice agent line => lt agent 320 && lt (line / 2 ^ 25) 192
  | .uncachedRead line _ => lt (line / 2 ^ 25) 192
  | .iwf line _ => lt (line / 2 ^ 25) 192
  | .iwp line _ _ => lt (line / 2 ^ 25) 192
  | .homeAtomic lpa _ _ _ _ => lt (lpa / 2 ^ 32) 192
  | .invalidation agent line => lt agent 320 && lt (line / 2 ^ 25) 192
  | .forward line _ => lt (line / 2 ^ 25) 192
  | .rangeRecall channel first _ => lt channel 192 && lt first 1536
  | .rangeRecallComplete channel first _ => lt channel 192 && lt first 1536
  | .agentDeath agent => lt agent 320
  | .reclaimComplete => true
  | .directoryEntryError home line _ => lt home 32 && lt (line / 2 ^ 25) 192
  | .patrolScrub channel _ => lt channel 192
  | .zeroingComplete z => z.wf
  | .retirementRequired channel => lt channel 192
  | .evacuationCopyDone channel found => lt channel 192 && found.all (fun x => lt x.1 (192 * 2 ^ 25))
  | .channelMapSwap channel => lt channel 192
  | .channelFailure channel => lt channel 192
  | .windowRead fn _ _ _ => fn.wf
  | .windowWrite fn _ _ _ => fn.wf
  | .atsInvalidationRequest inv => inv.wf
  | .invalidationCompletion port itag => lt port 2 && lt itag 32
  | .invalidationAckTimeout engine => lt engine 96
  | .translationCompletion x _ => x.wf
  | .prgResponse x _ => x.wf
  | .faultTimeout x => x.wf
  | .hostReadCompletion q pidx _ _ => q.wf && lt pidx (2 ^ 32)
  | .completionTimeout x _ _ => x.wf
  | .flr fn => fn.wf
  | .perst port => lt port 2
  | .bar2Resize fn _ => fn.wf
  | .mbCtlEnSet fn => fn.wf
  | .mbCtlEnClear fn => fn.wf
  | .mbPidx fn _ => fn.wf
  | .mbErrClear fn _ => fn.wf
  | .mailboxSlotRead fn _ _ => fn.wf
  | .mailboxResponse mb _ => mb.wf
  | .registerWrite blk _ _ _ => blk.wf
  | .mctpControl msg => msg.from_.wf
  | .pldmBase msg => msg.from_.wf
  | .pldmPlatform msg => msg.from_.wf
  | .pldmFirmwareUpdate f _ _ => f.wf
  | .identify mb c => mb.wf && c.wf mb
  | .moduleStatus mb c => mb.wf && c.wf mb
  | .telemetryRead mb c => mb.wf && c.wf mb
  | .fabricQuery mb c => mb.wf && c.wf mb
  | .setParam mb c => mb.wf && c.wf mb
  | .getParam mb c => mb.wf && c.wf mb
  | .fnBind mb c => mb.wf && c.wf mb
  | .spanCreate mb c => mb.wf && c.wf mb
  | .spanDestroy mb c => mb.wf && c.wf mb
  | .composePrepare mb c => mb.wf && c.wf mb
  | .composeCommit mb c => mb.wf && c.wf mb
  | .composeAbort mb c => mb.wf && c.wf mb
  | .spanQuery mb c => mb.wf && c.wf mb
  | .spanList mb c => mb.wf && c.wf mb
  | .switch span => lt span (2 ^ 20)
  | .memoryGrainHandover span channel => lt span (2 ^ 20) && lt channel 192
  | .close span => lt span (2 ^ 20)
  | .leavingRecordFree span => lt span (2 ^ 20)
  | .handoverEscalation span => lt span (2 ^ 20)
  | .ctxCreate mb c => mb.wf && c.wf mb
  | .ctxDestroy mb c => mb.wf && c.wf mb
  | .ctxQuery mb c => mb.wf && c.wf mb
  | .ctxEvict mb c => mb.wf && c.wf mb
  | .slotSchedule => true
  | .queueCreate mb c => mb.wf && c.wf mb
  | .queueDestroy mb c => mb.wf && c.wf mb
  | .queueQuery mb c => mb.wf && c.wf mb
  | .fenceCreate mb c => mb.wf && c.wf mb
  | .fenceDestroy mb c => mb.wf && c.wf mb
  | .fenceGrant mb c => mb.wf && c.wf mb
  | .fenceSignal mb c => mb.wf && c.wf mb
  | .fenceQuery mb c => mb.wf && c.wf mb
  | .ctxL2part mb c => mb.wf && c.wf mb
  | .lcAlloc mb c => mb.wf && c.wf mb
  | .lcSet mb c => mb.wf && c.wf mb
  | .lcFree mb c => mb.wf && c.wf mb
  | .extCreate mb c => mb.wf && c.wf mb
  | .extDestroy mb c => mb.wf && c.wf mb
  | .extQuery mb c => mb.wf && c.wf mb
  | .chRetire mb c => mb.wf && c.wf mb
  | .winMap mb c => mb.wf && c.wf mb
  | .winUnmap mb c => mb.wf && c.wf mb
  | .regionRegister mb c => mb.wf && c.wf mb
  | .regionRelease mb c => mb.wf && c.wf mb
  | .powerCapSet mb c => mb.wf && c.wf mb
  | .powerEmergency mb c => mb.wf && c.wf mb
  | .fixedFreq mb c => mb.wf && c.wf mb
  | .powerQuery mb c => mb.wf && c.wf mb
  | .laserShutdown mb c => mb.wf && c.wf mb
  | .errRead mb c => mb.wf && c.wf mb
  | .errAck mb c => mb.wf && c.wf mb
  | .saggerReset mb c => mb.wf && c.wf mb
  | .deviceReset mb c => mb.wf && c.wf mb
  | .coreSpareSwap mb c => mb.wf && c.wf mb
  | .enterBanked mb c => mb.wf && c.wf mb
  | .debugRead mb c => mb.wf && c.wf mb
  | .secQuery mb c => mb.wf && c.wf mb
  | .slotAssign mb c => mb.wf && c.wf mb
  | .slotRevoke mb c => mb.wf && c.wf mb
  | .debugUnlock mb c => mb.wf && c.wf mb
  | .fwStage mb c => mb.wf && c.wf mb
  | .fwActivate mb c => mb.wf && c.wf mb
  | .fwQuery mb c => mb.wf && c.wf mb
  | .drillArm mb c => mb.wf && c.wf mb
  | .drillDisarm mb c => mb.wf && c.wf mb
  | .loopbackSet mb c => mb.wf && c.wf mb
  | .drillQuery mb c => mb.wf && c.wf mb
  | .spdmGetVersion p => p.wf
  | .spdmGetCapabilities p => p.wf
  | .spdmNegotiateAlgorithms p _ => p.wf
  | .spdmGetDigests p => p.wf
  | .spdmGetCertificate p _ _ _ => p.wf
  | .spdmChallenge p _ nonce => p.wf && nonce.length == 32
  | .spdmGetMeasurements p _ _ _ nonce => p.wf && nonce.length == 32
  | .egPendSet cpu bank _ => lt cpu 12 && lt bank 16
  | .egPendClr cpu bank _ => lt cpu 12 && lt bank 16
  | .egMaskSet cpu bank _ => lt cpu 12 && lt bank 16
  | .egMaskClr cpu bank _ => lt cpu 12 && lt bank 16
  | .egDone cpu bank _ => lt cpu 12 && lt bank 16
  | .egRoute cpu source _ => lt cpu 12 && lt source 1024
  | .egMode cpu _ => lt cpu 12
  | .sourceAssert source _ => lt source 1024
  | .eqCtlEnSet fn q => fn.wf && lt q 64
  | .eqCtlEnClear fn q => fn.wf && lt q 64
  | .eqHead fn q _ => fn.wf && lt q 64
  | .eqErrClear fn q _ => fn.wf && lt q 64
  | .sag _ => true
  | .sagEnd _ => true
  | .surge _ => true
  | .overvoltageSwitchOpen => true
  | .undervoltageBank _ => true
  | .standbyLoss => true
  | .standbyPowerApplied => true
  | .pwrbrakeAssert => true
  | .pwrbrakeRelease => true
  | .regulatorAlert rail => lt rail 6
  | .regulatorAlertRelease => true
  | .busWarnAssert => true
  | .busWarnRelease => true
  | .droop cluster _ => lt cluster 32
  | .thermalStep _ => true
  | .thermal105 _ => true
  | .thermtrip _ => true
  | .kilnLoop _ _ => true
  | .paceRound => true
  | .paceApply => true
  | .hintPhaseStart ctx => lt ctx 65536
  | .hintPhaseEnd ctx => lt ctx 65536
  | .energyMeter _ x => x.rails.length == 6 && x.uses.all (·.wf)
  | .modReset => true
  | .modResetRelease => true
  | .thermtripHoldEnd => true
  | .coldStart => true
  | .warmStart => true
  | .startStepDone rep => rep.wf
  | .startStepTimeout => true
  | .coneStall e => e.wf
  | .engineResetDone e _ _ => e.wf
  | .engineResetEscalation e => e.wf
  | .saggerFenceComplete span dead => lt span (2 ^ 20) && dead.all (lt · 320)
  | .saggerReopen span bad => lt span (2 ^ 20) && bad.all (lt · 288)
  | .saggerEscalation span => lt span (2 ^ 20)
  | .moduleQuiesce => true
  | .deviceResetEscalation => true
  | .elborCore3Stall => true
  | .trackerBankError bank => lt bank 18
  | .viaductWireError dir _ => lt dir 2
  | .controlCrossingFailure _ => true
  | .banked _ => true
  | .elborServicePauseEnd => true
  | .firmwareHeartbeatFail _ => true
  | .staleSnapshot mb _ _ => mb.wf
  | .tapBypass => true
  | .tapIdcode => true
  | .tapSamplePreload => true
  | .tapExtest => true
  | .tapClamp => true
  | .tapHighz => true
  | .trst => true
  | .illegalInstruction b _ => b.wf
  | .reservedPacket q pkt => q.wf && pktWf pkt
  | .reservedCommand mb c => mb.wf && c.wf mb
  | .reservedMessage g => g.wf
  | .reservedDescriptor engine => lt engine 96
  | .rxPowerAlarm lane _ => lt lane 128
  | .shortExcursion _ _ => true
  | .surgeEnd => true
  | .atomicBufferError home line => lt home 32 && lt (line / 2 ^ 25) 192
  | .sealProcessorFault => true
  | .spareSwapComplete cluster => lt cluster 32
  | .swapEscalation cluster => lt cluster 32
  | .firmwareActivationDone _ => true
  | .perstRelease port => lt port 2
  | .vfEnableClear port => lt port 2
  | .priEnable fn => fn.wf
  | .msixUnmask fn _ => fn.wf
  | .doeDiscovery port _ => lt port 2
  | .fabricMapWrite fm => fm.wf
  | .ftimeSyncEnable _ => true
  | .workGroupBatch mail => mail.wf
  | .engineReceiptTimeout engine => lt engine 96
  | .pierReceiptTimeout _ => true

end Sys2Proof
end

