-- ==== Sys2Proof/Tests/Slice0.lean ====
section
/-! SUPPORT. Tests of single commands, ill-formed terms that the checks refuse, and concrete states that meet the hypotheses of
each statement. Expected values are worked out by hand from the rules cited. -/

open Sys2Proof Sys2Proof.Machine

namespace Sys2Proof.Tests

set_option Elab.async false

/-! ### A small world

Module 7 and module 9 share span 5. Here the span holds cluster 0, channels 0 and 1, and lane 0, which leads to module 9. Context 3 of
the function of port 0 is resident, with a queue in host region 1. Its launch 1 has a work group of one bundle on core 0. -/

/-- Fields of a word without a guard. -/
def tF (dst a b c : BitVec 7) (md : BitVec 19) : Fields :=
  { ge := false, gn := false, gp := 0, dst := dst, a := a, b := b, c := c, md := md }

def tR : BRef := { wg := 1, idx := 0 }

/-- All threads active. Lane l of v1 holds l, of v2 holds 3, of v3 holds 128 × l, of v4 the float 1.5. -/
def tB : Bundle :=
  { idx := 0, pc := 0, live := 0xFFFFFFFF, mask := 0xFFFFFFFF, stack := []
    v := (List.range 4096).map (fun k => if k / 32 = 1 then BitVec.ofNat 32 (k % 32) else if k / 32 = 2 then 3
      else if k / 32 = 3 then BitVec.ofNat 32 (k % 32 * 128) else if k / 32 = 4 then 0x3FC00000 else 0)
    poison := [], p := [0, 0x0000FFFF, 0, 0, 0, 0, 0, 0], u := (List.range 64).map (fun k => BitVec.ofNat 64 (k % 8))
    t := List.replicate 16 none, vflags := 0
    chains := [none, none], mma := [], waiting := none, pend := [], rstOut := 0, ordOut := 0, relFence := none, kept := []
    l2Wait := [], ended := false, sent := 0 }

def tW : WorkGroup :=
  { id := 1, launch := 1, lin := 0, core := 0, w := 0, base := 0, state := .running, cycle := 5
    barriers := List.replicate 16 0, bundles := [tB], xfers := [], reads := [] }

def tSpec : LaunchSpec :=
  { seed := 0, checked := false, debug := false, reqId := 0, trapEn := 0, rcvPd := false, evtInexact := false
    record := false, overlap := false, isLocal := true, cscope := 2, codeAddr := 0, codeLen := 128, entry := 0, constAddr := 0
    argAddr := 0, args := [], regs := 16, bundles := 1, cstore := 16384, gridX := 1, gridY := 1, gridZ := 1 }

def tL : Launch :=
  { id := 1, coord := .queue ⟨3, 0⟩ 0, ctx := 3, span := 5, spec := tSpec, todo := [], saved := [], reading := [], away := []
    ended := 0, flags := 0, trap := none, moreTraps := 0, fatal := false, firstFail := none, engines := 0, rsts := 0
    reserve := 0, room := 0, killed := none, tstart := 0, energy := 0 }

def tFn : Fn := ⟨0, 0⟩

def tQ : QRef := ⟨3, 0⟩

def tCtx : Context :=
  { num := 3, span := 5, fn := tFn, pasid := 1, seed := 0, weight := 16, checked := false, debug := false, pool := [], evq := 0
    state := .resident, credit := 0, creditZero := none, waitFrom := none, jobs := 0, energy := 0, kept := [] }

def tQueue : Queue :=
  { ctx := 3, idx := 0, fn := tFn, page := 0, ring := .region 1 0, slots := 64, cring := .region 1 0x10000
    status := .region 1 0x20000, traprec := .region 1 0x20040, cevt := false, proc := 0, avail := 1, ridx := 0, done := 0
    doneOut := [], halted := false, destroying := false, running := [], held := [], lastLaunch := none }

def tFence : Fence :=
  { gen := 1, index := 0, owner := 3, value := 4, live := true, grants := [], regress := 0, rr := none, mirror := none
    mirrorOn := false }

def tRec : SpanRec :=
  { id := 5, tenant := 1, phase := .stable, switchT := 0, closeT := 0, drainUs := 0, late := false, drill := false
    committed := false
    current := { valid := true, epoch := 1, rank := 0, piersM1 := 1, cores := 1, mem := 3, links := 1 }, shadow := GrainSet.none
    piers := [7, 9], nextPiers := [], reloc := [], handovers := [], gone := [], waiting := [] }

def tExt : Extent := { idx := 0, state := .active, span := 5, base := 0, choff := 0, len := 2, mask := 3 }

/-- The module of the small world, without a launch. -/
def tM0 : Main :=
  { Main.reset with
    time := 1000000
    mem := { Memory.reset with extents := [tExt], channels := modNth (modNth Memory.reset.channels 0
      (fun c => { c with state := .bound })) 1 (fun c => { c with state := .bound }) }
    objs := { Objs.reset with
      ctxs := [tCtx], slots := some { ctx := 3, home := true, closing := false } :: List.replicate 47 none, queues := [tQueue]
      fences := [tFence], regions := [{ handle := 1, ctx := 3, iova := 0x10000, len := 0x100000, read := true, write := true, glaze := none }]
      counters := [{ idx := 2, ctx := 3, value := 5, last := none }], nextRegion := 2 }
    comp := { Comp.reset with
      recs := [tRec], coreOwner := .span 5 :: List.replicate 31 .idle
      memOwner := .span 5 :: .span 5 :: List.replicate 190 .idle, linkOwner := .span 5 :: List.replicate 127 .idle }
    fab := { Fab.reset with
      module := 7, mapped := true, root := 7, timeState := .locked
      lanes := modNth Fab.reset.lanes 0 (fun l => { l with st := .active, farModule := 9 })
      groups := [{ num := 0, neighbour := 9, spares := 0, lanes := 1 }]
      routes := [{ dest := 9, self := false, hops := [(0, 1)] }] }
    host := { HostSt.reset with
      ports := [⟨true, false, 0, []⟩, ⟨false, false, 0, []⟩]
      fns := modNth HostSt.reset.fns 0 (fun f => { f with memEnable := true }) }
    rcv := { Rcv.reset with phase := .running, mainRails := true } }

/-- A state of the small world with one launch whose bundle is b. -/
def tAt (b : Bundle) (la : Launch := tL) (m : Main := tM0) : State :=
  { State.reset with main := { m with
      cores := { m.cores with
        icache := [(0, 5, 0)], wgs := [{ tW with bundles := [b] }], nextWg := 2, launches := [la], nextLaunch := 2 } } }

def tS : State := tAt tB

/-- The next state of an outcome meets a condition. -/
def goesTo (o : Outcome) (p : State → Bool) : Bool :=
  match o with
  | .next t => p t
  | _ => false

/-- The value in one lane after a command. -/
def vAfter (c : Instr) (s : State) (r l : Nat) : Option Word :=
  match exec c s with
  | .next t => (t.main.bundleOf tR).map (fun b => b.getV r l)
  | _ => none

/-- The bundle of the small world issues. -/
theorem wit_issues : Issues tS.main tR tW tL tB := ⟨rfl, rfl, rfl, rfl, rfl, by decide, rfl, rfl, rfl, by decide⟩

/-! ### The integer and FP32 classes -/

theorem wit_StepRuns : State.reset.pending = [] := rfl

theorem wit_IntegerResults : GuardOk (tF 15 1 2 0 0) ∧ tB.effective (tF 15 1 2 0 0) ≠ 0 ∧
    (tF 15 1 2 0 0).dst.toNat < tL.spec.regs ∧ (tF 15 1 2 0 0).a.toNat < tL.spec.regs ∧ FormOk tL.spec.regs (tF 15 1 2 0 0) true ∧
    fieldMod (tF 15 1 2 0 0) 18 17 ≠ 2 ∧ fieldMod (tF 15 1 2 0 0) 16 0 = 0 ∧
    RegsReady tB (tB.effective (tF 15 1 2 0 0)) (readsAB (tF 15 1 2 0 0)) [((tF 15 1 2 0 0).dst.toNat, 1)] := by
  decide +kernel

/-- The immediate form. -/
theorem wit_IntegerResults_imm : FormOk tL.spec.regs (tF 15 1 0 0 0x5FFFF) true ∧ fieldMod (tF 15 1 0 0 0x5FFFF) 18 17 = 2 ∧
    RegsReady tB (tB.effective (tF 15 1 0 0 0x5FFFF)) (readsAB (tF 15 1 0 0 0x5FFFF)) [(15, 1)] := by decide +kernel

/-- Lane 31 holds 31 and 3 (R84). -/
theorem test_iadd : vAfter (.iadd tR (tF 5 1 2 0 0)) tS 5 31 = some 34 := by decide +kernel

/-- An immediate is signed: 31 - 1 (R82). -/
theorem test_iadd_imm : vAfter (.iadd tR (tF 5 1 0 0 0x5FFFF)) tS 5 31 = some 30 := by decide +kernel

theorem test_isub : vAfter (.isub tR (tF 5 2 1 0 0)) tS 5 31 = some (-28) := by decide +kernel

theorem wit_IntegerOthers_imac : FormOk tL.spec.regs (tF 5 1 2 15 0) false ∧ fieldMod (tF 5 1 2 15 0) 16 0 = 0 ∧
    RegsReady tB (tB.effective (tF 5 1 2 15 0)) [(1, 1), (15, 1), (2, 1)] [(5, 1)] := by decide +kernel

theorem wit_IntegerOthers_icmp : (tF 7 1 2 0 9).dst.toNat < 8 ∧ fieldMod (tF 7 1 2 0 9) 16 4 = 0 ∧
    fieldMod (tF 7 1 2 0 9) 3 0 = 9 ∧ RegsReady tB (tB.effective (tF 7 1 2 0 9)) (readsAB (tF 7 1 2 0 9)) [] := by decide +kernel

theorem wit_IntegerOthers_pick : fieldMod (tF 5 1 2 0 0x70) 16 7 = 0 ∧ fieldMod (tF 5 1 2 0 0x70) 3 0 = 0 ∧
    RegsReady tB (tB.effective (tF 5 1 2 0 0x70)) (readsAB (tF 5 1 2 0 0x70)) [(5, 1)] := by decide +kernel

theorem wit_IntegerOthers_xlane : ∀ l, l < 32 → (tB.effective (tF 5 1 2 0 0)).getLsbD l = true →
    tB.poisonOf 1 1 ((operandB tB (tF 5 1 2 0 0) 0 l).toNat % 32) = none ∧
      tB.pending 1 1 ((operandB tB (tF 5 1 2 0 0) 0 l).toNat % 32) = false := by decide +kernel

theorem wit_IntegerOthers_one : RegsReady tB (tB.effective (tF 5 1 0 0 0)) [(1, 1)] [(5, 1)] := by decide +kernel

/-- A signed compare: lane 31 holds 31, not below 3 (R83). -/
theorem test_icmp : goesTo (exec (.icmp tR (tF 7 1 2 0 2)) tS)
    (fun t => (t.main.bundleOf tR).map (·.getP 7) == some 7) = true := by decide +kernel

theorem test_xlane : vAfter (.xlane tR (tF 5 1 2 0 0)) tS 5 20 = some 3 := by decide +kernel

theorem test_clz : vAfter (.clz tR (tF 5 1 0 0 0)) tS 5 31 = some 27 := by decide +kernel

theorem wit_FpResults : FormOk tL.spec.regs (tF 5 4 4 0 0x0C000) true ∧ fieldMod (tF 5 4 4 0 0x0C000) 16 14 = 3 ∧
    fieldMod (tF 5 4 4 0 0x0C000) 11 11 = 0 ∧ fieldMod (tF 5 4 4 0 0x0C000) 8 0 = 0 ∧
    RegsReady tB (tB.effective (tF 5 4 4 0 0)) (readsAB (tF 5 4 4 0 0)) [(5, 1)] ∧
    Quiet tL tB (flagsOf (tB.effective (tF 5 4 4 0 0))
      (fun l => fAdd .rdn (fpOperand (tF 5 4 4 0 0x0C000) 13 10 (tB.getV 4 l)) (fpOperand (tF 5 4 4 0 0x0C000) 12 9 (tB.getV 4 l)))) := by
  decide +kernel

theorem wit_FpResults_fmac : FormOk tL.spec.regs (tF 5 4 4 4 0x800) false ∧ fieldMod (tF 5 4 4 4 0x800) 8 0 = 0 ∧
    RegsReady tB (tB.effective (tF 5 4 4 4 0x800)) [(4, 1), (4, 1), (4, 1)] [(5, 1)] := by decide +kernel

theorem wit_FpResults_fcmp : fieldMod (tF 7 4 4 0 7) 16 14 ≤ 3 ∧ fieldMod (tF 7 4 4 0 7) 11 11 = 0 ∧ fieldMod (tF 7 4 4 0 7) 8 4 = 0 ∧
    fieldMod (tF 7 4 4 0 7) 3 0 = 7 := by decide +kernel

theorem wit_FpResults_fsqrt : fieldMod (tF 5 4 0 0 0x2400) 18 17 = 0 ∧ fieldMod (tF 5 4 0 0 0x2400) 12 11 = 0 ∧
    fieldMod (tF 5 4 0 0 0x2400) 9 0 = 0 := by decide +kernel

theorem wit_FpResults_i2f : fieldMod (tF 5 1 0 0 0x13) 18 5 = 0 ∧ fieldMod (tF 5 1 0 0 0x13) 3 2 = 0 := by decide +kernel

/-- FP32 to byte 3 of E4M3, and back (R85). -/
theorem wit_FpResults_cvt : ∃ x y, Elem.ofCode (fieldMod (tF 5 4 0 0 0x49830) 18 15) = some x ∧
    Elem.ofCode (fieldMod (tF 5 4 0 0 0x49830) 14 11) = some y ∧ fieldMod (tF 5 4 0 0 0x49830) 3 1 < x.slots ∧
    fieldMod (tF 5 4 0 0 0x49830) 6 4 < y.slots ∧ y ≠ .fp32 ∧ fieldMod (tF 5 4 0 0 0x49830) 10 8 ≤ 3 ∧ fieldMod (tF 5 4 0 0 0x49830) 0 0 = 0 := by
  exact ⟨.fp32, _, rfl, rfl, by decide, by decide, by decide, by decide, by decide⟩

/-- 1.5 + 1.5 = 3. -/
theorem test_fadd : vAfter (.fadd tR (tF 5 4 4 0 0)) tS 5 0 = some 0x40400000 := by decide +kernel

/-- 1.5 × 1.5 - 1.5 = 0.75: MOD[11] negates C (R85). -/
theorem test_fmac : vAfter (.fmac tR (tF 5 4 4 4 0x800)) tS 5 0 = some 0x3F400000 := by decide +kernel

theorem test_i2f : vAfter (.i2f tR (tF 5 1 0 0 0)) tS 5 3 = some 0x40400000 := by decide +kernel

/-! ### Predicates, uniform and control flow -/

theorem wit_PredicateAndUniform : NoGuard (tF 63 1 2 0 9) ∧ tB.mask ≠ 0 ∧ fieldMod (tF 63 1 2 0 9) 18 4 = 0 ∧
    fieldMod (tF 63 1 2 0 9) 3 0 = 9 ∧ GuardOk { tF 7 7 7 0 0 with ge := true, gn := true, gp := 7 } ∧
    tB.effective { tF 7 7 7 0 0 with ge := true, gn := true, gp := 7 } ≠ 0 := by decide +kernel

theorem wit_PredicateAndUniform_uldhi :
    (((tF 63 1 2 3 4).a.setWidth 7 ++ (0x7F#7) ++ (0x7F#7) ++ (0x7FFFF#19) : BitVec 40)).toNat ≥ 2 ^ 24 ∧
    (((0#7 : BitVec 7).setWidth 7 ++ (0#7) ++ (0x1F#7) ++ (0x7FFFF#19) : BitVec 40)).toNat = 2 ^ 24 - 1 := by decide +kernel

theorem wit_PredicateAndUniform_ulane : fieldMod (tF 5 1 0 0 31) 18 5 = 0 ∧ tB.poisonOf 1 1 (fieldMod (tF 5 1 0 0 31) 4 0) = none ∧
    tB.pending 1 1 (fieldMod (tF 5 1 0 0 31) 4 0) = false := by decide +kernel

theorem test_ulane : goesTo (exec (.ulane tR (tF 5 1 0 0 31)) tS)
    (fun t => (t.main.bundleOf tR).map (·.getU 5) == some 31) = true := by decide +kernel

/-- The vote over the predicate p1 (R89). -/
theorem test_uvote : goesTo (exec (.uvote tR (tF 5 1 0 0 0)) tS)
    (fun t => (t.main.bundleOf tR).map (·.getU 5) == some 0xFFFF) = true := by decide +kernel

/-- A branch of 15 words reaches the last word of the code; the next would leave it. -/
theorem wit_ControlFlow_bra : NoGuard (tF 0 0 0 0 14) ∧ (tF 0 0 0 0 14).b.getLsbD 6 = false ∧
    (8 : Int) + 8 * (((tF 0 0 0 0 14).b ++ (tF 0 0 0 0 14).c ++ (tF 0 0 0 0 14).md : BitVec 33).setWidth 32).toInt < tL.spec.codeLen := by
  decide +kernel

/-- ZSEL selects a branch on zero, and u0 is zero; with ZSEL clear the branch on u7 is taken. -/
theorem wit_ControlFlow_bru : (tB.getU 0 = 0 ↔ (tF 0 0 64 0 0).b.getLsbD 6 = true) ∧ (tB.getU 7 = 0 ↔ (tF 7 0 0 0 0).b.getLsbD 6 = true) ∧
    ¬(tB.getU 0 = 0 ↔ (tF 0 0 0 0 0).b.getLsbD 6 = true) := by decide +kernel

theorem wit_ControlFlow_ret : (tB.getU 8).toNat % 8 = 0 ∧ (tB.getU 8).toNat < tL.spec.codeLen := by decide +kernel

theorem test_call : goesTo (exec (.call tR (tF 9 0 0 0 2)) tS)
    (fun t => (t.main.bundleOf tR).map (fun b => (b.pc, b.getU 9)) == some (24, 8)) = true := by decide +kernel

/-- IF on p1: the other half of the threads is kept for ELSE. -/
theorem wit_ControlFlow_if : tB.stack.length < 32 ∧ tB.mask &&& tB.getP 1 ≠ 0 ∧ tB.mask &&& tB.getP 2 = 0 := by decide +kernel

/-- A bundle in the IF of p1, inside a loop. -/
def tIf : Bundle := { tB with mask := 0xFFFF, stack := [.ifE 0xFFFFFFFF 0xFFFF0000 false, .loopE 0xFFFFFFFF] }

theorem wit_ControlFlow_else : Issues (tAt tIf).main tR { tW with bundles := [tIf] } tL tIf ∧
    tIf.stack = .ifE 0xFFFFFFFF 0xFFFF0000 false :: [.loopE 0xFFFFFFFF] ∧
    tIf.stack = [.ifE 0xFFFFFFFF 0xFFFF0000 false] ++ .loopE 0xFFFFFFFF :: [] :=
  ⟨⟨rfl, rfl, rfl, rfl, rfl, by decide, rfl, rfl, rfl, by decide⟩, rfl, rfl⟩

theorem test_else : goesTo (exec (.elsed tR (tF 0 0 0 0 0)) (tAt tIf))
    (fun t => (t.main.bundleOf tR).map (·.mask) == some 0xFFFF0000) = true := by decide +kernel

theorem test_brk : goesTo (exec (.brk tR (tF 1 0 0 0 0)) (tAt tIf))
    (fun t => (t.main.bundleOf tR).map (·.mask) == some 0) = true := by decide +kernel

def tLoop (mask : Word) : Bundle := { tB with mask := mask, stack := [.loopE 0xFFFFFFFF] }

theorem wit_ControlFlow_endloop : Issues (tAt (tLoop 0)).main tR { tW with bundles := [tLoop 0] } tL (tLoop 0) ∧
    Issues (tAt (tLoop 1)).main tR { tW with bundles := [tLoop 1] } tL (tLoop 1) :=
  ⟨⟨rfl, rfl, rfl, rfl, rfl, by decide, rfl, rfl, rfl, by decide⟩, rfl, rfl, rfl, rfl, rfl, by decide, rfl, rfl, rfl, by decide⟩

/-- EXIT of half the threads, and of all. -/
theorem wit_ControlFlow_exit : tIf.live &&& ~~~tIf.mask ≠ 0 ∧ tB.live &&& ~~~tB.mask = 0 := by decide +kernel

theorem test_exit : goesTo (exec (.exit tR (tF 0 0 0 0 0)) tS) (fun t => t.main.cores.wgs.isEmpty) = true := by decide +kernel

/-! ### Memory, atomics, remote requests -/

theorem wit_MemoryAccess_csld : Passes csldIns tS.main (issueOf tR tW tL tB (tF 5 3 0 0 0x20000) 6 0) := by decide +kernel

theorem wit_MemoryAccess_csst : Passes csstIns tS.main (issueOf tR tW tL tB (tF 1 3 0 0 0x20000) 6 1) ∧
    anyOverlap ((lanesOf (tB.effective (tF 1 3 0 0 0x20000))).map (fun l =>
      (tW.base + (((tB.getV 3 l).toNat : Int) + signed 16 0).toNat, 4))) = false := by decide +kernel

/-- The loads of the lanes fall on 32 lines of two channels. -/
theorem wit_MemoryAccess_ld : Passes ldIns tS.main (issueOf tR tW tL tB (tF 5 3 0 0 0x20000) 7 0) ∧
    tS.main.laneBlocked (issueOf tR tW tL tB (tF 5 3 0 0 0x20000) 7 0) 11 = false ∧ fieldMod (tF 5 3 0 0 0x20000) 15 14 = 0 := by
  decide +kernel

theorem wit_MemoryAccess_st : Passes stIns tS.main (issueOf tR tW tL tB (tF 1 3 0 0 0x20000) 7 1) ∧
    tS.main.laneBlocked (issueOf tR tW tL tB (tF 1 3 0 0 0x20000) 7 1) 11 = false ∧ tL.spec.checked = false ∧
    anyOverlap ((lanesOf (tB.effective (tF 1 3 0 0 0x20000))).map (fun l =>
      (tS.main.laneLpa (issueOf tR tW tL tB (tF 1 3 0 0 0x20000) 7 1) 11 l, 2 ^ fieldMod (tF 1 3 0 0 0x20000) 18 16))) = false := by
  decide +kernel

/-- A request waits for line 0 already, so the accesses take their places behind it (R208). -/
def tHeld : State := tAt tB tL { tM0 with coh := { tM0.coh with waiting := [.ur 0 .clean] } }

theorem wit_MemoryAccess_held : tHeld.main.portClosed 0 = false ∧
    Passes ldIns tHeld.main (issueOf tR tW tL tB (tF 5 3 0 0 0x20000) 7 0) ∧
    tHeld.main.laneBlocked (issueOf tR tW tL tB (tF 5 3 0 0 0x20000) 7 0) 11 = true ∧
    Passes stIns tHeld.main (issueOf tR tW tL tB (tF 1 3 0 0 0x20000) 7 1) ∧
    tHeld.main.laneBlocked (issueOf tR tW tL tB (tF 1 3 0 0 0x20000) 7 1) 11 = true ∧
    Passes (atomIns .add) tHeld.main (issueOf tR tW tL tB (tF 5 3 0 1 0x20400) 8 AtomOp.add.code) ∧
    tHeld.main.laneBlocked (issueOf tR tW tL tB (tF 5 3 0 1 0x20400) 8 AtomOp.add.code) 10 = true := by decide +kernel

/-- The load waits, with a place at each of its 32 lines. -/
theorem test_ld_waits : goesTo (exec (.ld tR (tF 5 3 0 0 0x20000)) tHeld)
    (fun t => t.main.coh.waiting.length == 33 && (t.main.bundleOf tR).map (·.waiting) == some (some .line)) = true := by decide +kernel

theorem wit_MemoryAccess_pref : Passes prefIns tS.main (issueOf tR tW tL tB (tF 0 3 0 0 0) 7 2) := by decide +kernel

/-- What CSST writes, CSLD reads back (R93). -/
theorem test_csst_csld : goesTo (exec (.csst tR (tF 1 3 0 0 0x20000)) tS) (fun t =>
    vAfter (.csld tR (tF 5 3 0 0 0x20000)) t 5 31 == some 31) = true := by decide +kernel

theorem test_st_ld : goesTo (exec (.st tR (tF 1 3 0 0 0x20000)) tS) (fun t =>
    vAfter (.ld tR (tF 5 3 0 0 0x20000)) t 5 31 == some 31) = true := by decide +kernel

theorem wit_AtomicResults : Passes (atomIns .add) tS.main (issueOf tR tW tL tB (tF 5 3 0 1 0x20400) 8 AtomOp.add.code) ∧
    tS.main.laneBlocked (issueOf tR tW tL tB (tF 5 3 0 1 0x20400) 8 AtomOp.add.code) 10 = false ∧
    anyOverlap ((lanesOf (tB.effective (tF 5 3 0 1 0x20400))).map (fun l =>
      (tS.main.laneLpa (issueOf tR tW tL tB (tF 5 3 0 1 0x20400) 8 AtomOp.add.code) 10 l, 2 ^ fieldMod (tF 5 3 0 1 0x20400) 18 16))) = false := by
  decide +kernel

theorem wit_AtomicResults_cas : Passes (atomIns .cas) tS.main (issueOf tR tW tL tB (tF 1 3 0 0 0x20400) 8 AtomOp.cas.code) := by
  decide +kernel

theorem wit_AtomicResults_fadd : Passes (atomIns .fadd) tS.main (issueOf tR tW tL tB (tF 4 3 0 0 0x20400) 8 AtomOp.fadd.code) := by
  decide +kernel

/-- Lane l asks module 9, rank 1 of the span, at address 128 × l: v6 holds 1. -/
def tRem : Bundle := { tB with
  v := (List.range 4096).map (fun k => if k / 32 = 1 then BitVec.ofNat 32 (k % 32) else if k / 32 = 3 then BitVec.ofNat 32 (k % 32 * 128)
    else if k / 32 = 6 then 1 else 0) }

theorem wit_RemoteResults_rld : Passes rldIns (tAt tRem).main (issueOf tR { tW with bundles := [tRem] } tL tRem (tF 8 3 0 6 4) 9 0) ∧
    ((tF 8 3 0 6 4).md.getLsbD 18 = false) ∧
    anyOverlap ((lanesOf (tRem.effective (tF 8 3 0 6 4))).map (fun l =>
      ((issueOf tR { tW with bundles := [tRem] } tL tRem (tF 8 3 0 6 4) 9 0).remRank l * 2 ^ 52 +
        (issueOf tR { tW with bundles := [tRem] } tL tRem (tF 8 3 0 6 4) 9 0).remAddr l, 4))) = false := by decide +kernel

/-- 32 ordered requests, of at most 64 outstanding. -/
theorem wit_RemoteResults_rst : Passes rstIns (tAt tRem).main (issueOf tR { tW with bundles := [tRem] } tL tRem (tF 1 3 0 6 0x40024) 9 1) ∧
    tRem.ordOut + (lanesOf (tRem.effective (tF 1 3 0 6 0x40024))).length ≤ 64 := by decide +kernel

theorem wit_RemoteResults_ratom : Passes (ratomIns .add) (tAt tRem).main
    (issueOf tR { tW with bundles := [tRem] } tL tRem (tF 1 3 0 6 5) 9 (0x10 + AtomOp.add.code)) := by decide +kernel

/-- The requests take 32 tracker entries (R267). -/
theorem test_rld : goesTo (exec (.rld tR (tF 8 3 0 6 4)) (tAt tRem)) (fun t => t.main.fab.entries.length == 32) = true := by
  decide +kernel

/-! ### Synchronisation -/

/-- u20 names counter 2 with a timeout of 10 µs, u21 the fence. -/
def tSync : Bundle := { tB with
  u := modNth (modNth tB.u 20 (fun _ => 0xA00000002)) 21 (fun _ => 0x40000) }

theorem wit_BarriersAndWaits_bar : NoGuard (tF 0 0 0 0 15) ∧ fieldMod (tF 0 0 0 0 15) 18 4 = 0 ∧
    (tW.xfers.any fun y => y.bundle == tB.idx) = false := by decide +kernel

/-- A release fence and an acquire fence of module scope. -/
theorem wit_BarriersAndWaits_fence : fieldMod (tF 0 0 0 0 0x9800) 15 14 = 2 ∧ fieldMod (tF 0 0 0 0 0x5800) 15 14 = 1 ∧
    fieldMod (tF 0 0 0 0 0x9800) 13 11 = 3 ∧ fieldMod (tF 0 0 0 0 0x9800) 18 16 = 0 ∧ fieldMod (tF 0 0 0 0 0x9800) 10 0 = 0 ∧
    (tW.xfers.any fun y => y.bundle == tB.idx && y.store) = false ∧ tB.rstOut = 0 ∧ tL.spec.checked = false := by decide +kernel

theorem wit_BarriersAndWaits_lcwait :
    Passes lcwaitIns (tAt tSync).main (issueOf tR { tW with bundles := [tSync] } tL tSync (tF 7 20 6 9 0x5800) 0xA 3) ∧
    (tAt tSync).main.lcOf tL tSync (tF 7 20 6 9 0x5800) = some { idx := 2, ctx := 3, value := 5, last := none } ∧
    (5 : DWord).toNat < (tSync.getU 6).toNat ∧ (tSync.getU 5).toNat ≤ (5 : DWord).toNat := by decide +kernel

/-- The bundle that waits. -/
def tWaits : Bundle := { tSync with waiting := some (.counter (tF 7 20 6 9 0x5800) (some 1010000)) }

theorem wit_BarriersAndWaits_waits : (tAt tWaits).main.wgOf 1 = some { tW with bundles := [tWaits] } ∧
    (tAt tWaits).main.bundleOf tR = some tWaits ∧ (tAt tWaits).main.launchOf 1 = some tL ∧
    (tAt tWaits).main.lcOf tL tWaits (tF 7 20 6 9 0x5800) = some { idx := 2, ctx := 3, value := 5, last := none } :=
  ⟨rfl, rfl, rfl, by decide +kernel⟩

theorem wit_BarriersAndWaits_fwait :
    Passes fwaitIns (tAt tSync).main (issueOf tR { tW with bundles := [tSync] } tL tSync (tF 7 21 4 9 0x5800) 0xA 4) ∧
    (tAt tSync).main.fwaitFence tL tSync (tF 7 21 4 9 0x5800) = some tFence ∧ tFence.live = true ∧
    fenceReached tFence.value (tSync.getU 4) = true ∧ fenceReached tFence.value (tSync.getU 5) = false := by decide +kernel

theorem wit_BarriersAndWaits_dead : (({ tFence with live := false } : Fence).live = false) ∧
    (tAt tSync tL { tM0 with objs := { tM0.objs with fences := [{ tFence with live := false }] } }).main.fwaitFence tL tSync
      (tF 7 21 4 9 0x5800) = some { tFence with live := false } := by decide +kernel

/-- The last arrival lets all leave: alone in its work group, the bundle goes on (R100). -/
theorem test_barb : goesTo (exec (.barb tR (tF 0 0 0 0 15)) tS)
    (fun t => (t.main.bundleOf tR).map (fun b => (b.pc, b.waiting)) == some (8, none)) = true := by decide +kernel

/-- The timeout writes 0 to the predicate and the last value to u9 (R102). -/
theorem test_lcwaitTimeout : goesTo (exec (.lcwaitTimeout tR) (tAt tWaits))
    (fun t => (t.main.bundleOf tR).map (fun b => (b.getP 7, b.getU 9)) == some (0, 5) && t.main.time == 1010000) = true := by
  decide +kernel

/-! ### Tiles -/

/-- A tile of 2 rows and 4 columns of BF16 at an offset of core store. -/
def tDesc (base : Nat) : Desc := BitVec.ofNat 256 (base + 7 * 2 ^ 60 + 2 * 2 ^ 92 + 4 * 2 ^ 99)

/-- The same of FP32. -/
def tDesc32 (base cols : Nat) : Desc := BitVec.ofNat 256 (base + 9 * 2 ^ 60 + 2 * 2 ^ 92 + cols * 2 ^ 99)

/-- t1 and t2 hold BF16 tiles, t3 a 2 × 2 FP32 tile, t4 a 2 × 4 FP32 tile; u8 to u11 hold t1's descriptor, u3 is a misfit. -/
def tTile : Bundle := { tB with
  t := [none, some (tDesc 0), some (tDesc 32), some (tDesc32 64 2), some (tDesc32 128 4)] ++ List.replicate 11 none
  u := modNth (modNth tB.u 8 (fun _ => (tDesc 0).extractLsb' 0 64)) 9 (fun _ => (tDesc 0).extractLsb' 64 64)
  }

def tTile2 : Bundle := { tTile with u := modNth (modNth tTile.u 10 (fun _ => 0)) 11 (fun _ => 0) }

def tTW : WorkGroup := { tW with bundles := [tTile2] }

theorem wit_TileMoves_tdset : Passes tdsetIns (tAt tTile2).main (issueOf tR tTW tL tTile2 (tF 15 8 0 0 0) 0xB 0) := by decide +kernel

theorem wit_TileMoves_tdget : Passes tdgetIns (tAt tTile2).main (issueOf tR tTW tL tTile2 (tF 60 1 0 0 0) 0xB 1) ∧
    (issueOf tR tTW tL tTile2 (tF 60 1 0 0 0) 0xB 1).desc 1 = some (tDesc 0) := by decide +kernel

/-- u0 is the address 0, u16 the stride 0. -/
theorem wit_TileMoves_tload : (issueOf tR tTW tL tTile2 (tF 1 0 16 0 0) 0xB 2).desc 1 = some (tDesc 0) ∧
    Passes tloadIns (tAt tTile2).main (issueOf tR tTW tL tTile2 (tF 1 0 16 0 0) 0xB 2) ∧
    Passes tstoreIns (tAt tTile2).main (issueOf tR tTW tL tTile2 (tF 1 0 16 0 0) 0xB 3) ∧ fieldMod (tF 1 0 16 0 0) 16 16 = 0 ∧
    (tAt tTile2).main.coreXfers 0 < 64 ∧
    (tAt tTile2).main.rangesBad 0 (lineRanges ((issueOf tR tTW tL tTile2 (tF 1 0 16 0 0) 0xB 3).xferLines (tDesc 0))) = false := by
  decide +kernel

theorem wit_TileMoves_complete : (([({ bundle := 0, store := false, lines := [] } : Xfer)]).filter (fun x => x.bundle == tR.idx))[0]? =
    some { bundle := 0, store := false, lines := [] } := by decide +kernel

theorem test_tload : goesTo (exec (.tload tR (tF 1 0 16 0 0)) (tAt tTile2)) (fun t => goesTo (exec (.tileTransferComplete tR 0) t)
    (fun t => (t.main.wgOf 1).map (·.xfers) == some [])) = true := by decide +kernel

/-- A 2 × 4 by 4 × 2 product into a bank that the same instruction closes into t3. -/
theorem wit_TileResults_tmma : Passes tmmaIns (tAt tTile2).main (issueOf tR tTW tL tTile2 (tF 3 1 2 0 0x14000) 0xB 4) ∧
    (issueOf tR tTW tL tTile2 (tF 3 1 2 0 0x14000) 0xB 4).mmaPlan.isSome = true ∧ (tAt tTile2).main.unitBanks 0 ((tTile2.idx + tTW.w) % 4) < 2 ∧
    ((issueOf tR tTW tL tTile2 (tF 3 1 2 0 0x14000) 0xB 4).mmaPlan.all fun p =>
      !(tAt tTile2).main.rangesBad 0 (p.reads 0) && !p.cont) = true := by decide +kernel

/-- A bundle whose unit has both banks open, and one that waits for a bank that is now free. -/
theorem wit_TileResults_waits :
    let k : Bank := { m := 1, n := 1, mode := .long, anchor := 0, flags := 0, vals := [0], ptsA := none, ptsB := none }
    2 ≤ (tAt { tTile2 with idx := 0, chains := [some k, some k] }).main.unitBanks 0 0 ∧
    ({ tTile2 with waiting := some (.bank (tF 3 1 2 0 0x14000)) } : Bundle).waiting = some (.bank (tF 3 1 2 0 0x14000)) := by
  decide +kernel

theorem wit_TileResults_complete : ([({ chain := 1, pc := 0, word := 0, flags := 1, newFlags := 1, ranges := [] } : MmaRun)]).find? (fun r => r.chain == 1) =
    some { chain := 1, pc := 0, word := 0, flags := 1, newFlags := 1, ranges := [] } ∧ (1 : Byte) &&& tL.spec.trapEn = 0 := by decide +kernel

theorem wit_TileResults_tconv : Passes tconvIns (tAt tTile2).main (issueOf tR tTW tL tTile2 (tF 4 1 0 0 0) 0xB 6) ∧
    (issueOf tR tTW tL tTile2 (tF 4 1 0 0 0) 0xB 6).desc 1 = some (tDesc 0) ∧
    (issueOf tR tTW tL tTile2 (tF 4 1 0 0 0) 0xB 6).desc 4 = some (tDesc32 128 4) ∧
    (convTile tL.spec ((tAt tTile2).main.readTile 0 0 (tDesc 0)) (tDesc32 128 4)).2.2 &&& tL.spec.trapEn = 0 := by decide +kernel

theorem wit_TileResults_treduce : Passes treduceIns (tAt tTile2).main (issueOf tR tTW tL tTile2 (tF 4 1 2 0 0x20000) 0xB 5) ∧
    (tAt tTile2).main.rangesBad 0 (dReads (tDesc 0) 0 ++ dReads (tDesc 32) 0) = false := by decide +kernel

theorem wit_TileResults_tfill : Passes tfillIns (tAt tTile2).main (issueOf tR tTW tL tTile2 (tF 4 7 0 0 0) 0xB 7) ∧
    (issueOf tR tTW tL tTile2 (tF 4 7 0 0 0) 0xB 7).desc 4 = some (tDesc32 128 4) := by decide +kernel

/-- The product of two tiles of ones: 4 in every element of t3 (R41). -/
theorem test_tmma :
    let ones := (List.range 16).map (fun k => if k % 2 = 0 then (0x80 : Byte) else 0x3F)
    let s := tAt tTile2
    let s1 : State := { s with main := s.main.csWrite 0 [(0, ones), (16, ones), (32, ones), (48, ones)] }
    goesTo (exec (.tmma tR (tF 3 1 2 0 0x14000)) s1) (fun t => t.main.csRead 0 64 8 == toBytes 4 0x40800000 ++ toBytes 4 0x40800000) = true := by
  decide +kernel

/-! ### Engines, the special class, traps -/

/-- Core store of zeros is a descriptor of the reserved OP 0 that names counter 0. -/
def tM2 : Main := { tM0 with objs := { tM0.objs with counters := [{ idx := 0, ctx := 3, value := 0, last := none }] } }

theorem wit_EngineIssue : Passes gissueIns (tAt tB tL tM2).main (issueOf tR tW tL tB (tF 0 0 0 0 0) 0xC 0) ∧
    Passes sissueIns (tAt tB tL tM2).main (issueOf tR tW tL tB (tF 0 0 0 0 0) 0xC 1) ∧
    (tAt tB tL tM2).main.eng[64]? = some Engine.reset ∧ (tAt tB tL tM2).main.eng[0]? = some Engine.reset ∧
    (tAt tB tL tM2).main.gatherPick 0 0 = 0 ∧ Engine.reset.queue.length < 32 ∧
    ((tAt tB tL tM2).main.descriptor (issueOf tR tW tL tB (tF 0 0 0 0 0) 0xC 1)).2.eng[64]? = some Engine.reset ∧
    ((tAt tB tL tM2).main.descriptor (issueOf tR tW tL tB (tF 0 0 0 0 0) 0xC 0)).2.eng[0]? = some Engine.reset := by decide +kernel

def tEngDesc : EngDesc := { bytes := List.replicate 64 0, core := 0, launch := 1, wg := 1, ctx := 3, span := 5, base := 0, seed := 0, checked := false }

/-- A sampler whose queue is full. -/
theorem wit_EngineIssue_full : 32 ≤ (List.replicate 32 tEngDesc).length ∧
    ({ tB with waiting := some (.engine true (tF 0 0 0 0 0)) } : Bundle).waiting = some (.engine true (tF 0 0 0 0 0)) := by decide +kernel

theorem test_sissue : goesTo (exec (.sissue tR (tF 0 0 0 0 0)) (tAt tB tL tM2))
    (fun t => t.main.eng[64]?.map (·.queue) == some [tEngDesc]) = true := by decide +kernel

theorem wit_SpecialResults : NoGuard (tF 63 0 0 0 0xE) ∧ (tF 63 0 0 0 0xE).md.toNat = 0xE ∧ tL.spec.debug = false ∧
    RegsReady tB (tB.effective (tF 15 0 0 0 0)) [] [(15, 1)] ∧
    (issueOf tR tTW tL tTile2 (tF 5 1 0 0 1) 0xD 2).desc 1 = some (tDesc 0) ∧
    (issueOf tR tTW tL tTile2 (tF 0 5 1 0 1) 0xD 3).desc 1 = some (tDesc 0) := by decide +kernel

/-- The number of piers of the span (R57, R116). -/
theorem test_srd_piers : goesTo (exec (.srd tR (tF 5 0 0 0 0xB)) tS)
    (fun t => (t.main.bundleOf tR).map (·.getU 5) == some 2) = true := by decide +kernel

theorem wit_TrapResults : funcListed ((0xF000000000000000 : DWord).extractLsb' 60 4).toNat ((0xF000000000000000 : DWord).extractLsb' 52 8).toNat = false ∧
    fieldMod (tF 0 0 0 0 0xFFFF) 18 16 = 0 ∧ tB.effective (tF 16 1 2 0 0) ≠ 0 ∧ tL.spec.regs ≤ (tF 16 1 2 0 0).dst.toNat ∧
    ({ tSpec with debug := true } : LaunchSpec).debug = true := by decide +kernel

theorem wit_TrapResults_effect : tS.main.launchOf tL.id = some tL ∧ tL.trap = none ∧ trapRecoverable tL .sm = true := ⟨rfl, rfl, rfl⟩

/-- A guard that no thread passes. -/
theorem wit_TrapResults_masked : tB.effective { tF 5 1 2 0 0 with ge := true, gn := false, gp := 2 } = 0 := by decide +kernel

theorem wit_TrapResults_ecc : 1 * 32 + 3 < tB.v.length ∧ 1 < 128 ∧ 3 < 32 := by decide +kernel

/-- An error that the register file does not correct poisons the register, and its read traps PD (R65, R479). -/
theorem test_registerError : goesTo (exec (.iadd { tR with ecc := .register 1 3 } (tF 5 1 2 0 0)) tS)
    (fun t => (t.main.launchOf 1).bind (fun l => l.trap.map (·.cls)) == some .pd) = true := by decide +kernel

theorem test_trap : goesTo (exec (.trap tR (tF 0 0 0 0 9)) tS)
    (fun t => (t.main.launchOf 1).bind (fun l => l.trap.map (fun x => (x.cls, x.dbcode))) == some (.db, 9)) = true := by decide +kernel

theorem wit_RegisterWriteFrame : tB.v.length = 4096 ∧ tS.main.bundleOf tR = some tB ∧ tB.idx = tR.idx := ⟨by decide +kernel, rfl, rfl⟩

/-! ### Queues and packets -/

/-- A state of the small world, without a launch. -/
def tQ0 (m : Main := tM0) : State := { State.reset with main := m }

/-- 64 bytes with fields at offsets: offset, length, value. -/
def tPkt (l : List (Nat × Nat × Nat)) : List Byte := l.foldl (fun d x => putAt d x.1 (toBytes x.2.1 x.2.2)) (List.replicate 64 0)

/-- The packet as it runs, and the block once it has been taken. -/
def tTook (m : Main) (d : List Byte) : Packet × Main := m.takePacket tQ tQueue d

theorem wit_DoorbellResults : (tQ0.main.objs.queues.find? (fun x => x.fn == tFn && x.page == 1)) = none ∧
    (tQ0.main.objs.queues.find? (fun x => x.fn == tFn && x.page == 0)) = some tQueue ∧ tQ0.main.ctxOf 3 = some tCtx ∧
    tCtx.state ≠ .teardown := by decide +kernel

/-- The queue has 64 slots and WIDX 1: 65 is the last index it takes, 66 is out of range, 1 changes nothing. -/
theorem wit_DoorbellResults_bounds : (fieldAt (toBytes 4 65) 0 4 + 2 ^ 32 - tQueue.avail.toNat) % 2 ^ 32 = tQueue.slots ∧
    tQueue.slots < (fieldAt (toBytes 4 66) 0 4 + 2 ^ 32 - tQueue.avail.toNat) % 2 ^ 32 ∧
    (fieldAt (toBytes 4 1) 0 4 + 2 ^ 32 - tQueue.avail.toNat) % 2 ^ 32 = 0 := by decide +kernel

theorem test_doorbell : goesTo (exec (.doorbellWrite tFn 0 0 (toBytes 4 65)) tQ0)
    (fun t => (t.main.queueOf tQ).map (·.avail) == some 65) = true := by decide +kernel

/-- A packet of the queue starts. -/
theorem wit_packet (d : List Byte) (h : fieldAt d 1 1 / 16 = 0) (hl : d.length = 64) (hm : tM0.mayStart tQ tQueue d = true) :
    PacketStarts tM0 tQ d tCtx tQueue d (tTook tM0 d).1 (tTook tM0 d).2 := by
  have hr : tM0.locRead tCtx tQueue.ring (tQueue.ridx.toNat % tQueue.slots * 64) 64 d = (some d, tM0) := by
    simp only [Main.locRead, tQueue]
    rw [show tM0.regionOf 1 = some { handle := 1, ctx := 3, iova := 0x10000, len := 0x100000, read := true, write := true, glaze := none }
      from rfl]
    have : tM0.fnReach tFn = true := rfl
    simp [this, hl, tCtx]
  exact ⟨rfl, rfl, rfl, rfl, rfl, rfl, by decide, by decide, rfl,
    ⟨tM0, rfl, by rw [hr], by rw [hr]; exact hm, by rw [hr]; rfl⟩, rfl, h⟩

/-- So does every packet of the queue, which is empty (R125). -/
theorem wit_packet_mayStart (d : List Byte) : tM0.mayStart tQ tQueue d = true := by
  have h1 : tM0.overlapReady tQ tQueue = true := rfl
  have h2 : tQueue.prevDone = true := rfl
  have h3 : tQueue.running.any (fun p => pkType p.bytes == 1) = false := rfl
  simp [Main.mayStart, h1, h2, h3]

theorem wit_SyncPackets_reserved : pkType (tPkt []) = 0 ∧ pkType (tPkt [(0, 1, 10)]) = 10 ∧ (tPkt [(0, 1, 10)]).length = 64 := by
  decide +kernel

/-- A signal of the context's own fence, and one of module 9's. -/
def tSignal (target : Nat) : List Byte := tPkt [(0, 1, 4), (2, 1, 4), (4, 4, 0x40000), (8, 2, target), (0x10, 8, 6)]

theorem wit_SyncPackets_signal : pkType (tSignal 7) = 4 ∧ signalLegal (tSignal 7) = true ∧ (tTook tM0 (tSignal 7)).2.fab.module = 7 ∧
    (tTook tM0 (tSignal 7)).2.fenceOf 0x40000 = some tFence ∧ tFence.maySignal 7 7 3 = true ∧ tFence.live = true ∧
    signalLegal (tSignal 9) = true ∧ (tTook tM0 (tSignal 9)).2.routed 9 = true := by decide +kernel

theorem test_signal : goesTo (exec (.fenceSignalPacket tQ (tSignal 7)) tQ0)
    (fun t => (t.main.fenceOf 0x40000).map (·.value) == some 6) = true := by decide +kernel

def tFwait : List Byte := tPkt [(0, 1, 5), (2, 1, 4), (4, 4, 0x40000), (8, 8, 5)]

theorem wit_SyncPackets_wait : pkType tFwait = 5 ∧ fenceWaitLegal tFwait = true ∧
    (tTook tM0 tFwait).2.fenceOf (fieldAt tFwait 4 4) = some tFence ∧ tFence.mayWait 7 3 = true := by decide +kernel

def tCwait : List Byte := tPkt [(0, 1, 6), (2, 1, 4), (4, 2, 2), (8, 8, 5)]

theorem wit_SyncPackets_counter : pkType tCwait = 6 ∧ counterWaitLegal tCwait = true ∧
    (tTook tM0 tCwait).2.counterOf 2 = some { idx := 2, ctx := 3, value := 5, last := none } := by decide +kernel

/-- The counter has reached 5, so the packet completes: DONE moves to 1 (R382). -/
theorem test_counterWait : goesTo (exec (.counterWait tQ tCwait) tQ0)
    (fun t => (t.main.queueOf tQ).map (·.done) == some 1) = true := by decide +kernel

theorem wit_SyncPackets_barrier : pkType (tPkt [(0, 1, 7), (8, 8, 2)]) = 7 ∧ barrierLegal (tPkt [(0, 1, 7), (8, 8, 2)]) = true ∧
    pkType (tPkt [(0, 1, 9)]) = 9 ∧ markerLegal (tPkt [(0, 1, 9)]) = true ∧
    pkType (tPkt [(0, 1, 8), (2, 1, 3), (4, 4, 19)]) = 8 ∧ hintLegal (tPkt [(0, 1, 8), (2, 1, 3), (4, 4, 19)]) = true := by decide +kernel

/-- A lead of 19 µs counts as 20, a duration of 0 as 10 ms (R454). -/
theorem test_hint : goesTo (exec (.hint tQ (tPkt [(0, 1, 8), (2, 1, 3), (4, 4, 19)])) tQ0)
    (fun t => t.main.hints == [{ ctx := 3, kind := 3, start := 1020000, stop := 11020000, online := false }]) = true := by decide +kernel

/-! ### Launches, DMA packets, collectives -/

/-- The header of an image of one word of code, 8 registers, one bundle. -/
def tImage : List Byte := [(0, 4, 0x314B5843), (4, 2, 1), (8, 4, 512), (0x0C, 4, 256), (0x10, 4, 8), (0x20, 1, 8), (0x21, 1, 1)].foldl
  (fun d x => putAt d x.1 (toBytes x.2.1 x.2.2)) (List.replicate 256 0)

/-- A second extent of 256 MiB is the save pool. -/
def tPool : Context := { tCtx with pool := [16] }

def tM3 : Main := { tM0 with
  mem := { tM0.mem with cells := Cells.write [] 0 tImage, extents := [tExt, { tExt with idx := 1, base := 16, choff := 16, len := 128 }] }
  objs := { tM0.objs with ctxs := [tPool] } }

def tLaunch : List Byte := tPkt [(0, 1, 1), (1, 1, 8), (3, 1, 2), (0x18, 4, 3), (0x1C, 2, 1), (0x1E, 2, 1), (0x20, 1, 4)]

/-- What the image reader makes of the packet. -/
def tRead : Except Status (List Byte × List DWord) × Main := (tTook tM3 tLaunch).2.readImage 5 tLaunch

theorem wit_WorkPackets_launch : pkType tLaunch = 1 ∧ launchLegal tLaunch = true ∧
    (match tRead.1 with | .ok x => x == (tImage, []) | .error _ => false) = true ∧
    (let sp := launchSpec 0 false false true tLaunch tImage []
     tRead.2.poolReserved 3 + tRead.2.coreSetSize 5 true * maxResident sp * recordSize sp 8 ≤ tRead.2.poolBytes tPool) := by decide +kernel

/-- A request waits for the header's first line: the launch waits too (R208). -/
theorem wit_WorkPackets_imageHeld : (tTook tM3 tLaunch).2.imageHeld 5 tLaunch = false ∧
    (tTook { tM3 with coh := { tM3.coh with waiting := [.ur 0 .clean] } } tLaunch).2.imageHeld 5 tLaunch = true := by decide +kernel

theorem test_launch : goesTo (exec (.launch tQ tLaunch) (tQ0 tM3))
    (fun t => t.main.cores.launches.map (fun l => (l.todo, l.spec.regs)) == [([(0, 3)], 8)]) = true := by decide +kernel

/-- 16 bytes from host region 1 to the span. -/
def tDma : List Byte := tPkt [(0, 1, 2), (2, 1, 0), (3, 1, 4), (4, 4, 1), (0x10, 8, 0x200), (0x18, 8, 16)]

theorem wit_WorkPackets_dma : pkType tDma = 2 ∧ dmaLegal tDma = true ∧ tM0.engineFree tQ tQueue 31 = true ∧
    (tTook tM0 tDma).2.dmaRanges tCtx tDma = true ∧ (tTook tM0 tDma).2.dmaGlaze tDma = none := by decide +kernel

/-- An all-gather of one FP32 element of each pier. -/
def tColl : List Byte := tPkt [(0, 1, 3), (2, 1, 0x30), (3, 1, 4), (0x10, 8, 0x1000), (0x18, 8, 2), (0x20, 1, 0x99), (0x26, 2, 2)]

theorem wit_WorkPackets_collective : pkType tColl = 3 ∧ collLegal tColl = true ∧ (tTook tM0 tColl).2.recOf 5 = some tRec ∧
    (tTook tM0 tColl).2.collOk tCtx tColl tRec.tableInForce.length ((tTook tM0 tColl).2.spanRank 5) = true ∧
    ((tTook tM0 tColl).2.spanCores 5).isEmpty = false := by decide +kernel

theorem wit_WorkPackets_collHeld : (tTook tM0 tColl).2.collHeld tCtx tColl = false ∧
    (tTook { tM0 with coh := { tM0.coh with waiting := [.ur (2 ^ 25) .clean] } } tColl).2.collHeld tCtx tColl = true := by decide +kernel

/-- The element of this pier leaves for module 9. -/
theorem test_collective : goesTo (exec (.collective tQ tColl) tQ0)
    (fun t => t.main.colls.length == 1 && (t.main.fab.outbox.isEmpty || t.main.fab.outbox.length == 1)) = true := by decide +kernel

/-- A launch with two unstarted work groups on free core 0. -/
def tPend : Launch := { tL with todo := [(0, 2)], spec := { tSpec with cstore := 1, regs := 8 } }

def tM4 : Main := { tM3 with cores := { tM3.cores with launches := [tPend], nextLaunch := 2 } }

theorem wit_LaunchLife_admit : tM4.launchOf 1 = some tPend ∧ tM4.cores.units[0]? = some { good := true, inService := true, pos := 0, w := 0, lastSpan := 0 } ∧
    tPend.head = some (.fresh 0) ∧ tM4.launchRuns tPend = true ∧ tM4.slotOpen 3 = true ∧ tM4.coreOpen 5 0 = true ∧
    (tM4.onCore 0).length < 32 ∧ tM4.quadsFit 0 0 tPend.spec (.fresh 0) = true ∧ tM4.storeFits 0 1 ≠ [] ∧
    1 ≤ tM4.reserveRoom tPend := by decide +kernel

/-- The same launch, of all piers: module 9 takes its second work group as batch 2 (R124). -/
def tWide : Launch := { tPend with todo := [(1, 2)], spec := { tPend.spec with isLocal := false } }

def tM4w : Main := { tM4 with cores := { tM4.cores with launches := [tWide] } }

theorem wit_LaunchLife_hand : tM4w.launchOf 1 = some tWide ∧ tM4w.ctxOf 3 = some tPool ∧ tM4w.recOf 5 = some tRec ∧
    tRec.tableInForce[1]? = some 9 ∧ tM4w.launchRuns tWide = true ∧ tM4w.routed 9 = true ∧ tWide.batch (min 5 64) = ([], 1, 1) ∧
    tWide.coord = .queue ⟨3, 0⟩ 0 ∧ tWide.spec.isLocal = false ∧ 0 < 0 + min 1 (tM4w.reserveRoom tWide) := by
  decide +kernel

theorem test_workGroupHand : goesTo (exec (.workGroupAdmit 1 (.pier 1 5)) (tQ0 tM4w))
    (fun t => t.main.cores.launches.map (fun l => (l.todo, l.away)) == [([], [{ batch := 2, module := 9, told := false, pages := [], room := 1 }])]) = true := by
  decide +kernel

theorem wit_LaunchLife_preempt : tS.main.wgOf 1 = some tW ∧ tW.state = .running := ⟨rfl, rfl⟩

def tStop : WorkGroup := { tW with state := .saving }

/-- The work group has stopped, and its launch's save pool is the second extent; or module 9 coordinates its launch. -/
def tStop8 : WorkGroup := { tStop with bundles := [{ tB with v := List.replicate 256 0 }] }

def tLs (c : Coord) : Launch := { tL with coord := c, spec := { tSpec with cstore := 0, regs := 8 } }

def tM4s (c : Coord) : Main := { tM3 with
  mem := { tM3.mem with extents := [tExt, { tExt with idx := 1, base := 16, choff := 16, len := 1 }] }
  cores := { tM3.cores with wgs := [tStop8], nextWg := 2, launches := [tLs c], nextLaunch := 2 } }

theorem wit_LaunchLife_save : (tM4s tL.coord).wgOf 1 = some tStop8 ∧ (tM4s tL.coord).launchOf 1 = some (tLs tL.coord) ∧
    tStop8.state ≠ .running ∧ (tM4s tL.coord).drained tStop8 = true ∧ ((tM4s (.remote 9 4)).launchOf 1).map (·.coord) = some (.remote 9 4) := by
  decide +kernel

theorem wit_LaunchLife_save_pool :
    ((tM4s tL.coord).poolTake 3 (((tM4s tL.coord).saveRecord tStop8 (tLs tL.coord)).record.length / 4096)).isSome = true := by decide +kernel

/-- A launch that is over: nothing runs, nothing is pending. -/
def tDone : Launch := { tL with ended := 1 }

def tQRun : Queue := { tQueue with ridx := 1, running := [{ pidx := 0, bytes := tLaunch, tstart := 0, energy := 0, waiting := false, due := 0, after := [] }] }

def tM5 : Main := { tM0 with
  cores := { tM0.cores with launches := [tDone] }
  objs := { tM0.objs with queues := [tQRun] } }

theorem wit_LaunchLife_complete : tM5.launchOf 1 = some tDone ∧ tM5.launchOver tDone = true ∧ tDone.coord = .queue ⟨3, 0⟩ 0 ∧
    ({ tDone with coord := .remote 9 4 } : Launch).coord = .remote 9 4 ∧
    ({ tM5 with cores := { tM5.cores with launches := [{ tDone with coord := .remote 9 4 }] } } : Main).launchOver
      { tDone with coord := .remote 9 4 } = true := by decide +kernel

theorem test_launchComplete : goesTo (exec (.launchComplete 1) (tQ0 tM5))
    (fun t => (t.main.queueOf tQ).map (·.done) == some 1 && t.main.cores.launches.isEmpty) = true := by decide +kernel

theorem wit_LaunchLife_batch : tM0.recOf 5 = some tRec ∧ tM0.fenced 5 = false ∧
    ({ tM5 with cores := { tM5.cores with launches := [{ tL with away := [⟨2, 9, false, [], 0⟩] }] } } : Main).awayOf 2 =
      some { tL with away := [⟨2, 9, false, [], 0⟩] } := ⟨rfl, rfl, rfl⟩

/-- A context that waits for a slot, with slot 1 free. -/
theorem wit_LaunchLife_slot :
    let m : Main := { tM0 with objs := { tM0.objs with ctxs := [{ tCtx with state := .waiting, waitFrom := some 0 }], slots := List.replicate 48 none } }
    (longest (m.retireForeign.freeSlots.slotWaiters.filter m.retireForeign.freeSlots.queuesFit)).isSome = true ∧
      (List.range 48).find? (fun i => m.retireForeign.freeSlots.objs.slots[i]? == some none) = some 0 ∧
      tM0.retireForeign.freeSlots.slotWaiters = [] := by decide +kernel

/-! ### The ends of packets -/

def tDmaP : Packet := { pidx := 0, bytes := tDma, tstart := 0, energy := 0, waiting := false, due := 0, after := [] }

def tRun (st : DmaSt) (next : Nat) (reads : List ReadOut := []) : DmaRun :=
  { q := tQ, pidx := 0, fn := tFn, engine := 3, next := next, st := st, reads := reads, poisoned := false, tagBad := 0, failed := none
    late := [], retried := false, ver := 0 }

/-- Its one read in flight. -/
def tReadOut (drop : Bool) : ReadOut := { off := 0, len := 16, since := 0, used := [], inv := [], drop := drop }

def tRead1 (drop : Bool := false) : DmaRun := tRun .ready 16 [tReadOut drop]

def tM6 (d : DmaRun) : Main := { tM0 with
  objs := { tM0.objs with queues := [{ tQueue with ridx := 1, running := [tDmaP] }] }
  host := { tM0.host with dmas := [d], ports := [⟨true, false, 0, [{ fn := tFn, pasid := 1, page := 0x10000, size := 4096, rd := true, wr := true }]⟩, ⟨false, false, 0, []⟩] } }

theorem wit_PacketEnds_dma : (tM6 (tRun .ready 16)).dmaIdx tQ 0 = some 0 ∧
    (tM6 (tRun .ready 16)).dmaAt 0 = some (tRun .ready 16, tDmaP, tCtx) ∧ (tRun .ready 16).isOver (dmLen tDma) = true := by decide +kernel

theorem test_dmaComplete : goesTo (exec (.dmaComplete tQ 0) (tQ0 (tM6 (tRun .ready 16))))
    (fun t => t.main.host.dmas.isEmpty && (t.main.queueOf tQ).map (·.done) == some 1) = true := by decide +kernel

def tCollRun : CollRun :=
  { q := tQ, pidx := 0, span := 5, collId := 0, epoch := 1, rank := 0, piers := [7, 9], packet := tColl, parts := [], results := true
    flags := 0, poisoned := false, due := 100000000, ended := none }

def tM7 (r : CollRun) : Main := { tM0 with
  colls := [r]
  objs := { tM0.objs with queues := [{ tQueue with ridx := 1, running := [{ tDmaP with bytes := tColl }] }] } }

/-- Both piers' elements are here. -/
def tCollOver : CollRun := { tCollRun with parts := [⟨3, 1, 0, [], false⟩, ⟨1, 1, 1, toBytes 4 1, false⟩, ⟨2, 1, 0, [], false⟩] }

theorem wit_PacketEnds_coll : (tM7 tCollOver).colls.findIdx? (fun r => r.q == tQ && r.pidx == 0) = some 0 ∧
    (tM7 tCollOver).ctxOf 3 = some tCtx ∧ ((tM7 tCollOver).queueOf tQ).isSome = true ∧ tCollOver.isOver = true ∧
    ({ tCollRun with ended := some .notPermitted } : CollRun).isOver = true ∧
    (tM7 tCollRun).collIdx 5 0 = some 0 ∧ (tM7 tCollRun).collWaits 0 = false ∧ tCollRun.isOver = false := by decide +kernel

theorem wit_PacketEnds_data : (tM6 tRead1).dmaIdx tQ 0 = some 0 ∧ (tM6 tRead1).dmaAt 0 = some (tRead1, tDmaP, tCtx) ∧
    (tM6 tRead1).host.dmas[0]? = some tRead1 ∧ tRead1.readAt 0 = some (tReadOut false) ∧ (tRead1 true).readAt 0 = some (tReadOut true) ∧
    ((tM6 tRead1).regionOf (dmRegion tDma)).map (·.glaze) = some none ∧ (tM6 tRead1).spanBlocked 5 0x200 16 = false ∧
    ((tM6 tRead1).fnOf tFn).map (·.timeout) = some 0 := by decide +kernel

theorem test_hostRead : goesTo (exec (.hostReadCompletion tQ 0 0 (.data (toBytes 16 77) 0 false)) (tQ0 (tM6 tRead1)))
    (fun t => Cells.read t.main.mem.cells 0x200 16 == toBytes 16 77 && t.main.host.dmas.map (·.reads) == [[]]) = true := by decide +kernel

/-- A run that waits for the translation of its page, at address 0x10000. -/
def tM6t (late : List AtsInv) : Main :=
  let m := tM6 { tRun (.translating 100000000 0x10000) 0 with late := late }
  { m with host := { m.host with ports := tM0.host.ports, fns := modNth m.host.fns 0 (fun f => { f with ats := true }) } }

def tInv : AtsInv := { port := 0, itag := 0, fn := tFn, pasid := some 1, base := 0x10000, len := 4096, all := false }

theorem wit_PacketEnds_translating : (tM6t []).dmaAt 0 = some (tRun (.translating 100000000 0x10000) 0, tDmaP, tCtx) ∧ ((tM6t []).fnOf tFn).isSome = true ∧
    ((tM6t []).lookupAll 3 tFn 1 (dmDir tDma == 1) [0x10000]).1 = some 0x10000 ∧
    outdated [tInv] tFn 1 (0x10000 / 4096 * 4096) 4096 = true := by decide +kernel

/-- The Translation Request is not answered by its due time (R352). -/
theorem test_translationTimeout : goesTo (exec (.completionTimeout (.packet tQ 0) false 0) (tQ0 (tM6t [])))
    (fun t => t.main.time == 100000000 && t.main.host.dmas.map (·.failed) == [some .faultUnresolved]) = true := by decide +kernel

theorem wit_PacketEnds_faulted : (tRun (.faulted 5 true) 0).st = .faulted 5 true ∧
    (tM6 (tRun (.faulted 5 true) 0)).dmaAt 0 = some (tRun (.faulted 5 true) 0, tDmaP, tCtx) := by decide +kernel

/-- A mirror that waits for its translation, or on a page fault (R353). -/
def tPut (st : DmaSt) : HostPut :=
  { num := 2, fn := tFn, pasid := 1, addr := 0x10008, data := toBytes 8 4, owner := .mirror 0x40000, st := st, retried := false, late := [] }

theorem wit_PacketEnds_put : ({ tM0 with host := { tM0.host with puts := [tPut (.translating 100000000 0x10008)] } } : Main).putAt 2 = some (tPut (.translating 100000000 0x10008)) ∧
    ({ tM0 with host := { tM0.host with puts := [tPut (.faulted 5 true)] } } : Main).putAt 2 = some (tPut (.faulted 5 true)) ∧
    (tM0.fnOf tFn).isSome = true ∧ (tPut (.faulted 5 true)).owner.writes = true ∧ (tPut (.faulted 5 true)).late = [] := by decide +kernel

/-! ### Engines -/

/-- Engine e with a descriptor at the head of its queue. -/
def tM8 (e op : Nat) (run : Option EngRun) : Main := { tM2 with
  eng := modNth tM2.eng e (fun _ => { queue := [{ tEngDesc with bytes := tPkt [(0, 1, op)] }], run := run }) }

theorem wit_DescriptorLife : (tM8 0 1 none).engHead 0 = some { tEngDesc with bytes := tPkt [(0, 1, 1)] } ∧ dsOp (tPkt [(0, 1, 1)]) = 1 ∧
    (tM8 64 2 none).engHead 64 = some { tEngDesc with bytes := tPkt [(0, 1, 2)] } ∧ dsOp (tPkt [(0, 1, 2)]) = 2 ∧
    (tM8 0 3 none).engHead 0 = some { tEngDesc with bytes := tPkt [(0, 1, 3)] } ∧ dsOp (tPkt [(0, 1, 3)]) = 3 ∧
    (tM8 0 0 none).engHead 0 = some { tEngDesc with bytes := tPkt [(0, 1, 0)] } ∧
    tM2.engBlocked tEngDesc false 0 64 = false ∧ tM2.engBlocked tEngDesc true 0 64 = false := by decide +kernel

/-- Legal descriptors: a gather of one row of 16 bytes of a table of 2 rows, a sampler over 64 logits, a GET of one row. -/
def tGather : List Byte := tPkt [(0, 1, 1), (1, 1, 9), (2, 1, 0x90), (0x10, 8, 2), (0x20, 8, 0x400), (0x28, 4, 1), (0x2C, 2, 1), (0x2E, 2, 1)]

def tSample : List Byte := tPkt [(0, 1, 2), (1, 1, 0x90), (0x20, 4, 64), (0x28, 4, 0x3F800000), (0x30, 4, 0x3F800000)]

def tStream : List Byte := tPkt [(0, 1, 3), (4, 2, 1), (6, 2, 1), (0x18, 4, 16), (0x1C, 4, 1)]

theorem wit_DescriptorLife_legal : tM2.gaLegal { tEngDesc with bytes := tGather } = true ∧
    tM2.saLegal { tEngDesc with bytes := tSample } = true ∧ tM2.stLegal { tEngDesc with bytes := tStream } = true ∧
    tM2.gaLegal { tEngDesc with bytes := tPkt [(0, 1, 1)] } = false ∧ tM2.saLegal { tEngDesc with bytes := tPkt [(0, 1, 2)] } = false ∧
    tM2.stLegal { tEngDesc with bytes := tPkt [(0, 1, 3)] } = false := by decide +kernel

/-- The row at index 0 goes to the destination. -/
theorem test_gather :
    let m : Main := { tM2 with
      mem := { tM2.mem with cells := Cells.write [] 0 (toBytes 16 12345) }
      eng := modNth tM2.eng 0 (fun _ => { queue := [{ tEngDesc with bytes := putAt tGather 0x18 (toBytes 8 0x1000) }], run := none }) }
    goesTo (exec (.gatherDescriptor 0) (tQ0 m)) (fun t => goesTo (exec (.descriptorEnd 0) t)
      (fun t => Cells.read t.main.mem.cells 0x400 16 == toBytes 16 12345)) = true := by decide +kernel

theorem wit_DescriptorLife_end : EngRun.refused.finished = true ∧
    (tM8 0 1 (some .refused)).eng[0]? = some { queue := [{ tEngDesc with bytes := tPkt [(0, 1, 1)] }], run := some .refused } ∧
    (tM8 0 1 (some .refused)).outBlocked false { tEngDesc with bytes := tPkt [(0, 1, 1)] } .refused = false := by
  decide +kernel

/-! ### Messages -/

def tMsg (op : Nat) (data : List Byte) : Msg :=
  { op := op, dest := 7, src := 9, span := 5, epoch := 1, hops := 1, ord := false, tag := 0, data := data, poison := false, rr := none }

/-- The request word: an address and a length less 1. -/
def tAsk (addr n lc : Nat) : List Byte := toBytes 8 ((n - 1) * 2 ^ 52 + addr) ++ toBytes 2 (lc * 4) ++ toBytes 6 0

def tArr (g : Msg) (m : Main := tM0) : Main := { m with fab := { m.fab with arrived := [g] } }

theorem wit_RequestResults_rd :
    let g := tMsg 0x01 (tAsk 64 16 0)
    (tArr g).takeMsg g = some tM0 ∧ (tArr g).inOrder g = true ∧ rqFields g false = true ∧ rqSmall g = true ∧ g.data.length = 16 :=
  ⟨rfl, rfl, by decide +kernel, by decide +kernel, rfl⟩

theorem wit_RequestResults_check :
    (match tM0.serveCheck (tMsg 0x01 (tAsk 64 16 0)) 16 with | .go => true | _ => false) = true ∧
    (match tM0.serveCheck { tMsg 0x01 (tAsk 64 16 0) with epoch := 2 } 16 with | .err .epochStale => true | _ => false) = true ∧
    tM0.recOf 6 = none ∧ tRec.phase = .stable ∧ tRec.current.valid = true ∧ msgReserved (tMsg 0x01 (tAsk 64 16 0)) = false ∧
    tM0.spanBlocked 5 64 16 = false := by decide +kernel

/-- A request that waits for the line: this one takes its place behind it, once (R208). -/
theorem wit_RequestResults_held :
    let g := tMsg 0x01 (tAsk 64 16 0)
    let m : Main := { tM0 with coh := { tM0.coh with waiting := [.ur 0 .clean] } }
    tM0.spanHeld (some (.message g)) 5 64 16 = false ∧ (tArr g m).inOrder g = true ∧ msgReserved g = false ∧
      (tArr g m).spanHeld (some (.message g)) 5 (rqAddr g) (rqBytes g) = true ∧ (tArr g m).hasTurns g = false ∧
      goesTo (exec (.rd g) (tQ0 (tArr g m))) (fun t => t.main.coh.waiting.length == 2 && t.main.hasTurns g) = true := by decide +kernel

theorem wit_RequestResults_bulk : rqBulk (tMsg 0x03 (tAsk 0 4096 0)) = true ∧ rqFields (tMsg 0x03 (tAsk 0 4096 0)) false = true ∧
    rqBulk (tMsg 0x31 (tAsk 0 4080 2 ++ List.replicate 4080 0)) = true ∧ rqBytes (tMsg 0x31 (tAsk 0 4080 2)) = 4080 ∧
    (tMsg 0x31 (tAsk 0 4080 2 ++ List.replicate 4080 0)).data.length = 16 + 4080 := by decide +kernel

theorem wit_RequestResults_wr : rqSmall (tMsg 0x30 (tAsk 64 8 2 ++ toBytes 16 9)) = true ∧
    rqFields (tMsg 0x30 (tAsk 64 8 2 ++ toBytes 16 9)) true = true ∧ (tMsg 0x30 (tAsk 64 8 2 ++ toBytes 16 9)).data.length = 32 ∧
    tM0.lcLands 5 2 = true ∧ tM0.lcLands 5 1 = false := by decide +kernel

theorem wit_RequestResults_atom : atomOpOf 0x10 = some .add ∧ (tM0.mem.translate 5 64).isSome = true ∧
    rqSmall (tMsg 0x10 (tAsk 64 8 0 ++ toBytes 16 9)) = true := by decide +kernel

/-- The write lands and its counter advances by its bytes (R290). -/
theorem test_wr : goesTo (exec (.wr (tMsg 0x30 (tAsk 64 8 2 ++ toBytes 16 9))) (tQ0 (tArr (tMsg 0x30 (tAsk 64 8 2 ++ toBytes 16 9)))))
    (fun t => Cells.read t.main.mem.cells 64 8 == toBytes 8 9 && (t.main.counterOf 2).map (·.value) == some 13) = true := by decide +kernel

def tTrack : TrackEntry :=
  { bank := 0, entry := 0, gen := 0, reissued := false, retry := 0, dest := 9, span := 5, epoch := 1, issuer := 0, slot := 0, op := 0x30
    len := 8, addr := 64, deadline := 2000000, lc := 0, ord := false, rank := 1, data := toBytes 8 9, poison := false, rr := none
    who := .nobody }

def tM9 : Main := { tM0 with fab := { tM0.fab with entries := [tTrack] } }

theorem wit_RequestResults_answers : tM9.matchTrack (tMsg 0x22 []) = some tTrack ∧ tM0.matchTrack (tMsg 0x22 []) = none ∧
    Status.ofCode (fieldAt (toBytes 16 0x22) 0 2) = some .saggerClosed ∧ Status.ofCode (fieldAt (toBytes 16 0x30) 0 2) = some .epochStale ∧
    tTrack.retry ≠ 3 ∧ ofBytes (toBytes 16 (2 ^ 39)) / 2 ^ 39 % 2 = 1 ∧
    ofBytes (toBytes 16 (2 ^ 39)) / 2 ^ 56 % 2 ^ 72 = 0 ∧ ofBytes (toBytes 16 (2 ^ 39)) % 2 ^ 13 = 0 ∧ ofBytes (toBytes 16 1) % 2 ^ 13 ≠ 0 := by decide +kernel

theorem test_wack : goesTo (exec (.wack (tMsg 0x22 [])) (tQ0 (tArr (tMsg 0x22 []) tM9)))
    (fun t => t.main.fab.entries.isEmpty && t.main.fab.gens == [(0, 1)]) = true := by decide +kernel

theorem wit_OtherMessages : (tM7 tCollRun).collWaits 0 = false ∧ tM0.collIds = [] ∧ msgReserved (tMsg 0x50 (toBytes 16 0)) = false ∧
    (tM7 tCollRun).collIdx 5 (fieldAt (toBytes 16 0) 0 4) = some 0 ∧ tM0.collIdx 5 0 = none ∧
    opChannel 0x02 = none ∧ opChannel 0x01 = some 0 ∧ opChannel 0x30 = some 3 ∧ opChannel 0x20 = some 1 := by decide +kernel

/-! ### Lanes, optics, time -/

/-- A data flit of zeros with LSEQ n and its CRC. -/
def tFlit (n : Nat) : Flit :=
  { hdr := BitVec.ofNat 128 (n * 2 ^ 84 + 15 * 2 ^ 60 + (flitCrc (n * 2 ^ 84 + 15 * 2 ^ 60) (List.replicate 240 0)).toNat * 2 ^ 96)
    payload := List.replicate 240 0, fec := .clean, poison := false, rr := none }

/-- The same as it left its transmitter. -/
def tOut (n : Nat) : OutFlit := { flit := tFlit n, span := 5, hops := 1 }

def tLane : Lane := { Lane.reset 0 with st := .active, farModule := 9 }

set_option maxRecDepth 20000 in
theorem wit_FlitResults : tM0.fab.lanes[0]? = some tLane ∧ tM0.sparingOf 0 = none ∧ tM0.takesFrom 0 tLane 0 = true ∧ tM0.takesFrom 0 tLane 8 = false ∧
    flitGood (tFlit 0) = true ∧ fhLseq (tFlit 0).hdr = tLane.rxSeq ∧
    flitGood { tFlit 0 with fec := .uncorrectable } = false ∧ flitGood { tFlit 0 with fec := .corrected } = true ∧
    tM0.laneTests 0 = false ∧ fhLseq (tFlit 1).hdr ≠ tLane.rxSeq ∧
    fhKind (BitVec.ofNat 128 (2 * 2 ^ 64)) = 2 ∧ fhKind (BitVec.ofNat 128 (3 * 2 ^ 64)) = 3 ∧ fhKind (BitVec.ofNat 128 (2 ^ 64)) = 1 := by
  decide +kernel

/-- Engine 0 is looped and lit, its lanes off: the flits that come are only counted (R522). -/
def tLoopM : Main := { tM0 with fab := { tM0.fab with
  lanes := modNth tM0.fab.lanes 0 (fun _ => { Lane.reset 0 with st := .off })
  engines := modNth tM0.fab.engines 0 (fun _ => { OptEngine.reset with laserOn := true, loopback := 1 }) } }

theorem wit_FlitResults_loop : tLoopM.fab.lanes[0]? = some { Lane.reset 0 with st := .off } ∧ tLoopM.laneTests 0 = true ∧
    (tLoopM.optOf 0).pattern = 0 ∧ goesTo (exec (.idle 0 (BitVec.ofNat 128 (2 ^ 64)) false) (tQ0 tLoopM)) (fun t => t.main.tele == [(teleId 3 4 0, 1)]) = true := by
  decide +kernel

set_option maxRecDepth 20000 in
/-- The flit expected is taken, the next one is not and is answered NAK (R254). -/
theorem test_dataFlit : goesTo (exec (.dataFlit 0 0 (tFlit 0)) tQ0) (fun t => t.main.fab.lanes[0]?.map (·.rxSeq) == some 1) = true ∧
    goesTo (exec (.dataFlit 0 0 (tFlit 1)) tQ0) (fun t => t.main.fab.lanes[0]?.map (fun l => (l.rxSeq, l.nakSent)) == some (0, true)) = true := by
  decide +kernel

/-- Lane 0 as given, engine 0 as given. -/
def tLn (l : Lane) (o : OptEngine := OptEngine.reset) : Main := { tM0 with
  fab := { tM0.fab with lanes := modNth tM0.fab.lanes 0 (fun _ => l), engines := modNth tM0.fab.engines 0 (fun _ => o) } }

/-- Engine 0 is lit, with its spare free, and its bit is set in the lane's group. -/
def tSpareM : Main :=
  let m := tLn { tLane with replay := [tOut 0] } { OptEngine.reset with laserOn := true, spare := .standby }
  { m with fab := { m.fab with groups := [{ num := 0, neighbour := 9, spares := 1, lanes := 1 }] } }

theorem wit_LaneRecovery_fail : (tLn { tLane with replay := [tOut 0], resends := 8 }).fab.lanes[0]?.map (fun l => (l.st, l.replay.length, l.resends)) =
    some (.active, 1, 8) ∧ tM0.procOut (fabProc 0) = false ∧ tM0.spareFree 0 = false ∧ tSpareM.spareFree 0 = true ∧
    tSpareM.fab.lanes[0]?.map (fun l => (l.st, l.replay.length, l.resends)) = some (.active, 1, 0) := by decide +kernel

/-- A spare for lane 0 begun, with what each end has named. -/
def tSparing (hitless known trained : Bool) (cut : Option Nat := none) : Sparing :=
  { lane := 0, hitless := hitless, known := known, trained := trained, lseq := cut.map (fun _ => 0), cut := cut }

def tSp (r : Sparing) : Main := tLn tLane { OptEngine.reset with laserOn := true, sparing := some r }

theorem wit_LaneRecovery_spare : (tSp (tSparing false true false)).sparingOf 0 = some (tSparing false true false) ∧
    (tSp (tSparing false true false)).procOut (fabProc 0) = false ∧
    (tSp (tSparing true true false)).sparingOf 0 = some (tSparing true true false) ∧ (tSp (tSparing true true false)).laneDark 0 = false ∧
    (tSp (tSparing true true true (some 0))).sparingOf 0 = some (tSparing true true true (some 0)) ∧
    (tSp (tSparing true true true (some 0))).fab.lanes[0]? = some tLane ∧ tLane.replay = [] ∧ tLane.resends = 0 ∧ seqFrom 0 tLane.rxSeq = true ∧
    (tLn tLane { OptEngine.reset with laserOn := true, takeover := true }).laneDark 0 = true := by decide +kernel

/-- A spare is being trained for lane 0, hitless or abruptly, when the far end asks for one (R273). -/
theorem test_spareRequest : goesTo (exec (.spareRequest ⟨0, true⟩) (tQ0 (tSp (tSparing true true false))))
    (fun t => (t.main.sparingOf 0).map (·.hitless) == some false && !t.main.laneActive 0) = true ∧
    goesTo (exec (.spareRequest ⟨0, true⟩) (tQ0 (tSp (tSparing false true false)))) (fun t => (t.main.sparingOf 0).map (·.hitless) == some false) = true := by
  decide +kernel

/-- During a hitless spare the old lane is heard up to the LSEQ that the far end named, here 5 (R270). -/
theorem wit_LaneRecovery_cut : (tSp (tSparing true true true (some 5))).takesFrom 0 tLane 0 = true ∧
    (tSp (tSparing true true true (some 5))).takesFrom 0 tLane 8 = true ∧
    (tSp (tSparing true true true (some 5))).takesFrom 0 { tLane with rxSeq := 5 } 0 = false ∧
    (tSp (tSparing true true true (some 5))).takesFrom 0 tLane 3 = false := by decide +kernel

/-- The spare's identity exchange passes only when its far end is the spare lane, 8, of the engine that the lane leads to (R275). -/
theorem test_spareIdentity : goesTo (exec (.identityExchange 0 ⟨9, 0, 8⟩ ⟨9, 0, 8⟩ 40) (tQ0 (tSp (tSparing true false false))))
    (fun t => t.main.sparingOf 0 == some (tSparing true true false)) = true ∧
    goesTo (exec (.identityExchange 0 ⟨9, 1, 8⟩ ⟨9, 1, 8⟩ 40) (tQ0 (tSp (tSparing true false false))))
      (fun t => t.main.sparingOf 0 == none && (t.main.optOf 0).spare == .standby) = true ∧
    goesTo (exec (.identityExchange 0 ⟨8, 0, 8⟩ ⟨8, 0, 8⟩ 40) (tQ0 (tSp (tSparing true false false))))
      (fun t => t.main.sparingOf 0 == none && (t.main.optOf 0).spare == .miswired) = true := by decide +kernel

theorem wit_LaneRecovery_train : ((tLn tLane { OptEngine.reset with laserOn := true }).optOf 0).laserOn = true ∧
    (tLn { tLane with st := .training }).laneGroup 1 = none ∧ (tLn { tLane with st := .training }).procOut (fabProc 0) = false ∧
    (tLn { tLane with st := .training }).laneGroup 0 = some { num := 0, neighbour := 9, spares := 0, lanes := 1 } := by decide +kernel

theorem test_identity : goesTo (exec (.identityExchange 0 ⟨9, 0, 0⟩ ⟨9, 0, 0⟩ 40) (tQ0 (tLn { tLane with st := .training })))
    (fun t => t.main.laneActive 0) = true ∧
    goesTo (exec (.identityExchange 0 ⟨8, 0, 0⟩ ⟨8, 0, 0⟩ 40) (tQ0 (tLn { tLane with st := .training })))
      (fun t => t.main.fab.lanes[0]?.map (·.st) == some .miswired) = true := by decide +kernel

theorem wit_OpticsAndMap : (tM0.optOf 15).latchClosed = true ∧ tM0.procOut (fabProc (tSparing false true true).lane) = false ∧ (tM0.optOf 15).laserOn = false ∧ (tM0.optOf 15).sourceFailed = false ∧
    ((tLn tLane { OptEngine.reset with latchClosed := false }).optOf 0).latchClosed = false ∧
    ((tLn tLane { OptEngine.reset with takeover := true }).optOf 0).takeover = true ∧ tM0.rcv.mainRails = true ∧
    (tSparing false true true).trained = true ∧ (tSparing false true true).hitless = false ∧
    ({ tM0 with fab := { tM0.fab with mapped := false } } : Main).fab.mapped = false ∧ tM0.rcv.phase = .running ∧
    mapLegal { module := 7, root := 7, groups := [(0, 9, 0, 1)], routes := [(9, false, [(0, 4)]), (7, true, [])] } = true := by decide +kernel

theorem test_laserRelight : goesTo (exec (.laserRelight 0) (tQ0 (tLn { Lane.reset 0 with st := .off })))
    (fun t => (t.main.optOf 0).laserOn && t.main.fab.lanes[7]?.map (·.st) == some .calibrating) = true := by decide +kernel

/-- This module is not the root; module 9 is a timing neighbour. -/
def tFollow : Main := { tM0 with fab := { tM0.fab with root := 9 } }

theorem wit_FabricTime : (tM0.fab.groups.any fun g => g.neighbour == 9 && !(tM0.activeIn g).isEmpty) = true ∧ tM0.fab.root = tM0.fab.module ∧
    tFollow.fab.root ≠ tFollow.fab.module ∧ tFollow.fab.syncing = false ∧ tFollow.timingNeighbour 9 = true ∧ tFollow.fab.timeState = .locked ∧
    ({ tFollow.fab with syncOn := true } : Fab).syncing = true := by decide +kernel

theorem test_holdover : goesTo (exec .holdover (tQ0 tFollow)) (fun t => t.main.fab.timeState == .holdover && t.main.time == 10000000) = true := by
  decide +kernel

/-! ### Messages of the module's own -/

theorem wit_ControlMessages : tM0.peers.contains 9 = true ∧ tM0.peers.contains 8 = false ∧ 300000 % 100000 = 0 ∧
    ({ tM0 with rcv := { tM0.rcv with aborts := [(5, 2 ^ 16 - 1)] } } : Main).abortNum 5 = 2 ^ 16 - 1 ∧
    (0x7FFE + 2 ^ 16 - (2 ^ 16 - 1)) % 2 ^ 16 = 0x7FFF ∧ (0x7FFF + 2 ^ 16 - (2 ^ 16 - 1)) % 2 ^ 16 = 0x8000 ∧
    tM0.fab.groups.filter (fun g => g.neighbour == 9 && !(tM0.activeIn g).isEmpty) = tM0.fab.groups ∧
    (tM0.fab.groups.any fun g => g.neighbour == 8) = false := by decide +kernel

/-- An abort number ahead of this module's is taken up, across the wrap (R471, R472). -/
theorem test_abort :
    let s := tQ0 { tM0 with rcv := { tM0.rcv with aborts := [(5, 2 ^ 16 - 1)] } }
    goesTo (exec (.abort 5 (BitVec.ofNat 128 (3 * 2 ^ 48 + 0x10 * 2 ^ 40 + 9 * 2 ^ 27))) s) (fun t => t.main.abortNum 5 == 3 && t.main.fenced 5) = true := by
  decide +kernel

theorem wit_ControlMessages_answer :
    let m : Main := { tM0 with objs := { tM0.objs with queues := [{ tQueue with ridx := 1, running := [{ tDmaP with bytes := tSignal 9, waiting := true }] }] } }
    (m.signalPacket (packetNum tQ 0)).isSome = true := by decide +kernel

/-! ### Coherence -/

/-- A home state with one copy of line 4 in an agent's cache. -/
def tCoh (agent : Nat) (st : CopyState) (d : DirState) : Main := { tM0 with
  coh := { Coh.reset with
    copies := [{ agent := agent, line := 4, way := 0, st := st, data := List.replicate 128 1, poison := false, written := [], rr := none }]
    dir := [{ line := 4, set := 0, st := d, sharers := .agents [agent], owner := agent, busy := false }] } }

theorem wit_HomeRequests : tM0.mem.backed (4 * 128) = true ∧ tM0.lineBlocked 4 = false ∧ tM0.coh.copyOf 0 4 = none ∧ isL2 0 = false ∧
    (tCoh 0 .s .shared).coh.copyOf 0 4 ≠ none ∧ isL2 9 = true ∧ tM0.inOwnExtent 9 4 = true ∧
    (516 % 4 = 0 ∧ 516 / 128 = 4) ∧ 127 + [(0 : Byte)].length ≤ 128 ∧ tM0.coh.waiting = [] ∧ 0 ∉ tM0.coh.dead := by decide +kernel

/-- Line 4 has a request that waits: the next one for it waits behind it, in the order of arrival (R208). -/
def tMwait : Main := { tM0 with coh := { tM0.coh with waiting := [.ur 4 .clean] } }

theorem wit_HomeRequests_wait : tMwait.mem.backed (4 * 128) = true ∧ (∃ x ∈ tMwait.coh.waiting, x.line = 4) ∧
    (tMwait.coh.waiting.filter (fun x => homeOf x.line == homeOf 4)).length < 1024 ∧ tMwait.coh.copyOf 0 4 = none := by
  refine ⟨by decide +kernel, ⟨_, List.Mem.head _, rfl⟩, by decide +kernel, by decide +kernel⟩

theorem test_wait : goesTo (exec (.readShared 0 4 .clean none) (tQ0 tMwait))
    (fun t => t.main.coh.waiting == [.ur 4 .clean, .rd 0 4 .clean none]) = true := by decide +kernel

theorem test_readShared : goesTo (exec (.readShared 0 4 .clean none) tQ0) (fun t => (t.main.coh.copyOf 0 4).map (·.st) == some .e) = true := by
  decide +kernel

/-- An atomic on the owner's line takes it home first: 0x01010101 + 1. -/
theorem test_homeAtomic : goesTo (exec (.homeAtomic 512 .add 4 1 0) (tQ0 (tCoh 1 .m .ownedDirty)))
    (fun t => (t.main.coh.bufOf 4).map (fun b => b.data.take 4) == some [2, 1, 1, 1]) = true := by decide +kernel

theorem test_iwf : goesTo (exec (.iwf 4 (List.replicate 128 7)) (tQ0 (tCoh 1 .m .ownedDirty)))
    (fun t => t.main.mem.line 4 == List.replicate 128 7 && t.main.coh.entryOf 4 == none) = true := by decide +kernel

theorem wit_WholeLineWrite : tM0.mem.wf = true ∧ tM0.lineBlocked 4 = false ∧ tM0.coh.waiting = [] ∧ goesTo (exec (.iwf 4 (List.replicate 128 7)) tQ0) (fun _ => true) = true := by decide +kernel

theorem wit_CoherenceNotices : ((tCoh 1 .e .ownedClean).coh.copyOf 1 4).map (·.st) = some .e ∧
    ((tCoh 1 .m .ownedDirty).coh.copyOf 1 4).map (·.st) = some .m ∧ ((tCoh 1 .m .ownedDirty).coh.entryOf 4).map (·.st) = some .ownedDirty ∧
    ((tCoh 1 .m .ownedDirty).coh.entryOf 4).map (·.owner) = some 1 ∧ 1 ∉ (tCoh 1 .m .ownedDirty).coh.dead ∧ (tCoh 1 .m .ownedDirty).coh.waiting = [] ∧
    ((tCoh 1 .s .shared).coh.entryOf 4).map (·.st) = some .shared ∧
    (tCoh 1 .m .ownedDirty).lineBlocked 4 = false ∧ 1535 + 1 ≤ 1536 ∧ 319 ∉ tM0.coh.dead ∧ tM0.coh.reclaim.length < 5 ∧
    ((191, 1535, 1) ∈ ({ Coh.reset with walks := [(191, 1535, 1)] } : Coh).walks) ∧ ({ Coh.reset with reclaim := [3] } : Coh).reclaim = 3 :: [] := by
  decide +kernel

theorem test_writeBack : goesTo (exec (.writeBack 1 4) (tQ0 (tCoh 1 .m .ownedDirty)))
    (fun t => t.main.mem.line 4 == List.replicate 128 1 && t.main.coh.copies.isEmpty) = true := by decide +kernel

/-! ### The shared parts and the channels -/

theorem wit_SharedPartErrors : tM9.fab.entries.find? (fun e => e.bank == 0 && e.entry == 0) = some tTrack ∧
    tM0.freeEntry ≠ none ∧ tM0.fab.banks[17]? = some .spare ∧ tM0.rcv.crossings[1]? = some true ∧ tM0.fab.banks[17]? ≠ some .retired ∧
    ({ tM0.coh with bufs := [{ line := 4, data := [], poison := false, whole := false, rr := none }] } : Coh).bufOf 4 ≠ none ∧
    ({ tM0 with rcv := { tM0.rcv with swaps := [{ cluster := 0, core := 2, since := 0, bad := false }] } } : Main).rcv.swaps.find?
      (fun x => x.cluster == 0) = some { cluster := 0, core := 2, since := 0, bad := false } ∧ tM0.clusterStill 0 = true ∧
    tM0.rcv.handlings.any (fun h => h.sagger == tM0.clusterSagger 0 && h.step != .reset) = false ∧
    tM0.comp.recs.any (fun r => r.handovers.any fun h => h.kind == .core && h.num == 0 && h.leave && !h.complete) = false := by decide +kernel

theorem wit_SharedPartErrors_waits :
    let w : WaitReq := { issuer := 0, slot := 0, span := 5, rank := 1, op := 1, addr := 0, len := 4, data := [], poison := false, ord := false, lc := 0, rr := none, who := .nobody }
    ({ tM0 with fab := { tM0.fab with waitReqs := [w] } } : Main).fab.waitReqs ≠ [] := by decide +kernel

theorem test_timer : goesTo (exec (.requestTimerExpiry 0 0) (tQ0 tM9)) (fun t => t.main.fab.entries.isEmpty && t.main.time == 2000000) = true := by
  decide +kernel

/-- Channel 1 retires into spare channel 191. -/
def tEvac (copied : Bool) : Main := { tM0 with
  mem := { tM0.mem with channels := modNth tM0.mem.channels 1 (fun c =>
    { c with state := .evacuating, repl := some 191, copied := copied }) } }

theorem wit_ChannelResults : (tM0.chan 1).state = .bound ∧ tM0.allocated 4 = true ∧ 4 * 128 / 2 ^ 32 = 0 ∧
    tM0.coh.reclaim = [] ∧ (∀ e ∈ tM0.mem.extents, e.held = true → e.mask.getLsbD 5 = false) ∧
    ((5, ZeroFor.release) ∈ ({ tM0.mem with zeroing := [(5, .release)] } : Memory).zeroing) ∧
    ({ tM0.mem with extents := [{ tExt with state := .zeroing }] } : Memory).extents.find? (fun e => e.idx == 0 && e.state == .zeroing) =
      some { tExt with state := .zeroing } ∧ tM0.retirable 1 = true ∧
    ((tEvac false).chan 1).repl = some 191 ∧ ((tEvac false).chan 1).copied = false ∧ ((tEvac true).chan 1).copied = true ∧
    (List.range 192).find? (fun y => ((tEvac false).chan y).repl == some 191) = some 1 ∧ (∀ y < 192, (tM0.chan y).repl ≠ some 1) := by
  decide +kernel

/-- 1,025 corrected errors in the last 24 hours require retirement at the default threshold of 1,024 (R197, R198). -/
theorem wit_ChannelResults_due :
    ({ tM0 with mem := { tM0.mem with channels := modNth tM0.mem.channels 1 (fun c => { c with corrected := List.replicate 1025 1000000 }) } } : Main).mustRetire 1 = true := by
  decide +kernel

theorem test_zeroed : goesTo (exec (.zeroingComplete (.extent 0)) (tQ0 { tM0 with
    mem := { tM0.mem with cells := [(5, 9)], extents := [{ tExt with state := .zeroing }], zeroing := [(0, .extent 0)] } }))
    (fun t => t.main.mem.cells.isEmpty && t.main.mem.extents == [tExt]) = true := by decide +kernel

/-! ### The host interface -/

/-- The window's segment 0 leads to the first 4 KiB of the span. -/
def tWin : FnRec := { FnRec.reset tFn with memEnable := true, segs := [{ idx := 0, wr := true, span := 5, wbase := 0, sbase := 0, len := 1 }] }

def tMw (r : FnRec) : Main := { tM0 with host := { tM0.host with fns := modNth tM0.host.fns 0 (fun _ => r) } }

theorem wit_WindowResults : (tMw tWin).fnOf tFn = some tWin ∧ (tMw tWin).fnReach tFn = true ∧
    (match (tMw tWin).window tWin 0 16 with | .mem g => g.wr && !(tMw tWin).spanBlocked 5 (g.addr 0) 16 | _ => false) = true ∧
    (match tM0.window (FnRec.reset tFn) 0 16 with | .none => true | _ => false) = true ∧
    (match ({ tMw tWin with rcv := { tM0.rcv with dev := some { recId := none, since := 0, cold := false } } } : Main).window tWin 0 16 with
      | .closed => true | _ => false) = true := by decide +kernel

/-- Line 0 is waited for: the read waits behind, and completes when its turn has come (R208). -/
def tMwWait (own : Bool) : Main := { tMw tWin with
  coh := { tM0.coh with waiting := (if own then [] else [.ur 0 .clean]) ++ [.turn (.window tFn 0 16) 0] }
  host := { (tMw tWin).host with winWaits := [⟨tFn, 0, 16⟩] } }

theorem wit_WindowResults_waits : (tMw tWin).spanHeld (some (.window tFn 0 16)) 5 0 16 = false ∧
    ({ tMw tWin with coh := { tM0.coh with waiting := [.ur 0 .clean] } } : Main).spanHeld (some (.window tFn 0 16)) 5 0 16 = true ∧
    ⟨tFn, 0, 16⟩ ∉ (tMw tWin).host.winWaits ∧ ⟨tFn, 0, 16⟩ ∈ (tMwWait true).host.winWaits ∧
    (match (tMwWait true).window tWin 0 16 with | .mem g => g.span == 5 && g.addr 0 == 0 | _ => false) = true ∧
    (tMwWait true).spanHeld (some (.window tFn 0 16)) 5 0 16 = false ∧ (tMwWait false).spanHeld (some (.window tFn 0 16)) 5 0 16 = true ∧
    ((tMwWait true).windowGo tWin tFn 0 16).host.winReads.map (·.st) = [.ok] := by decide +kernel

theorem test_window : goesTo (exec (.windowWrite tFn 8 (toBytes 8 300) false) (tQ0 (tMw tWin))) (fun t =>
    goesTo (exec (.windowRead tFn 8 8 false) t) (fun t => t.main.host.winReads.map (·.data) == [toBytes 8 300])) = true := by decide +kernel

theorem wit_FunctionResults : tM0.fnReach tFn = true ∧ 127 < vectors tFn ∧ (∃ r, tM0.fnOf tFn = some r ∧ r.pendVec.contains 5 = false) ∧
    ownRow (regPlace (.command tFn) 4) = false ∧ oneRegister (regPlace (.command tFn) 4) 4 4 = true ∧
    tM0.blockThere (regPlace (.command tFn) 4) = true ∧ ownRow (regPlace (.bar0 tFn) 0x1008) = false ∧
    oneRegister (regPlace (.bar0 tFn) 0x1008) 0x1008 8 = true ∧ tM0.blockThere (regPlace (.bar0 tFn) 0x1008) = true ∧
    ⟨0, 1⟩ ∈ vfsOf 0 ∧ (({ tM0 with host := { tM0.host with fns := modNth tM0.host.fns 1 (fun r => { r with present := true }) } } : Main).fnOf ⟨0, 1⟩).isSome = true := by
  refine ⟨rfl, by decide, ⟨_, rfl, rfl⟩, by decide, by decide, by decide +kernel, by decide, by decide, by decide +kernel,
    by decide +kernel, by decide +kernel⟩

/-- The blocks of a PF's BAR0 and of a VF's end where the tables say (R340). -/
theorem wit_FunctionResults_bar : barPlace tFn 0x2000 = .reserved ∧ barPlace tFn 0x400000 = .doorbell 0 0 ∧ barPlace ⟨0, 1⟩ 0x2040 = .block (.eventQueue ⟨0, 1⟩ 1) 0 ∧
    (tM0.boxOf (.fn tFn)).isSome = true ∧ (tM0.eqOf tFn 63).isSome = true ∧ barSize tFn = 0x2000000 ∧
    tWin.segs.find? (fun x => x.idx == 0) = some { idx := 0, wr := true, span := 5, wbase := 0, sbase := 0, len := 1 } := by decide +kernel

/-- A segment entry: VALID, WR, the span in bits 59 to 40, then the granules (R345). -/
theorem test_segmentRead : (tMw tWin).registerRead (.bar0 tFn) 0x20000 8 = 2 ^ 63 + 2 ^ 62 + 5 * 2 ^ 40 ∧
    (tMw tWin).registerRead (.bar0 tFn) 0x20008 8 = 1 ∧ (tMw tWin).registerRead (.bar0 tFn) 0x20010 8 = 0 := by decide +kernel

def tInvR : InvRun :=
  { port := 0, itag := 3, fn := tFn, pasid := none, base := 0, len := 4096, all := false, engines := [], since := 0 }

theorem wit_FunctionResults_inv :
    let m : Main := { tM0 with host := { tM0.host with invs := [tInvR] } }
    m.host.invs.find? (fun v => v.port == 0 && v.itag == 3 && v.engines.isEmpty) = some tInvR ∧
    (tM0.host.invs.filter (fun x => x.fn == tFn)).length < 32 ∧
    ({ tM0.host with invs := [{ tInvR with engines := [4] }] } : HostSt).invs.find? (fun v => v.engines.contains 4) = some { tInvR with engines := [4] } := by
  decide +kernel

theorem wit_EventQueueRegisters : tM0.host.puts = [] ∧ tM0.eqOf tFn 0 = some EvQ.reset ∧ EvQ.reset.en = false ∧ EvQ.reset.state = .off ∧
    ({ EvQ.reset with en := true, state := .run } : EvQ).en = true ∧ ((3 : Word) - 1).toNat < ((4 : Word) - 1).toNat ∧
    ((3 : Word) - 1).toNat ≤ ((3 : Word) - 1).toNat := by
  exact ⟨rfl, rfl, rfl, rfl, rfl, by decide, by decide⟩

theorem test_eqEn : goesTo (exec (.eqCtlEnSet tFn 0) tQ0)
    (fun t => (t.main.eqOf tFn 0).map (fun q => (q.en, q.state, q.armed)) == some (true, .run, true)) = true := by decide +kernel

theorem wit_GathererResults : tM0.procUp 3 = true ∧ tM0.procUp 11 = true ∧ tM0.egMayWrite 3 15 = true ∧ tM0.egMayWrite 0 1 = false ∧
    919 < 920 ∧ 919 ≠ 916 ∧ 919 ≠ 917 ∧ 1023 < 1024 := by decide +kernel

set_option maxRecDepth 20000 in
/-- A source that rises and is unmasked is delivered: it leaves PEND for in-service (R426). -/
theorem test_source :
    let m : Main := tM0.modBank 0 (fun b => { b with mask := 0 })
    goesTo (exec (.sourceAssert 5 true) (tQ0 m)) (fun t => t.main.eg.banks[0]?.map (fun b => b.pend ||| b.serv) == some 32) = true := by
  decide +kernel

/-! ### The mailboxes and the management messages -/

/-- A command of an opcode with arguments, byte by byte. The arguments are given as offset, length and value. -/
def tByte (op : Nat) (l : List (Nat × Nat × Nat)) (k : Nat) : Byte :=
  match ((0, 2, op) :: l).find? (fun x => Nat.ble x.1 k && Nat.blt k (x.1 + x.2.1)) with
  | some x => BitVec.ofNat 8 (x.2.2 / 256 ^ (k - x.1))
  | none => 0

def tCmd (op : Nat) (l : List (Nat × Nat × Nat)) : MbCmd :=
  { idx := 0, bytes := (List.range 256).map (tByte op l), since := 0, stale := false }

theorem arg_byte (mb : Mbx) (c : Cmd) (op : Nat) (l : List (Nat × Nat × Nat)) (o : Nat) (h : o < 256) :
    (ecsIn mb c (tCmd op l)).arg o 1 = (tByte op l o).toNat := by
  have : ((List.range 256).map (tByte op l)).drop o = tByte op l o :: ((List.range 256).map (tByte op l)).drop (o + 1) := by
    rw [List.drop_eq_getElem_cons (by simpa using h)]
    simp
  simp [EcsIn.arg, fieldAt, tCmd, this, ofBytes]

/-- Arguments that lie in named fields leave the rest of the command zero. -/
theorem reserved_none (mb : Mbx) (c : Cmd) (op : Nat) (l : List (Nat × Nat × Nat)) (named : List (Nat × Nat))
    (h : l.all (fun x => Nat.ble (x.1 + x.2.1) 32 || named.any (fun f => Nat.ble f.1 x.1 && Nat.ble (x.1 + x.2.1) (f.1 + f.2))) = true) :
    (ecsIn mb c (tCmd op l)).reserved named = none := by
  unfold EcsIn.reserved rangeFrom
  rw [List.find?_eq_none]
  intro o ho
  obtain ⟨k, hk, rfl⟩ := List.mem_map.1 ho
  rw [List.mem_range] at hk
  rw [arg_byte _ _ _ _ _ (by omega)]
  cases hf : ((0, 2, op) :: l).find? (fun x => Nat.ble x.1 (k + 32) && Nat.blt (k + 32) (x.1 + x.2.1)) with
  | none => simp [tByte, hf]
  | some x =>
    have hx := List.find?_some hf
    have hm := List.mem_of_find?_eq_some hf
    simp only [Bool.and_eq_true, Nat.ble_eq, Nat.blt_eq] at hx
    rcases List.mem_cons.1 hm with rfl | hm
    · exact absurd hx.2 (by simp)
    · have hl := List.all_eq_true.1 h x hm
      simp only [Bool.or_eq_true, Nat.ble_eq, List.any_eq_true, Bool.and_eq_true] at hl
      rcases hl with hl | ⟨f, hf, h1, h2⟩
      · omega
      · simp only [Bool.and_eq_true, Bool.not_eq_true', not_and, bne_iff_ne]
        intro _ hn
        rw [List.any_eq_false] at hn
        exact hn f hf (by simp; omega)
/-- The row that names the command that waits at index 0. -/
def tRow : Cmd := { idx := 0, bytes := [], input := some [], outOk := true }

/-- The small world with its function's mailbox running and commands in it; of the mailboxes only this one is kept. -/
def tBox (w : List MbCmd) (m : Main := tM0) : Main := { m with elbor := { m.elbor with boxes :=
  [{ Mailbox.reset (.fn tFn) with
    en := true, state := .run, pidx := 1, cidx := 1, base := 0x1000, inflight := w.length, waiting := w }] } }

def tE (op : Nat) (l : List (Nat × Nat × Nat)) (m : Main := tM0) : State := { tQ0 with main := tBox [tCmd op l] m }

def tMb : Mbx := .fn tFn

theorem wit_MailboxResults : (tBox []).boxOf tMb ≠ none ∧ tM0.fnReach tFn = true ∧ tM0.ready tFn = true ∧
    ((tM0.boxOf tMb).map (fun b => (b.en, b.state))) = some (false, .off) ∧
    ((65 : Word) - 1).toNat = 64 ∧ 64 < ((66 : Word) - 1).toNat := by decide +kernel

/-- A ring of one command; its slot is read, the command waits. -/
def tRing : Main := tM0.modBox tMb (fun b => { b with en := true, state := .run, pidx := 1, base := 0x1000 })

theorem wit_MailboxResults_slot : ((tRing.boxOf tMb).map (fun b => (b.en, b.state, b.cidx != b.pidx, tRing.slotBusy tFn b 0))) = some (true, .run, true, false) ∧
    (tCmd 0 []).bytes.length = 256 ∧ tRing.busyNow (tCmd 0 []) = false ∧
    ({ tRing with elbor := { tRing.elbor with saturated := true } } : Main).busyNow (tCmd 0x004 []) = true := by decide +kernel

/-- The function translates: the slot's page is waited for, cannot be had, or is in the port's cache. -/
def tAts (w : List HostPut) (hit : Bool) : Main := { tRing with host := { tRing.host with
  fns := modNth tRing.host.fns 0 (fun f => { f with ats := true })
  puts := w
  ports := [⟨true, false, 0, if hit then [{ fn := tFn, pasid := 0, page := 0x1000, size := 4096, rd := true, wr := true }] else []⟩, ⟨false, false, 0, []⟩] } }

/-- A wait of the slot whose page cannot be had. -/
def tNoPage : HostPut := { tPut .unresolved with pasid := 0, owner := .slot }

theorem wit_MailboxResults_page : (match (tAts [] false).needPage tFn 0 0x1000 .slot with | .wait _ => true | _ => false) = true ∧
    (match (tAts [tNoPage] false).needPage tFn 0 0x1000 .slot with | .lost _ => true | _ => false) = true ∧
    (match (tAts [] true).needPage tFn 0 0x1000 .slot with | .have _ => true | _ => false) = true ∧
    (tAts [] false).pageOf tFn 0 0x1100 true = none ∧ ((tAts [] true).pageOf tFn 0 0x1100 true).isSome = true ∧
    (tAts [] true).putsOf tFn (.response 0) = [] := by decide +kernel

/-- The slot's Translation Request is sent, and no command is taken (R402). -/
theorem test_slotTranslates : goesTo (exec (.mailboxSlotRead tFn (tCmd 0 []).bytes true) (tQ0 (tAts [] false)))
    (fun t => t.main.host.puts.map (·.owner) == [.slot] && (t.main.boxOf tMb).map (fun b => b.waiting.length) == some 0) = true := by decide +kernel

theorem test_mbPidx : goesTo (exec (.mbPidx tFn 65) (tQ0 (tBox []))) (fun t => (t.main.boxOf tMb).map (·.pidx) == some 65) = true ∧
    goesTo (exec (.mbPidx tFn 66) (tQ0 (tBox []))) (fun t => (t.main.boxOf tMb).map (fun b => (b.err, b.state)) == some (1, .error)) = true := by
  decide +kernel

theorem wit_MailboxResults_response :
    (((tM0.modBox tMb (fun b => { b with ready := [{ idx := 0, bytes := [], out := [] }] })).boxOf tMb).map (·.ready.length)) = some 1 ∧
    (((tM0.modBox .bmc (fun b => { b with ready := [{ idx := 0, bytes := [], out := [] }] })).boxOf .bmc).map (·.ready.length)) = some 1 := by
  decide +kernel

/-- A response goes to the second half of its slot (R403). -/
theorem test_response : goesTo (exec (.getParam tMb tRow) (tE 0x005 [(0x20, 2, 1)])) (fun t => goesTo (exec (.mailboxResponse tMb true) t)
    (fun t => Cells.read t.main.host.cells (hostKey tFn 0 0x1100) 256 ≠ [] ∧ (t.main.boxOf tMb).map (·.ready) == some [])) = true := by decide +kernel

theorem wit_ManagementMessages : tM0.core3Up = true ∧ tM0.elbor.paused = none ∧
    (∀ b ∈ tM0.elbor.boxes, b.waiting = []) ∧ tM0.switches 5 = false := by decide +kernel

/-- A message of the BMC to SMBus address 0x62. -/
def tFrom : MctpFrom := { smbus := some 0x62, eid := 8, tag := 1, inst := 3 }

theorem wit_ManagementMessages_from : mctpHere tFrom = true ∧ mctpHere { tFrom with smbus := none } = true ∧
    mctpHere { tFrom with smbus := some 0x61 } = false := by decide +kernel

/-- A query answered from a snapshot. -/
def tStale : MbCmd := { tCmd 0x001 [] with stale := true }

theorem wit_ManagementMessages_stale : ((tBox [tStale]).boxOf tMb).map (·.waiting) = some [tStale] ∧ tStale.noStale = false ∧
    tStale.cls = some .query ∧ tStale.seq = 0 ∧ (tBox [tStale]).served tMb = true ∧ (tBox [tStale]).coresUp tStale = true ∧
    maySend (callerOf tMb) tStale.op = true ∧ ({ mb := tMb, cmd := tStale, input := some [] } : EcsIn).header = none ∧
    (queryAns { mb := tMb, cmd := tStale, input := some [] } (tQ0 (tBox [tStale]))).isSome = true := by decide +kernel

def tSpdm (a : SpdmSt) : Main := { tM0 with sec := { tM0.sec with spdm := [a, a, a] } }

theorem wit_Spdm : tM0.procUp 5 = true ∧ tM0.fnReach ⟨0, 0⟩ = true ∧ tM0.standby = true ∧
    (tSpdm .version).spdmAt (.doe 0) = .version ∧ (tSpdm .caps).spdmAt (.mctp tFrom) = .caps ∧ (tSpdm .algs).spdmAt (.doe 1) = .algs := by decide +kernel

/-! ### The supply, the limiters, the lockstep -/

/-- The small world with the power side changed. -/
def tP (f : Power → Power) (m : Main := tM0) : State := { tQ0 m with power := f Power.reset }

/-- A surge of 59.6 V in progress. -/
def tSurge : Power :=
  Power.reset.addLog { start := tM0.time, duration := none, extreme := 5960, kind := 2, banked := false, notices := false, floor := false }

/-- 75 V for 50 µs, then 65 V for 4.95 ms: the surge ends within its limits (R436). -/
theorem test_surge : goesTo (exec (.surge 75000) (tP (fun p => p))) (fun a =>
      goesTo (exec (.surge 65000) { a with main := { a.main with time := a.main.time + 50000 } }) (fun b =>
        goesTo (exec .surgeEnd { b with main := { b.main with time := b.main.time + 4950000 } }) (fun t =>
          t.power.log.map (fun e => (e.extreme, e.duration)) == [(7500, some 5000)]))) = true := by decide +kernel

theorem wit_SupplyResults : Power.reset.told = [] ∧ Power.reset.floor = false ∧ (tP (fun p => { p with told := [9] })).power.told ≠ [] ∧
    (tP (fun p => { p with brake := true })).power.floor = true ∧ tM0.standby = true ∧ Power.reset.sag = false ∧ (tP (fun p => { p with sag := true })).power.sag = true ∧
    Power.reset.surging = false ∧
    tSurge.surging = true ∧ tSurge.surgeHolds tM0.time = true ∧ ({ tSurge with above := some tM0.time } : Power).surgeHolds (tM0.time + 100000) = true ∧
    ({ tSurge with above := some tM0.time } : Power).surgeHolds (tM0.time + 100001) = false ∧
    shortEnough 43999 1 = true ∧ tM0.rcv.mainRails = true ∧ tM0.bankable = true := by decide +kernel

/-- 43,999 mV begins a sag and puts the module at the floor, 44,000 does not (R436, R440). -/
theorem test_sag : goesTo (exec (.sag 43999) tQ0) (fun t => t.power.loc == 16 && t.power.limit == 16) = true ∧
    goesTo (exec (.sag 44000) tQ0) (fun _ => true) = false := by decide +kernel

theorem wit_LimiterResults : Power.reset.brake = false ∧ (5 : Nat) ∉ Power.reset.alerts ∧ (31 : Nat) ∉ Power.reset.drooping ∧ tQ0.kilnLoops = true ∧ tQ0.mostWatts = 4000 ∧
    (tP (fun p => { p with brake := true, alerts := [5], busWarn := true, drooping := [31] })).power.brake = true ∧
    ((([⟨0, 0, 0, 3, []⟩] : List GrainUse).filter (fun u => u.rail == 0)).map (·.count)).sum ≠ 0 ∧ Power.reset.alerts = [] ∧
    tM0.rcv.thermtrip = false ∧ measurable 4080 [1000, 1000, 1000, 1000, 40, 40] = true ∧ measurable 4081 [] = false ∧ 4 < 5 ∧ 2 < 3 ∧ (tQ0.limit id).power.stopped = false := by decide +kernel

theorem test_thermal : goesTo (exec (.thermalStep 1000) tQ0) (fun t => t.power.thermal == 63 && t.power.loc == 63) = true ∧
    goesTo (exec (.thermalStep 970) (tP (fun p => { p with thermal := 63, loc := 63 }))) (fun t => t.power.thermal == 64) = true := by decide +kernel

theorem test_pwrbrake : goesTo (exec .pwrbrakeAssert tQ0) (fun t => t.power.loc == 16) = true := by decide +kernel

/-- Two hints of a context, of which the second starts later here and ends first. -/
def tHinted (online : Bool) : Main := { tM0 with hints := [{ ctx := 3, kind := 1, start := if online then 3 else 5, stop := 9, online := online },
  { ctx := 3, kind := 2, start := if online then 4 else 6, stop := 8, online := online }] }

theorem wit_LockstepAndHints : tM0.rcv.phase = .running ∧ (tP (fun p => { p with roundAt := 1000000 })).power.applied ≠ 1000000 ∧
    (tHinted false).hints.find? ((tHinted false).nextHint 3 false) = some { ctx := 3, kind := 1, start := 5, stop := 9, online := false } ∧
    (tHinted true).hints.find? ((tHinted true).nextHint 3 true) = some { ctx := 3, kind := 2, start := 4, stop := 8, online := true } ∧
    Power.reset.floor = false := by decide +kernel

/-- The round is at the next multiple of 100 µs and tells module 9 (R452). -/
theorem test_paceRound : goesTo (exec .paceRound tQ0) (fun t => t.power.roundAt == 1000000 && t.main.fab.ctrlOut == [.paceToken 9 1000000 64]) = true := by
  decide +kernel

/-- S of the span is the least of L at the round and the peer's token (R453). -/
theorem test_paceApply : goesTo (exec .paceApply (tP (fun p => { p with roundAt := 1000000, atRound := 50, tokens := [{ module := 9, limit := 40, sagAt := none }] })))
    (fun t => t.power.paces == [(5, 40)]) = true := by decide +kernel

/-! ### Starts, the banked state, resets, saggers -/

/-- The small world in another phase. -/
def tPh (f : Rcv → Rcv) : State := tQ0 { tM0 with rcv := f tM0.rcv }

theorem wit_StartProgress : (tPh (fun r => { r with phase := .off })).main.standby = false ∧ tM0.rcv.coldFail < 3 ∧ tM0.rcv.tripHold = false ∧
    (tPh (fun r => { r with phase := .held })).main.rcv.phase = .held ∧
    (tPh (fun r => { r with dev := some { recId := none, since := 0, cold := true } })).main.allFenced = true ∧
    stepOf (.cold 8) = some 8 ∧ stepOf (.warm 6) = some 6 ∧ (stepLimit (.cold 8) false).isSome = true ∧ 44000 ≤ Power.reset.inputMv := by
  decide +kernel

/-- A module hotter than 95 °C is held at power application (R534), and one whose test port took its pins starts cold (R527). -/
theorem wit_StartProgress_hot : 950 < (tP (fun p => { p with hottest := 951 })).power.hottest ∧ Power.reset.hottest ≤ 950 ∧
    ({ tQ0 with tap := { Tap.reset with needCold := true } } : State).tap.needCold = true ∧ (tPh (fun r => { r with phase := .warm 6 })).main.rcv.phase = .warm 6 := by
  decide +kernel

theorem wit_StartLeaves_warm : ({ tM0.rcv with preserve := some { slot := 0, gen := 0, spans := [5] } } : Rcv).preserve =
    some { slot := 0, gen := 0, spans := [5] } ∧ State.reset.main.rcv.raised = [] := ⟨rfl, rfl⟩

/-- The step that a good report ends. -/
def tGood : StepReport := { viaductBad := [0, 0], crossingsBad := [], banksGood := 18, arrayBad := false, coresBad := [], physBad := [], images := (List.range 6).map (fun c => (c, false)), savedValid := true }

theorem test_startStep : goesTo (exec (.startStepDone tGood) State.reset) (fun t => t.main.rcv.phase == .cold 2) = true ∧
    goesTo (exec (.startStepDone { tGood with viaductBad := [3000, 0] }) State.reset) (fun t => t.main.rcv.coldFail == 1 ∨ t.main.rcv.phase == .cold 2) = true := by
  decide +kernel

theorem test_modReset : goesTo (exec .modReset tQ0) (fun t => t.main.rcv.phase == .held && t.main.comp.recs.isEmpty) = true := by decide +kernel

theorem wit_BankedResults : stepOf .running = none ∧ ({ tM0.rcv with joining := true } : Rcv).joining = true ∧ tM0.fab.root = tM0.fab.module ∧
    tFollow.fab.timeState ≠ .unlocked ∧ (tPh (fun r => { r with banking := some 0x54 })).main.rcv.banking = some 0x54 ∧ tM0.core3Up = true ∧
    tM0.bankable = true ∧ tM0.rcv.lastCore3 = none := by decide +kernel

theorem wit_ResetsAndSaggers : engValid ⟨0, 0⟩ = true ∧ tS.main.engWorks ⟨0, 0⟩ = true ∧ engValid ⟨2, 0⟩ = true ∧ tM0.engWorks ⟨2, 0⟩ = true ∧
    tM0.engWorks ⟨4, 4⟩ = true ∧ ([({ eng := ⟨0, 0⟩, recId := 1, since := 0 } : EngReset)].find? (fun r => r.eng == ⟨0, 0⟩)).isSome = true ∧
    (tPh (fun r => { r with stallMark := some 0 })).main.rcv.stallMark.isSome = true := by decide +kernel

/-- A sagger's handling in each of its steps, and the module's. -/
def tHand (span : Nat) (st : HStep) : Main := { tM0 with
  rcv := { tM0.rcv with handlings := [{ sagger := span, recId := 1, fenced := 0, since := 0, step := st, scrub := false }] } }

theorem wit_ResetsAndSaggers_steps : ((tHand 5 .fence).rcv.handlings.find? (fun h => h.sagger == 5)).map (·.step) = some .fence ∧
    (tHand 5 .fence).fenceComplete 5 = true ∧ (tHand 0 .waiting).mayHandle 0 = true ∧ (tHand 0 .fence).atRest = true := by decide +kernel

theorem test_saggerReopen : goesTo (exec (.saggerReopen 5 []) (tQ0 (tHand 5 .reset))) (fun t => !t.main.fenced 5) = true := by decide +kernel

/-! ### The Seal processor and the test port -/

def tRevoke : Revoke := { slot := 4, release := true, engines := [], piers := [9], silent := [], since := 0 }

theorem wit_SealAndTestPortEvents :
    ([tRevoke].find? (fun r => r.slot == 4 && !r.piers.isEmpty)) = some tRevoke ∧ (2 : Nat) + 1 ≤ 64 ∧
    (({ tM0 with sec := { tM0.sec with unlocking := some (0, [3]) } } : Main).takeReceipts.sec.revokes.find? (fun r => r.engines.contains 3)) = none ∧
    0 + 1 < switchSteps 4 ∧ (tPh id).main.standby = true ∧ Tap.reset.opened = false := by decide +kernel

theorem wit_SealAndTestPortEvents_receipt :
    let m : Main := { tM0 with
      rcv := { tM0.rcv with resets := [{ eng := ⟨1, 3⟩, recId := 1, since := 0 }] }
      sec := { tM0.sec with unlocking := some (0, [3]) } }
    m.takeReceipts.sec.unlocking = some (0, [3]) := by decide +kernel

theorem test_tap : goesTo (exec .tapExtest tQ0) (fun t => t.tap.ir == 0xFF && !t.tap.pins) = true ∧
    goesTo (exec .tapExtest { tQ0 with tap := { Tap.reset with opened := true } }) (fun t => t.tap.pins && t.tap.needCold) = true := by decide +kernel

theorem wit_TestPortOpens : tQ0.tap.opened = false := rfl

/-! ### ECS commands -/

/-- A command begins. -/
abbrev begins (op : Nat) (l : List (Nat × Nat × Nat)) (m : Main := tM0) : Prop := EcsBegins (tE op l m) tMb tRow (tCmd op l) op

abbrev inOf (op : Nat) (l : List (Nat × Nat × Nat)) : EcsIn := ecsIn tMb tRow (tCmd op l)

theorem wit_EcsQueries : (tCmd 0x000 []).orphan = false ∧ begins 0x000 [] := by decide +kernel

/-- The queries need no more than their class to begin. -/
theorem wit_EcsQueries_classes : [0x000, 0x001, 0x002, 0x003, 0x105, 0x106, 0x302, 0x500, 0x506, 0x600, 0x702, 0x803, 0x403].all
    (fun op => (classOf op).isSome) = true := by decide +kernel

theorem wit_EcsQueries_param : begins 0x005 [(0x20, 2, 8)] ∧ (inOf 0x005 [(0x20, 2, 8)]).reserved [(0x20, 2)] = none ∧
    (paramRange 8).isSome = true ∧ paramRange 9 = none :=
  ⟨by decide +kernel, reserved_none _ _ _ _ _ (by decide), by decide +kernel, by decide +kernel⟩

theorem wit_EcsQueries_context : begins 0x202 [(0x20, 4, 3)] ∧ OnContext (tE 0x202 [(0x20, 4, 3)]) (inOf 0x202 [(0x20, 4, 3)]) [] tCtx ∧
    begins 0x212 [(0x20, 4, 3)] ∧ OnContext (tE 0x212 [(0x20, 4, 3)]) (inOf 0x212 [(0x20, 4, 3)]) [(0x24, 1)] tCtx ∧
    (tE 0x212 [(0x20, 4, 3)]).main.queueOf ⟨3, 0⟩ = some tQueue ∧
    begins 0x224 [(0x20, 4, 3), (0x24, 4, 0x40000)] ∧ (tE 0x224 []).main.mayFence (inOf 0x224 [(0x20, 4, 3), (0x24, 4, 0x40000)]) 0x40000 = true := by
  refine ⟨?_, ⟨?_, rfl, reserved_none _ _ _ _ _ (by decide), ?_⟩, ?_, ⟨?_, rfl, reserved_none _ _ _ _ _ (by decide), ?_⟩, ?_, ?_, ?_⟩
    <;> decide +kernel

/-- A command of a reserved opcode. -/
theorem wit_EcsQueries_reserved : classOf 0x0FF = none ∧ begins 0x0FF [] := by decide +kernel

/-- Output that has nowhere to go is refused at BUF_OUT's length. -/
theorem wit_EcsQueries_output : (inOf 0x000 []).hasOut = false ∧ (ecsIn tMb tRow (tCmd 0x000 [(2, 1, 4), (0x14, 4, 64)])).hasOut = true ∧
    (ecsIn tMb tRow (tCmd 0x000 [(2, 1, 4), (0x14, 4, 64)])).outLen = 64 := by decide +kernel

/-- An output whose page is there, waited for, or cannot be had (R406). -/
theorem wit_EcsQueries_page :
    let i := ecsIn tMb tRow (tCmd 0x000 [(2, 1, 4), (0x14, 4, 64), (0x18, 8, 0x1000)])
    (tCmd 0x000 []).orphan = false ∧ (match (tAts [] true).needBuffer i 0x1000 16 true with | .have _ => true | _ => false) = true ∧
    (match (tAts [] false).needBuffer i 0x1000 16 true with | .wait _ => true | _ => false) = true ∧
    (match (tAts [{ tNoPage with owner := .buffer 0 true }] false).needBuffer i 0x1000 16 true with | .lost _ => true | _ => false) = true := by
  decide +kernel

/-- GET_PARAM 8 gives the default of B, 256 (R414). -/
theorem test_getParam : goesTo (exec (.getParam tMb tRow) (tE 0x005 [(0x20, 2, 8)]))
    (fun t => (t.main.boxOf tMb).map (fun b => b.ready.map (fun r => (fieldAt r.bytes 4 2, fieldAt r.bytes 0x20 8))) == some [(0, 256)]) = true := by decide +kernel

theorem wit_EcsModule_set : begins 0x004 [(0x20, 2, 8), (0x28, 8, 64)] ∧ (inOf 0x004 [(0x20, 2, 8), (0x28, 8, 64)]).reserved [(0x20, 2), (0x28, 8)] = none ∧
    (paramRange 8).map (fun r => (decide (r.1 ≤ 64), decide (64 ≤ r.2))) = some (true, true) :=
  ⟨by decide +kernel, reserved_none _ _ _ _ _ (by decide), by decide +kernel⟩

/-- VF 1 of port 0 is present. -/
def tVf : Main := { tM0 with host := { tM0.host with fns := modNth tM0.host.fns 1 (fun r => { r with present := true }) } }

theorem wit_EcsModule_bind : begins 0x006 [(0x21, 1, 1), (0x24, 4, 5)] tVf ∧ (tVf.fnOf ⟨0, 1⟩).map (·.present) = some true ∧
    (inOf 0x006 [(0x21, 1, 1), (0x22, 1, 1), (0x24, 4, 5)]).high 0x22 1 1 = none ∧ (∀ x ∈ tVf.objs.ctxs, x.fn ≠ ⟨0, 1⟩) ∧ (tVf.recOf 5).isSome = true := by
  decide +kernel

theorem wit_EcsModule_laser : begins 0x404 [(0x20, 2, 0x8001)] ∧ (inOf 0x404 [(0x20, 2, 0x8001), (0x22, 1, 1)]).reserved [(0x20, 3)] = none :=
  ⟨by decide +kernel, reserved_none _ _ _ _ _ (by decide)⟩

theorem wit_EcsModule_power : begins 0x400 [(0x20, 2, 1200)] ∧ begins 0x401 [(0x20, 1, 0), (0x21, 1, 16)] ∧ begins 0x401 [(0x20, 1, 1)] ∧
    begins 0x402 [(0x20, 1, 1)] ∧ (inOf 0x402 [(0x20, 1, 1)]).high 0x20 1 1 = none ∧ 3200 ≤ Power.reset.cap := by
  and_intros <;> decide +kernel

/-- The cap takes 3,200 and refuses 3,210 (R449). -/
theorem test_powerCap : goesTo (exec (.powerCapSet tMb tRow) (tE 0x400 [(0x20, 2, 1200)])) (fun t => t.power.cap == 1200) = true ∧
    goesTo (exec (.powerCapSet tMb tRow) (tE 0x400 [(0x20, 2, 3210)])) (fun t => t.power.cap == 3200) = true := by decide +kernel

theorem wit_EcsModule_errors : begins 0x501 [(0x24, 2, 4)] ∧ begins 0x502 [(0x20, 4, 5)] ∧ begins 0x503 [] ∧
    begins 0x503 [(0x20, 1, 2), (0x24, 2, 255), (0x2C, 1, 1), (0x30, 4, 5)] ∧
    (inOf 0x503 [(0x20, 1, 2), (0x24, 2, 255), (0x2C, 1, 1), (0x30, 4, 5)]).unstable tM0 1 = none ∧ tM0.rcv.dev = none ∧
    begins 0x504 [(0x20, 1, 31), (0x21, 1, 7)] ∧ (tM0.cores.units[31 * 9 + 8]?).map (fun u => (u.good, u.inService)) = some (true, false) ∧
    begins 0x303 [(0x20, 1, 191)] ∧ (tM0.chan 191).repl = none ∧ ((tEvac false).chan 1).repl.isSome = true ∧
    begins 0x505 [(0x20, 4, 0x4B4E4142)] ∧ tM0.bankable = true := by
  and_intros <;> decide +kernel

theorem test_saggerReset : goesTo (exec (.saggerReset tMb tRow) (tE 0x502 [(0x20, 4, 5)])) (fun t => t.main.fenced 5 && !t.main.rcv.errs.isEmpty) = true := by
  decide +kernel

/-- A command on context 3 that may begin and whose reserved bytes are zero. -/
def onCtx3 (op : Nat) (l : List (Nat × Nat × Nat)) (named : List (Nat × Nat)) (m : Main := tM0) : Prop :=
  begins op ((0x20, 4, 3) :: l) m ∧ OnContext (tE op ((0x20, 4, 3) :: l) m) (inOf op ((0x20, 4, 3) :: l)) named tCtx ∧ tCtx.accepts

theorem onCtx3_of {op : Nat} {l : List (Nat × Nat × Nat)} {named : List (Nat × Nat)}
    (hb : begins op ((0x20, 4, 3) :: l)) (hx : tM0.ctxOf ((inOf op ((0x20, 4, 3) :: l)).arg 0x20 2) = some tCtx ∧
      (inOf op ((0x20, 4, 3) :: l)).high 0x20 4 16 = none)
    (h : ((0x20, 4, 3) :: l).all (fun x => Nat.ble (x.1 + x.2.1) 32 ||
      ((0x20, 4) :: named).any (fun f => Nat.ble f.1 x.1 && Nat.ble (x.1 + x.2.1) (f.1 + f.2))) = true) : onCtx3 op l named :=
  ⟨hb, ⟨hx.1, rfl, reserved_none _ _ _ _ _ h, hx.2⟩, by decide⟩

theorem wit_EcsContext : onCtx3 0x201 [] [] ∧ onCtx3 0x203 [] [] ∧ onCtx3 0x211 [] [(0x24, 1)] ∧ tM0.fenced 5 = false := by
  and_intros <;> first
    | exact onCtx3_of (by decide +kernel) (by decide +kernel) (by decide)
    | decide +kernel

/-- A queue that is being destroyed already. -/
theorem wit_EcsContext_again :
    let m : Main := { tM0 with objs := { tM0.objs with queues := [{ tQueue with destroying := true }] } }
    begins 0x211 [(0x20, 4, 3)] m ∧ (m.queueOf ⟨3, 0⟩).map (·.destroying) = some true := by decide +kernel

theorem wit_EcsContext_fence : onCtx3 0x220 [(0x30, 1, 2)] [(0x28, 8), (0x30, 16)] ∧ lowestFree (tM0.objs.fences.map (·.index)) 262144 = some 1 ∧
    onCtx3 0x220 [(0x34, 4, 1), (0x38, 8, 0xFFFF0)] [(0x28, 8), (0x30, 16)] ∧ (tM0.regionOf 1).map (fun r => (r.ctx, r.write, r.glaze)) = some (3, true, none) ∧
    0xFFFF0 + 16 ≤ 0x100000 ∧ onCtx3 0x221 [(0x24, 4, 0x40000)] [(0x24, 4)] ∧
    onCtx3 0x222 [(0x24, 4, 0x40000), (0x28, 2, 8191), (0x30, 1, 2)] [(0x24, 4), (0x28, 2), (0x2C, 4), (0x30, 1)] ∧
    onCtx3 0x222 [(0x24, 4, 0x40000), (0x28, 2, 8191), (0x30, 1, 128)] [(0x24, 4), (0x28, 2), (0x2C, 4), (0x30, 1)] ∧
    onCtx3 0x223 [(0x24, 4, 0x40000), (0x28, 8, 9)] [(0x24, 4), (0x28, 8)] := by
  and_intros <;> first
    | exact onCtx3_of (by decide +kernel) (by decide +kernel) (by decide)
    | decide +kernel

/-- A fence that the context has been granted by another. -/
theorem wit_EcsContext_granted :
    let f : Fence := { tFence with owner := 4, grants := [⟨7, 3, true, true⟩] }
    let m : Main := { tM0 with objs := { tM0.objs with fences := [f] } }
    m.fenceOf 0x40000 = some f ∧ m.mayFence (inOf 0x221 [(0x20, 4, 3), (0x24, 4, 0x40000)]) 0x40000 = true ∧ m.granted f tCtx = true ∧ f.owner ≠ tCtx.num := by
  decide +kernel

theorem test_fenceSignalCmd : goesTo (exec (.fenceSignal tMb tRow) (tE 0x223 [(0x20, 4, 3), (0x24, 4, 0x40000), (0x28, 8, 9)]))
    (fun t => (t.main.fenceOf 0x40000).map (·.value) == some 9) = true := by decide +kernel

theorem wit_EcsContext_counters : onCtx3 0x230 [(0x24, 4, 1), (0x28, 2, 0xF)] [(0x24, 4), (0x28, 2)] ∧ tM0.spanClusters 5 = [0] ∧
    (L2Part.reset.assign 3 0xF).isSome = true ∧ onCtx3 0x240 [(0x24, 2, 1024)] [(0x24, 2)] ∧
    (((List.range 1025).filter (fun k => !([2] : List Nat).contains k)).take 1024).length = 1024 ∧
    onCtx3 0x241 [(0x24, 2, 2), (0x28, 8, 7)] [(0x24, 2), (0x28, 8)] ∧ tM0.ownsCounter tCtx 2 = true ∧ tM0.fabricOut = false := by
  and_intros <;> first
    | exact onCtx3_of (by decide +kernel) (by decide +kernel) (by decide)
    | decide +kernel

theorem wit_EcsContext_free : onCtx3 0x242 [(0x24, 2, 1), (0x28, 2, 2)] [(0x24, 2), (0x28, 2)] :=
  onCtx3_of (by decide +kernel) (by decide +kernel) (by decide)

theorem test_lcFree : goesTo (exec (.lcFree tMb tRow) (tE 0x242 [(0x20, 4, 3), (0x24, 2, 1), (0x28, 2, 2)])) (fun t => t.main.objs.counters.isEmpty) = true := by
  decide +kernel

theorem wit_EcsContext_region : onCtx3 0x320 [(0x28, 8, 0x4000), (0x30, 8, 0x1000), (0x38, 1, 3), (0x3C, 2, 0xFFFF)] [(0x28, 8), (0x30, 8), (0x38, 1), (0x3C, 2)] ∧
    ({ tM0 with sec := { tM0.sec with slots := tM0.sec.slots.set 255 { st := .assigned, tenant := 1, gen := 0, ctr := 0, spent := false } } } : Main).slotServes tCtx 255 = true ∧
    onCtx3 0x321 [(0x24, 4, 2)] [(0x24, 4)] ∧ tM0.regionUsed 3 2 = false := by
  and_intros <;> first
    | exact onCtx3_of (by decide +kernel) (by decide +kernel) (by decide)
    | decide +kernel

theorem test_region : goesTo (exec (.regionRegister tMb tRow) (tE 0x320 [(0x20, 4, 3), (0x28, 8, 0x4000), (0x30, 8, 0x1000), (0x38, 1, 3), (0x3C, 2, 0xFFFF)]))
    (fun t => t.main.objs.regions.length == 2) = true := by decide +kernel

/-- A command on span 5. -/
def onSpan5 (op : Nat) (l : List (Nat × Nat × Nat)) (named : List (Nat × Nat)) (m : Main := tM0) : Prop :=
  begins op ((0x20, 4, 5) :: l) m ∧ m.mayName tMb 5 = true ∧ (inOf op ((0x20, 4, 5) :: l)).reserved ((0x20, 4) :: named) = none ∧
    (inOf op ((0x20, 4, 5) :: l)).high 0x20 4 20 = none

theorem onSpan5_of {op : Nat} {l : List (Nat × Nat × Nat)} {named : List (Nat × Nat)}
    (hb : begins op ((0x20, 4, 5) :: l)) (hx : (inOf op ((0x20, 4, 5) :: l)).high 0x20 4 20 = none)
    (h : ((0x20, 4, 5) :: l).all (fun x => Nat.ble (x.1 + x.2.1) 32 ||
      ((0x20, 4) :: named).any (fun f => Nat.ble f.1 x.1 && Nat.ble (x.1 + x.2.1) (f.1 + f.2))) = true) : onSpan5 op l named :=
  ⟨hb, rfl, reserved_none _ _ _ _ _ h, hx⟩

/-- A context whose save pool is the extent at 0. -/
theorem wit_EcsMemory_ctx : onSpan5 0x200 [(0x26, 1, 1), (0x40, 8, 0)] [(0x24, 1), (0x25, 1), (0x26, 1), (0x28, 4), (0x2C, 2), (0x30, 8), (0x40, 8)] ∧
    (∀ y ∈ tM0.poolNamed (inOf 0x200 [(0x20, 4, 5), (0x26, 1, 1), (0x40, 8, 0)]) 5 1, ∃ e, y.2 = some e ∧ e.state = .active ∧ tM0.leaves e = false) ∧
    lowestFree (tM0.objs.ctxs.map (·.num)) 65536 = some 0 ∧ (tM0.fnOf tFn).map (fun r => decide (0 < r.eqs.length)) = some true := by
  refine ⟨onSpan5_of (by decide +kernel) (by decide +kernel) (by decide), ?_, by decide +kernel, by decide +kernel⟩
  intro y hy
  have h : tM0.poolNamed (inOf 0x200 [(0x20, 4, 5), (0x26, 1, 1), (0x40, 8, 0)]) 5 1 = [(0x40, some tExt)] := by decide +kernel
  rw [h] at hy
  rw [List.mem_singleton.1 hy]
  exact ⟨tExt, rfl, rfl, by decide +kernel⟩

def tQc : List (Nat × Nat × Nat) := [(0x24, 1, 4), (0x30, 1, 1), (0x38, 8, 0x10000), (0x40, 1, 1), (0x48, 8, 0x11000), (0x50, 1, 1), (0x58, 8, 0x12000), (0x60, 1, 1), (0x68, 8, 0x12040)]

theorem wit_EcsMemory_queue : onCtx3 0x210 tQc [(0x24, 1), (0x25, 1), (0x30, 64)] ∧
    lowestFree ((tM0.objs.queues.filter (fun y => y.ctx == 3)).map (·.idx)) 64 = some 1 ∧
    lowestFree ((tM0.objs.queues.filter (fun y => y.fn == tFn)).map (·.page)) (pageCount tFn) = some 1 ∧ tM0.residentQueues < 1024 ∧
    tM0.badLoc (inOf 0x210 ((0x20, 4, 3) :: tQc)) tCtx 0x30 1024 false = none ∧ tM0.badLoc (inOf 0x210 ((0x20, 4, 3) :: tQc)) tCtx 0x60 64 true = none := by
  and_intros <;> first
    | exact onCtx3_of (by decide +kernel) (by decide +kernel) (by decide)
    | decide +kernel

/-- An extent of two granules right after the first, on channels 0 and 1. -/
def tEc : List (Nat × Nat × Nat) := [(0x28, 8, 0x400000), (0x30, 4, 2), (0x34, 2, 0xFFFF), (0x38, 1, 3)]

theorem wit_EcsMemory_extent : tM0.coh.reclaim = [] ∧ (tM0.extentsOf 5).length < 4096 ∧ (∀ k ∈ [0, 1], tM0.channelGoes 5 k = .span 5) ∧
    (∀ e ∈ tM0.extentsOf 5, (e.base + e.len) * 0x200000 ≤ 0x400000) ∧
    onSpan5 0x300 tEc [(0x28, 8), (0x30, 4), (0x34, 2), (0x38, 24)] ∧ tM0.splits 5 [0, 1] = false ∧ tM0.lowestFit 3 1 = some 1 ∧
    tM0.granulesFree 3 1535 1 = true ∧ lowestFree (tM0.mem.extents.map (·.idx)) 65536 = some 1 ∧
    onSpan5 0x301 [(0x28, 8, 0)] [(0x28, 8)] ∧ tM0.mem.extents.find? (fun e => e.span == 5 && e.base * 0x200000 == 0) = some tExt ∧ tM0.inPools tExt = false := by
  and_intros <;> first
    | exact onSpan5_of (by decide +kernel) (by decide +kernel) (by decide)
    | decide +kernel

theorem test_extCreate : goesTo (exec (.extCreate tMb tRow) (tE 0x300 ((0x20, 4, 5) :: tEc)))
    (fun t => t.main.mem.extents.map (fun e => (e.base, e.choff, e.state)) == [(0, 0, .active), (2, 1, .zeroing)]) = true := by decide +kernel

theorem wit_EcsMemory_window : onSpan5 0x310 [(0x24, 4, 511), (0x28, 4, 1), (0x38, 1, 1)] [(0x24, 4), (0x28, 4), (0x30, 8), (0x38, 1)] ∧
    (∃ x ∈ tM0.objs.ctxs, x.fn = tFn ∧ x.span = 5) ∧ (511 + 1) * 0x200000 ≤ (FnRec.reset tFn).bar2 ∧ lowestFree ([] : List Nat) (segCount tFn) = some 0 ∧
    begins 0x311 [] ∧ (∃ x ∈ tWin.segs, x.idx = 0) := by
  exact ⟨onSpan5_of (by decide +kernel) (by decide +kernel) (by decide), ⟨tCtx, List.mem_singleton.2 rfl, rfl, rfl⟩, by decide, rfl, by decide +kernel, ⟨_, List.mem_singleton.2 rfl, rfl⟩⟩

/-! ### Composition -/

/-- Span 6 on cluster 1 and channel 2 of this module alone: EPOCH, RANK, PIERS, masks, and its table in BUF_IN. -/
def tSc : List (Nat × Nat × Nat) := [(2, 1, 2), (8, 8, 0x9000), (0x10, 4, 2), (0x20, 4, 6), (0x24, 4, 1), (0x28, 2, 1), (0x30, 4, 50), (0x40, 4, 2), (0x48, 1, 4)]

/-- A row that brings an input of bytes. -/
def tRowIn (d : List Byte) : Cmd := { tRow with input := some d }

def tIn (op : Nat) (l : List (Nat × Nat × Nat)) (d : List Byte) : EcsIn := ecsIn tMb (tRowIn d) (tCmd op l)

/-- A command with an input begins. -/
abbrev beginsIn (op : Nat) (l : List (Nat × Nat × Nat)) (d : List Byte) (m : Main := tM0) : Prop :=
  EcsBegins (tE op l m) tMb (tRowIn d) (tCmd op l) op

/-- The function has no ATS, so the input's pages are there. -/
theorem beginsIn_of {op : Nat} {l : List (Nat × Nat × Nat)} {d : List Byte} {m : Main}
    (h : (tE op l m).main.take tMb (tRowIn d) = some (tCmd op l, .waits) ∧ (tCmd op l).op = op ∧ (tE op l m).main.served tMb = true ∧
      (tE op l m).main.coresUp (tCmd op l) = true ∧ (tE op l m).main.turn tMb (tCmd op l) = true ∧
      (tE op l m).main.snapshotDue (tCmd op l) = false ∧ (tE op l m).main.banked = false ∧
      maySend (callerOf tMb) op = true ∧ (tIn op l d).header = none ∧ (m.fnOf tFn).map (·.ats) = some false ∧ m.host.puts.length = 0) :
    beginsIn op l d m := by
  obtain ⟨h1, h2, h3, h4, h5, h6, h7, h8, h9, h10, h11⟩ := h
  exact ⟨.inl h1, h2, h3, h4, h5, h6, fun hb => absurd (h7.symm.trans hb) Bool.false_ne_true, h8, h9,
    fun _ => ⟨rfl, Main.needBuffer_have rfl h10 (List.length_eq_zero_iff.1 h11)⟩⟩

/-- The table of one pier, module 7. -/
def tOne : List Byte := toBytes 2 7

theorem wit_EcsComposition_create :
    beginsIn 0x100 tSc tOne ∧ tM0.recOf 6 = none ∧ (tIn 0x100 tSc tOne).reserved spanFields = none ∧
    (tIn 0x100 tSc tOne).high 0x2E 1 1 = none ∧ (∀ o ∈ tM0.spanChecks (tIn 0x100 tSc tOne) 0 false, o = none) ∧
    (((tIn 0x100 tSc tOne).grains true).only GrainSet.none = [(.core, 1), (.memory, 2)] ∧
      ([(.core, 1), (.memory, 2)] : List Grain).all (tM0.grainFree 6) = true) ∧
    tM0.badTable false ((tIn 0x100 tSc tOne).words 1) = none ∧ tM0.comp.recs.length < 40 := by
  refine ⟨beginsIn_of (by decide +kernel), ?_⟩
  and_intros <;> first
    | exact reserved_none _ _ _ _ _ (by decide)
    | decide +kernel

theorem test_spanCreate : goesTo (exec (.spanCreate tMb (tRowIn tOne)) (tE 0x100 tSc))
    (fun t => (t.main.recOf 6).isSome && t.main.comp.coreOwner.take 3 == [.span 5, .span 6, .idle] && (t.main.chan 2).state == .bound) = true := by
  decide +kernel

/-- Span 5 has a context; without it the span may go. -/
def tBare : Main := { tM0 with objs := { tM0.objs with ctxs := [], slots := List.replicate 48 none, queues := [] } }

theorem wit_EcsComposition_destroy : tBare.coh.reclaim = [] ∧ begins 0x101 [(0x20, 4, 5)] tBare ∧ (inOf 0x101 [(0x20, 4, 5)]).reserved [(0x20, 4)] = none ∧
    (inOf 0x101 [(0x20, 4, 5)]).high 0x20 4 20 = none ∧ tBare.recOf 5 = some tRec ∧ (∀ x ∈ tBare.objs.ctxs, x.span ≠ 5) ∧
    (∀ k, k < 192 → tBare.ownerOf (.memory, k) = .span 5 → (tBare.chan k).state ≠ .evacuating) := by
  and_intros <;> first
    | exact reserved_none _ _ _ _ _ (by decide)
    | decide +kernel

/-- Cluster 0 and channels 0 and 1 stay, cluster 1 comes, at epoch 2. -/
def tPr : List (Nat × Nat × Nat) := [(2, 1, 2), (8, 8, 0x9000), (0x10, 4, 4), (0x20, 4, 5), (0x24, 4, 1), (0x28, 2, 2), (0x2C, 2, 1), (0x30, 4, 50), (0x35, 1, 1),
  (0x40, 4, 3), (0x48, 1, 3), (0x60, 1, 1)]

def tTwo : List Byte := toBytes 2 7 ++ toBytes 2 9

theorem wit_EcsComposition_prepare :
    let i := tIn 0x102 tPr tTwo
    let shadow := i.grains true
    tM0.joinRec i = tRec ∧ beginsIn 0x102 tPr tTwo ∧ i.reserved ((0x34, 1) :: (0x35, 1) :: spanFields) = none ∧ i.high 0x2E 1 2 = none ∧
    i.arg 0x24 4 = 1 ∧ (i.arg 0x28 2 = 2 ∧ i.arg 0x34 1 ≤ 64 ∧ i.arg 0x35 1 = 1) ∧
    (shadow.only tRec.current = [(.core, 1)] ∧ tRec.current.only shadow = [] ∧ 1 ≤ tM0.activeCores 1 ∧ tM0.mayTake 5 1 (.core, 1) = true) ∧
    (∀ o ∈ tM0.spanChecks i 0 false, o = none) ∧ (allGrains.all (fun g => !shadow.has g || !tM0.laneLooped g)) = true ∧
    tM0.extentsFit 5 tRec.current shadow = true ∧ tM0.takersFit 5 (tRec.current.mem &&& ~~~shadow.mem) = true ∧ tM0.badTable false (i.words 2) = none ∧ badReloc tRec (i.words 2) [] = none := by
  refine ⟨?_, beginsIn_of ?_, reserved_none _ _ _ _ _ (by decide), ?_, ?_, ?_, ?_, ?_, ?_, ?_, ?_, ?_, ?_⟩ <;> decide +kernel

theorem test_composePrepare : goesTo (exec (.composePrepare tMb (tRowIn tTwo)) (tE 0x102 tPr))
    (fun t => (t.main.recOf 5).map (fun r => (r.phase, r.shadow.epoch, r.shadow.cores, r.drainUs)) == some (.prepare, 2, 3, 50)) = true := by
  decide +kernel

/-- Span 5 prepared: epoch 2 has cluster 1 too and channel 1 no longer. -/
def tOpen (phase : Phase) (committed : Bool) (h : List Handover) : SpanRec := { tRec with
  phase := phase, committed := committed, switchT := 2000000, closeT := 2050000, drainUs := 50, handovers := h, nextPiers := [7, 9]
  shadow := { tRec.current with epoch := 2, cores := 3, mem := 1 } }

def tWith (r : SpanRec) : Main := { tM0 with comp := { tM0.comp with recs := [r] } }

theorem wit_EcsComposition_commit : (tWith (tOpen .prepare false [])).recOf 5 = some (tOpen .prepare false []) ∧
    begins 0x103 [(0x20, 4, 5), (0x28, 2, 2), (0x30, 8, 2000000)] (tWith (tOpen .prepare false [])) ∧
    (inOf 0x103 [(0x20, 4, 5), (0x28, 2, 2), (0x30, 8, 2000000)]).reserved [(0x20, 4), (0x28, 2), (0x30, 8)] = none ∧
    (tWith (tOpen .prepare false [])).giversReady (tOpen .prepare false []) 2050000 = true := by
  and_intros <;> first
    | exact reserved_none _ _ _ _ _ (by decide)
    | decide +kernel

/-- SWITCH_T is 10 µs or more ahead: not late; at 10 µs it is late and the span switches at once (R317). -/
theorem test_composeCommit : goesTo (exec (.composeCommit tMb tRow) (tE 0x103 [(0x20, 4, 5), (0x28, 2, 2), (0x30, 8, 1010001)] (tWith (tOpen .prepare false []))))
      (fun t => (t.main.recOf 5).map (fun r => (r.phase, r.late, r.closeT)) == some (.prepare, false, 1060001)) = true ∧
    goesTo (exec (.composeCommit tMb tRow) (tE 0x103 [(0x20, 4, 5), (0x28, 2, 2), (0x30, 8, 1010000)] (tWith (tOpen .prepare false []))))
      (fun t => (t.main.recOf 5).map (fun r => (r.phase, r.late)) == some (.drain, true)) = true := ⟨by decide +kernel, by decide +kernel⟩

theorem wit_EcsComposition_abort : tM0.coh.reclaim = [] ∧ begins 0x104 [(0x20, 4, 5), (0x28, 2, 2)] (tWith (tOpen .prepare false [])) ∧
    (inOf 0x104 [(0x20, 4, 5), (0x28, 2, 2)]).reserved [(0x20, 4), (0x28, 2)] = none ∧
    (tRec.current.only (tOpen .prepare false []).shadow = [(.memory, 1)] ∧ (tWith (tOpen .prepare false [])).taker 5 (.memory, 1) = none) ∧
    (∀ k, k < 192 → tM0.ownerOf (.memory, k) = .span 5 → tRec.current.mem.getLsbD k = true) :=
  ⟨rfl, by decide +kernel, reserved_none _ _ _ _ _ (by decide), by decide +kernel, by decide +kernel⟩

/-- Span 5 drains; channel 1 has yet to be handed over, or has been. -/
def tHo (complete : Bool) : List Handover := [{ kind := .memory, num := 1, leave := true, complete := complete }]

theorem wit_CompositionEvents : (tWith (tOpen .prepare true [])).recOf 5 = some (tOpen .prepare true []) ∧
    (tWith (tOpen .drain true (tHo false))).handoverHeld 5 = false ∧ (tWith (tOpen .drain true (tHo false))).zeroingOn 5 1 = false ∧ (∃ h ∈ tHo false, h.kind = .memory ∧ h.num = 1 ∧ h.leave = true ∧ h.complete = false) ∧
    (tWith (tOpen .drain true (tHo true))).settleHandovers.recOf 5 = some (tOpen .drain true (tHo true)) ∧ (∀ h ∈ tHo true, h.complete = true) ∧
    (tWith { (tOpen .drain true (tHo true)) with shadow := GrainSet.none }).settleHandovers.recOf 5 =
      some { (tOpen .drain true (tHo true)) with shadow := GrainSet.none } :=
  ⟨by decide +kernel, by decide +kernel, by decide +kernel, ⟨_, List.mem_singleton.2 rfl, rfl, rfl, rfl, rfl⟩, by decide +kernel, by decide +kernel,
    by decide +kernel⟩

/-- The same spans meet what each event needs; channel 1 is the grain that leaves. -/
theorem wit_CompositionCompletes : (tWith (tOpen .drain true (tHo false))).recOf 5 = some (tOpen .drain true (tHo false)) ∧
    (tWith (tOpen .drain true (tHo false))).fenced 5 = false ∧ (tWith (tOpen .drain true (tHo false))).coh.reclaim = [] ∧
    (∀ e ∈ (tWith (tOpen .drain true (tHo false))).mem.extents, e.span = 5 → e.state ≠ .zeroing) ∧
    (∀ h ∈ tHo false, h.kind = .memory ∧ h.leave = true ∧ h.complete = false) ∧ (∀ h ∈ tHo true, h.complete = true) := by decide +kernel

/-- The close makes the shadow current at epoch 2 (R325). -/
theorem test_closeSpan : (((tWith (tOpen .drain true (tHo true))).closeSpan (tOpen .drain true (tHo true))).recOf 5).map
    (fun r => (r.phase, r.current.epoch)) = some (.stable, 2) := by decide +kernel

/-- The switch makes epoch 2 current and fabric time SWITCH_T; channel 1 is then owed, cluster 1 the span's (R319). -/
theorem test_switch : goesTo (exec (.switch 5) (tQ0 (tWith (tOpen .prepare true []))))
    (fun t => t.main.time == 2000000 && (t.main.recOf 5).map (fun r => r.phase) == some .drain) = true := by decide +kernel

/-! ### The Seal processor's commands, firmware and drills -/

def tSlot (st : SlotSt) (k : Nat) : Main := { tM0 with sec := { tM0.sec with slots := tM0.sec.slots.set k { st := st, tenant := 1, gen := 0, ctr := 0, spent := false } } }

theorem wit_EcsSeal_assign : begins 0x601 [(0x20, 2, 0xFFFF), (0x24, 4, 1)] ∧ begins 0x601 [(0x20, 2, 255), (0x24, 4, 1)] ∧
    (inOf 0x601 [(0x20, 2, 255), (0x24, 4, 1)]).reserved [(0x20, 2), (0x24, 4)] = none ∧
    (tM0.sec.blocked = false ∧ tM0.sec.slots.findIdx? (fun x => x.st == .free) = some 0 ∧ (tM0.gslot 255).st = .free) := by
  and_intros <;> first
    | exact reserved_none _ _ _ _ _ (by decide)
    | decide +kernel

theorem test_slotAssign : goesTo (exec (.slotAssign tMb tRow) (tE 0x601 [(0x20, 2, 0xFFFF), (0x24, 4, 9)])) (fun t => (t.main.gslot 0).st == .assigned && (t.main.gslot 0).tenant == 9) = true := by
  decide +kernel

theorem wit_EcsSeal_revoke : begins 0x602 [(0x20, 2, 4), (0x22, 1, 3)] (tSlot .assigned 4) ∧
    (inOf 0x602 [(0x20, 2, 4), (0x22, 1, 3)]).reserved [(0x20, 2), (0x22, 1)] = none ∧
    (inOf 0x602 [(0x20, 2, 4), (0x22, 1, 3)]).high 0x22 1 2 = none ∧ ((tSlot .assigned 4).gslot 4).st = .assigned ∧
    (∀ r ∈ tM0.objs.regions, r.glaze ≠ some 4) ∧ ((tSlot .draining 4).gslot 4).st = .draining := by
  and_intros <;> first
    | exact reserved_none _ _ _ _ _ (by decide)
    | decide +kernel

def tToken : List Byte := toBytes 4 0x4B554244 ++ List.replicate 156 0

/-- A token of 160 bytes; one of another magic number is bad whatever its signature. -/
theorem wit_EcsSeal_unlock : beginsIn 0x603 [(2, 1, 2), (8, 8, 0x9000), (0x10, 4, 160)] tToken ∧
    (tIn 0x603 [(2, 1, 2), (8, 8, 0x9000), (0x10, 4, 160)] tToken).reserved [] = none ∧
    (tIn 0x603 [(2, 1, 2), (8, 8, 0x9000), (0x10, 4, 160)] tToken).data.length = 160 ∧
    tM0.sec.unlocking = none ∧ tM0.tokenOk (List.replicate 160 0) = false :=
  ⟨beginsIn_of (by decide +kernel), reserved_none _ _ _ _ _ (by decide), by decide +kernel, by decide +kernel,
    by
    have h : (fieldAt (List.replicate 160 (0 : Byte)) 0 4 == 0x4B554244) = false := by decide +kernel
    unfold Main.tokenOk
    rw [h]
    simp only [Bool.and_false, Bool.false_and]⟩

theorem wit_EcsSeal_stage : beginsIn 0x700 [(2, 1, 2), (8, 8, 0x9000), (0x10, 4, 16), (0x24, 4, 16)] (List.replicate 16 0) ∧
    (tIn 0x700 [(2, 1, 2), (8, 8, 0x9000), (0x10, 4, 16), (0x24, 4, 16)] (List.replicate 16 0)).reserved [(0x20, 1), (0x24, 4)] = none ∧
    tM0.switches 0 = false ∧ (tM0.fwOf 0).rollback = 0 := by
  refine ⟨beginsIn_of (by decide +kernel), ?_⟩
  and_intros <;> first
    | exact reserved_none _ _ _ _ _ (by decide)
    | decide +kernel

/-- Component k has a staged image. -/
def tStaged (k : Nat) : Main := tM0.modFw k (fun f => { f with staged := true })

theorem wit_EcsSeal_activate : begins 0x701 [(0x20, 1, 2)] (tStaged 2) ∧ begins 0x701 [(0x20, 1, 3)] (tStaged 3) ∧
    ((tStaged 2).fwOf 2).staged = true ∧ ((tStaged 3).fwOf 3).staged = true ∧ (tStaged 3).sec.switching = none ∧
    ((tStaged 3).rcv.handlings = [] ∧ (tStaged 3).rcv.dev = none) := by
  and_intros <;> decide +kernel

/-- Span 5 allows drills. -/
def tDrilled : Main := tWith { tRec with drill := true }

def tDa : List (Nat × Nat × Nat) := [(0x20, 4, 5), (0x24, 1, 3), (0x25, 1, 1), (0x26, 1, 64), (0x27, 1, 0x7F), (0x2C, 4, 1), (0x34, 4, 1), (0x38, 4, 1), (0x48, 1, 1)]

theorem wit_EcsSeal_drill : begins 0x800 tDa tDrilled ∧ tDrilled.drills.findIdx? (fun d => d.st == .free) = some 0 ∧
    (inOf 0x800 tDa).reserved [(0x20, 4), (0x24, 4), (0x28, 2), (0x2C, 12), (0x38, 4), (0x40, 8), (0x48, 16)] = none ∧
    ((inOf 0x800 tDa).high 0x20 4 20 = none ∧ (inOf 0x800 tDa).high 0x27 1 7 = none ∧ bits ((inOf 0x800 tDa).arg 0x28 2) 14 13 = 0) ∧
    (tDrilled.recOf 5).map (fun r => (r.drill, r.current.valid, r.current.links.getLsbD 0)) = some (true, true, true) ∧
    (bitsSet 128 (BitVec.ofNat 128 ((inOf 0x800 tDa).arg 0x48 16)).toNat = [0] ∧ nth tDrilled.comp.linkOwner 0 .idle = .span 5 ∧
      tDrilled.groupShared 1 0 = false) ∧ begins 0x801 [(0x20, 1, 0xFF)] ∧ begins 0x801 [(0x20, 1, 15)] := by
  and_intros <;> first
    | exact reserved_none _ _ _ _ _ (by decide)
    | decide +kernel

theorem test_drillArm : goesTo (exec (.drillArm tMb tRow) (tE 0x800 tDa tDrilled))
    (fun t => (t.main.drills.head?).map (fun d => (d.st, d.action, d.hold, d.limit)) == some (.armed, 3, 64, 1)) = true := by decide +kernel

/-- Engine 15's lanes are idle, or held where they are not fitted. -/
theorem wit_EcsSeal_loopback : begins 0x802 [(0x20, 1, 15), (0x21, 1, 2), (0x22, 1, 1)] ∧ begins 0x802 [(0x20, 1, 15)] ∧
    (inOf 0x802 [(0x20, 1, 15), (0x21, 1, 2), (0x22, 1, 1)]).reserved [(0x20, 3)] = none ∧
    (tM0.optOf 15).spareUsed = none ∧ (∀ l ∈ engineLanes 15, nth tM0.comp.linkOwner l .held = .idle) := by
  and_intros <;> first
    | exact reserved_none _ _ _ _ _ (by decide)
    | decide +kernel

/-- The SHA-384 digest of "abc" (FIPS 180-4's example). -/
theorem test_sha384 : sha384 [0x61, 0x62, 0x63] = bigBytes 48
    0xcb00753f45a35e8bb5a03d699ac65007272c32ab0eded1631a8b605a43ff5bed8086072ba1e7cc2358baeca134c825a7 := by decide +kernel

/-- AES-256's example (FIPS 197, C.3). -/
theorem test_aes256 : aes256 ((List.range 32).map (BitVec.ofNat 8)) ((List.range 16).map (fun i => BitVec.ofNat 8 (17 * i))) =
    bigBytes 16 0x8ea2b7ca516745bfeafc49904b496089 := by decide +kernel

/-! ### The whole block -/

/-- A step takes the front of the queue and leaves the rest. -/
theorem test_queue : goesTo (step { State.reset with pending := [.tapBypass, .tapIdcode] }) (fun t => t.pending == [.tapIdcode]) = true := by decide +kernel

/-- With nothing queued the block's clock runs for a nanosecond (log 3). -/
theorem test_idle : goesTo (step tQ0) (fun t => t.main.time == 1000001 && t.pending.isEmpty) = true := by decide +kernel

theorem wit_QueueUntouched : goesTo (exec .tapBypass State.reset) (fun t => t.pending.isEmpty) = true := by decide +kernel

theorem wit_PowerStaysLegal : Power.reset.legal ∧ goesTo (step { State.reset with pending := [.pwrbrakeAssert] }) (fun t => t.power.brake) = true := by
  decide +kernel

/-! ### Ill-formed terms that the checks refuse -/

theorem wf_good : (Instr.iadd tR (tF 5 1 2 0 0)).wf = true ∧ (Instr.identify tMb tRow).wf = true ∧ (Instr.bulkrd (tMsg 2 [])).wf = true := by decide

theorem wf_bundle : (Instr.iadd { wg := 1, idx := 64 } (tF 5 1 2 0 0)).wf = false := by decide

theorem wf_chain : (Instr.tmmaComplete tR 2).wf = false := by decide

theorem wf_function : (Instr.doorbellWrite ⟨2, 0⟩ 0 4 []).wf = false ∧ (Instr.flr ⟨0, 64⟩).wf = false := by decide

theorem wf_queue : (Instr.hint ⟨65536, 0⟩ []).wf = false ∧ (Instr.hint ⟨3, 64⟩ []).wf = false := by decide

theorem wf_packet : (Instr.hint tQ (List.replicate 63 0)).wf = false := by decide

theorem wf_engine : (Instr.dma tQ [] 96).wf = false ∧ (Instr.descriptorEnd 96).wf = false := by decide

theorem wf_place : (Instr.workGroupAdmit 1 (.core 288)).wf = false ∧ (Instr.workGroupAdmit 1 (.pier 8192 0)).wf = false ∧
    (Instr.workGroupAdmit 1 (.pier 0 65)).wf = false ∧ (Instr.workGroupBatch (.stop 8192 0)).wf = false := by decide

theorem wf_message : (Instr.rd { tMsg 2 [] with op := 256 }).wf = false ∧ (Instr.rd { tMsg 2 [] with dest := 8192 }).wf = false ∧
    (Instr.rd { tMsg 2 [] with src := 8192 }).wf = false ∧ (Instr.rd { tMsg 2 [] with span := 2 ^ 20 }).wf = false ∧
    (Instr.rd { tMsg 2 [] with epoch := 65536 }).wf = false ∧ (Instr.rd { tMsg 2 [] with hops := 8 }).wf = false ∧
    (Instr.rd { tMsg 2 [] with tag := 2 ^ 40 }).wf = false ∧ (Instr.rd { tMsg 2 [] with data := [0] }).wf = false := by decide

theorem wf_lane : (Instr.nak 128 0).wf = false := by decide

theorem wf_flit_length : (Instr.dataFlit 0 9 { hdr := 0, payload := List.replicate 240 0, fec := .clean, poison := false, rr := none }).wf = false ∧
    (Instr.dataFlit 0 0 { hdr := 0, payload := [], fec := .clean, poison := false, rr := none }).wf = false := by decide

theorem wf_lane_end : (Instr.identityExchange 0 ⟨8192, 0, 0⟩ ⟨0, 0, 0⟩ 0).wf = false ∧ (Instr.identityExchange 0 ⟨0, 16, 0⟩ ⟨0, 0, 0⟩ 0).wf = false ∧
    (Instr.identityExchange 0 ⟨0, 0, 9⟩ ⟨0, 0, 0⟩ 0).wf = false := by decide

theorem wf_span : (Instr.switch (2 ^ 20)).wf = false := by decide

theorem wf_tracker : (Instr.requestTimerExpiry 18 0).wf = false ∧ (Instr.requestTimerExpiry 0 1024).wf = false := by decide

theorem wf_agent : (Instr.dirtyNotice 320 0).wf = false ∧ (Instr.dirtyNotice 0 (192 * 2 ^ 25)).wf = false := by decide

theorem wf_granule : (Instr.rangeRecall 0 1536 0).wf = false ∧ (Instr.zeroingComplete (.channel 192)).wf = false ∧
    (Instr.zeroingComplete (.extent 65536)).wf = false := by decide

theorem wf_event_queue : (Instr.eqCtlEnSet tFn 64).wf = false := by decide

theorem wf_vector : (Instr.registerWrite (.msix tFn 128) 0 4 0).wf = false ∧ (Instr.registerWrite (.sriov 2) 0 4 0).wf = false ∧
    (Instr.registerWrite (.aer ⟨0, 64⟩) 0 4 0).wf = false := by decide +kernel

theorem wf_command : (Instr.identify tMb { tRow with idx := 2 ^ 64 }).wf = false ∧ (Instr.identify .bmc tRow).wf = false ∧
    (Instr.identify .bmc { tRow with bytes := List.replicate 256 0, idx := 8 }).wf = false := by decide +kernel

theorem wf_mctp : (Instr.mctpControl ⟨{ tFrom with eid := 256 }, .getTypes⟩).wf = false ∧ (Instr.mctpControl ⟨{ tFrom with tag := 8 }, .getTypes⟩).wf = false ∧
    (Instr.mctpControl ⟨{ tFrom with inst := 32 }, .getTypes⟩).wf = false ∧ (Instr.mctpControl ⟨{ tFrom with smbus := some 128 }, .getTypes⟩).wf = false ∧
    (Instr.mctpControl ⟨tFrom, .getTypes⟩).wf = true := by decide

theorem wf_uses : (Instr.energyMeter 0 ⟨[], []⟩).wf = false ∧ (Instr.energyMeter 0 ⟨List.replicate 6 0, [⟨5, 0, 0, 0, []⟩]⟩).wf = false ∧
    (Instr.energyMeter 0 ⟨List.replicate 6 0, [⟨0, 3, 0, 0, []⟩]⟩).wf = false := by decide

theorem wf_nonce : (Instr.spdmChallenge (.mctp tFrom) 0 []).wf = false ∧ (Instr.spdmGetVersion (.doe 2)).wf = false := by decide

theorem wf_source : (Instr.egRoute 12 0 0).wf = false ∧ (Instr.egRoute 0 1024 0).wf = false ∧ (Instr.egPendSet 0 16 0).wf = false := by decide

theorem wf_rail : (Instr.regulatorAlert 6).wf = false ∧ (Instr.droop 32 false).wf = false := by decide

theorem wf_report : (Instr.startStepDone { tGood with coresBad := [288] }).wf = false ∧ (Instr.startStepDone { tGood with physBad := [192] }).wf = false ∧
    (Instr.startStepDone { tGood with crossingsBad := [2] }).wf = false ∧ (Instr.startStepDone { tGood with viaductBad := [0] }).wf = false ∧
    (Instr.startStepDone { tGood with images := [(6, false)] }).wf = false ∧
    (Instr.startStepDone tGood).wf = true := by decide

theorem wf_engine_kind : (Instr.coneStall ⟨5, 0⟩).wf = false := by decide

theorem wf_abort : (Instr.abort (2 ^ 20) 0).wf = false := by decide

theorem wf_wire : (Instr.viaductWireError 2 0).wf = false := by decide

end Sys2Proof.Tests
end

section
/-! What commands on functions and ports come to, and what registers read (R3, R4, R338-R345, R354-R362, R401, R428). -/

namespace Sys2Proof.Machine

/-- A command whose meaning on Main goes on changes Main alone. -/
theorem exec_eq_toMain {c : Instr} {f : Main → Out} {s : State} {m : Main} (hc : exec c s = onMain f s)
    (hf : f s.main = .next m) : exec c s = toMain s m := hc.trans (onMain_of_next hf)

/-! ### Commands on functions (R338, R344, R356, R362, R431) -/

/-- A reachable function is reset (R362). -/
theorem exec_flr_of_fnReach {s : State} {fn : Fn} (h : s.main.fnReach fn = true) :
    exec (.flr fn) s = toMain s ((s.main.resetFn fn).dmaPump.after) :=
  exec_eq_toMain (f := Main.flr fn) rfl (if_neg (by simp [h]))

/-- Page requests of a reachable function are sent anew (R356). -/
theorem exec_priEnable_of_fnReach {s : State} {fn : Fn} (h : s.main.fnReach fn = true) :
    exec (.priEnable fn) s =
      toMain s ((s.main.modFn fn (fun r => { r with pri := true, priStopped := false })).askWaiting fn) :=
  exec_eq_toMain (f := Main.priEnable fn) rfl (if_neg (by simp [h]))

/-- A vector that a reachable function has is unmasked (R431). -/
theorem exec_msixUnmask_of_lt {s : State} {fn : Fn} {v : Nat} (h : s.main.fnReach fn = true) (hv : v < vectors fn) :
    exec (.msixUnmask fn v) s = toMain s (s.main.unmask fn v) :=
  exec_eq_toMain (f := Main.msixUnmask fn v) rfl (if_neg (by simp [h, hv]))

/-- A vector that is not pending sends nothing when it is unmasked. -/
theorem Main.unmask_of_not_pending {m : Main} {fn : Fn} {r : FnRec} {v : Nat} (hr : m.fnOf fn = some r)
    (hv : r.pendVec.contains v = false) :
    m.unmask fn v = m.modFn fn (fun r =>
      { r with masked := r.masked.filter (· != v), pendVec := r.pendVec.filter (· != v) }) := by
  simp only [Main.unmask, hr, hv, Bool.false_eq_true, if_false]

/-- A write that takes one register without a row of its own, in a block that is there, is performed at its place (R3). -/
theorem exec_registerWrite_of_oneRegister {s : State} {blk : RegBlock} {off size : Nat} {v : BitVec 64}
    (h : s.main.fnReach (regFn blk) = true) (hrow : ownRow (regPlace blk off) = false)
    (hone : oneRegister (regPlace blk off) off size = true) (hthere : s.main.blockThere (regPlace blk off) = true) :
    exec (.registerWrite blk off size v) s = toMain s ((s.main.placeWrite (regPlace blk off) size v.toNat).after) :=
  exec_eq_toMain (f := Main.registerWrite blk off size v) rfl (if_neg (by simp [h, hrow, hone, hthere]))

/-- A window takes any power of two from 2^30 up to the largest of its function (R338, R344). -/
theorem exec_bar2Resize_of_le {s : State} {fn : Fn} {k : Nat} (h : (s.main.fnOf fn).isSome = true) (hlow : 30 ≤ k)
    (hhigh : k ≤ if fn.idx = 0 then 40 else 36) :
    exec (.bar2Resize fn (2 ^ k)) s =
      toMain s ((if fn.idx = 0 then [fn] else vfsOf fn.port).foldl (Main.resizeWindow (2 ^ k)) s.main) := by
  refine exec_eq_toMain (f := Main.bar2Resize fn (2 ^ k)) rfl (if_neg ?_)
  have hsize : (rangeFrom 30 ((if fn.idx = 0 then 40 else 36) - 29)).any (fun j => 2 ^ k == 2 ^ j) = true :=
    List.any_eq_true.2 ⟨k, List.mem_map.2 ⟨k - 30, List.mem_range.2 (by omega), by omega⟩, by simp⟩
  simp [hsize, Option.isSome_iff_ne_none.1 h]

/-! ### Commands on ports (R338, R362, R536) -/

/-- PERST# of a port takes it down (R362). -/
theorem exec_perst_of_lt {s : State} {port : Nat} (h : port < 2) :
    exec (.perst port) s = toMain s (((s.main.portDown port).modPort port (fun p => { p with perst := true })).after) :=
  exec_eq_toMain (f := Main.perst port) rfl (if_neg (by omega))

/-- PERST# deasserted: the link comes up with the main rails (R536). -/
theorem exec_perstRelease_of_lt {s : State} {port : Nat} (h : port < 2) :
    exec (.perstRelease port) s =
      toMain s (s.main.modPort port (fun p => { p with perst := false, linkUp := s.main.rcv.mainRails })) :=
  exec_eq_toMain (f := Main.perstRelease port) rfl (if_neg (by omega))

/-- VF Enable cleared on a port that has a VF resets its VFs (R362). -/
theorem exec_vfEnableClear_of_present {s : State} {port : Nat} {f : Fn} {r : FnRec}
    (h : s.main.fnReach ⟨port, 0⟩ = true) (hf : f ∈ vfsOf port) (hr : s.main.fnOf f = some r) (hp : r.present = true) :
    exec (.vfEnableClear port) s = toMain s ((s.main.clearVfs port).dmaPump.after) := by
  refine exec_eq_toMain (f := Main.vfEnableClear port) rfl (if_neg ?_)
  have hany : (vfsOf port).any (fun f => match s.main.fnOf f with | some r => r.present | none => false) = true :=
    List.any_eq_true.2 ⟨f, hf, by simp only [hr, hp]⟩
  simp only [h, Bool.not_true, Bool.false_or, Bool.not_eq_true']
  exact ne_false_of_eq_true hany

/-- DOE Discovery of a reachable PF adds one object to the port's DOE mailbox (R338). -/
theorem exec_doeDiscovery_of_fnReach {s : State} {port : Nat} (h : s.main.fnReach ⟨port, 0⟩ = true) (index : Nat) :
    ∃ d, exec (.doeDiscovery port index) s =
      toMain s { s.main with host := { s.main.host with doe := s.main.host.doe ++ [(port, d)] } } :=
  ⟨_, exec_eq_toMain (f := Main.doeDiscovery port index) rfl (if_neg (by simp [h]))⟩

/-! ### ATS invalidations (R358, R361) -/

/-- An Invalidation Request that the function's queue takes is processed behind the others. -/
theorem exec_atsInvalidationRequest_of_room {s : State} {v : AtsInv} {r : FnRec} (hr : s.main.fnOf v.fn = some r)
    (hport : v.fn.port = v.port) (hnew : ∀ x ∈ s.main.host.invs, x.fn = v.fn → x.itag ≠ v.itag)
    (hroom : (s.main.host.invs.filter (fun x => x.fn == v.fn)).length < 32) :
    ∃ m1 x, exec (.atsInvalidationRequest v) s = toMain s m1 ∧ m1.host.invs = s.main.host.invs ++ [x] ∧ x.itag = v.itag ∧
      x.port = v.port ∧ x.fn = v.fn := by
  have htag : (s.main.host.invs.filter (fun x => x.fn == v.fn)).any (fun x => x.itag == v.itag) = false := by
    simpa using hnew
  have hgo : ∃ m1 x, Main.invalidate v s.main = .next m1 ∧ m1.host.invs = s.main.host.invs ++ [x] ∧ x.itag = v.itag ∧
      x.port = v.port ∧ x.fn = v.fn := by
    simp only [Main.invalidate, hr]
    rw [if_neg (by simp [hport, htag, hroom])]
    exact ⟨_, _, rfl, rfl, rfl, rfl, rfl⟩
  obtain ⟨m1, x, hnext, hx⟩ := hgo
  exact ⟨m1, x, exec_eq_toMain (f := Main.invalidate v) rfl hnext, hx⟩

/-- The completion is sent once no engine's acknowledgement is missing. -/
theorem exec_invalidationCompletion_of_find {s : State} {port itag : Nat} {v : InvRun}
    (h : s.main.host.invs.find? (fun v => v.port == port && v.itag == itag && v.engines.isEmpty) = some v) :
    exec (.invalidationCompletion port itag) s = toMain s ({ s.main with host := { s.main.host with
      invs := s.main.host.invs.erase v, completed := s.main.host.completed ++ [(port, itag)] } } : Main).settleFlr :=
  exec_eq_toMain (f := Main.invDone port itag) rfl (by simp only [Main.invDone, h])

/-- An engine whose acknowledgement is late is reset. -/
theorem exec_invalidationAckTimeout_of_find {s : State} {e : Nat} {v : InvRun}
    (h : s.main.host.invs.find? (fun v => v.engines.contains e) = some v) :
    exec (.invalidationAckTimeout e) s = toMain s ((s.main.until (v.since + 10000000)).beginReset ⟨1, e⟩ 0x11 0) :=
  exec_eq_toMain (f := Main.ackTimeout e) rfl (by simp only [Main.ackTimeout, h])

/-! ### Where a byte of BAR0 lies (R340) -/

theorem barPlace_identity (fn : Fn) {off : Nat} (h : off < 0x1000) : barPlace fn off = .block (.identity fn) off := by
  unfold barPlace
  split
  · exact if_pos h
  · exact if_pos h

theorem barPlace_mailbox (fn : Fn) {off : Nat} (h : off < 0x1000) :
    barPlace fn (0x1000 + off) = .block (.mailbox fn) off := by
  have h1 : ¬ 0x1000 + off < 0x1000 := by omega
  have h2 : 0x1000 + off < 0x2000 := by omega
  simp only [barPlace, pfPlace, vfPlace, h1, h2, if_true, if_false, Nat.add_sub_cancel_left, ite_self]

theorem pfPlace_eventQueue (fn : Fn) {q off : Nat} (hq : q < 64) (h : off < 64) :
    pfPlace fn (0x10000 + 64 * q + off) = .block (.eventQueue fn q) off := by
  unfold pfPlace
  rw [if_neg (by omega), if_neg (by omega), if_neg (by omega), if_pos (by omega)]
  congr 2 <;> omega

theorem vfPlace_eventQueue (fn : Fn) {q off : Nat} (hq : q < 8) (h : off < 64) :
    vfPlace fn (0x2000 + 64 * q + off) = .block (.eventQueue fn q) off := by
  unfold vfPlace
  rw [if_neg (by omega), if_neg (by omega), if_pos (by omega)]
  congr 2 <;> omega

theorem barPlace_eventQueue (fn : Fn) {q off : Nat} (hq : q < if fn.idx == 0 then 64 else 8) (h : off < 64) :
    barPlace fn ((if fn.idx == 0 then 0x10000 else 0x2000) + 64 * q + off) = .block (.eventQueue fn q) off := by
  unfold barPlace
  by_cases hf : fn.idx = 0
  · simp only [hf, beq_self_eq_true, if_true] at hq ⊢
    exact pfPlace_eventQueue fn hq h
  · simp only [hf, beq_iff_eq, if_false] at hq ⊢
    exact vfPlace_eventQueue fn hq h

/-- Nothing lies beyond a function's doorbell pages. -/
theorem barPlace_of_barSize_le (fn : Fn) {off : Nat} (h : barSize fn ≤ off) : barPlace fn off = .reserved := by
  unfold barSize at h
  unfold barPlace
  split at h
  case isTrue hf =>
    unfold pfPlace
    simp only [hf, if_true]
    repeat rw [if_neg (by omega)]
  case isFalse hf =>
    unfold vfPlace
    simp only [hf, if_false]
    repeat rw [if_neg (by omega)]

/-! ### Reads: one register, or the two halves of a 64-bit register -/

theorem Main.registerRead_four (m : Main) (blk : RegBlock) (off : Nat) :
    m.registerRead blk off 4 = m.placeRead (regFn blk) (regPlace blk off) := rfl

theorem Main.registerRead_eight (m : Main) (blk : RegBlock) (off : Nat) :
    m.registerRead blk off 8 = m.registerRead blk off 4 + m.registerRead blk (off + 4) 4 * 2 ^ 32 := rfl

/-- A register of BAR0 reads as it does in the block where it lies. -/
theorem Main.registerRead_bar0 {m : Main} {fn : Fn} {off at_ : Nat} {blk : RegBlock} (hplace : barPlace fn off = .block blk at_)
    (hblk : regPlace blk at_ = .block blk at_) : m.registerRead (.bar0 fn) off 4 = m.registerRead blk at_ 4 := by
  simp only [Main.registerRead_four, hblk, show regPlace (.bar0 fn) off = .block blk at_ from hplace, Main.placeRead]

/-- A reserved offset and a doorbell read as zero (R3, R4). -/
theorem Main.registerRead_bar0_zero {m : Main} {fn : Fn} {off : Nat}
    (h : barPlace fn off = .reserved ∨ ∃ page at_, barPlace fn off = .doorbell page at_) :
    m.registerRead (.bar0 fn) off 4 = 0 := by
  rw [Main.registerRead_four]
  change m.placeRead fn (barPlace fn off) = 0
  obtain h | ⟨page, at_, h⟩ := h
  · rw [h]; rfl
  · rw [h]; rfl

/-- The half that an offset names depends on the offset within its 8 bytes. -/
theorem halfAt_mod (x off : Nat) : halfAt x off = halfAt x (off % 8) := by
  unfold halfAt
  rw [Nat.mod_mod]

/-- The two halves make up the register. -/
theorem halfAt_add_halfAt {x off : Nat} (hoff : off % 8 = 0) (h : x < 2 ^ 64) :
    halfAt x off + halfAt x (off + 4) * 2 ^ 32 = x := by
  have hhigh : ¬ (off + 4) % 8 = 0 := by omega
  simp only [halfAt, hoff, hhigh, if_true, if_false]
  omega

/-! ### Identity registers, mailboxes and event queues (R341, R401, R428) -/

theorem seenTime_eq (fn : Fn) (t : Nat) : seenTime fn t = if fn.idx == 0 then t else t / 1000 * 1000 := by
  simp [seenTime]

theorem seenTime_le (fn : Fn) (t : Nat) : seenTime fn t ≤ t := by
  unfold seenTime
  split <;> omega

theorem Main.identityRead_device (m : Main) (fn : Fn) :
    m.registerRead (.identity fn) 0 4 = if fn.idx == 0 then 0x0C900100 else 0x0C900101 := by
  change 0x0C900100 + (if fn.idx = 0 then 0 else 1) = _
  by_cases hf : fn.idx = 0
  · simp [hf]
  · simp [hf]

theorem Main.identityRead_time {m : Main} (fn : Fn) (h : m.time < 2 ^ 64) :
    m.registerRead (.identity fn) 0x10 8 = if fn.idx == 0 then m.time else m.time / 1000 * 1000 :=
  calc m.registerRead (.identity fn) 0x10 8
      = halfAt (seenTime fn m.time) 0x10 + halfAt (seenTime fn m.time) (0x10 + 4) * 2 ^ 32 := rfl
    _ = seenTime fn m.time := halfAt_add_halfAt rfl (Nat.lt_of_le_of_lt (seenTime_le fn m.time) h)
    _ = _ := seenTime_eq fn m.time

theorem Main.mailboxRead_four {m : Main} {fn : Fn} {b : Mailbox} (h : m.boxOf (.fn fn) = some b) (off : Nat) :
    m.registerRead (.mailbox fn) off 4 = b.read off := by
  change ((m.boxOf (.fn fn)).map (fun b => b.read off)).getD 0 = b.read off
  rw [h]; rfl

theorem Main.mailboxRead_base {m : Main} {fn : Fn} {b : Mailbox} (h : m.boxOf (.fn fn) = some b) :
    m.registerRead (.mailbox fn) 8 8 = b.base.toNat := by
  rw [Main.registerRead_eight, Main.mailboxRead_four h, Main.mailboxRead_four h]
  exact halfAt_add_halfAt (off := 8) rfl b.base.isLt

theorem Main.eventQueueRead_four {m : Main} {fn : Fn} {q : Nat} {x : EvQ} (h : m.eqOf fn q = some x) (off : Nat) :
    m.registerRead (.eventQueue fn q) off 4 = x.read off := by
  change ((m.eqOf fn q).map (fun x => x.read off)).getD 0 = x.read off
  rw [h]; rfl

/-! ### Window segment entries (R345) -/

theorem Main.segmentRead_four {m : Main} {fn : Fn} {r : FnRec} (h : m.fnOf fn = some r) (off : Nat) :
    m.registerRead (.segments fn) off 4 = r.segRead off := by
  change ((m.fnOf fn).map (fun r => r.segRead off)).getD 0 = r.segRead off
  rw [h]; rfl

/-- A byte of an entry that is VALID lies in its low or its high half. -/
theorem FnRec.segRead_of_find {r : FnRec} {g : Segment} (h : r.segs.find? (fun x => x.idx == g.idx) = some g) {k : Nat}
    (hk : k < 16) : r.segRead (16 * g.idx + k) = if k < 8 then halfAt g.low k else halfAt g.high k := by
  have hdiv : (16 * g.idx + k) / 16 = g.idx := by omega
  have hmod : (16 * g.idx + k) % 16 = k := by omega
  have hhalf (x : Nat) : halfAt x (16 * g.idx + k) = halfAt x k := by
    rw [halfAt_mod, halfAt_mod x k]
    congr 1
    omega
  simp only [FnRec.segRead, hdiv, h, hmod, hhalf]

/-- An entry that is not VALID reads as zero (assumption log 89). -/
theorem FnRec.segRead_of_absent {r : FnRec} {off : Nat} (h : ∀ x ∈ r.segs, x.idx ≠ off / 16) : r.segRead off = 0 := by
  have hnone : r.segs.find? (fun x => x.idx == off / 16) = none := by simpa [List.find?_eq_none] using h
  simp only [FnRec.segRead, hnone]

theorem Segment.low_lt {g : Segment} (hspan : g.span < 2 ^ 20) (hbase : g.wbase < 2 ^ 19) : g.low < 2 ^ 64 := by
  have hwr : b2n g.wr ≤ 1 := by cases g.wr <;> decide
  unfold Segment.low
  omega

theorem Segment.high_lt {g : Segment} (hbase : g.sbase < 2 ^ 31) (hlen : g.len < 2 ^ 20) : g.high < 2 ^ 64 := by
  unfold Segment.high
  omega

theorem Main.segmentRead_low {m : Main} {fn : Fn} {r : FnRec} {g : Segment} (hr : m.fnOf fn = some r)
    (hg : r.segs.find? (fun x => x.idx == g.idx) = some g) (hlow : g.low < 2 ^ 64) :
    m.registerRead (.segments fn) (16 * g.idx) 8 = g.low := by
  rw [Main.registerRead_eight, Main.segmentRead_four hr, Main.segmentRead_four hr,
    FnRec.segRead_of_find hg (k := 4) (by decide), ← Nat.add_zero (16 * g.idx),
    FnRec.segRead_of_find hg (k := 0) (by decide), if_pos (by decide), if_pos (by decide)]
  exact halfAt_add_halfAt (off := 0) rfl hlow

theorem Main.segmentRead_high {m : Main} {fn : Fn} {r : FnRec} {g : Segment} (hr : m.fnOf fn = some r)
    (hg : r.segs.find? (fun x => x.idx == g.idx) = some g) (hhigh : g.high < 2 ^ 64) :
    m.registerRead (.segments fn) (16 * g.idx + 8) 8 = g.high := by
  rw [Main.registerRead_eight, Main.segmentRead_four hr, Main.segmentRead_four hr, Nat.add_assoc,
    FnRec.segRead_of_find hg (k := 12) (by decide), FnRec.segRead_of_find hg (k := 8) (by decide),
    if_neg (by decide), if_neg (by decide)]
  exact halfAt_add_halfAt (off := 8) rfl hhigh

/-- The 8 bytes of which neither half lies in a VALID entry. -/
theorem Main.segmentRead_absent {m : Main} {fn : Fn} {r : FnRec} (hr : m.fnOf fn = some r) {off : Nat}
    (hlow : ∀ x ∈ r.segs, x.idx ≠ off / 16) (hhigh : ∀ x ∈ r.segs, x.idx ≠ (off + 4) / 16) :
    m.registerRead (.segments fn) off 8 = 0 := by
  rw [Main.registerRead_eight, Main.segmentRead_four hr, Main.segmentRead_four hr, FnRec.segRead_of_absent hlow,
    FnRec.segRead_of_absent hhigh, Nat.zero_mul]

/-- Settles O36, from what each command comes to and what each register reads. -/
theorem functionResults : Obligations.FunctionResults := by
  intro s fn
  refine ⟨fun h => ⟨exec_flr_of_fnReach h, exec_priEnable_of_fnReach h, fun v => exec_msixUnmask_of_lt h,
      fun r v => Main.unmask_of_not_pending, ?writes⟩,
    fun h k => exec_bar2Resize_of_le h,
    fun port h => ⟨exec_perst_of_lt h, exec_perstRelease_of_lt h, fun hpf =>
      ⟨fun f r => exec_vfEnableClear_of_present hpf, exec_doeDiscovery_of_fnReach hpf⟩⟩,
    fun v r => exec_atsInvalidationRequest_of_room, fun port itag v => exec_invalidationCompletion_of_find,
    fun e v => exec_invalidationAckTimeout_of_find, ?reads⟩
  case writes =>
    rintro blk off size v rfl
    exact exec_registerWrite_of_oneRegister h
  case reads =>
    refine ⟨fun off => Main.registerRead_bar0_zero, fun off => barPlace_of_barSize_le fn,
      fun off h => Main.registerRead_bar0 (barPlace_identity fn h) rfl,
      fun off h => Main.registerRead_bar0 (barPlace_mailbox fn h) rfl,
      fun q off hq h => Main.registerRead_bar0 (barPlace_eventQueue fn hq h) rfl,
      Main.identityRead_device s.main fn, rfl, rfl, rfl, Main.identityRead_time fn, ?mailbox, ?queue, ?entry, ?absent⟩
    case mailbox =>
      intro b hb
      exact ⟨Main.mailboxRead_four hb 0x10, Main.mailboxRead_four hb 0x14, Main.mailboxRead_base hb⟩
    case queue =>
      intro q x hx
      exact ⟨Main.eventQueueRead_four hx 0x18, Main.eventQueueRead_four hx 0x1C⟩
    case entry =>
      intro r g hr hg hspan hwbase hsbase hlen
      exact ⟨Main.segmentRead_low hr hg (Segment.low_lt hspan hwbase),
        Main.segmentRead_high hr hg (Segment.high_lt hsbase hlen)⟩
    case absent =>
      intro r hr h
      exact ⟨Main.segmentRead_absent hr h h, Main.segmentRead_absent hr h h⟩

end Sys2Proof.Machine
end

section
/-! Latches, laser sources and the fabric map (R22, R247, R248, R261, R262). -/

namespace Sys2Proof.Machine

/-! ### One optical engine changed -/

/-- The model's change of one place is the library's. -/
theorem modNth_eq_modify {α : Type} (l : List α) (i : Nat) (f : α → α) : modNth l i f = l.modify i f := by
  induction l generalizing i with
  | nil => simp [modNth]
  | cons x r ih =>
    cases i with
    | zero => simp [modNth]
    | succ n => simp [modNth, ih]

/-- What a change of an engine keeps of every engine, it keeps of the engine that is read back. -/
theorem Main.optOf_modOpt_of_kept {β : Type} {p : OptEngine → β} {f : OptEngine → OptEngine} (hf : ∀ o, p (f o) = p o)
    (m : Main) (e : Nat) : p ((m.modOpt e f).optOf e) = p (m.optOf e) := by
  simp only [Main.optOf, Main.modOpt_fab, nth, modNth_eq_modify, List.getElem?_modify_eq]
  cases m.fab.engines[e]? with
  | none => rfl
  | some o => exact hf o

/-! ### Latches and laser sources (R247, R248) -/

/-- An open latch leaves its engine dark. -/
theorem exec_connectorLatchOpen_of_lt {s : State} {e : Nat} (he : e < 16) : exec (.connectorLatchOpen e) s =
    toMain s (((s.main.modOpt e (fun o => { o with latchClosed := false })).darken e).flush) :=
  exec_eq_toMain (f := Main.latchOpen e) rfl (if_neg (by omega))

/-- A latch that closes starts the second after which the laser may light. -/
theorem exec_connectorLatchClose_of_open {s : State} {e : Nat} (he : e < 16) (h : (s.main.optOf e).latchClosed = false) :
    exec (.connectorLatchClose e) s =
      toMain s (s.main.modOpt e (fun o => { o with latchClosed := true, closedAt := s.main.time })) := by
  have hlt : ¬ 16 ≤ e := by omega
  exact exec_eq_toMain (f := Main.latchClose e) rfl (by simp [Main.latchClose, hlt, h])

/-- A dark laser that nothing holds off lights, and the lanes of its engine are calibrated. -/
theorem exec_laserRelight_of_ready {s : State} {e : Nat} (he : e < 16) (hlatch : (s.main.optOf e).latchClosed = true)
    (hdark : (s.main.optOf e).laserOn = false) (hshut : (s.main.optOf e).shutdown = false)
    (hrails : s.main.rcv.mainRails = true)
    (hsource : (s.main.optOf e).sourceFailed = false ∨ (s.main.optOf e).onRedundant = true) :
    exec (.laserRelight e) s = toMain s ((engineLanes e).foldl (fun m k => m.modLane k (fun l =>
        { l with st := if (s.main.optOf e).loopback = 0 then .calibrating else .off }))
      ((s.main.until ((s.main.optOf e).closedAt + 1000000000)).modOpt e (fun o =>
        { o with laserOn := true, spare := .calibrating }))) := by
  have hlt : ¬ 16 ≤ e := by omega
  have hlit : ((s.main.optOf e).sourceFailed && !(s.main.optOf e).onRedundant) = false := by
    obtain h | h := hsource
    · simp [h]
    · simp [h]
  exact exec_eq_toMain (f := Main.relight e) rfl (by simp [Main.relight, hlt, hlatch, hdark, hshut, hrails, hlit])

/-- The engine that shares the redundant laser source with an engine. -/
def pairedEngine (e : Nat) : Nat := if e % 2 = 0 then e + 1 else e - 1

/-- The engine's source marked as failed. -/
def Main.sourceOut (m : Main) (e : Nat) : Main := m.modOpt e (fun o => { o with sourceFailed := true })

/-- No redundant source is left for the engine: it goes dark. -/
theorem exec_laserSourceFailure_of_taken {s : State} {e : Nat} (he : e < 16)
    (h : (s.main.optOf e).onRedundant = true ∨ (s.main.optOf (pairedEngine e)).onRedundant = true) :
    exec (.laserSourceFailure e) s = toMain s (((s.main.sourceOut e).darken e).flush) := by
  have hlt : ¬ 16 ≤ e := by omega
  have htaken : ((s.main.optOf e).onRedundant || (s.main.optOf (pairedEngine e)).onRedundant) = true :=
    Bool.or_eq_true_iff.2 h
  exact exec_eq_toMain (f := Main.sourceFails e) rfl ((if_neg hlt).trans (if_pos htaken))

/-- The redundant source takes over; the event names the engine's first lane and its neighbour (assumption log 105). -/
theorem exec_laserSourceFailure_of_free {s : State} {e : Nat} (he : e < 16) (hown : (s.main.optOf e).onRedundant = false)
    (hpair : (s.main.optOf (pairedEngine e)).onRedundant = false) :
    exec (.laserSourceFailure e) s = toMain s (((s.main.sourceOut e).modOpt e (fun x =>
      { x with onRedundant := true, takeover := x.laserOn })).postFabric (e * 8) 9 (s.main.laneNeighbour (e * 8))) := by
  have hlt : ¬ 16 ≤ e := by omega
  have hfree : ¬ ((s.main.optOf e).onRedundant || (s.main.optOf (pairedEngine e)).onRedundant) = true := by
    simp [hown, hpair]
  exact exec_eq_toMain (f := Main.sourceFails e) rfl ((if_neg hlt).trans (if_neg hfree))

/-- The engine's takeover ended. -/
def Main.takeoverEnded (m : Main) (e : Nat) : Main := m.modOpt e (fun o => { o with takeover := false })

theorem Main.takeoverEnded_sparing (m : Main) (e : Nat) : ((m.takeoverEnded e).optOf e).sparing = (m.optOf e).sparing :=
  Main.optOf_modOpt_of_kept (p := OptEngine.sparing) (f := fun o => { o with takeover := false }) (fun _ => rfl) m e

theorem Main.takeoverEnded_procOut (m : Main) (e p : Nat) : (m.takeoverEnded e).procOut p = m.procOut p := rfl

/-- A spare that was trained abruptly during the takeover comes into use at its end. -/
theorem exec_laserTakeoverDone_of_trained {s : State} {e : Nat} (he : e < 16) (h : (s.main.optOf e).takeover = true)
    {r : Sparing} (hr : (s.main.optOf e).sparing = some r) (htrained : r.trained = true) (habrupt : r.hitless = false)
    (hproc : s.main.procOut (fabProc r.lane) = false) :
    exec (.laserTakeoverDone e) s = toMain s (((s.main.takeoverEnded e).useSpare r.lane).flush) := by
  have hlt : ¬ 16 ≤ e := by omega
  have hr1 := (s.main.takeoverEnded_sparing e).trans hr
  have hp1 := (s.main.takeoverEnded_procOut e (fabProc r.lane)).trans hproc
  unfold Main.takeoverEnded at hr1 hp1 ⊢
  exact exec_eq_toMain (f := Main.takeoverDone e) rfl
    (by simp [Main.takeoverDone, h, hlt, hr1, hp1, htrained, habrupt])

/-- Without such a spare the takeover just ends. -/
theorem exec_laserTakeoverDone_of_untrained {s : State} {e : Nat} (he : e < 16) (h : (s.main.optOf e).takeover = true)
    (hspare : (s.main.optOf e).sparing.all (fun r => !r.trained || r.hitless) = true) :
    exec (.laserTakeoverDone e) s = toMain s ((s.main.takeoverEnded e).flush) := by
  have hlt : ¬ 16 ≤ e := by omega
  have hsp := s.main.takeoverEnded_sparing e
  unfold Main.takeoverEnded at hsp ⊢
  refine exec_eq_toMain (f := Main.takeoverDone e) rfl ?_
  cases hr : (s.main.optOf e).sparing with
  | none => simp [Main.takeoverDone, h, hlt, hsp.trans hr]
  | some r =>
    have hstays : (r.trained && !r.hitless) = false := by
      rw [hr, Option.all_some] at hspare
      simpa using congrArg not hspare
    simp [Main.takeoverDone, h, hlt, hsp.trans hr, hstays]

/-! ### The fabric map (R22, R261, R262) -/

/-- The fabric state as a map writes it. -/
def Fab.withMap (fab : Fab) (f : FabricMap) : Fab :=
  { fab with
    module := f.module, mapped := true, root := f.root
    groups := f.groups.map (fun g => { num := g.1, neighbour := g.2.1, spares := g.2.2.1, lanes := g.2.2.2 })
    routes := f.routes.map (fun r => { dest := r.1, self := r.2.1, hops := r.2.2 }) }

/-- A legal map is written once, while the module runs and its domain is not up. -/
theorem exec_fabricMapWrite_of_unmapped {s : State} {f : FabricMap} (hrun : s.main.rcv.phase = .running)
    (hnew : s.main.fab.mapped = false) (hlegal : mapLegal f = true) :
    exec (.fabricMapWrite f) s = toMain s
      ((Main.keepingOrder (fun _ => { s.main with fab := s.main.fab.withMap f }) s.main).flush) :=
  exec_eq_toMain (f := Main.mapWrite f) rfl (by simp [Main.mapWrite, Fab.withMap, hrun, hnew, hlegal])

/-- Settles O27, from what each command on latches, sources and the map comes to. -/
theorem opticsAndMap : Obligations.OpticsAndMap := by
  intro s e he
  refine ⟨exec_connectorLatchOpen_of_lt he, exec_connectorLatchClose_of_open he, exec_laserRelight_of_ready he,
    ⟨exec_laserSourceFailure_of_taken he, exec_laserSourceFailure_of_free he⟩,
    fun h => ⟨fun r => exec_laserTakeoverDone_of_trained he h, exec_laserTakeoverDone_of_untrained he h⟩,
    fun f => exec_fabricMapWrite_of_unmapped⟩

end Sys2Proof.Machine
end

section
/-! Errors of the parts that the module shares (R10, R168, R217, R267, R269, R479, R483, R486). -/

namespace Sys2Proof.Machine

/-! ### The request tracker (R267, R269, R483) -/

/-- An entry whose timer expires is lost, no earlier than its deadline. -/
theorem exec_requestTimerExpiry_of_find {s : State} {bank entry : Nat} {e : TrackEntry}
    (h : s.main.fab.entries.find? (fun e => e.bank == bank && e.entry == entry) = some e) :
    exec (.requestTimerExpiry bank entry) s =
      toMain s (((s.main.until e.deadline).finishTrack e (.fail .trackerLost)).after) :=
  exec_eq_toMain (f := Main.requestTimer bank entry) rfl (by simp only [Main.requestTimer, h])

/-- Waiting requests go on when an entry is free. -/
theorem exec_trackerEntryFree_of_free {s : State} (hwait : s.main.fab.waitReqs ≠ []) (hfree : s.main.freeEntry ≠ none) :
    exec .trackerEntryFree s = toMain s s.main.pump.after :=
  exec_eq_toMain (f := Main.entryFree) rfl
    ((if_neg (by simpa using hwait)).trans (if_neg (by simpa using hfree)))

/-- A bank retired: every entry that it held is lost. -/
def Main.bankLost (m : Main) (bank : Nat) : Main :=
  (m.fab.entries.filter (fun e => e.bank == bank)).foldl (fun m e => m.finishTrack e (.fail .trackerLost))
    { m with fab := { m.fab with banks := m.fab.banks.set bank .retired } }

/-- An error in a bank that is not retired loses the bank and is noted against the engine. -/
theorem exec_trackerBankError_of_ne_retired {s : State} {bank : Nat} {b : BankState} (hb : s.main.fab.banks[bank]? = some b)
    (hlive : b ≠ .retired) :
    exec (.trackerBankError bank) s = toMain s (((s.main.bankLost bank).noteErr
      { sev := .engine, cause := 0x20, source := ⟨5, bank⟩, detail := bank }).after) := by
  refine exec_eq_toMain (f := Main.bankError bank) rfl ?_
  simp only [Main.bankError, hb]
  exact if_neg hlive

/-! ### The Viaduct, the control network and the Seal processor (R10, R168, R479) -/

/-- A bad wire stays in service, listed once, and is an error of the module's sagger. -/
theorem exec_viaductWireError_of_lt {s : State} {dir wire : Nat} (hdir : dir < 2) (hwire : wire < 43008) :
    exec (.viaductWireError dir wire) s = toMain s (({ s.main with rcv := { s.main.rcv with
      badWires := s.main.rcv.badWires.filter (· != (dir, wire)) ++ [(dir, wire)] } } : Main).saggerError
        0 0x30 ⟨5, dir⟩ none wire false none) :=
  exec_eq_toMain (f := Main.wireError dir wire) rfl (if_neg (by omega))

/-- A crossing that worked fails, which is an error of the module's sagger. -/
theorem exec_controlCrossingFailure_of_working {s : State} {x : Nat} (h : s.main.rcv.crossings[x]? = some true) :
    exec (.controlCrossingFailure x) s = toMain s (({ s.main with rcv := { s.main.rcv with
      crossings := s.main.rcv.crossings.set x false } } : Main).saggerError 0 0x31 ⟨5, x⟩ none x false none) :=
  exec_eq_toMain (f := Main.crossingError x) rfl (by simp only [Main.crossingError, h])

/-- A fault of the Seal processor is an error of the device. -/
theorem exec_sealProcessorFault (s : State) :
    exec .sealProcessorFault s = toMain s (s.main.deviceError 0x44 ⟨4, 5⟩ none 0 false) :=
  exec_eq_toMain (f := Main.sealFault) rfl rfl

/-! ### Homes (R217) -/

/-- A line buffered for atomics is lost: memory holds it poisoned. -/
theorem exec_atomicBufferError_of_buffered {s : State} {line : Nat} {b : BufLine} (h : s.main.coh.bufOf line = some b) :
    exec (.atomicBufferError (homeOf line) line) s = toMain s ((({ s.main with
      mem := s.main.mem.poisonLine line
      coh := (s.main.coh.dropBuf line).dropEntry line } : Main).postMemory (line * 128 / 2 ^ 32) 1 (line * 128)).noteErr
        { sev := .corrected, cause := 0x01, poison := true, status := .poisoned, source := ⟨5, homeOf line⟩,
          detail := line * 128 }) := by
  refine exec_eq_toMain (f := Main.bufError (homeOf line) line) rfl ?_
  simp only [Main.bufError, h]
  exact if_neg (not_not_intro rfl)

/-- A corrected error of a directory entry is only logged. -/
theorem exec_directoryEntryError_corrected (s : State) (line : Nat) :
    exec (.directoryEntryError (homeOf line) line true) s = toMain s (s.main.log (.directory line)) :=
  exec_eq_toMain (f := Main.dirError (homeOf line) line true) rfl ((if_neg (not_not_intro rfl)).trans (if_pos rfl))

/-- The lines of a home that may lie in one of the two directory sets of a line. -/
def sharesSet (home line l : Nat) : Bool :=
  homeOf l == home && [(dirSets l).1, (dirSets l).2].any (fun x => x == (dirSets line).1 || x == (dirSets line).2)

theorem sharesSet_eq (home line : Nat) : sharesSet home line = fun l => homeOf l == home &&
    ((dirSets l).1 == (dirSets line).1 || (dirSets l).1 == (dirSets line).2 || (dirSets l).2 == (dirSets line).1 ||
      (dirSets l).2 == (dirSets line).2) := by
  funext l
  simp [sharesSet, Bool.or_assoc]

/-- The uncorrectable errors of a home's directory in the last 24 hours. -/
def Main.recentDirErrs (m : Main) (home : Nat) : List (Nat × Nat) :=
  m.rcv.dirErrs.filter (fun x => x.1 == home && decide (m.time < x.2 + 86400000000000))

/-- The two sets recalled, the error counted and noted. -/
def Main.setsRecalled (m : Main) (home line : Nat) : Main :=
  let m1 := m.walkLines (sharesSet home line)
  ({ m1 with rcv := { m1.rcv with dirErrs :=
    (home, m.time) :: m.recentDirErrs home ++ m1.rcv.dirErrs.filter (fun x => x.1 != home) } } : Main).noteErr
      { sev := .engine, cause := 0x21, source := ⟨5, home⟩, detail := line }

/-- An uncorrectable error recalls the two sets; the fourth within 24 hours is an error of the device. -/
theorem exec_directoryEntryError_uncorrected (s : State) (line : Nat) :
    exec (.directoryEntryError (homeOf line) line false) s =
      toMain s (if 3 ≤ (s.main.recentDirErrs (homeOf line)).length then
        (s.main.setsRecalled (homeOf line) line).deviceError 0x44 ⟨5, homeOf line⟩ none line false
      else s.main.setsRecalled (homeOf line) line) := by
  refine exec_eq_toMain (f := Main.dirError (homeOf line) line false) rfl ?_
  simp only [Main.setsRecalled, sharesSet_eq]
  exact (if_neg (not_not_intro rfl)).trans (if_neg Bool.false_ne_true)

/-! ### Spare swaps (R486) -/

/-- 50 ms after it began, a swap is given up: the core that it was to replace leaves service when it is bad. -/
def Main.swapDropped (m : Main) (x : Swap) : Main :=
  let m1 := m.until (x.since + 50000000)
  { m1 with
    cores := { m1.cores with units := modNth m1.cores.units x.core (fun u => { u with inService := u.inService && !x.bad }) }
    rcv := { m1.rcv with swaps := m1.rcv.swaps.erase x } }

/-- A late swap is answered NOT_PERMITTED at offset 0xFFFF (assumption log 93) and is an error of the cluster's sagger. -/
theorem exec_swapEscalation_of_find {s : State} {k : Nat} {x : Swap}
    (h : s.main.rcv.swaps.find? (fun x => x.cluster == k) = some x) :
    exec (.swapEscalation k) s = toMain s (((s.main.swapDropped x).answerHeld (.swap k) (Reply.refuse 0xFFFF)).saggerError
      (s.main.clusterSagger k) 0x40 ⟨0, x.core⟩ none k false none) :=
  exec_eq_toMain (f := Main.swapLate k) rfl (by simp only [Main.swapLate, h, Main.swapDropped])

/-- The place that a core holds in its cluster, 8 for a spare. -/
def Main.corePlace (m : Main) (core : Nat) : Nat :=
  match m.cores.units[core]? with
  | some u => u.pos
  | none => 8

/-- The cluster's caches written back, and its spare core in the place of the core that goes. -/
def Main.swapMade (m : Main) (k : Nat) (x : Swap) : Main :=
  let m1 := (rangeFrom (k * 10) 9).foldl Main.flushAgent m
  let units := modNth (modNth m1.cores.units x.core (fun u => { u with good := false, inService := false, pos := 8 }))
    (k * 9 + 8) (fun u => { u with inService := true, pos := m.corePlace x.core })
  { m1 with
    cores := { m1.cores with units := units }
    rcv := { m1.rcv with swaps := m1.rcv.swaps.erase x } }

/-- A swap is made once the cluster is still and neither its sagger's handling nor a handover holds it. -/
theorem exec_spareSwapComplete_of_still {s : State} {k : Nat} {x : Swap}
    (h : s.main.rcv.swaps.find? (fun x => x.cluster == k) = some x) (hstill : s.main.clusterStill k = true)
    (hreset : s.main.rcv.handlings.any (fun h => h.sagger == s.main.clusterSagger k && h.step != .reset) = false)
    (hleave : s.main.comp.recs.any (fun r => r.handovers.any fun h =>
      h.kind == .core && h.num == k && h.leave && !h.complete) = false) :
    exec (.spareSwapComplete k) s = toMain s ((s.main.swapMade k x).answerHeld (.swap k) (Reply.good [])) := by
  refine exec_eq_toMain (f := Main.swapDone k) rfl ?_
  simp only [Main.swapDone, h]
  exact if_neg (by simp only [hstill, hreset, hleave]; decide)

/-- Settles O33, from what each command on a shared part comes to. -/
theorem sharedPartErrors : Obligations.SharedPartErrors := by
  intro s
  refine ⟨fun bank entry e => exec_requestTimerExpiry_of_find, exec_trackerEntryFree_of_free,
    fun bank b => exec_trackerBankError_of_ne_retired, fun dir wire => exec_viaductWireError_of_lt,
    fun x => exec_controlCrossingFailure_of_working, exec_sealProcessorFault s, ?home, ?swap⟩
  case home =>
    rintro _ line rfl
    exact ⟨fun b => exec_atomicBufferError_of_buffered, exec_directoryEntryError_corrected s line,
      exec_directoryEntryError_uncorrected s line⟩
  case swap =>
    intro k x hx
    exact ⟨exec_swapEscalation_of_find hx, exec_spareSwapComplete_of_still hx⟩

end Sys2Proof.Machine
end

section
/-! The step, and the clock that a tick moves on by one nanosecond (assumption log 3). -/

namespace Sys2Proof.Machine

/-! ### What a step does -/

/-- The command at the front of the queue runs on the state with the rest of the queue. -/
theorem step_of_pending_cons {s : State} {c : Instr} {r : List Instr} (h : s.pending = c :: r) :
    step s = exec c { s with pending := r } := by
  simp only [step, h]

/-- On an empty queue the machine idles. -/
theorem step_of_pending_nil {s : State} (h : s.pending = []) : step s = .next s.idle := by
  simp only [step, h]

/-! ### What leaves the clock alone -/

@[simp] theorem Main.memWrite_time (m : Main) (line : Nat) (data : List Byte) (poison : Bool) :
    (m.memWrite line data poison).time = m.time := rfl

@[simp] theorem Main.writeBackCopy_time (m : Main) (agent line : Nat) :
    (m.writeBackCopy agent line).time = m.time := by
  unfold Main.writeBackCopy
  cases m.coh.copyOf agent line with
  | none => rfl
  | some c =>
    by_cases hm : c.st = .m
    · simp only [hm, if_true, Main.memWrite_time]
    · simp only [hm, if_false]

/-- Past the write-back an eviction touches only the copies and the directory. -/
@[simp] theorem Main.evict_time (m : Main) (agent line : Nat) : (m.evict agent line).time = m.time := by
  have hback := m.writeBackCopy_time agent line
  unfold Main.evict
  cases m.coh.copyOf agent line with
  | none => rfl
  | some c =>
    dsimp only
    split
    case h_1 => exact hback
    case h_2 =>
      split
      · split
        · split <;> exact hback
        · exact hback
      · split <;> exact hback

/-- An invalidation applied is an eviction at most. -/
@[simp] theorem Main.applyInv_time (m : Main) (agent line : Nat) : (m.applyInv agent line).time = m.time := by
  unfold Main.applyInv
  dsimp only
  split
  case h_1 c _ =>
    by_cases hs : c.st = .s
    · simp only [hs, if_true, Main.evict_time]
    · simp only [hs, if_false]
  case h_2 => rfl

@[simp] theorem Main.countBusy_time (m : Main) : m.countBusy.time = m.time :=
  List.foldlRecOn (motive := fun x : Main => x.time = m.time) _ _ rfl
    fun x hx c _ => (Main.bump_time x 1 0 (c / 9) 1).trans hx

/-- A tick moves the clock on by one nanosecond, whether or not an invalidation is queued. -/
theorem Main.tick_time (passing : Nat → Nat) (m : Main) : (m.tick passing).time = m.time + 1 := by
  unfold Main.tick
  dsimp only
  split
  case h_1 => simp only [Main.applyInv_time, Main.countBusy_time]
  case h_2 => simp only [Main.countBusy_time]

/-- Settles O1, from what a step does on either kind of queue and the nanosecond of a tick. -/
theorem stepRuns : Obligations.StepRuns :=
  ⟨fun _ _ _ => step_of_pending_cons rfl,
    fun s hs => ⟨step_of_pending_nil hs, s.main.tick_time s.cycles64⟩⟩

end Sys2Proof.Machine
end

section
/-! What registers and bundles read after a write (R56, R65, R81). -/

namespace Sys2Proof.Machine

/-! ### Rows and records found in lists -/

/-- A run of a list replaced by as many elements: inside the run the new ones are read, elsewhere the old. -/
theorem getElem?_replace_run {α : Type} {l row : List α} {k : Nat} (hk : k ≤ l.length) (i : Nat) :
    (l.take k ++ row ++ l.drop (k + row.length))[i]? = if k ≤ i ∧ i < k + row.length then row[i - k]? else l[i]? := by
  have htake : (l.take k).length = k := by simp [hk]
  by_cases hlow : i < k
  · have hout : ¬ (k ≤ i ∧ i < k + row.length) := by omega
    rw [if_neg hout, List.append_assoc, List.getElem?_append_left (by omega), List.getElem?_take_of_lt hlow]
  · by_cases hin : i < k + row.length
    · rw [if_pos ⟨by omega, hin⟩, List.getElem?_append_left (by simp; omega), List.getElem?_append_right (by omega), htake]
    · have hout : ¬ (k ≤ i ∧ i < k + row.length) := by omega
      have hlen : (l.take k ++ row).length = k + row.length := by simp [hk]
      rw [if_neg hout, List.getElem?_append_right (by omega), hlen, List.getElem?_drop]
      congr 1
      omega

/-- What is found in a list after a change that a test does not see. -/
theorem find?_modWhere_of_kept {α : Type} {p q : α → Bool} {f : α → α} (h : ∀ x, p x = true → q (f x) = q x) (l : List α) :
    (modWhere l p f).find? q = (l.find? q).map (fun x => if p x then f x else x) := by
  have hq : q ∘ (fun x => if p x then f x else x) = q := by
    funext x
    by_cases hp : p x = true
    · simp [hp, h x hp]
    · simp [hp]
  rw [modWhere, List.find?_map, hq]

/-! ### Vector registers (R56) -/

/-- A write of a vector register changes that register in the lanes of the mask. -/
theorem Bundle.getV_setV {b : Bundle} {reg : Nat} (hreg : reg * 32 ≤ b.v.length) (mask : Word) (val : Nat → Word) (r : Nat)
    {l : Nat} (hl : l < 32) :
    (b.setV reg mask val).getV r l = if r = reg ∧ mask.getLsbD l = true then val l else b.getV r l := by
  have hrun := getElem?_replace_run (row := (List.range 32).map (fun l => if mask.getLsbD l then val l else b.getV reg l))
    hreg (r * 32 + l)
  simp only [List.length_map, List.length_range] at hrun
  change nth (_ ++ _ ++ _) _ _ = _
  rw [nth, hrun]
  by_cases hr : r = reg
  · subst hr
    have hin : r * 32 ≤ r * 32 + l ∧ r * 32 + l < r * 32 + 32 := by omega
    simp [hin, hl]
  · have hout : ¬ (reg * 32 ≤ r * 32 + l ∧ r * 32 + l < reg * 32 + 32) := by omega
    simp [hout, hr, Bundle.getV, nth]

/-! ### Bundles of the module -/

theorem Main.wgOf_id {m : Main} {id : Nat} {w : WorkGroup} (h : m.wgOf id = some w) : w.id = id := by
  simpa using List.find?_some h

theorem Main.wgOf_modWg {m : Main} {f : WorkGroup → WorkGroup} (hf : ∀ w, (f w).id = w.id) (id k : Nat) :
    (m.modWg id f).wgOf k = (m.wgOf k).map (fun w => if w.id == id then f w else w) :=
  find?_modWhere_of_kept (fun w _ => by rw [hf w]) m.cores.wgs

theorem Main.wgOf_putBundle (m : Main) (br : BRef) (b : Bundle) (k : Nat) :
    (m.putBundle br b).wgOf k = (m.wgOf k).map (fun w => if w.id == br.wg then
      { w with bundles := modWhere w.bundles (fun x => x.idx == br.idx) (fun _ => b) } else w) := by
  refine Main.wgOf_modWg ?_ br.wg k
  exact fun _ => rfl

/-- A bundle put back is found in its place, and every other bundle as it was. -/
theorem Main.bundleOf_putBundle {m : Main} {br : BRef} {b b1 : Bundle} (h : m.bundleOf br = some b) (hidx : b1.idx = b.idx)
    (br2 : BRef) :
    (m.putBundle br b1).bundleOf br2 = if br2.wg = br.wg ∧ br2.idx = br.idx then some b1 else m.bundleOf br2 := by
  obtain ⟨w, hw, hb⟩ := Option.bind_eq_some_iff.1 h
  have hplace : b.idx = br.idx := by simpa using List.find?_some hb
  have hkept : ∀ x : Bundle, (x.idx == br.idx) = true → (b1.idx == br2.idx) = (x.idx == br2.idx) := by
    intro x hx
    rw [hidx, hplace, eq_of_beq hx]
  unfold Main.bundleOf
  rw [Main.wgOf_putBundle]
  by_cases hwg : br2.wg = br.wg
  · rw [hwg, hw]
    simp only [Option.map_some, Main.wgOf_id hw, beq_self_eq_true, if_true, Option.bind_some, true_and]
    rw [find?_modWhere_of_kept hkept]
    by_cases hi : br2.idx = br.idx
    · rw [hi, hb]
      simp [hplace]
    · rw [if_neg hi]
      cases hx : w.bundles.find? (fun x => x.idx == br2.idx) with
      | none => rfl
      | some x =>
        have hxi : x.idx = br2.idx := by simpa using List.find?_some hx
        simp [hxi, hi]
  · rw [if_neg (by simp [hwg])]
    cases hx : m.wgOf br2.wg with
    | none => rfl
    | some x => simp [Main.wgOf_id hx, hwg]

/-- Settles O16, from what registers and bundles read after a write. -/
theorem registerWriteFrame : Obligations.RegisterWriteFrame :=
  ⟨fun _ _ mask val r _ hlen hreg _ hl => Bundle.getV_setV (by omega) mask val r hl,
    fun _ _ br2 _ _ h hidx => Main.bundleOf_putBundle h hidx br2⟩

end Sys2Proof.Machine
end

section
/-! Two work groups under one number: what a TSTORE takes is the store of the core that issues it (R75). -/

namespace Sys2Proof.Machine

/-! ### A state with a work group on core 0 and its twin on core 1 -/

/-- One FP32 element at offset 0 of the allocation. -/
def twinTile : Desc := BitVec.ofNat 256 (9 * 2 ^ 60 + 2 ^ 92 + 2 ^ 99)

def twinSpec : LaunchSpec :=
  { seed := 0, checked := false, debug := false, reqId := 0, trapEn := 0, rcvPd := false, evtInexact := false
    record := false, overlap := false, isLocal := true, cscope := 2, codeAddr := 0, codeLen := 128, entry := 0
    constAddr := 0, argAddr := 0, args := [], regs := 8, bundles := 1, cstore := 1, gridX := 1, gridY := 1, gridZ := 1 }

/-- A bundle as it starts, but for the tile in t0. -/
def twinBundle : Bundle := { newBundle twinSpec 0 with t := some twinTile :: List.replicate 15 none }

def twinGroup (core : Nat) : WorkGroup :=
  { id := 1, launch := 1, lin := 0, core := core, w := 0, base := 0, state := .running, cycle := 0
    barriers := List.replicate 16 0, bundles := [twinBundle], xfers := [], reads := [] }

/-- Reset, with a launch, an extent of its span, a code line of core 0, and work groups 1 on core 0, whose store begins
with a byte of 1, and on core 1, whose store is zero. -/
def twinMain : Main :=
  let m := Main.reset.addLaunch (.queue ⟨3, 0⟩ 0) 3 5 twinSpec [] 0 0 0 0 0
  ({ m with
    mem := { m.mem with
      extents := [{ idx := 0, state := .active, span := 5, base := 0, choff := 0, len := 2, mask := 3 }] }
    cores := { m.cores with icache := [(0, 5, 0)], wgs := [twinGroup 0, twinGroup 1] } } : Main).csWrite 0 [(0, [1])]

def twinState : State := { State.reset with main := twinMain }

def twinLaunch : Launch :=
  { id := 1, coord := .queue ⟨3, 0⟩ 0, ctx := 3, span := 5, spec := twinSpec, todo := [], saved := [], reading := [], away := []
    ended := 0, flags := 0, trap := none, moreTraps := 0, fatal := false, firstFail := none, engines := 0, rsts := 0
    reserve := 0, room := 0, killed := none, tstart := 0, energy := 0 }

/-- The bytes that the stores in flight have taken, by work group. -/
def bytesTaken (o : Outcome) : List (List (Option (List Byte))) :=
  match o with
  | .next t => t.main.cores.wgs.map (fun w => w.xfers.flatMap (fun x => x.lines.map (·.data)))
  | _ => []

/-- TSTORE of t0 to the address and with the stride in u0, which is zero. -/
def twinStore : Fields := { ge := false, gn := false, gp := 0, dst := 0, a := 0, b := 0, c := 0, md := 0 }

def twinRef : BRef := { wg := 1, idx := 0 }

theorem twin_issues : Issues twinState.main twinRef (twinGroup 0) twinLaunch twinBundle := by decide +kernel

theorem twin_tstore_passes :
    Passes tstoreIns twinState.main (issueOf twinRef (twinGroup 0) twinLaunch twinBundle twinStore 0xB 3) := by decide +kernel

/-- Both transfers hold the byte of core 0, which issued the store. -/
theorem twin_bytesTaken : bytesTaken (exec (.tstore twinRef twinStore) twinState) =
    [[some [1, 0, 0, 0]], [some [1, 0, 0, 0]]] := by decide +kernel

/-- Refutes O11: its clause on TSTORE reads the bytes of each work group under the issuing group's number from that group's own
core. Where two groups bear one number, as no admission brings about but the statement allows, the model takes them from the core
that issues the store: the twin on core 1, whose store is zero, is handed the byte 1 of core 0. -/
theorem not_tileMoves : ¬ Obligations.TileMoves := by
  unfold Obligations.TileMoves
  intro h
  obtain ⟨hissue, -⟩ := h twinState twinRef (twinGroup 0) twinLaunch twinBundle twinStore
  obtain ⟨-, -, hmove, -⟩ := hissue twin_issues
  obtain ⟨-, hstore⟩ := hmove twinTile (by decide +kernel) (by decide +kernel)
  have hbytes := (congrArg bytesTaken (hstore twin_tstore_passes (by decide +kernel) (by decide +kernel))).symm.trans
    twin_bytesTaken
  exact absurd hbytes (by decide +kernel)

end Sys2Proof.Machine
end

section
/-! What tile instructions come to (R69, R104, R108-R113, R118, R134, R135). -/

namespace Sys2Proof.Machine

/-! ### Instructions that pass their checks -/

section
variable {s : State} {br : BRef} {w : WorkGroup} {la : Launch} {b b1 : Bundle} {f : Fields} {c : Instr} {ins : Ins} {m1 : Main}

/-- A row of an instruction that completes. -/
theorem exec_of_done (hc : exec c s = onMain (ins.issue br f) s) (h : Issues s.main br w la b)
    (hp : Passes ins s.main (issueOf br w la b f ins.cls ins.func))
    (hr : ins.run s.main (issueOf br w la b f ins.cls ins.func) = .done m1 b1) :
    exec c s = toMain s (m1.putBundle br b1) :=
  exec_eq_toMain hc (Ins.issue_done h hp hr)

/-- A row of an instruction that cannot proceed yet: the bundle stays where it stands and waits. -/
theorem exec_of_wait {x : Wait} (hc : exec c s = onMain (ins.issue br f) s) (h : Issues s.main br w la b)
    (hp : Passes ins s.main (issueOf br w la b f ins.cls ins.func))
    (hr : ins.run s.main (issueOf br w la b f ins.cls ins.func) = .wait m1 x) :
    exec c s = toMain s (m1.putBundle br { b with waiting := some x }) :=
  exec_eq_toMain hc (by rw [Ins.issue_of_issues h, Ins.exec_of_passes hp, hr])

end

/-! ### TMMA -/

section
variable {m : Main} {i : Issue} {p : MmaPlan}

/-- A TMMA that opens a bank waits while both banks of its unit are open (R69). -/
theorem tmmaIns_run_waits (hp : i.mmaPlan = some p)
    (hgood : (m.settle i.w i.b.idx (p.ranges i.w.base)).rangesBad i.w.core (p.reads i.w.base) = false)
    (hopens : p.cont = false) (hfull : 2 ≤ (m.settle i.w i.b.idx (p.ranges i.w.base)).unitBanks i.w.core i.quadrant) :
    tmmaIns.run m i = .wait m (.bank i.f) := by
  simp [tmmaIns, hp, hgood, hopens, hfull]

/-- A TMMA that continues its bank, or finds one free, is performed (R69, R110). -/
theorem tmmaIns_run_done (hp : i.mmaPlan = some p)
    (hgood : (m.settle i.w i.b.idx (p.ranges i.w.base)).rangesBad i.w.core (p.reads i.w.base) = false)
    (hfree : p.cont = true ∨ (m.settle i.w i.b.idx (p.ranges i.w.base)).unitBanks i.w.core i.quadrant < 2) :
    tmmaIns.run m i = .done ((m.settle i.w i.b.idx (p.ranges i.w.base)).mma i p).1
      ((m.settle i.w i.b.idx (p.ranges i.w.base)).mma i p).2 := by
  have hgo : ¬ (!p.cont && decide (2 ≤ (m.settle i.w i.b.idx (p.ranges i.w.base)).unitBanks i.w.core i.quadrant)) = true := by
    simp only [Bool.and_eq_true, Bool.not_eq_true', decide_eq_true_eq]
    rintro ⟨hopens, hfull⟩
    exact hfree.elim (fun hcont => Bool.noConfusion (hopens.symm.trans hcont)) (Nat.not_lt.2 hfull)
  simp only [tmmaIns, hp, hgood, if_neg hgo, Bool.false_eq_true, if_false]

end

section
variable {s : State} {br : BRef} {w : WorkGroup} {la : Launch} {b : Bundle}

/-- A TMMA that waited for a bank issues once its unit has one (R69). -/
theorem exec_tmmaBankFree_of_waiting {f : Fields} (h : Issues s.main br w la b) (hwait : b.waiting = some (.bank f))
    (hfree : s.main.unitBanks w.core ((b.idx + w.w) % 4) < 2) : exec (.tmmaBankFree br) s = exec (.tmma br f) s := by
  obtain ⟨hw, hb, -⟩ := h
  have hissue : Main.bankFree br s.main = tmmaIns.issue br f s.main := by
    simp only [Main.bankFree, hw, hb, hwait, if_neg (Nat.not_le.2 hfree)]
  change onMain (Main.bankFree br) s = onMain (tmmaIns.issue br f) s
  simp only [onMain, hissue]

/-- The oldest TMMA of a chain completes quietly when TRAPEN names none of the flags it changed (R118, R135). -/
theorem exec_tmmaComplete_of_quiet {chain : Nat} {r : MmaRun} (hw : s.main.wgOf br.wg = some w)
    (hb : s.main.bundleOf br = some b) (hla : s.main.launchOf w.launch = some la)
    (hr : b.mma.find? (fun r => r.chain == chain) = some r) (hquiet : r.newFlags &&& la.spec.trapEn = 0) :
    exec (.tmmaComplete br chain) s = .next (bundleTo s br { b with mma := b.mma.erase r }) :=
  exec_eq_toMain (f := Main.mmaComplete br chain) rfl (by simp only [Main.mmaComplete, hw, hb, hla, hr, hquiet, if_true])

end

/-! ### TCONV, TREDUCE, TFILL -/

section
variable {m : Main} {i : Issue} {src x y d : Desc}

/-- Flags of its own that TRAPEN does not name let a conversion or a reduction complete (R112, R113, R134). -/
theorem tileDone_of_quiet {merged own : Byte} (hquiet : own &&& i.la.spec.trapEn = 0) :
    tileDone m i d merged own = .done (m.launchFlags i.la.id (merged ||| own))
      (i.b.setT i.f.dst (dOrFlags d (merged ||| own))).advance := by
  simp only [tileDone, hquiet, if_true]

theorem tconvIns_run (hsrc : i.desc i.f.a = some src) (hd : i.desc i.f.dst = some d)
    (hgood : (m.settle i.w i.b.idx (convReads src i.w.base ++ dWrites d i.w.base)).rangesBad i.w.core
      (convReads src i.w.base) = false) :
    tconvIns.run m i =
      let m1 := m.settle i.w i.b.idx (convReads src i.w.base ++ dWrites d i.w.base)
      let c := convTile i.la.spec (m1.readTile i.w.core i.w.base src) d
      tileDone (m1.writeTile i.w.core i.w.base d c.1 c.2.1) i d 0 c.2.2 := by
  simp only [tconvIns, hsrc, hd, hgood, Bool.false_eq_true, if_false]

theorem treduceIns_run (hx : i.desc i.f.a = some x) (hy : i.desc i.f.b = some y) (hd : i.desc i.f.dst = some d)
    (hgood : (m.settle i.w i.b.idx (dReads x i.w.base ++ dReads y i.w.base ++ dWrites d i.w.base)).rangesBad i.w.core
      (dReads x i.w.base ++ dReads y i.w.base) = false) :
    treduceIns.run m i =
      let m1 := m.settle i.w i.b.idx (dReads x i.w.base ++ dReads y i.w.base ++ dWrites d i.w.base)
      let c := reduceTile i.la.spec (fieldMod i.f 18 17) (m1.readTile i.w.core i.w.base x) (m1.readTile i.w.core i.w.base y) d
      tileDone (m1.writeTile i.w.core i.w.base d c.1 c.2.1) i d (dFlags x ||| dFlags y) c.2.2 := by
  simp only [treduceIns, hx, hy, hd, hgood, Bool.false_eq_true, if_false]

theorem tfillIns_run (hd : i.desc i.f.dst = some d) :
    tfillIns.run m i = .done ((m.settle i.w i.b.idx (lineRanges (dPart d 0 i.w.base 0 0))).writeTile i.w.core i.w.base d
      (List.replicate (dRows d) (List.replicate (dStored d) (fillCode d (i.b.getU i.f.a.toNat)))) []) i.b.advance := by
  simp only [tfillIns, hd]

end

/-- Settles O12, from the effect of each tile instruction. -/
theorem tileResults : Obligations.TileResults := by
  refine ⟨fun s br w la b f => ⟨?tmma, fun chain r => exec_tmmaComplete_of_quiet⟩, fun s br w la b f h => ⟨?tconv, ?treduce, ?tfill⟩⟩
  case tmma =>
    intro p h hp hplan _ hgood
    refine ⟨fun hopens hfull => exec_of_wait (ins := tmmaIns) rfl h hp (tmmaIns_run_waits hplan hgood hopens hfull), fun hfree => ?_⟩
    have hdone := exec_of_done (ins := tmmaIns) (c := .tmma br f) rfl h hp (tmmaIns_run_done hplan hgood hfree)
    exact ⟨hdone, fun hwait hbank => (exec_tmmaBankFree_of_waiting h hwait hbank).trans hdone⟩
  case tconv =>
    intro src d hp hsrc hd _ _ hgood hquiet
    exact exec_of_done (ins := tconvIns) rfl h hp ((tconvIns_run hsrc hd hgood).trans (tileDone_of_quiet hquiet))
  case treduce =>
    intro x y d hp hx hy hd _ _ _ hgood hquiet
    exact exec_of_done (ins := treduceIns) rfl h hp ((treduceIns_run hx hy hd hgood).trans (tileDone_of_quiet hquiet))
  case tfill =>
    exact fun d hp hd => exec_of_done (ins := tfillIns) rfl h hp (tfillIns_run hd)

end Sys2Proof.Machine
end

section
/-! What the special class comes to (R57, R116). -/

namespace Sys2Proof.Machine

/-! ### When the checks of an instruction pass -/

/-- An instruction that names no vector register, no address and no core store. -/
def Ins.Plain (ins : Ins) : Prop :=
  ∀ m i, ins.reads i = [] ∧ ins.writes i = [] ∧ ins.store i = [] ∧ ins.addr m i = none ∧ ins.bad m i = fun _ => none

@[simp] theorem Bundle.mmaTouches_nil (b : Bundle) : b.mmaTouches [] = false := by
  simp [Bundle.mmaTouches]

/-- No transfer touches a range where there is none. -/
@[simp] theorem touching_nil (xs : List Xfer) : touching xs [] = 0 := by
  have hall (l : List Xfer) :
      l.takeWhile (fun x => !x.ranges.any (fun a => [].any (fun r : Nat × Nat => overlap a.1 a.2 r.1 r.2))) = l := by
    induction l with
    | nil => rfl
    | cons x l ih =>
      have hfree : x.ranges.any (fun a => [].any (fun r : Nat × Nat => overlap a.1 a.2 r.1 r.2)) = false :=
        List.any_eq_false.2 fun _ _ => Bool.false_ne_true
      rw [List.takeWhile_cons_of_pos (by rw [hfree]; rfl), ih]
  rw [touching, hall, List.length_reverse, Nat.sub_self]

@[simp] theorem Main.xfersHeld_nil (m : Main) (i : Issue) : m.xfersHeld i [] = false := by
  simp [Main.xfersHeld]

/-- An instruction whose registers are ready, and that names nothing else, passes. -/
theorem Ins.passes_of_regsReady {ins : Ins} {m : Main} {i : Issue} (hthread : ins.kind = .thread → i.mask ≠ 0)
    (huniform : ins.kind = .uniform → i.b.mask ≠ 0) (hguard : guardLegal ins.cls i.f = true) (hlegal : ins.legal i = true)
    (hready : RegsReady i.b i.mask (ins.reads i) (ins.writes i)) (hstore : ins.store i = []) (haddr : ins.addr m i = none)
    (hbad : ins.bad m i = fun _ => none) : Passes ins m i := by
  obtain ⟨hpend, hpoison⟩ := hready.passes
  exact ⟨hthread, huniform, hguard, hlegal, hpend, by simp [hstore], by simp [hstore], haddr, by rw [hbad]; exact hpoison⟩

/-- An instruction of the bundle that is plain passes by its fields alone. -/
theorem Ins.Plain.passes {ins : Ins} {m : Main} {i : Issue} (h : ins.Plain) (hkind : ins.kind = .uniform) (hmask : i.b.mask ≠ 0)
    (hguard : guardLegal ins.cls i.f = true) (hlegal : ins.legal i = true) : Passes ins m i := by
  obtain ⟨hreads, hwrites, hstore, haddr, hbad⟩ := h m i
  refine Ins.passes_of_regsReady (by simp [hkind]) (fun _ => hmask) hguard hlegal ?_ hstore haddr hbad
  simp [RegsReady, hreads, hwrites]

/-- Guard fields of zero are legal in every class (R79, R81). -/
theorem guardLegal_of_noGuard {f : Fields} (h : NoGuard f) (cls : Nat) : guardLegal cls f = true := by
  obtain ⟨hge, hgn, hgp⟩ := h
  simp [guardLegal, hge, hgn, hgp]

/-- Without a guard every active thread performs an instruction (R56). -/
theorem Bundle.effective_of_noGuard {f : Fields} (h : NoGuard f) (b : Bundle) : b.effective f = b.mask := by
  obtain ⟨hge, -⟩ := h
  simp [Bundle.effective, hge]

/-- A number below 64 is a u register (R80). -/
theorem uReg_of_lt {x : BitVec 7} (h : x.toNat < 64) : uReg x = true := by
  simp [uReg, BitVec.getLsbD, Nat.testBit_lt_two_pow (i := 6) h]

/-- FLAGS of a descriptor (R104). -/
theorem dFlags_eq_extractLsb' (d : Desc) : dFlags d = d.extractLsb' 128 8 := by
  apply BitVec.eq_of_toNat_eq
  simp [dFlags, dField, bits, BitVec.extractLsb'_toNat, Nat.shiftRight_eq_div_pow]

/-! ### Instructions of the special class -/

theorem nopIns_plain : nopIns.Plain := fun _ _ => ⟨rfl, rfl, rfl, rfl, rfl⟩
theorem bkptIns_plain : bkptIns.Plain := fun _ _ => ⟨rfl, rfl, rfl, rfl, rfl⟩
theorem srdUIns_plain : srdUIns.Plain := fun _ _ => ⟨rfl, rfl, rfl, rfl, rfl⟩
theorem flagrdIns_plain : flagrdIns.Plain := fun _ _ => ⟨rfl, rfl, rfl, rfl, rfl⟩
theorem flagclrIns_plain : flagclrIns.Plain := fun _ _ => ⟨rfl, rfl, rfl, rfl, rfl⟩

section
variable {s : State} {br : BRef} {w : WorkGroup} {la : Launch} {b : Bundle} {f : Fields} (h : Issues s.main br w la b)
  (hguard : NoGuard f) (hmask : b.mask ≠ 0) (hc : f.c = 0)
include h hguard hmask

/-- A plain instruction of the bundle that completes. -/
theorem exec_of_plain {c : Instr} {ins : Ins} {m1 : Main} {b1 : Bundle} (hexec : exec c s = onMain (ins.issue br f) s)
    (hplain : ins.Plain) (hkind : ins.kind = .uniform) (hlegal : ins.legal (issueOf br w la b f ins.cls ins.func) = true)
    (hrun : ins.run s.main (issueOf br w la b f ins.cls ins.func) = .done m1 b1) :
    exec c s = toMain s (m1.putBundle br b1) :=
  exec_of_done hexec h (hplain.passes hkind hmask (guardLegal_of_noGuard hguard _) hlegal) hrun

include hc

theorem exec_nop (hdst : f.dst = 0) (ha : f.a = 0) (hb : f.b = 0) (hmd : f.md = 0) :
    exec (.nop br f) s = .next (bundleTo s br b.awake.advance) := by
  refine exec_of_plain h hguard hmask (ins := nopIns) rfl nopIns_plain rfl ?_ rfl
  simp [nopIns, bareLegal, issueOf, hdst, ha, hb, hc, hmd]

/-- BKPT of a launch that is not being debugged is a NOP (R116). -/
theorem exec_bkpt_of_not_debug (hdst : f.dst = 0) (ha : f.a = 0) (hb : f.b = 0) (hmd : f.md = 0) (hdebug : la.spec.debug = false) :
    exec (.bkpt br f) s = .next (bundleTo s br b.awake.advance) := by
  refine exec_of_plain h hguard hmask (ins := bkptIns) rfl bkptIns_plain rfl ?_ ?_
  · simp [bkptIns, bareLegal, issueOf, hdst, ha, hb, hc, hmd]
  · simp only [bkptIns, issueOf, hdebug, Bool.false_eq_true, if_false]

/-- SRD of LANE (R116). -/
theorem exec_srd_lane (ha : f.a = 0) (hb : f.b = 0) (hmd : f.md = 0) (hdst : f.dst.toNat < la.spec.regs)
    (hready : RegsReady b (b.effective f) [] [(f.dst.toNat, 1)]) :
    exec (.srd br f) s = .next (bundleTo s br (wroteV b f (fun l => BitVec.ofNat 32 l))) := by
  have hins : srdIns f = srdLaneIns := if_pos hmd
  refine exec_of_done (ins := srdLaneIns) (congrArg (fun ins => onMain (Ins.issue ins br f) s) hins) h ?_ rfl
  refine Ins.passes_of_regsReady (fun _ => ?_) (fun _ => hmask) (guardLegal_of_noGuard hguard _) ?_ hready rfl rfl rfl
  · exact fun hnone => hmask ((Bundle.effective_of_noGuard hguard b).symm.trans hnone)
  · simp [srdLaneIns, Issue.vReg, issueOf, ha, hb, hc, hdst]

/-- SRD of another special register, by its code (R116). -/
theorem exec_srd_special {k v : Nat} (ha : f.a = 0) (hb : f.b = 0) (hdst : f.dst.toNat < 64) (hmd : f.md.toNat = k) (hpos : 0 < k)
    (hle : k ≤ 0x0E) (hv : s.main.special (issueOf br w la b f 0xD 1) k = v) :
    exec (.srd br f) s = .next (bundleTo s br (wroteU b f (BitVec.ofNat 64 v))) := by
  subst hmd hv
  have hne : f.md ≠ 0 := fun h0 => by simp [h0] at hpos
  have hins : srdIns f = srdUIns := if_neg hne
  refine exec_of_plain h hguard hmask (ins := srdUIns) (congrArg (fun ins => onMain (Ins.issue ins br f) s) hins)
    srdUIns_plain rfl ?_ rfl
  simp [srdUIns, issueOf, ha, hb, hc, uReg_of_lt hdst, hle]

/-- FLAGRD of the vector flags (R116). -/
theorem exec_flagrd_vector (ha : f.a = 0) (hb : f.b = 0) (hmd : f.md = 0) (hdst : f.dst.toNat < 64) :
    exec (.flagrd br f) s = .next (bundleTo s br (wroteU b f (b.vflags.setWidth 64))) := by
  refine exec_of_plain h hguard hmask (ins := flagrdIns) rfl flagrdIns_plain rfl ?_ ?_
  · simp [flagrdIns, Issue.tileFlags, issueOf, ha, hb, hc, hmd, uReg_of_lt hdst]
  · simp [flagrdIns, Issue.tileFlags, issueOf, hmd, Bundle.advance, Bundle.awake, Bundle.setU]

/-- FLAGRD of a tile (R116). -/
theorem exec_flagrd_tile {d : Desc} (hb : f.b = 0) (hmd : f.md = 1) (hdst : f.dst.toNat < 64)
    (hd : (issueOf br w la b f 0xD 2).desc f.a = some d) :
    exec (.flagrd br f) s = .next (bundleTo s br (wroteU b f ((d.extractLsb' 128 8).setWidth 64))) := by
  rw [← dFlags_eq_extractLsb']
  refine exec_of_plain h hguard hmask (ins := flagrdIns) rfl flagrdIns_plain rfl ?_ ?_
  · change (uReg f.dst && f.b == 0 && f.c == 0 && if f.md == 1 then ((issueOf br w la b f 0xD 2).desc f.a).isSome else _) = true
    simp [hb, hc, hmd, hd, uReg_of_lt hdst]
  · change Act.done s.main (b.awake.setU f.dst.toNat (BitVec.setWidth 64 (if f.md == 1 then
      (match (issueOf br w la b f 0xD 2).desc f.a with | some d => dFlags d | none => 0) else _))).advance = _
    rw [hd, hmd]
    rfl

/-- FLAGCLR of the vector flags (R116). -/
theorem exec_flagclr_vector (hdst : f.dst = 0) (ha : f.a.toNat < 64) (hb : f.b = 0) (hmd : f.md = 0) :
    exec (.flagclr br f) s = .next (bundleTo s br
      { b with waiting := none, vflags := b.vflags &&& ~~~((b.getU f.a.toNat).setWidth 8), pc := b.pc + 8 }) := by
  refine exec_of_plain h hguard hmask (ins := flagclrIns) rfl flagclrIns_plain rfl ?_ ?_
  · simp [flagclrIns, Issue.tileFlags, issueOf, hdst, hb, hc, hmd, uReg_of_lt ha]
  · simp [flagclrIns, Issue.tileFlags, issueOf, hmd, Bundle.awake, Bundle.getU]

/-- FLAGCLR of a tile (R116). -/
theorem exec_flagclr_tile {d : Desc} (hdst : f.dst = 0) (ha : f.a.toNat < 64) (hmd : f.md = 1)
    (hd : (issueOf br w la b f 0xD 3).desc f.b = some d) :
    exec (.flagclr br f) s = .next (bundleTo s br
      (b.awake.setT f.b (dClearFlags d ((b.getU f.a.toNat).setWidth 8))).advance) := by
  refine exec_of_plain h hguard hmask (ins := flagclrIns) rfl flagclrIns_plain rfl ?_ ?_
  · change (f.dst == 0 && uReg f.a && f.c == 0 && if f.md == 1 then ((issueOf br w la b f 0xD 3).desc f.b).isSome else _) = true
    simp [hdst, hc, hmd, hd, uReg_of_lt ha]
  · change (if f.md == 1 then (match (issueOf br w la b f 0xD 3).desc f.b with | some d => _ | none => _) else _) = _
    rw [hd, hmd]
    rfl

end

/-- Settles O14, from what each instruction of the special class comes to. -/
theorem specialResults : Obligations.SpecialResults := by
  intro s br w la b f h hguard hmask hc
  refine ⟨fun hdst ha hb hmd => ⟨exec_nop h hguard hmask hc hdst ha hb hmd,
      exec_bkpt_of_not_debug h hguard hmask hc hdst ha hb hmd⟩,
    exec_srd_lane h hguard hmask hc, ?special,
    fun hb hdst => ⟨fun hmd ha => exec_flagrd_vector h hguard hmask hc ha hb hmd hdst,
      fun d hmd => exec_flagrd_tile h hguard hmask hc hb hmd hdst⟩,
    fun hdst ha => ⟨fun hmd hb => exec_flagclr_vector h hguard hmask hc hdst ha hb hmd,
      fun d hmd => exec_flagclr_tile h hguard hmask hc hdst ha hmd⟩⟩
  case special =>
    intro ha hb hdst x hx hmd
    have hcode : 0 < x.1 ∧ x.1 ≤ 0x0E ∧ s.main.special (issueOf br w la b f 0xD 1) x.1 = x.2 := by
      clear hmd
      revert x
      simp [Main.special, issueOf, Bundle.awake]
    obtain ⟨hpos, hle, hv⟩ := hcode
    exact exec_srd_special h hguard hmask hc ha hb hdst hmd hpos hle hv

end Sys2Proof.Machine
end

section
/-! What leaves alone everything that the issue of an instruction looks up of the module: events and error records, requests at homes,
tile transfers, and messages that leave on the fabric. -/

namespace Sys2Proof.Machine

/-- What the issue of an instruction looks up of the module: work groups, launches, cached code lines and engine resets. -/
def Main.issueView (m : Main) : List WorkGroup × List Launch × List (Nat × Nat × Nat) × List EngReset :=
  (m.cores.wgs, m.cores.launches, m.cores.icache, m.rcv.resets)

/-! ### Parts of the module that the view does not show -/

section
variable (m : Main)

@[simp] theorem Main.issueView_coh (c : Coh) : ({ m with coh := c } : Main).issueView = m.issueView := rfl
@[simp] theorem Main.issueView_fab (f : Fab) : ({ m with fab := f } : Main).issueView = m.issueView := rfl
@[simp] theorem Main.issueView_mem (x : Memory) : ({ m with mem := x } : Main).issueView = m.issueView := rfl

@[simp] theorem Main.modEq_issueView (fn : Fn) (i : Nat) (f : EvQ → EvQ) : (m.modEq fn i f).issueView = m.issueView := rfl
@[simp] theorem Main.modErr_issueView (id : Nat) (f : ErrRec → ErrRec) : (m.modErr id f).issueView = m.issueView := rfl
@[simp] theorem Main.modLane_issueView (i : Nat) (f : Lane → Lane) : (m.modLane i f).issueView = m.issueView := rfl
@[simp] theorem Main.bump_issueView (g c i n : Nat) : (m.bump g c i n).issueView = m.issueView := rfl
@[simp] theorem Main.putErr_issueView (e : ErrNew) (st : ErrSt) : (m.putErr e st).2.issueView = m.issueView := rfl
@[simp] theorem Main.addPut_issueView (fn : Fn) (pasid addr : Nat) (data : List Byte) (o : PutOwner) (place : Nat) :
    (m.addPut fn pasid addr data o place).issueView = m.issueView := rfl
@[simp] theorem Main.writeLate_issueView (fn : Fn) (a : Nat) (d : List Byte) : (m.writeLate fn a d).issueView = m.issueView := rfl
@[simp] theorem Main.bmcEvent_issueView (record : List Byte) : (m.bmcEvent record).issueView = m.issueView := rfl
@[simp] theorem Main.memWrite_issueView (line : Nat) (data : List Byte) (poison : Bool) :
    (m.memWrite line data poison).issueView = m.issueView := rfl
@[simp] theorem Main.waitHome_issueView (r : HomeReq) : (m.waitHome r).issueView = m.issueView := rfl
@[simp] theorem Main.csWrite_issueView (core : Nat) (parts : List (Nat × List Byte)) :
    (m.csWrite core parts).issueView = m.issueView := rfl

@[simp] theorem Main.csPoison_issueView (core off n : Nat) : (m.csPoison core off n).issueView = m.issueView := by
  unfold Main.csPoison
  split <;> rfl

end

/-- What every round of a loop leaves alone, the loop leaves alone. -/
theorem foldlView_issueView {α β : Type} {view : β → Main} {g : β → α → β}
    (hg : ∀ x a, (view (g x a)).issueView = (view x).issueView) (l : List α) (x : β) :
    (view (l.foldl g x)).issueView = (view x).issueView :=
  List.foldlRecOn (motive := fun y => (view y).issueView = (view x).issueView) l g rfl fun y hy a _ => (hg y a).trans hy

theorem Main.foldl_issueView {α : Type} {g : Main → α → Main} (hg : ∀ m a, (g m a).issueView = m.issueView) (l : List α)
    (m : Main) : (l.foldl g m).issueView = m.issueView :=
  foldlView_issueView (view := id) hg l m

/-! ### Events and error records (R429-R435, R477-R479) -/

section
variable (m : Main)

@[simp] theorem Main.sendMsix_issueView (fn : Fn) (v : Nat) : (m.sendMsix fn v).issueView = m.issueView := by
  unfold Main.sendMsix
  split
  · rfl
  · split <;> rfl

@[simp] theorem Main.eqNotify_issueView (fn : Fn) (i : Nat) : (m.eqNotify fn i).issueView = m.issueView := by
  unfold Main.eqNotify
  split
  · rfl
  · dsimp only
    split
    · split <;> simp
    · rfl

@[simp] theorem Main.eqWrite_issueView (fn : Fn) (i : Nat) (q : EvQ) (e : Event) : (m.eqWrite fn i q e).issueView = m.issueView := by
  simp [Main.eqWrite]

@[simp] theorem Main.eqFault_issueView (fn : Fn) (i : Nat) : (m.eqFault fn i).issueView = m.issueView := rfl

/-- Looking a page up may count as a use of its translation, and no more. -/
theorem Main.pageOf_issueView {m m1 : Main} {fn : Fn} {pasid a : Nat} {write : Bool} (h : m.pageOf fn pasid a write = some m1) :
    m1.issueView = m.issueView := by
  unfold Main.pageOf at h
  split at h
  · split at h
    · cases h; rfl
    · obtain ⟨e, -, rfl⟩ := Option.map_eq_some_iff.1 h
      rfl
  · cases h

@[simp] theorem Main.eqPut_issueView (fn : Fn) (i : Nat) (q : EvQ) (e : Event) : (m.eqPut fn i q e).issueView = m.issueView := by
  unfold Main.eqPut
  dsimp only
  split
  · simp
  · split
    case h_1 m1 hpage =>
      split at hpage
      · rw [Main.eqWrite_issueView, Main.pageOf_issueView hpage]
      · cases hpage
    case h_2 => simp

@[simp] theorem Main.eqPost_issueView (fn : Fn) (i : Nat) (e : Event) : (m.eqPost fn i e).issueView = m.issueView := by
  unfold Main.eqPost
  split
  · rfl
  · split
    · split
      · simp
      · split <;> simp
    · simp

@[simp] theorem Main.postFn_issueView (fn : Fn) (e : Event) : (m.postFn fn e).issueView = m.issueView := by
  unfold Main.postFn
  split
  · rfl
  · refine Main.foldl_issueView (fun x i => ?_) _ m
    split <;> simp

@[simp] theorem Main.post_issueView (type cls subject : Nat) (st : Status) (detail : Nat) :
    (m.post type cls subject st detail).issueView = m.issueView := by
  unfold Main.post
  dsimp only
  split <;> simp

@[simp] theorem Main.postMemory_issueView (channel cause lpa : Nat) : (m.postMemory channel cause lpa).issueView = m.issueView :=
  m.post_issueView _ _ _ _ _

@[simp] theorem Main.postFabric_issueView (subject cause neighbour : Nat) :
    (m.postFabric subject cause neighbour).issueView = m.issueView := m.post_issueView _ _ _ _ _

@[simp] theorem Main.postErr_issueView (r : ErrRec) : (m.postErr r).issueView = m.issueView := m.post_issueView _ _ _ _ _

@[simp] theorem Main.openErr_issueView (e : ErrNew) (st : ErrSt) : (m.openErr e st).2.issueView = m.issueView := by
  simp [Main.openErr]

@[simp] theorem Main.closeErr_issueView (id : Nat) (st : ErrSt) (x : Status) : (m.closeErr id st x).issueView = m.issueView := by
  unfold Main.closeErr Main.endErr
  split
  · rfl
  · simp

@[simp] theorem Main.noteAside_issueView (e : ErrNew) : (m.noteAside e).issueView = m.issueView := by
  unfold Main.noteAside
  split
  · rfl
  · split
    · rfl
    · simp

@[simp] theorem Main.noteCore_issueView (core detail : Nat) : (m.noteCore core detail).issueView = m.issueView :=
  m.noteAside_issueView _

end

/-! ### Requests at homes (R199, R207-R215) -/

section
variable (m : Main)

@[simp] theorem Main.countServe_issueView (line : Nat) : (m.countServe line).issueView = m.issueView := by
  unfold Main.countServe
  dsimp only
  split <;> rfl

@[simp] theorem Main.releaseBuf_issueView (line : Nat) : (m.releaseBuf line).issueView = m.issueView := by
  unfold Main.releaseBuf
  split <;> rfl

@[simp] theorem Main.writeBackCopy_issueView (agent line : Nat) : (m.writeBackCopy agent line).issueView = m.issueView := by
  unfold Main.writeBackCopy
  split
  · split <;> rfl
  · rfl

@[simp] theorem Main.invalidateSharers_issueView (line : Nat) (except : Option Nat) :
    (m.invalidateSharers line except).issueView = m.issueView := by
  unfold Main.invalidateSharers
  split <;> rfl

@[simp] theorem Main.takeFromOwner_issueView (e : DirEntry) : (m.takeFromOwner e).issueView = m.issueView := by
  unfold Main.takeFromOwner
  split
  · split
    · simp [Main.loseLine]
    · rfl
  · exact m.writeBackCopy_issueView _ _

@[simp] theorem Main.takeCopies_issueView (line : Nat) : (m.takeCopies line).issueView = m.issueView := by
  unfold Main.takeCopies
  split
  · rfl
  · split <;> simp

@[simp] theorem Main.recallLine_issueView (line : Nat) : (m.recallLine line).issueView = m.issueView := by
  simp [Main.recallLine]

@[simp] theorem Main.discardLine_issueView (line : Nat) : (m.discardLine line).issueView = m.issueView := by
  unfold Main.discardLine
  split
  · rfl
  · dsimp only
    split <;> simp

@[simp] theorem Main.homeWrite_issueView (line off : Nat) (data : List Byte) (poison : Bool) :
    (m.homeWrite line off data poison).issueView = m.issueView := by
  unfold Main.homeWrite
  dsimp only
  split
  · simp [Main.homeIWF]
  · simp [Main.homeIWP, Main.clearLine]

@[simp] theorem Main.writePiece_issueView (lpa : Nat) (data : List Byte) (poison : Bool) :
    (m.writePiece lpa data poison).issueView = m.issueView := by
  unfold Main.writePiece
  split <;> simp

@[simp] theorem Main.homeUR_issueView (line : Nat) : (m.homeUR line).2.issueView = m.issueView := by
  unfold Main.homeUR
  dsimp only
  split
  · split
    · exact (Main.writeBackCopy_issueView _ _ _).trans (m.countServe_issueView line)
    · simp
  · simp

@[simp] theorem Main.evict_issueView (agent line : Nat) : (m.evict agent line).issueView = m.issueView := by
  have hback := m.writeBackCopy_issueView agent line
  unfold Main.evict
  split
  · rfl
  · dsimp only
    split
    · exact hback
    · split
      · split
        · split <;> exact hback
        · exact hback
      · split <;> exact hback

@[simp] theorem Main.applyInv_issueView (agent line : Nat) : (m.applyInv agent line).issueView = m.issueView := by
  unfold Main.applyInv
  dsimp only
  split
  · split <;> simp
  · rfl

@[simp] theorem Main.applyOwn_issueView (core line : Nat) : (m.applyOwn core line).issueView = m.issueView := by
  have happly (x : Main) (agent : Nat) : (x.applyFor agent line).issueView = x.issueView := by
    unfold Main.applyFor
    split <;> simp
  rw [Main.applyOwn, happly, happly]

end

/-! ### Tile transfers (R75, R107) -/

section
variable (m : Main)

@[simp] theorem Main.spanRead_issueView (span sa n : Nat) : (m.spanRead span sa n).2.2.issueView = m.issueView := by
  refine foldlView_issueView (view := fun x : List Byte × Bool × Main => x.2.2) (fun x p => ?_) _ ([], false, m)
  dsimp only
  split <;> simp

@[simp] theorem Main.spanPieces_issueView (span sa n : Nat) : (m.spanPieces span sa n).2.issueView = m.issueView :=
  foldlView_issueView (view := fun x : List (Nat × List Byte × Bool) × Main => x.2)
    (fun x p => x.2.spanRead_issueView span p.1 p.2.length) _ ([], m)

@[simp] theorem Main.loadLine_issueView (core span : Nat) (l : XferLine) : (m.loadLine core span l).2.2.issueView = m.issueView :=
  (Main.foldl_issueView (fun x line => x.applyOwn_issueView core line) _ _).trans (m.spanPieces_issueView span l.sa l.len)

@[simp] theorem Main.performLoad_issueView (core span : Nat) (x : Xfer) : (m.performLoad core span x).issueView = m.issueView := by
  unfold Main.performLoad
  refine (Main.foldl_issueView (fun y p => ?_) _ _).trans ((Main.csWrite_issueView _ _ _).trans ?_)
  · exact y.csPoison_issueView core p.1 p.2
  · refine foldlView_issueView (view := fun x : List (Nat × List Byte) × List (Nat × Nat) × Main => x.2.2) (fun y l => ?_) _
      ([], [], m)
    exact y.2.2.loadLine_issueView core span l

@[simp] theorem Main.storeParts_issueView (line : Nat) (parts : List (Nat × List Byte)) :
    (m.storeParts line parts).issueView = m.issueView := by
  unfold Main.storeParts
  split
  · simp
  · refine Main.foldl_issueView (fun x p => ?_) _ m
    exact x.writePiece_issueView _ p.2 false

@[simp] theorem Main.performXfer_issueView (core span : Nat) (x : Xfer) : (m.performXfer core span x).issueView = m.issueView := by
  unfold Main.performXfer
  split
  · refine Main.foldl_issueView (fun y line => ?_) _ m
    simp
  · simp

end

/-! ### Messages that leave (R256-R263, R517-R519) -/

section
variable (m : Main)

@[simp] theorem Main.drill_issueView (vc : Nat) (g : Msg) (i : Nat) : (m.drill vc g i).2.issueView = m.issueView := by
  refine foldlView_issueView (view := fun x : List Drill × Main => x.2) (fun x id => ?_) _ ([], m)
  dsimp only
  split
  · rfl
  · split <;> rfl

@[simp] theorem Main.passHeld_issueView (vc : Nat) (g : Msg) (i : Nat) : (m.passHeld vc g i).issueView = m.issueView := by
  refine Main.foldl_issueView (fun x id => ?_) _ m
  rfl

@[simp] theorem Main.corrupt_issueView (i action : Nat) : (m.corrupt i action).issueView = m.issueView := rfl

@[simp] theorem Main.sendTurn_issueView (i vc : Nat) (g : Msg) (k : Nat) (l : Lane) : (m.sendTurn i vc g k l).issueView = m.issueView := by
  unfold Main.sendTurn
  dsimp only
  split
  · simp
  · split
    · split <;> simp
    · split
      · simp
      · split <;> simp

theorem Main.pumpLane_issueView (n i : Nat) : (Main.pumpLane n i m).issueView = m.issueView := by
  induction n generalizing m with
  | zero => rfl
  | succ n ih =>
    unfold Main.pumpLane
    split
    · rfl
    · split
      · rfl
      · split
        · split
          · rfl
          · simp [ih]
        · split
          · simp [ih]
          · simp [ih]
          · rfl

@[simp] theorem Main.sendOn_issueView (vc : Nat) (half : Option Nat) (g : Msg) : (m.sendOn vc half g).issueView = m.issueView := by
  unfold Main.sendOn
  split
  · rfl
  · split
    case h_1 m1 hassign =>
      obtain ⟨i, -, rfl⟩ := Option.map_eq_some_iff.1 hassign
      exact Main.pumpLane_issueView _ _ _
    case h_2 => rfl

/-- A message to another module's queue processors. -/
@[simp] theorem Main.sendCtrl_work_issueView (dest : Nat) (mail : WgMail) : (m.sendCtrl (.work dest mail)).issueView = m.issueView := by
  simp only [Main.sendCtrl, Main.sendFar]
  split <;> simp

end

end Sys2Proof.Machine
end

section
/-! Where instructions trap, what a trap does to its launch, and errors that a core's error correction finds (R56, R65, R79-R81, R116-R118,
R136, R479). -/

namespace Sys2Proof.Machine

/-! ### Words of instructions (R78) -/

theorem b2n_getLsbD (w : DWord) (k : Nat) : b2n (w.getLsbD k) = w.toNat / 2 ^ k % 2 ^ 1 := by
  rw [Nat.pow_one, ← Nat.toNat_testBit, BitVec.getLsbD, b2n]
  cases w.toNat.testBit k <;> rfl

/-- The low bits of a number are a field and the bits below it. -/
theorem mod_two_pow_add (x lo n : Nat) : x % 2 ^ (lo + n) = x / 2 ^ lo % 2 ^ n * 2 ^ lo + x % 2 ^ lo := by
  rw [Nat.pow_add, Nat.mod_mul, Nat.add_comm, Nat.mul_comm]

/-- A number of 64 bits is what its class, function and fields make up (R78). -/
theorem sum_of_fields {x : Nat} (h : x < 2 ^ 64) :
    x / 2 ^ 60 % 2 ^ 4 * 2 ^ 60 + x / 2 ^ 52 % 2 ^ 8 * 2 ^ 52 + x / 2 ^ 51 % 2 ^ 1 * 2 ^ 51 + x / 2 ^ 50 % 2 ^ 1 * 2 ^ 50 +
      x / 2 ^ 47 % 2 ^ 3 * 2 ^ 47 + x / 2 ^ 40 % 2 ^ 7 * 2 ^ 40 + x / 2 ^ 33 % 2 ^ 7 * 2 ^ 33 + x / 2 ^ 26 % 2 ^ 7 * 2 ^ 26 +
      x / 2 ^ 19 % 2 ^ 7 * 2 ^ 19 + x % 2 ^ 19 = x := by
  have hsum := mod_two_pow_add x 60 4
  rw [mod_two_pow_add x 52 8, mod_two_pow_add x 51 1, mod_two_pow_add x 50 1, mod_two_pow_add x 47 3, mod_two_pow_add x 40 7,
    mod_two_pow_add x 33 7, mod_two_pow_add x 26 7, mod_two_pow_add x 19 7, Nat.mod_eq_of_lt h] at hsum
  simp only [← Nat.add_assoc] at hsum
  exact hsum.symm

/-- The class, the function and the fields of a word make it up. -/
theorem fieldWord_fieldsOf (w : DWord) : fieldWord (fieldsOf w) (wordClass w) (wordFunc w) = w := by
  apply BitVec.eq_of_toNat_eq
  simp only [fieldWord, fieldsOf, wordClass, wordFunc, b2n_getLsbD, BitVec.extractLsb'_toNat, BitVec.toNat_ofNat,
    Nat.shiftRight_eq_div_pow, Nat.pow_zero, Nat.div_one]
  rw [sum_of_fields w.isLt, Nat.mod_eq_of_lt w.isLt]

/-! ### Instructions that trap or that no thread performs -/

section
variable {s : State} {br : BRef} {w : WorkGroup} {la : Launch} {b : Bundle} {f : Fields} {c : Instr} {ins : Ins}

/-- A row of an instruction that traps. -/
theorem exec_of_trap {t : TrapReq} (hc : exec c s = onMain (ins.issue br f) s) (h : Issues s.main br w la b)
    (ht : ins.exec s.main (issueOf br w la b f ins.cls ins.func) = .trap t) :
    exec c s = toMain s (s.main.raiseTrap w la b.awake (fieldWord f ins.cls ins.func) b.pc t) :=
  exec_eq_toMain hc (by rw [Ins.issue_of_issues h, ht])

/-- Fields out of the rules of an instruction trap (R79, R80); LANE is the lowest that performs it (assumption log 19). -/
theorem Ins.exec_of_illegal {m : Main} {i : Issue} (hthread : ins.kind = .thread → i.mask ≠ 0)
    (huniform : ins.kind = .uniform → i.b.mask ≠ 0) (h : (guardLegal ins.cls i.f && ins.legal i) = false) :
    ins.exec m i = .trap (.plain .il (if ins.kind = .thread then nth i.lanes 0 0xFF else 0xFF)) := by
  unfold Ins.exec
  simp only [h, Bool.not_false, if_true]
  cases hk : ins.kind
  · exact if_neg (hthread hk)
  · exact if_neg (huniform hk)
  · rfl

/-- An instruction of a thread class that no thread performs moves the program counter on (R56, R81). -/
theorem exec_of_masked (hc : exec c s = onMain (ins.issue br f) s) (h : Issues s.main br w la b) (hkind : ins.kind = .thread)
    (hmask : b.effective f = 0) : exec c s = .next (bundleTo s br b.awake.advance) := by
  have hskip : ins.exec s.main (issueOf br w la b f ins.cls ins.func) = .done s.main b.awake.advance := by
    unfold Ins.exec
    simp only [hkind]
    exact if_pos hmask
  exact exec_eq_toMain hc (by rw [Ins.issue_of_issues h, hskip])

theorem exec_illegalInstruction_of_reserved (h : Issues s.main br w la b) {word : DWord}
    (hword : funcListed (wordClass word) (wordFunc word) = false) :
    exec (.illegalInstruction br word) s = toMain s (s.main.raiseTrap w la b.awake word b.pc (.plain .il 0xFF)) := by
  have hissue : Main.illegal br word = (reservedIns word).issue br (fieldsOf word) := by
    funext m
    exact if_neg (by simp [hword])
  have hsame : fieldWord (fieldsOf word) (reservedIns word).cls (reservedIns word).func = word := fieldWord_fieldsOf word
  have htrap := exec_of_trap (c := .illegalInstruction br word) (ins := reservedIns word)
    (congrArg (fun g => onMain g s) hissue) h
    (Ins.exec_of_illegal (fun hk => nomatch hk) (fun hk => nomatch hk) (by simp [reservedIns]))
  rw [hsame] at htrap
  exact htrap

theorem trapIns_plain : trapIns.Plain := fun _ _ => ⟨rfl, rfl, rfl, rfl, rfl⟩

/-- A plain instruction of the bundle that traps. -/
theorem exec_of_plain_trap {t : TrapReq} (hc : exec c s = onMain (ins.issue br f) s) (h : Issues s.main br w la b)
    (hguard : NoGuard f) (hmask : b.mask ≠ 0) (hplain : ins.Plain) (hkind : ins.kind = .uniform)
    (hlegal : ins.legal (issueOf br w la b f ins.cls ins.func) = true)
    (hrun : ins.run s.main (issueOf br w la b f ins.cls ins.func) = .trap t) :
    exec c s = toMain s (s.main.raiseTrap w la b.awake (fieldWord f ins.cls ins.func) b.pc t) :=
  exec_of_trap hc h ((Ins.exec_of_passes (hplain.passes hkind hmask (guardLegal_of_noGuard hguard _) hlegal)).trans hrun)

end

/-! ### What a trap does to its launch (R136) -/

section
variable {m : Main}

theorem Main.launchOf_modLaunch {f : Launch → Launch} (hf : ∀ l, (f l).id = l.id) {id : Nat} {l : Launch}
    (h : m.launchOf id = some l) : (m.modLaunch id f).launchOf id = some (f l) := by
  have hid : l.id = id := by simpa using List.find?_some h
  refine (find?_modWhere_of_kept (fun x _ => by rw [hf x]) m.cores.launches).trans ?_
  rw [show m.cores.launches.find? (fun l => l.id == id) = some l from h]
  simp [hid]

theorem Main.performAll_launches (m : Main) (w : WorkGroup) (span : Nat) :
    (m.performAll w span).cores.launches = m.cores.launches := by
  refine congrArg (·.2.1) (Main.foldl_issueView (fun x t => ?_) w.xfers m)
  split <;> simp

/-- A launch whose other piers have been told to stop. -/
def Launch.told (l : Launch) : Launch := { l with away := l.away.map (fun a => { a with told := true }) }

/-- A launch without its unstarted and its saved work. -/
def Launch.stopped (l : Launch) : Launch := { l with todo := [], saved := [], reading := [], reserve := 0 }

/-- Every pier that holds a batch of a launch is told to stop, and nothing else of the launches here changes. -/
theorem Main.stopAway_of_launchOf {id : Nat} {l : Launch} (h : m.launchOf id = some l) :
    (m.stopAway id).launchOf id = some l.told ∧
      (m.stopAway id).cores.wgs = m.cores.wgs := by
  have hsent := Main.foldl_issueView (g := fun m (a : Away) => m.sendCtrl (.work a.module (.stop m.fab.module a.batch)))
    (fun x a => x.sendCtrl_work_issueView _ _) (l.away.filter (fun a => !a.told)) m
  simp only [Main.issueView, Prod.mk.injEq] at hsent
  obtain ⟨hwgs, hlaunches, -⟩ := hsent
  unfold Main.stopAway
  rw [h]
  refine ⟨Main.launchOf_modLaunch (f := Launch.told) (fun _ => rfl) ?_, hwgs⟩
  simp only [Main.launchOf, hlaunches]
  exact h

/-- The transfers in flight of a launch's work groups performed. -/
def Main.workPerformed (m : Main) (id span : Nat) : Main :=
  (m.cores.wgs.filter (fun w => w.launch == id)).foldl (fun m w => m.performAll w span) m

theorem Main.workPerformed_launches (m : Main) (id span : Nat) : (m.workPerformed id span).cores.launches = m.cores.launches :=
  List.foldlRecOn (motive := fun x : Main => x.cores.launches = m.cores.launches) _ _ rfl
    fun x hx w _ => (x.performAll_launches w span).trans hx

theorem Main.discardWork_eq {id : Nat} {l : Launch} (h : m.launchOf id = some l) :
    m.discardWork id =
      (((m.workPerformed id l.span).dropGroups (fun w => w.launch == id)).modLaunch id Launch.stopped).stopAway id := by
  unfold Main.discardWork
  rw [h]
  rfl

/-- The work of a launch discarded: nothing of it is pending, saved or resident (R117, R136). -/
theorem Main.discardWork_of_launchOf {id : Nat} {l : Launch} (h : m.launchOf id = some l) :
    (m.discardWork id).launchOf id = some l.stopped.told ∧
      ((m.discardWork id).cores.wgs.any fun x => x.launch == id) = false := by
  have hdropped : ((m.workPerformed id l.span).dropGroups (fun w => w.launch == id)).launchOf id = some l := by
    rw [← h]
    exact congrArg (List.find? (fun l => l.id == id)) (m.workPerformed_launches id l.span)
  obtain ⟨hlaunch, hwgs⟩ := Main.stopAway_of_launchOf (Main.launchOf_modLaunch (f := Launch.stopped) (fun _ => rfl) hdropped)
  rw [Main.discardWork_eq h, hwgs]
  refine ⟨hlaunch, ?_⟩
  change (((m.workPerformed id l.span).cores.wgs.filter (fun w => !(w.launch == id))).any fun x => x.launch == id) = false
  simp

/-- A launch with its first trap, a recoverable one. -/
def Launch.firstTrap (l : Launch) (r : TrapRec) (c : TrapClass) : Launch :=
  { l with trap := some r, firstFail := l.firstFail.orElse (fun _ => some (if c = .sm then .scopeMismatch else .poisoned)) }

/-- The first trap of a launch, when it is recoverable, is kept, and the launch's work is gone (R136). -/
theorem Main.raiseTrap_first {w : WorkGroup} {la : Launch} {b : Bundle} {word : DWord} {pc : Nat} {t : TrapReq}
    (h : m.launchOf la.id = some la) (hfirst : la.trap = none) (hrec : trapRecoverable la t.cls = true) :
    (∃ l, (m.raiseTrap w la b word pc t).launchOf la.id = some l ∧ l.trap = some (m.trapRec w la b word pc t) ∧
      l.saved = [] ∧ l.todo = []) ∧ ((m.raiseTrap w la b word pc t).cores.wgs.any fun x => x.launch == la.id) = false := by
  simp only [Main.raiseTrap, hrec, Bool.not_true, Bool.false_eq_true, if_false, Bool.or_false]
  have hkept := Main.launchOf_modLaunch (m := m) (f := fun l => match l.trap with
    | none => l.firstTrap (m.trapRec w la b word pc t) t.cls
    | some _ => { l with moreTraps := min (l.moreTraps + 1) 255 }) (fun l => by cases l.trap <;> rfl) h
  rw [hfirst] at hkept
  obtain ⟨hlaunch, hgone⟩ := Main.discardWork_of_launchOf hkept
  exact ⟨⟨_, hlaunch, rfl, rfl, rfl⟩, hgone⟩

end

/-! ### Errors that a core's error correction finds (R65, R479) -/

/-- A bundle issues as well on a module that looks the same to issue. -/
theorem Issues.of_issueView {m m1 : Main} {br : BRef} {w : WorkGroup} {la : Launch} {b : Bundle}
    (hview : m1.issueView = m.issueView) (h : Issues m br w la b) : Issues m1 br w la b := by
  simp only [Main.issueView, Prod.mk.injEq] at hview
  obtain ⟨hwgs, hlaunches, hcache, hresets⟩ := hview
  unfold Issues Main.bundleOf Main.wgOf Main.launchOf at *
  rwa [hwgs, hlaunches, hcache, hresets]

/-- A line of code that the instruction cache holds is fetched at once (R67). -/
theorem Main.fetch_of_cached {m : Main} {w : WorkGroup} {la : Launch} {b : Bundle} (hlen : b.pc + 8 ≤ la.spec.codeLen)
    (hcached : m.cores.icache.contains (w.core, la.span, (la.spec.codeAddr + b.pc) / 128) = true) :
    m.fetch w la b = .held m := by
  unfold Main.fetch
  rw [if_neg (Nat.not_lt.2 hlen)]
  simp only [hcached, if_true]

/-- An error that leaves the bundle as it was is dealt with before the instruction is performed as it would have been. -/
theorem Ins.issue_of_ecc {ins : Ins} {m : Main} {br : BRef} {w : WorkGroup} {la : Launch} {b : Bundle} {f : Fields} {e : CoreEcc}
    (h : Issues m br w la b) (hb : (m.coreErr w b.awake e).2 = b.awake)
    (hview : (m.coreErr w b.awake e).1.issueView = m.issueView) :
    ins.issue { br with ecc := e } f m = ins.issue br f (m.coreErr w b.awake e).1 := by
  rw [Ins.issue_of_issues (Issues.of_issueView hview h)]
  obtain ⟨hw, hbundle, hla, hcan, hresets, hlen, hcached, hclean, hsent, hline⟩ := h
  have hbundle' : m.bundleOf { br with ecc := e } = some b := hbundle
  have hgo (x : Main) : x.goesOn { br with ecc := e } b = x := if_neg hline
  have herr : m.coreErr w { b with waiting := none } e = ((m.coreErr w b.awake e).1, b.awake) := Prod.ext rfl hb
  have hmask : b.awake.effective f &&& ~~~b.awake.sent = b.awake.effective f := by
    rw [show b.awake.sent = 0 from hsent, show (~~~(0 : Word)) = BitVec.allOnes 32 from rfl, BitVec.and_allOnes]
  have hbr : ({ br with ecc := .clean } : BRef) = br := by rw [← hclean]
  unfold Ins.issue
  simp only [hw, hbundle', hla, hcan, hresets, Main.fetch_of_cached hlen hcached, Bool.not_true, Bool.or_false, Bool.false_eq_true,
    if_false]
  rw [herr]
  simp only [hmask, hbr, hgo, ite_self]
  change (match ins.exec (m.coreErr w b.awake e).1 (issueOf br w la b f ins.cls ins.func) with
    | .done m1 b1 => _ | .trap t => _ | .late m1 b1 t => _ | .wait m1 x => _ | .stop r => _) = _
  cases ins.exec (m.coreErr w b.awake e).1 (issueOf br w la b f ins.cls ins.func) <;> rfl

/-- The mark of a lane's register written as poisoned (R65). -/
theorem Bundle.poisonOf_poisonVs (b : Bundle) (reg x : Nat) {lane : Nat} (hlane : lane < 32) (st : Status) :
    (b.poisonVs reg lane [x] st).poisonOf reg 1 lane ≠ none := by
  intro hnone
  have hmark := List.find?_eq_none.1 (Option.map_eq_none_iff.1 hnone) (reg * 32 + lane, st) (by
    simp [Bundle.poisonVs, rangeFrom])
  have hmod : (reg * 32 + lane) % 32 = lane := by omega
  have hdiv : (reg * 32 + lane) / 32 = reg := by omega
  simp [hmod, hdiv] at hmark

/-- A lane's register written as poisoned leaves every other register of every lane. -/
theorem Bundle.getV_poisonVs {b : Bundle} {reg lane r l : Nat} (hreg : reg * 32 ≤ b.v.length) (hl : l < 32)
    (hother : r ≠ reg ∨ l ≠ lane) (x : Nat) (st : Status) : (b.poisonVs reg lane [x] st).getV r l = b.getV r l := by
  refine (Bundle.getV_setV hreg (1#32 <<< lane) (fun _ => BitVec.ofNat 32 x) r hl).trans (if_neg ?_)
  rintro ⟨hr, hbit⟩
  have hlane : l = lane := by
    simp only [BitVec.getLsbD_shiftLeft, BitVec.getLsbD_one] at hbit
    simp at hbit
    omega
  exact hother.elim (fun h => h hr) (fun h => h hlane)

/-- An error of a register: its record, an open value, its mark (R65). -/
theorem Main.coreErr_register {m : Main} {w : WorkGroup} {b : Bundle} {reg lane : Nat} (h : reg * 32 + lane < b.v.length) :
    m.coreErr w b (.register reg lane) =
      (m.draw.2.noteCore w.core (reg * 32 + lane), b.poisonVs reg lane [m.draw.1] .poisoned) :=
  if_neg (Nat.not_le.2 h)

/-- Settles O15, from where instructions trap, what a trap leaves of its launch, and what error correction finds. -/
theorem trapResults : Obligations.TrapResults := by
  refine ⟨fun s br w la b f h => ⟨fun word => exec_illegalInstruction_of_reserved h, ?debug, ?fields⟩,
    fun m w la b word pc t => Main.raiseTrap_first, ?masked, ?ecc⟩
  case debug =>
    intro hguard hdst ha hb hc hmask
    refine ⟨fun hmd => ?_, fun hmd hdebug => ?_⟩
    · refine exec_of_plain_trap (ins := trapIns) rfl h hguard hmask trapIns_plain rfl ?_ rfl
      simp [trapIns, bareLegal, issueOf, hdst, ha, hb, hc, hmd]
    · refine exec_of_plain_trap (ins := bkptIns) rfl h hguard hmask bkptIns_plain rfl ?_ ?_
      · simp [bkptIns, bareLegal, issueOf, hdst, ha, hb, hc, hmd]
      · simp only [bkptIns, issueOf, hdebug, if_true, debugTrap]
  case fields =>
    intro hmask hdst
    refine exec_of_trap (ins := intIns 0x00 (· + ·)) rfl h (Ins.exec_of_illegal (fun _ => hmask) (fun hk => nomatch hk) ?_)
    simp [intIns, Issue.vReg, issueOf, Nat.not_lt.2 hdst]
  case masked =>
    intro s br w la b f h hmask c hc
    simp only [List.mem_cons, List.not_mem_nil, or_false] at hc
    rcases hc with rfl | rfl | rfl | rfl | rfl | rfl | rfl | rfl | rfl | rfl | rfl | rfl | rfl | rfl | rfl | rfl | rfl | rfl |
      rfl | rfl | rfl | rfl | rfl | rfl | rfl <;> exact exec_of_masked rfl h rfl hmask
  case ecc =>
    intro ins m br w la b f h
    refine ⟨Ins.issue_of_ecc h rfl rfl, fun off => Ins.issue_of_ecc h rfl (by simp [Main.coreErr]), fun reg lane hlen _ hlane => ?_⟩
    rw [Main.coreErr_register hlen]
    exact ⟨rfl, b.poisonOf_poisonVs reg _ hlane _, fun r l _ hl hother => Bundle.getV_poisonVs (by omega) hl hother _ _⟩

end Sys2Proof.Machine
end

section
/-! Work groups and launches from admission to completion, and the slots of contexts (R77, R123-R128, R366-R368). -/

namespace Sys2Proof.Machine

section
variable {s : State} {l : Launch}

/-! ### Admission and batches (R77, R123, R124, R129, R131) -/

/-- A core with room admits an unstarted work group, at an allocation that is open (R61, R77). -/
theorem exec_workGroupAdmit_core_of_room {launch core lin : Nat} {u : CoreUnit} (hl : s.main.launchOf launch = some l)
    (hu : s.main.cores.units[core]? = some u) (hhead : l.head = some (.fresh lin)) (hruns : s.main.launchRuns l = true)
    (hslot : s.main.slotOpen l.ctx = true) (hcore : s.main.coreOpen l.span core = true)
    (hgroups : (s.main.onCore core).length < 32) (hquads : s.main.quadsFit core (u.w % 4) l.spec (.fresh lin) = true)
    (hfits : s.main.storeFits core l.spec.cstore ≠ []) (hpool : 1 ≤ s.main.reserveRoom l) :
    exec (.workGroupAdmit launch (.core core)) s =
      toMain s ((s.main.draw.2.modLaunch launch (fun x => { x.popHead with reserve := s.main.reserveFor l 1 })).placeGroup l core
        (u.w % 4) (nth (s.main.storeFits core l.spec.cstore) (s.main.draw.1 % (s.main.storeFits core l.spec.cstore).length) 0 * 16384)
        (.fresh lin)) := by
  have hheld : s.main.recordHeld l (.fresh lin) = false := by
    unfold Main.recordHeld
    cases l.coord <;> rfl
  refine exec_eq_toMain (f := Main.admitOne launch (.core core)) rfl ?_
  simp [Main.admitOne, Main.admitGroup, hl, hu, hhead, hruns, hslot, hcore, Nat.not_le.2 hgroups, hquads, hfits,
    Nat.not_lt.2 hpool, hheld]

/-- The coordinator hands a batch to another pier of the span, for as many work groups as the save pool has room (R124, R129). -/
theorem exec_workGroupAdmit_pier_of_room {launch rank count dest pidx : Nat} {c : Context} {r : SpanRec} {q : QRef}
    (hl : s.main.launchOf launch = some l) (hcoord : l.coord = .queue q pidx) (hc : s.main.ctxOf l.ctx = some c)
    (hr : s.main.recOf l.span = some r) (hdest : r.tableInForce[rank]? = some dest) (hwide : l.spec.isLocal = false)
    (hfar : dest ≠ s.main.fab.module) (hruns : s.main.launchRuns l = true) (hrouted : s.main.routed dest = true)
    (hroom : 0 < (l.batch (min count 64)).1.length + min (l.batch (min count 64)).2.2 (s.main.reserveRoom l)) :
    let x := l.batch (min count 64)
    let n := s.main.cores.nextLaunch
    let k := min x.2.2 (s.main.reserveRoom l)
    exec (.workGroupAdmit launch (.pier rank count)) s =
      toMain s ((({ s.main with cores := { s.main.cores with nextLaunch := n + 1 } } : Main).modLaunch launch (fun y =>
        { y.handOut n dest (x.1.length + k) x with reserve := s.main.reserveFor l k })).sendCtrl (.work dest (.work
        { module := s.main.fab.module, launch := n, ctx := c.num, span := l.span, weight := c.weight, spec := l.spec,
          saved := x.1, first := x.2.1, count := x.2.2, room := x.1.length + k }))) := by
  have hsome : ¬ (l.batch (min count 64)).1.length + (l.batch (min count 64)).2.2 = 0 := by omega
  refine exec_eq_toMain (f := Main.admitOne launch (.pier rank count)) rfl ?_
  simp only [Main.admitOne, Main.handBatch, hl, hcoord, hc, hr, hdest, hwide, beq_eq_false_iff_ne.2 hfar, hruns, hrouted,
    Bool.or_self, Bool.not_true, Bool.false_eq_true, if_false]
  exact (if_neg hsome).trans (if_neg (Nat.ne_of_gt hroom))

/-! ### Preemption and records (R127, R128) -/

theorem exec_preempt_of_running {wg : Nat} {w : WorkGroup} (hw : s.main.wgOf wg = some w) (hrun : w.state = .running) :
    exec (.preempt wg) s = toMain s (s.main.modWg wg (fun w => { w with state := .stopping })) :=
  exec_eq_toMain (f := Main.preempt wg) rfl (by simp only [Main.preempt, hw, hrun, if_true])

section
variable {wg : Nat} {w : WorkGroup} (hw : s.main.wgOf wg = some w) (hl : s.main.launchOf w.launch = some l)
  (hstop : w.state ≠ .running) (hdrained : s.main.drained w = true)
include hw hl hstop hdrained

/-- A record of a launch of this module lies in free pages of its save pool, and its work group is pending again (R127, R129). -/
theorem exec_saveRecordWritten_of_queue {q : QRef} {pidx : Nat} {ps : List Nat} (hcoord : l.coord = .queue q pidx)
    (hpages : (s.main.dropGroups (fun x => x.id == wg)).poolTake l.ctx ((s.main.saveRecord w l).record.length / 4096) = some ps) :
    exec (.saveRecordWritten wg) s =
      toMain s (((s.main.dropGroups (fun x => x.id == wg)).writePages l.span ps (s.main.saveRecord w l).record).modLaunch l.id
        (fun x => { x with saved := x.saved ++ [{ s.main.saveRecord w l with pages := ps }] })) := by
  have hkeep : (s.main.dropGroups (fun x => x.id == wg)).keepRecord l (s.main.saveRecord w l) =
      some (((s.main.dropGroups (fun x => x.id == wg)).writePages l.span ps (s.main.saveRecord w l).record).modLaunch l.id
        (fun x => { x with saved := x.saved ++ [{ s.main.saveRecord w l with pages := ps }] })) := by
    unfold Main.keepRecord
    refine (if_pos rfl).trans ?_
    dsimp only
    rw [hpages]
    rfl
  refine exec_eq_toMain (f := Main.saveWritten wg) rfl ?_
  simp [Main.saveWritten, hw, hl, hstop, hdrained, hcoord, hkeep]

/-- A record of another module's launch goes to its coordinator (R127, R129). -/
theorem exec_saveRecordWritten_of_remote {module batch : Nat} (hcoord : l.coord = .remote module batch) :
    exec (.saveRecordWritten wg) s =
      toMain s (((s.main.dropGroups (fun x => x.id == wg)).modLaunch l.id (fun l => { l with room := l.room - 1 })).sendCtrl
        (.work module (.saved batch (s.main.saveRecord w l)))) :=
  exec_eq_toMain (f := Main.saveWritten wg) rfl (by simp [Main.saveWritten, hw, hl, hstop, hdrained, hcoord])

end

/-! ### The end of launches and of batches (R126, R134-R137) -/

/-- A launch that is over completes: here, or with a report to its coordinator (R126). -/
theorem exec_launchComplete_of_over {launch : Nat} (hl : s.main.launchOf launch = some l) (hover : s.main.launchOver l = true) :
    (∀ q pidx, l.coord = .queue q pidx →
      exec (.launchComplete launch) s = toMain s ((s.main.finishLaunch l q pidx).after)) ∧
    (∀ module handle, l.coord = .remote module handle →
      exec (.launchComplete launch) s =
        toMain s (((s.main.dropLaunch launch).sendCtrl (.work module (.report handle l.report))).after)) := by
  refine ⟨fun q pidx hcoord => ?_, fun module handle hcoord => ?_⟩
  all_goals
    exact exec_eq_toMain (f := thenAfter (Main.launchComplete launch)) rfl
      (by simp only [thenAfter, Main.launchComplete, hl, hover, hcoord, Bool.not_true, Bool.false_eq_true, if_false])

/-- A batch of another pier's launch is pending here (R124). -/
theorem exec_workGroupBatch_of_work {b : WgBatch} {r : SpanRec} (hr : s.main.recOf b.span = some r)
    (hfence : s.main.fenced b.span = false) :
    exec (.workGroupBatch (.work b)) s = toMain s (s.main.addLaunch (.remote b.module b.launch) (foreignCtx b.module b.ctx)
      b.span { b.spec with isLocal := false } b.saved b.first b.count 0 b.room s.main.time) :=
  exec_eq_toMain (f := Main.workMail (.work b)) rfl
    (by simp only [Main.workMail, Main.workBatch, hr, hfence, Option.isNone_some, Bool.false_eq_true, if_false])

/-- A batch has ended elsewhere without a trap: its report joins the launch, and its energy the context (R134, R387; assumption
log 90). -/
theorem exec_workGroupBatch_of_report {batch : Nat} {r : WgReport} (hl : s.main.awayOf batch = some l) (htrap : r.trap = none)
    (hfatal : r.fatal = false) :
    exec (.workGroupBatch (.report batch r)) s = toMain s ((s.main.modLaunch l.id (fun l => l.reported batch r)).modCtx l.ctx
      (fun c => { c with energy := c.energy + r.energy })) :=
  exec_eq_toMain (f := Main.workMail (.report batch r)) rfl (by simp [Main.workMail, Main.batchEnded, hl, htrap, hfatal])

end

/-! ### Slots (R366-R368) -/

/-- The slot scheduler always completes: the longest waiter whose queues find places takes a free slot, and without waiters
the ended slots are freed and nothing more happens. -/
theorem Main.slotSchedule_completes (m : Main) :
    ∃ m1, m.slotSchedule = .next m1 ∧
      (∀ w i, longest (m.retireForeign.freeSlots.slotWaiters.filter m.retireForeign.freeSlots.queuesFit) = some w →
        (List.range 48).find? (fun i => m.retireForeign.freeSlots.objs.slots[i]? == some none) = some i →
        m1 = m.retireForeign.freeSlots.grantSlot i w) ∧
      (m.retireForeign.freeSlots.slotWaiters = [] → m1 = m.retireForeign.freeSlots) := by
  unfold Main.slotSchedule
  dsimp only
  split
  case h_1 w i hw hi =>
    refine ⟨_, rfl, fun w' i' hw' hi' => ?_, fun hnone => ?_⟩
    · rw [Option.some.inj (hw.symm.trans hw'), Option.some.inj (hi.symm.trans hi')]
    · rw [hnone] at hw
      cases hw
  case h_2 hstuck =>
    split
    case isTrue => exact ⟨_, rfl, fun w i hw hi => (hstuck w i hw hi).elim, fun _ => rfl⟩
    case isFalse hsome =>
      have hwaits : m.retireForeign.freeSlots.slotWaiters ≠ [] := by simpa using hsome
      split
      all_goals exact ⟨_, rfl, fun w i hw hi => (hstuck w i hw hi).elim, fun hnone => (hwaits hnone).elim⟩

theorem exec_slotSchedule_completes (s : State) :
    ∃ t, exec .slotSchedule s = .next t ∧
      ((∀ w, longest (s.main.retireForeign.freeSlots.slotWaiters.filter s.main.retireForeign.freeSlots.queuesFit) = some w →
        ∀ i, (List.range 48).find? (fun i => s.main.retireForeign.freeSlots.objs.slots[i]? == some none) = some i →
        t = { s with main := s.main.retireForeign.freeSlots.grantSlot i w }) ∧
      (s.main.retireForeign.freeSlots.slotWaiters = [] → t = { s with main := s.main.retireForeign.freeSlots })) := by
  obtain ⟨m1, hnext, hgrant, hfree⟩ := s.main.slotSchedule_completes
  refine ⟨_, exec_eq_toMain (f := Main.slotSchedule) rfl hnext, fun w hw i hi => ?_, fun hnone => ?_⟩
  · rw [hgrant w i hw hi]
  · rw [hfree hnone]

/-- Settles O20, from what each command on work groups, launches and slots comes to. -/
theorem launchLife : Obligations.LaunchLife := by
  refine ⟨fun s => ⟨fun launch core l u lin => exec_workGroupAdmit_core_of_room, ?pier, fun wg w hw => ⟨?preempt, ?save⟩,
    fun launch l hl hover => exec_launchComplete_of_over hl hover, fun b r => exec_workGroupBatch_of_work,
    fun batch r l => exec_workGroupBatch_of_report⟩, exec_slotSchedule_completes⟩
  case pier =>
    intro launch rank count l c r dest q pidx hl hcoord hc hr hdest hwide hfar hruns hrouted _ _ _ hroom
    exact exec_workGroupAdmit_pier_of_room hl hcoord hc hr hdest hwide hfar hruns hrouted hroom
  case preempt => exact exec_preempt_of_running hw
  case save =>
    intro l hl hstop hdrained
    exact ⟨fun q pidx ps => exec_saveRecordWritten_of_queue hw hl hstop hdrained,
      fun module batch => exec_saveRecordWritten_of_remote hw hl hstop hdrained⟩

end Sys2Proof.Machine
end

section
/-! The start of LAUNCH, DMA and COLLECTIVE packets (R119-R125, R298, R349, R372-R377). -/

namespace Sys2Proof.Machine

/-- A packet with no reserved bit set goes on to its own start, unless its context or its sagger stops it (R374, R389, R468). -/
theorem Main.beginPacket_of_legal {m : Main} {q : QRef} {c : Context} {p : Packet} (hlost : c.state ≠ .lost)
    (hfence : m.fenced c.span = false) (hzero : fieldAt p.bytes 1 1 / 16 = 0) (go : Main → Main) :
    m.beginPacket q c p true go = go m := by
  simp [Main.beginPacket, hlost, hfence, hzero]

section
variable {s : State} {m m2 : Main} {q : QRef} {pkt d : List Byte} {c : Context} {x : Queue} {p : Packet}

/-- The queue processor reads the next packet of the ring and starts it (R372-R376). -/
theorem Main.startPacket_of_starts {k : Nat} {legal : List Byte → Bool} (h : PacketStarts m q pkt c x d p m2)
    (htype : pkType d = k) (hlegal : legal d = true) (go : Context → Packet → Main → Main) :
    Main.startPacket q pkt (· == k) legal go m = .next (go c p m2) := by
  obtain ⟨hx, hc, hrun, hproc, hheld, hhalt, havail, hlost, hline, ⟨m0, hpage, hread, hmay, htake⟩, hfence, hzero⟩ := h
  have hbegin := Main.beginPacket_of_legal (q := q) hlost hfence hzero (go c p)
  cases hl : m0.locRead c x.ring (x.ridx.toNat % x.slots * 64) 64 pkt with
  | mk bytes m1 =>
    rw [hl] at hread hmay htake
    obtain rfl : bytes = some d := hread
    dsimp only at hmay htake
    simp [Main.startPacket, hx, hc, hrun, hproc, hheld, hhalt, havail, hline, hpage, hl, htype, hmay, htake, hlegal, hbegin]

/-! ### LAUNCH (R119-R125, R129) -/

/-- A launch waits while lines of its image or its arguments wait at their homes (R199, R208, R215). -/
theorem Main.launchGo_of_held (h : m.imageHeld c.span p.bytes = true) : m.launchGo q c p = m.holdPacket q p := if_pos h

/-- A launch whose image can be read is added, when the save pool has room for its reserve (R119, R129). -/
theorem Main.launchGo_of_room {h : List Byte} {args : List DWord} {m3 : Main} (hheld : m.imageHeld c.span p.bytes = false)
    (hread : m.readImage c.span p.bytes = (.ok (h, args), m3)) :
    let alone := pkBit p.bytes 3 && !(m3.spanCores c.span).isEmpty
    let sp := launchSpec c.seed c.checked c.debug alone p.bytes h args
    let need := m3.coreSetSize c.span alone * maxResident sp * recordSize sp 8
    m3.poolReserved c.num + need ≤ m3.poolBytes c →
    m.launchGo q c p = m3.addLaunch (.queue q p.pidx) c.num c.span sp [] 0 (sp.gridX * sp.gridY * sp.gridZ) need 0 p.tstart := by
  intro alone sp need hroom
  simp only [Main.launchGo, hheld, hread, Bool.false_eq_true, if_false]
  exact if_neg (Nat.not_lt.2 hroom)

/-! ### DMA (R349, R377) -/

/-- A DMA packet whose region has no glaze runs on its host mover, when its ranges allow it (R377). -/
theorem Main.dmaGo_of_plain {engine : Nat} (hranges : m.dmaRanges c p.bytes = true) (hglaze : m.dmaGlaze p.bytes = none) :
    m.dmaGo q engine c p = (m.addDma q c p engine 0).dmaPump := by
  simp [Main.dmaGo, hranges, hglaze]

/-! ### COLLECTIVE (R298-R303) -/

theorem Main.collGo_of_held (h : m.collHeld c p.bytes = true) : m.collGo q c p = m.holdPacket q p := if_pos h

/-- The run of a collective as its packet starts on this pier (R298). -/
def Main.newColl (m : Main) (q : QRef) (c : Context) (p : Packet) (r : SpanRec) : CollRun :=
  { q := q, pidx := p.pidx, span := c.span, collId := coId p.bytes, epoch := r.inForce.epoch, rank := m.spanRank c.span,
    piers := r.tableInForce, packet := p.bytes, parts := [], results := false, flags := 0, poisoned := false,
    due := m.time + m.param 6 * 1000000, ended := none }

/-- Whether this pier combines partials in a run: in a reduction to one rank only that rank does (R299). -/
def CollRun.reduces (r : CollRun) : Bool := coReduces r.packet && (coOp r.packet != 1 || r.rank == coRoot r.packet)

/-- A run once its input has been read (R300, R304). -/
def CollRun.withInput (r : CollRun) (input : List (Nat × Bool)) : CollRun :=
  { r with
    flags := (input.map (fun x => (coSend r.packet x.1).2)).foldl (· ||| ·) 0
    results := !r.reduces
    poisoned := !coReduces r.packet && input.any (·.2) }

/-- A collective that may start here tells the other piers its parameters, sends its elements, closes at once when it combines
nothing, and takes the messages that came before it (R298-R304; the messages are assumption log 9's). -/
theorem Main.collGo_of_ok {r : SpanRec} (hheld : m.collHeld c p.bytes = false) (hr : m.recOf c.span = some r)
    (hok : m.collOk c p.bytes r.tableInForce.length (m.spanRank c.span) = true) (hcores : (m.spanCores c.span).isEmpty = false) :
    let run := m.newColl q c p r
    let i := m.colls.length
    let got := ({ m with colls := m.colls ++ [run] } : Main).collInput c.span p.bytes (coSizes p.bytes run.size run.rank).1
    let run1 := run.withInput got.1
    let m3 := ((got.2.modColl i (fun _ => run1)).sendOpen run1).collSends i run1 got.1
    m.collGo q c p = (if run.reduces then m3 else m3.sendClose run1).collEarly i run1 := by
  simp only [Main.collGo, hheld, hr, hok, hcores, Bool.not_true, Bool.false_eq_true, if_false]
  rfl

/-! ### The packets as commands -/

theorem exec_launch_of_starts (h : PacketStarts s.main q pkt c x d p m2) (htype : pkType d = 1) (hlegal : launchLegal d = true) :
    exec (.launch q pkt) s = toMain s (m2.launchGo q c p) :=
  exec_eq_toMain (f := Main.launchPacket q pkt) rfl (Main.startPacket_of_starts h htype hlegal (Main.launchGo q))

/-- The queue processor starts a DMA packet on an engine that is free for its queue (R349). -/
theorem exec_dma_of_starts {engine : Nat} (h : PacketStarts s.main q pkt c x d p m2) (htype : pkType d = 2)
    (hlegal : dmaLegal d = true) (hfree : s.main.engineFree q x engine = true) :
    exec (.dma q pkt engine) s = toMain s (m2.dmaGo q engine c p) := by
  have hstart := Main.startPacket_of_starts h htype hlegal (Main.dmaGo q engine)
  obtain ⟨hx, -⟩ := h
  exact exec_eq_toMain (f := Main.dmaPacket q pkt engine) rfl (by simp [Main.dmaPacket, hx, hfree, hstart])

theorem exec_collective_of_starts (h : PacketStarts s.main q pkt c x d p m2) (htype : pkType d = 3) (hlegal : collLegal d = true) :
    exec (.collective q pkt) s = toMain s (m2.collGo q c p) :=
  exec_eq_toMain (f := Main.collPacket q pkt) rfl (Main.startPacket_of_starts h htype hlegal (Main.collGo q))

end

/-- Settles O19, from how a packet starts and what LAUNCH, DMA and COLLECTIVE do then. -/
theorem workPackets : Obligations.WorkPackets := by
  intro s q pkt c x d p m2 h
  refine ⟨?launchHeld, ?launch, ?dma, ?collHeld, ?coll⟩
  case launchHeld =>
    intro htype hlegal hheld
    rw [exec_launch_of_starts h htype hlegal, Main.launchGo_of_held hheld]
  case launch =>
    intro img args m3 htype hlegal hheld hread alone sp need hroom
    rw [exec_launch_of_starts h htype hlegal, Main.launchGo_of_room hheld hread hroom]
  case dma =>
    intro engine htype hlegal hfree hranges hglaze
    rw [exec_dma_of_starts h htype hlegal hfree, Main.dmaGo_of_plain hranges hglaze]
  case collHeld =>
    intro htype hlegal hheld
    rw [exec_collective_of_starts h htype hlegal, Main.collGo_of_held hheld]
  case coll =>
    intro r htype hlegal hheld hr hok hcores
    rw [exec_collective_of_starts h htype hlegal, Main.collGo_of_ok hheld hr hok hcores]
    rfl

end Sys2Proof.Machine
end

section
/-! ECS commands that make contexts and queues, on extents and on window segments (R130, R182-R188, R344-R348, R365-R373). -/

namespace Sys2Proof.Machine

/-! ### Answers, holds and checks (R404-R416) -/

section
variable {s : State} {mb : Mbx} {c : Cmd} {cmd : MbCmd} {op : Nat} {body : EcsIn → State → Ans} {y : Instr} {m1 : Main}

/-- A command that begins and is answered. -/
theorem exec_of_main {r : Reply} (hy : exec y s = State.ecsOp op body mb c s) (hbegin : EcsBegins s mb c cmd op)
    (hbody : body (ecsIn mb c cmd) s = .main s r m1) :
    exec y s = .next (s.answer (ecsIn mb c cmd) c.outOk r { s with main := m1 }) := by
  rw [hy, State.ecsOp_begins hbegin, hbody]
  rfl

/-- A command that begins and waits for something that ends later. -/
theorem exec_of_hold {why : HeldFor} (hy : exec y s = State.ecsOp op body mb c s) (hbegin : EcsBegins s mb c cmd op)
    (hbody : body (ecsIn mb c cmd) s = .hold why { s with main := m1 }) :
    exec y s = toMain s (m1.hold mb cmd why).saturate := by
  rw [hy, State.ecsOp_begins hbegin, hbody]

end

/-- A check names no offset just when it passes. -/
@[simp] theorem EcsIn.fails_eq_none_iff {bad : Bool} {off : Nat} : EcsIn.fails bad off = none ↔ bad = false := by
  cases bad <;> simp [EcsIn.fails]

/-- A check that has passed adds no offset. -/
@[simp] theorem EcsIn.lowest_none_cons (l : List (Option Nat)) : EcsIn.lowest (none :: l) = EcsIn.lowest l := rfl

/-- A check that has failed leaves an offset to answer. -/
theorem EcsIn.lowest_some_cons_ne_none (a : Nat) (l : List (Option Nat)) : EcsIn.lowest (some a :: l) ≠ none := by
  induction l generalizing a with
  | nil => exact Option.some_ne_none a
  | cons o l ih =>
    cases o with
    | none => exact ih a
    | some b => exact ih (min a b)

/-- No offset is left to answer just when every check has passed. -/
theorem EcsIn.lowest_eq_none_iff {l : List (Option Nat)} : EcsIn.lowest l = none ↔ ∀ o ∈ l, o = none := by
  refine ⟨fun h => ?_, EcsIn.lowest_none⟩
  induction l with
  | nil => simp
  | cons o l ih =>
    cases o with
    | none => simpa using ih h
    | some a => exact absurd h (EcsIn.lowest_some_cons_ne_none a l)

/-- A span that the caller may name stands at 0x20, and the argument bytes beside the fields named are zero (R409). -/
abbrev NamesSpan (s : State) (i : EcsIn) (named : List (Nat × Nat)) : Prop :=
  s.main.mayName i.mb (i.arg 0x20 4) = true ∧ i.reserved ((0x20, 4) :: named) = none ∧ i.high 0x20 4 20 = none

/-- A command on a span whose checks pass comes to its own meaning (R409). -/
theorem onSpan_go {s : State} {i : EcsIn} {named : List (Nat × Nat)} {bad : List (Option Nat)} (go : Nat → Ans)
    (h : NamesSpan s i named) (hrec : (s.main.recOf (i.arg 0x20 4)).isSome = true) (hbad : ∀ o ∈ bad, o = none) :
    onSpan i s named bad go = go (i.arg 0x20 4) := by
  obtain ⟨hname, hreserved, hhigh⟩ := h
  have hlow : EcsIn.lowest bad = none := EcsIn.lowest_none hbad
  simp [onSpan, hname, hreserved, hhigh, Option.isNone_eq_false_iff.2 hrec, hlow]

/-! ### Contexts (R130, R365, R366) -/

/-- The context that CTX_CREATE makes, with `n` extents named for its save pool; WEIGHT 0 is 16 (assumption log 44). -/
def Main.newContext (m : Main) (i : EcsIn) (fn : Fn) (n num : Nat) : Context :=
  { num := num, span := i.arg 0x20 4, fn := fn, pasid := i.arg 0x28 4, seed := BitVec.ofNat 64 (i.arg 0x30 8)
    weight := if i.arg 0x24 1 = 0 then 16 else i.arg 0x24 1
    checked := bit (i.arg 0x25 1) 0, debug := bit (i.arg 0x25 1) 1
    pool := ((m.poolNamed i (i.arg 0x20 4) n).filterMap (fun y => y.2.map (·.base))).eraseDups, evq := i.arg 0x2C 2, state := .idle
    credit := 0, creditZero := none, waitFrom := none, jobs := 0, energy := 0, kept := [] }

/-- A context is made under the lowest free number (assumption log 76), on extents that are active and stay with the span (R130, R365). -/
theorem ctxCreate_of_active {s : State} {i : EcsIn} {fn : Fn} {n num : Nat} {r : FnRec} (hmb : i.mb = .fn fn)
    (hn : i.arg 0x26 1 = n) (hpos : 0 < n) (hmax : n ≤ 16)
    (hspan : NamesSpan s i [(0x24, 1), (0x25, 1), (0x26, 1), (0x28, 4), (0x2C, 2), (0x30, 8), (0x40, 8 * n)])
    (hrec : (s.main.recOf (i.arg 0x20 4)).isSome = true) (hflags : i.high 0x25 1 2 = none)
    (hpasid : i.high 0x28 4 20 = none) (hr : s.main.fnOf fn = some r) (hevq : i.arg 0x2C 2 < r.eqs.length)
    (hpool : ∀ y ∈ s.main.poolNamed i (i.arg 0x20 4) n, ∃ e, y.2 = some e ∧ e.state = .active ∧ s.main.leaves e = false)
    (hfence : s.main.fenced (i.arg 0x20 4) = false) (hnum : lowestFree (s.main.objs.ctxs.map (·.num)) 65536 = some num) :
    ctxCreate i s = .main s (.good (fields [(0x20, toBytes 4 num)]))
      { s.main with objs := { s.main.objs with ctxs := s.main.objs.ctxs ++ [s.main.newContext i fn n num] } } := by
  obtain ⟨hname, hreserved, hhigh⟩ := hspan
  rw [hmb] at hname
  have hcount : (n == 0 || decide (16 < n)) = false := by simp [Nat.ne_of_gt hpos, hmax]
  simp only [ctxCreate, hmb, hname, hn, Nat.min_eq_left hmax, hr, hreserved, hhigh, hflags, hpasid, hcount, hfence, hnum,
    Option.isNone_eq_false_iff.2 hrec, decide_eq_false (Nat.not_le.2 hevq), EcsIn.fails_false, EcsIn.lowest_none_cons,
    List.cons_append, List.nil_append, Bool.not_true, Bool.false_eq_true, if_false]
  rw [EcsIn.lowest_none ?pool]
  case pool =>
    simp only [List.forall_mem_map]
    intro y hy
    obtain ⟨e, he, hactive, hstays⟩ := hpool y hy
    simp [he, hactive, hstays]
  refine if_neg ?_
  simp only [List.any_eq_true, not_exists, not_and]
  intro y hy
  obtain ⟨e, he, hactive, -⟩ := hpool y hy
  simp [he, hactive]

/-! ### Queues (R370, R371) -/

/-- A location that serves in a region names a region of the context (R371). -/
theorem Main.badLoc_region {m : Main} {i : EcsIn} {x : Context} {off size : Nat} {write : Bool}
    (h : m.badLoc i x off size write = none) (hregion : i.arg off 1 = 0) :
    ∃ r, m.regionOf (i.arg (off + 4) 4) = some r ∧ r.ctx = x.num := by
  unfold Main.badLoc at h
  have hplace := EcsIn.lowest_eq_none_iff.1 h _ (List.mem_cons_of_mem _ (List.mem_cons_of_mem _ List.mem_cons_self))
  rw [if_pos hregion] at hplace
  cases hr : m.regionOf (i.arg (off + 4) 4) with
  | none => simp [hr] at hplace
  | some r =>
    refine ⟨r, rfl, Decidable.byContradiction fun hother => ?_⟩
    simp [hr, hother] at hplace

/-- A VF's mailbox may use only a context of its own (R409). -/
theorem EcsIn.fn_of_vf {i : EcsIn} {x : Context} {fn : Fn} (hv : i.vf = some fn) (hmay : mayUse i.mb x = true) : x.fn = fn := by
  cases hmb : i.mb with
  | bmc => simp [EcsIn.vf, hmb] at hv
  | fn f =>
    simp only [EcsIn.vf, hmb, Option.ite_none_left_eq_some, Option.some.injEq] at hv
    obtain ⟨hvf, rfl⟩ := hv
    simpa [mayUse, hmb, hvf] using hmay

/-- A command whose regions are its context's own names nothing of another VF's context (R409). -/
theorem Main.foreign_of_own {m : Main} {i : EcsIn} {x : Context} {regions : List Nat} (hx : m.ctxOf x.num = some x)
    (hmay : mayUse i.mb x = true) (hown : ∀ h ∈ regions, ∃ r, m.regionOf h = some r ∧ r.ctx = x.num) :
    m.foreign i regions [] = false := by
  cases hv : i.vf with
  | none => simp [Main.foreign, hv]
  | some fn =>
    have hfn : x.fn = fn := EcsIn.fn_of_vf hv hmay
    simp only [Main.foreign, hv, List.any_nil, Bool.or_false, List.any_eq_false]
    intro h hh
    obtain ⟨r, hr, hctx⟩ := hown h hh
    simp [hr, hctx, hx, hfn]

theorem Main.ctxOf_num {m : Main} {n : Nat} {x : Context} (h : m.ctxOf n = some x) : x.num = n := by
  simpa using List.find?_some (p := fun (c : Context) => c.num == n) h

/-- The queue that QUEUE_CREATE makes for a context (R123, R370-R372). -/
def Main.newQueue (m : Main) (i : EcsIn) (x : Context) (idx page : Nat) : Queue :=
  { ctx := x.num, idx := idx, fn := x.fn, page := page, ring := i.loc 0x30, slots := 2 ^ i.arg 0x24 1, cring := i.loc 0x40
    status := i.loc 0x50, traprec := i.loc 0x60, cevt := bit (i.arg 0x25 1) 0, proc := m.pickProc x.span
    avail := 0, ridx := 0, done := 0, doneOut := [], halted := false, destroying := false, running := [], held := []
    lastLaunch := none }

/-- The places of a new queue in memory serve: its ring, its completion ring, its status word and its trap record (R371). -/
def Main.QueuePlaces (m : Main) (i : EcsIn) (x : Context) : Prop :=
  m.badLoc i x 0x30 (64 * 2 ^ i.arg 0x24 1) false = none ∧ m.badLoc i x 0x40 (32 * 2 ^ i.arg 0x24 1) true = none ∧
    m.badLoc i x 0x50 16 true = none ∧ m.badLoc i x 0x60 64 true = none

/-- The regions that those places name are the context's own (R371). -/
theorem Main.QueuePlaces.own {m : Main} {i : EcsIn} {x : Context} (h : m.QueuePlaces i x) :
    ∀ r ∈ ([0x30, 0x40, 0x50, 0x60].filter (fun o => i.arg o 1 == 0)).map (fun o => i.arg (o + 4) 4),
      ∃ y, m.regionOf r = some y ∧ y.ctx = x.num := by
  obtain ⟨hring, hcring, hstatus, htrap⟩ := h
  simp only [List.forall_mem_map, List.mem_filter, beq_iff_eq, and_imp, List.forall_mem_cons, List.not_mem_nil, false_implies,
    implies_true, and_true]
  exact ⟨Main.badLoc_region hring, Main.badLoc_region hcring, Main.badLoc_region hstatus, Main.badLoc_region htrap⟩

/-- A queue is made under the lowest free number of its context and at the lowest free page of its function (R370; assumption
log 76). -/
theorem queueCreate_of_room {s : State} {i : EcsIn} {x : Context} {idx page : Nat}
    (hx : OnContext s i [(0x24, 1), (0x25, 1), (0x30, 64)] x) (haccepts : x.accepts) (hfence : s.main.fenced x.span = false)
    (hmin : 4 ≤ i.arg 0x24 1) (hmax : i.arg 0x24 1 ≤ 16) (hcevt : i.arg 0x25 1 ≤ 1) (hplaces : s.main.QueuePlaces i x)
    (hidx : lowestFree ((s.main.objs.queues.filter (fun y => y.ctx == x.num)).map (·.idx)) 64 = some idx)
    (hpage : lowestFree ((s.main.objs.queues.filter (fun y => y.fn == x.fn)).map (·.page)) (pageCount x.fn) = some page)
    (hroom : s.main.residentQueues < 1024) :
    queueCreate i s = .main s (.good (fields [(0x20, toBytes 1 idx), (0x24, toBytes 2 page)]))
      { s.main with objs := { s.main.objs with queues := s.main.objs.queues ++ [s.main.newQueue i x idx page] } } := by
  have hforeign : s.main.foreign i
      (([0x30, 0x40, 0x50, 0x60].filter (fun o => i.arg o 1 == 0)).map (fun o => i.arg (o + 4) 4)) [] = false := by
    obtain ⟨hctx, hmay, -⟩ := hx
    exact Main.foreign_of_own (by rw [Main.ctxOf_num hctx]; exact hctx) hmay hplaces.own
  have hslots : min (2 ^ i.arg 0x24 1) 65536 = 2 ^ i.arg 0x24 1 := Nat.min_eq_left (Nat.pow_le_pow_right (by decide) hmax)
  obtain ⟨hring, hcring, hstatus, htrap⟩ := hplaces
  simp only [queueCreate, hforeign, Bool.false_eq_true, if_false]
  rw [onCtx_go hx ?checks (.inr haccepts) (fun _ => hfence)]
  case checks =>
    simp [hslots, hring, hcring, hstatus, htrap, hmin, hmax, hcevt]
  simp only [hidx, hpage, Nat.not_le.2 hroom, decide_false, Bool.and_false, Bool.false_eq_true, if_false]
  rfl

/-! ### Extents (R182-R188) -/

/-- An extent that lies apart from those of a span does not crowd it (R184). -/
theorem Main.crowds_of_apart {m : Main} {span base len : Nat} (hcount : (m.extentsOf span).length < 4096)
    (hapart : ∀ e ∈ m.extentsOf span, (e.base + e.len) * 0x200000 ≤ base ∨ base + len * 0x200000 ≤ e.base * 0x200000) :
    m.crowds span base len = (false, false) := by
  refine Prod.ext ?_ (decide_eq_false (Nat.not_le.2 hcount))
  simp only [Main.crowds, List.any_eq_false, Bool.and_eq_true, decide_eq_true_eq]
  intro e he
  have := hapart e he
  omega

/-- The extent that EXT_CREATE makes, its first granules at offset `g` of its channels (R183, R185). -/
def EcsIn.newExtent (i : EcsIn) (g idx : Nat) : Extent :=
  { idx := idx, state := .zeroing, span := i.arg 0x20 4, base := i.arg 0x28 8 / 0x200000, choff := g, len := i.arg 0x30 4
    mask := BitVec.ofNat 192 (i.arg 0x38 24) }

/-- The channels that EXT_CREATE names. -/
def EcsIn.channels (i : EcsIn) : List Nat := bitsSet 192 (BitVec.ofNat 192 (i.arg 0x38 24)).toNat

/-- A new extent finds room in its span and in the span to which an open transition takes its channels (R184). -/
def Main.ExtentFits (m : Main) (i : EcsIn) : Prop :=
  ∀ t, t = i.arg 0x20 4 ∨ (∃ k ∈ i.channels, m.channelGoes (i.arg 0x20 4) k = .span t) → (m.extentsOf t).length < 4096 ∧
    ∀ e ∈ m.extentsOf t, (e.base + e.len) * 0x200000 ≤ i.arg 0x28 8 ∨ i.arg 0x28 8 + i.arg 0x30 4 * 0x200000 ≤ e.base * 0x200000

/-- The base, the length and the channels of a new extent are of a legal form (R182-R184). -/
def EcsIn.ExtentShape (i : EcsIn) : Prop :=
  i.arg 0x28 8 % 0x200000 = 0 ∧ i.arg 0x28 8 + i.arg 0x30 4 * 0x200000 ≤ 2 ^ 52 ∧ 0 < i.arg 0x30 4 ∧ i.arg 0x30 4 ≤ 294912 ∧
    i.channels ≠ [] ∧ i.arg 0x30 4 % i.channels.length = 0

theorem EcsIn.ExtentShape.base_passes {i : EcsIn} (h : i.ExtentShape) :
    (i.arg 0x28 8 % 0x200000 != 0 || decide (2 ^ 52 < i.arg 0x28 8 + i.arg 0x30 4 * 0x200000)) = false := by
  obtain ⟨haligned, htop, -⟩ := h
  rw [haligned, decide_eq_false (Nat.not_lt.2 htop)]
  rfl

theorem EcsIn.ExtentShape.len_passes {i : EcsIn} (h : i.ExtentShape) :
    (i.arg 0x30 4 == 0 || decide (294912 < i.arg 0x30 4) ||
      (!i.channels.isEmpty && i.arg 0x30 4 % i.channels.length != 0)) = false := by
  obtain ⟨-, -, hpos, hlen, -, hdiv⟩ := h
  simp [Nat.ne_of_gt hpos, hlen, hdiv]

/-- The granules of a new extent begin at `g`: the lowest place that is free, or a free one that the caller gives (R183). -/
def Main.ExtentAt (m : Main) (i : EcsIn) (g : Nat) : Prop :=
  i.arg 0x34 2 = 0xFFFF ∧ m.lowestFit (BitVec.ofNat 192 (i.arg 0x38 24)) (i.arg 0x30 4 / i.channels.length) = some g ∨
    i.arg 0x34 2 = g ∧ g ≠ 0xFFFF ∧
      m.granulesFree (BitVec.ofNat 192 (i.arg 0x38 24)) g (i.arg 0x30 4 / i.channels.length) = true

theorem Main.ExtentAt.place {m : Main} {i : EcsIn} {g : Nat} (h : m.ExtentAt i g) :
    (if i.arg 0x34 2 = 0xFFFF then m.lowestFit (BitVec.ofNat 192 (i.arg 0x38 24)) (i.arg 0x30 4 / i.channels.length)
      else some (i.arg 0x34 2)) = some g := by
  rcases h with ⟨hlow, hfit⟩ | ⟨hgiven, hg, -⟩
  · rw [if_pos hlow, hfit]
  · rw [if_neg (hgiven ▸ hg), hgiven]

theorem Main.ExtentAt.place_passes {m : Main} {i : EcsIn} {g : Nat} (h : m.ExtentAt i g) :
    (i.arg 0x34 2 != 0xFFFF &&
      !m.granulesFree (BitVec.ofNat 192 (i.arg 0x38 24)) (i.arg 0x34 2) (i.arg 0x30 4 / i.channels.length)) = false := by
  rcases h with ⟨hlow, -⟩ | ⟨hgiven, -, hfree⟩
  · simp [hlow]
  · simp [hgiven, hfree]

/-- An extent is zeroing from its creation on, in the lowest free entry of the table (R182-R188). -/
theorem extCreate_of_fits {s : State} {i : EcsIn} {g idx : Nat}
    (hspan : NamesSpan s i [(0x28, 8), (0x30, 4), (0x34, 2), (0x38, 24)]) (hrec : (s.main.recOf (i.arg 0x20 4)).isSome = true)
    (hshape : i.ExtentShape) (hfits : s.main.ExtentFits i)
    (hown : ∀ k ∈ i.channels, nth s.main.comp.memOwner k .idle = .span (i.arg 0x20 4))
    (hsplits : s.main.splits (i.arg 0x20 4) i.channels = false) (hfence : s.main.fenced (i.arg 0x20 4) = false)
    (hg : s.main.ExtentAt i g) (hidx : lowestFree (s.main.mem.extents.map (·.idx)) 65536 = some idx) :
    extCreate i s = .hold (.extent idx) { s with main := { s.main with mem := { s.main.mem with
      extents := insertExtent (i.newExtent g idx) s.main.mem.extents
      zeroing := s.main.mem.zeroing ++ [(idx, .extent idx)] } } } := by
  have hclear (t : Nat) (ht : t = i.arg 0x20 4 ∨ ∃ k ∈ i.channels, s.main.channelGoes (i.arg 0x20 4) k = .span t) :
      s.main.crowds t (i.arg 0x28 8) (i.arg 0x30 4) = (false, false) := by
    obtain ⟨hcount, hapart⟩ := hfits t ht
    exact Main.crowds_of_apart hcount hapart
  have hforeign : i.channels.find? (fun c => nth s.main.comp.memOwner c .idle != .span (i.arg 0x20 4)) = none := by
    simpa using hown
  have hbase := hshape.base_passes
  have hlen := hshape.len_passes
  have hplace := hg.place
  have hfree := hg.place_passes
  have hhere := hclear _ (.inl rfl)
  obtain ⟨-, -, -, -, hchans, -⟩ := hshape
  obtain ⟨k, rest, hk⟩ := List.exists_cons_of_ne_nil hchans
  have hthere (t : Nat) (ht : s.main.channelGoes (i.arg 0x20 4) k = .span t) :=
    hclear t (.inr ⟨k, hk ▸ List.mem_cons_self, ht⟩)
  have hchannels : bitsSet 192 (BitVec.ofNat 192 (i.arg 0x38 24)).toNat = k :: rest := hk
  rw [hk] at hforeign hlen hplace hfree hsplits
  unfold extCreate
  dsimp only
  simp only [hchannels, hhere, hforeign, hlen, hplace, hsplits, hidx]
  -- The span that an open transition gives the channels to is looked at too, when there is one.
  cases hgoes : s.main.channelGoes (i.arg 0x20 4) k
  case' span t => simp only [hthere t hgoes]
  all_goals
    rw [onSpan_go _ hspan hrec ?checks]
    case checks =>
      simp only [hbase, Bool.or_false, Bool.not_false, Bool.and_true, hfree, EcsIn.fails_false]
      simp
    exact if_neg (by simp [hfence])

/-- An extent is destroyed once it is zeroed and no agent is reclaimed, when no save pool names it (R130, R188, R216). -/
theorem extDestroy_of_still {s : State} {i : EcsIn} {e : Extent} (hspan : NamesSpan s i [(0x28, 8)])
    (hrec : (s.main.recOf (i.arg 0x20 4)).isSome = true)
    (he : s.main.mem.extents.find? (fun e => e.span == i.arg 0x20 4 && e.base * 0x200000 == i.arg 0x28 8) = some e)
    (hfence : s.main.fenced (i.arg 0x20 4) = false) (hstate : e.state ≠ .zeroing) (hreclaim : s.main.coh.reclaim = [])
    (hpool : s.main.inPools e = false) : extDestroy i s = .main s (.good []) (s.main.dropExtent e) := by
  unfold extDestroy
  rw [onSpan_go _ hspan hrec (by simp [he])]
  simp [he, hfence, hstate, hreclaim, hpool]

/-! ### Window segments (R344, R345, R348) -/

/-- A segment is mapped under the lowest free index of its function's table (R345). -/
theorem winMap_of_apart {s : State} {i : EcsIn} {fn : Fn} {r : FnRec} {k : Nat} (hmb : i.mb = .fn fn)
    (hr : s.main.fnOf fn = some r) (hspan : NamesSpan s i [(0x24, 4), (0x28, 4), (0x30, 8), (0x38, 1)])
    (hctx : ∃ x ∈ s.main.objs.ctxs, x.fn = fn ∧ x.span = i.arg 0x20 4) (hhigh : i.high 0x24 4 19 = none)
    (hapart : ∀ x ∈ r.segs, x.wbase + x.len ≤ i.arg 0x24 4 ∨ i.arg 0x24 4 + i.arg 0x28 4 ≤ x.wbase) (hpos : 0 < i.arg 0x28 4)
    (hlen : i.arg 0x28 4 ≤ 524288) (hbar : (i.arg 0x24 4 + i.arg 0x28 4) * 0x200000 ≤ r.bar2)
    (haligned : i.arg 0x30 8 % 0x200000 = 0) (hbase : i.arg 0x30 8 < 2 ^ 52) (hwr : i.arg 0x38 1 ≤ 1)
    (hk : lowestFree (r.segs.map (·.idx)) (segCount fn) = some k) :
    winMap i s = .main s (.good (fields [(0x20, toBytes 2 k)])) (s.main.modFn fn (fun r => { r with segs := r.segs ++
      [{ idx := k, wr := bit (i.arg 0x38 1) 0, span := i.arg 0x20 4, wbase := i.arg 0x24 4, sbase := i.arg 0x30 8 / 0x200000,
         len := i.arg 0x28 4 }] })) := by
  obtain ⟨hname, hreserved, hspan⟩ := hspan
  have hoverlap : (r.segs.any fun x => decide (x.wbase < i.arg 0x24 4 + i.arg 0x28 4) &&
      decide (i.arg 0x24 4 < x.wbase + x.len)) = false := by
    simp only [List.any_eq_false, Bool.and_eq_true, decide_eq_true_eq]
    intro x hx
    have := hapart x hx
    omega
  have hholds : (s.main.objs.ctxs.any fun c => c.fn == fn && c.span == i.arg 0x20 4) = true := by simpa using hctx
  have hplace : (i.arg 0x28 4 == 0 || decide (524288 < i.arg 0x28 4) ||
      decide (r.bar2 < (i.arg 0x24 4 + i.arg 0x28 4) * 0x200000)) = false := by
    simp [Nat.ne_of_gt hpos, hlen, hbar]
  have hsbase : (i.arg 0x30 8 % 0x200000 != 0 || decide (2 ^ 52 ≤ i.arg 0x30 8)) = false := by
    simp only [haligned, Nat.not_le.2 hbase]
    rfl
  rw [hmb] at hname
  simp only [winMap, hmb, hr, hname, hreserved, hspan, hholds, hhigh, hoverlap, hplace, hsbase, decide_eq_false (Nat.not_lt.2 hwr),
    hk, EcsIn.fails_false, EcsIn.lowest_none_cons, Bool.not_true, Bool.false_eq_true, if_false]
  rfl

theorem winUnmap_of_valid {s : State} {i : EcsIn} {fn : Fn} {r : FnRec} (hmb : i.mb = .fn fn) (hr : s.main.fnOf fn = some r)
    (hreserved : i.reserved [(0x20, 2)] = none) (hseg : ∃ x ∈ r.segs, x.idx = i.arg 0x20 2) :
    winUnmap i s = .main s (.good []) (s.main.dropSegment fn (i.arg 0x20 2)) := by
  have hthere : (r.segs.any fun x => x.idx == i.arg 0x20 2) = true := by simpa using hseg
  simp only [winUnmap, hmb, hr, hthere, hreserved, Bool.not_true, EcsIn.fails_false, EcsIn.lowest_none_cons]
  rfl

/-- Settles O52, from what each command comes to when its checks pass. -/
theorem ecsMemoryCommands : Obligations.EcsMemoryCommands := by
  intro s fn c cmd mb i m main held span onSpan
  refine ⟨?ctx, ?queue, ?extent, ?destroy, fun r k hr => ⟨?map, ?unmap⟩⟩
  case ctx =>
    rintro n num hn hpos hmax ⟨hbegin, hspan⟩ hrec hflags hpasid ⟨r, hr, hevq⟩ hpool hfence hnum
    exact exec_of_main rfl hbegin (ctxCreate_of_active rfl hn hpos hmax hspan hrec hflags hpasid hr hevq hpool hfence hnum)
  case queue =>
    intro x idx page hbegin hx haccepts hfence hmin hmax hcevt slots hring hcring hstatus htrap hidx hpage hroom
    exact exec_of_main rfl hbegin
      (queueCreate_of_room hx haccepts hfence hmin hmax hcevt ⟨hring, hcring, hstatus, htrap⟩ hidx hpage hroom)
  case extent =>
    rintro g idx base len mask chans ⟨hbegin, hspan⟩ hrec haligned htop hfits hpos hlen hchans hdiv hown hsplits hfence hg hidx
    exact exec_of_hold rfl hbegin
      (extCreate_of_fits hspan hrec ⟨haligned, htop, hpos, hlen, hchans, hdiv⟩ hfits hown hsplits hfence hg hidx)
  case destroy =>
    rintro e ⟨hbegin, hspan⟩ hrec he hfence hstate hreclaim hpool
    exact exec_of_main rfl hbegin (extDestroy_of_still hspan hrec he hfence hstate hreclaim hpool)
  case map =>
    rintro ⟨hbegin, hspan⟩ hctx hhigh hapart hpos hlen hbar haligned hbase hwr hk seg
    exact exec_of_main rfl hbegin (winMap_of_apart rfl hr hspan hctx hhigh hapart hpos hlen hbar haligned hbase hwr hk)
  case unmap =>
    intro hbegin hreserved hseg
    exact exec_of_main rfl hbegin (winUnmap_of_valid rfl hr hreserved hseg)

end Sys2Proof.Machine
end

section
/-! What engines do with the descriptor at the head of their queue (R140, R141, R145, R159, R295). -/

namespace Sys2Proof.Machine

/-! ### Runs begun -/

section
variable {m : Main} {e : Nat} {q : EngDesc}

/-- Engine `e` runs the descriptor at its head. -/
def Main.beginRun (m : Main) (e : Nat) (run : EngRun) : Main := m.modEngine e (fun x => { x with run := some run })

/-- A gather that is not legal is begun as refused (R141). -/
theorem Main.gatherStart_of_illegal (h : m.gaLegal q = false) : m.gatherStart e q = m.beginRun e .refused :=
  if_pos (by simp only [h, Bool.not_false])

/-- A sampler descriptor that is not legal is begun as refused (R141). -/
theorem Main.samplerStart_of_illegal (h : m.saLegal q = false) : m.samplerStart e q = m.beginRun e .refused :=
  if_pos (by simp only [h, Bool.not_false])

/-- A legal sampler descriptor is computed at once, after what the reads of its inputs leave (R159-R162). -/
theorem Main.samplerStart_of_legal (h : m.saLegal q = true) :
    ∃ (run : SampleRun) (m1 : Main), m.samplerStart e q = m1.beginRun e (.sample run) := by
  simp only [Main.samplerStart, h, Bool.not_true, Bool.false_eq_true, if_false]
  exact ⟨_, _, rfl⟩

/-- A stream that is not legal is begun as refused (R141). -/
theorem Main.streamStart_of_illegal (h : m.stLegal q = false) : m.streamStart e q = m.beginRun e .refused :=
  if_pos (by simp only [h, Bool.not_false])

/-- A legal stream begins with all its requests to come, and goes on (R295). -/
theorem Main.streamStart_of_legal (h : m.stLegal q = true) :
    m.streamStart e q = (m.beginRun e (.stream { reqs := stReqs q.bytes, chunks := 0 })).streamGo e :=
  if_neg (by simp only [h, Bool.not_true, Bool.false_eq_true, not_false_eq_true])

end

/-! ### Descriptors taken -/

section
variable {s : State} {e : Nat} {q : EngDesc}

/-- A gather engine takes a gather descriptor when no line of its index list waits (R145). -/
theorem exec_gatherDescriptor_of_free (hq : s.main.engHead e = some q) (he : e < 64) (hop : dsOp q.bytes = 1)
    (hlist : s.main.engBlocked q (dsBit q.bytes 3 6) (dsAddr q.bytes 0x18) (gaListLen q.bytes) = false) :
    exec (.gatherDescriptor e) s = toMain s (s.main.gatherStart e q) := by
  refine exec_eq_toMain (f := Main.gatherDescriptor e) rfl ?_
  simp only [Main.gatherDescriptor, hq]
  exact (if_neg (not_not_intro ⟨he, hop⟩)).trans (if_neg (ne_true_of_eq_false hlist))

/-- A sampler takes a sampler descriptor when no line of its logits or of the bits of its penalty waits (R159). -/
theorem exec_samplerDescriptor_of_free (hq : s.main.engHead e = some q) (he : 64 ≤ e) (hop : dsOp q.bytes = 2)
    (hlogits : s.main.engBlocked q (dsBit q.bytes 1 3) (dsAddr q.bytes 8) (saVocab q.bytes * saSize q.bytes) = false)
    (hpen : saPen q.bytes = true →
      s.main.engBlocked q (dsBit q.bytes 1 2) (dsAddr q.bytes 0x10) (ceilDiv (saVocab q.bytes) 8) = false) :
    exec (.samplerDescriptor e) s = toMain s (s.main.samplerStart e q) := by
  refine exec_eq_toMain (f := Main.samplerDescriptor e) rfl ?_
  simp only [Main.samplerDescriptor, hq]
  exact (if_neg (not_not_intro ⟨he, hop⟩)).trans (if_neg (by simpa [hlogits] using hpen))

/-- A gather engine takes a stream descriptor (R295). -/
theorem exec_streamDescriptor_of_head (hq : s.main.engHead e = some q) (he : e < 64) (hop : dsOp q.bytes = 3) :
    exec (.streamDescriptor e) s = toMain s (s.main.streamStart e q) := by
  refine exec_eq_toMain (f := Main.streamDescriptor e) rfl ?_
  simp only [Main.streamDescriptor, hq]
  exact if_pos ⟨he, hop⟩

/-- A descriptor whose OP its engine does not know is begun as refused (R141). -/
theorem exec_reservedDescriptor_of_unknown (hq : s.main.engHead e = some q)
    (hgather : e < 64 → dsOp q.bytes ≠ 1 ∧ dsOp q.bytes ≠ 3) (hsampler : 64 ≤ e → dsOp q.bytes ≠ 2) :
    exec (.reservedDescriptor e) s = toMain s (s.main.beginRun e .refused) := by
  have hunknown : ¬ (if e < 64 then dsOp q.bytes = 1 ∨ dsOp q.bytes = 3 else dsOp q.bytes = 2) := by
    split
    next he => exact not_or.2 (hgather he)
    next he => exact hsampler (Nat.not_lt.1 he)
  refine exec_eq_toMain (f := Main.reservedDescriptor e) rfl ?_
  simp only [Main.reservedDescriptor, hq]
  exact if_neg hunknown

end

/-! ### Descriptors ended -/

/-- Outputs and record written, the descriptor gone from the queue, its counter and its launch told (R140). -/
def Main.descriptorEnded (m : Main) (e : Nat) (q : EngDesc) (r : EngRun) (rest : List EngDesc) : Main :=
  let sampler := decide (64 ≤ e)
  let o := m.engOutputs q r
  let m1 := (o.2.2.engWrite q (dsRecord sampler q.bytes).2 (dsRecord sampler q.bytes).1 o.1).modEngine e (fun x =>
    { x with queue := rest, run := none })
  (m1.advanceCounter (dsCounter sampler q.bytes) o.2.1 (m.engRelease e q)).modLaunch q.launch (fun l =>
    { l with engines := l.engines - 1 })

/-- A finished run ends its descriptor when no line of its outputs waits; engines and teardowns that waited go on (R140). -/
theorem exec_descriptorEnd_of_finished {s : State} {e : Nat} {x : Engine} {r : EngRun} {q : EngDesc} {rest : List EngDesc}
    (hx : s.main.eng[e]? = some x) (hrun : x.run = some r) (hqueue : x.queue = q :: rest) (hfin : r.finished = true)
    (hout : s.main.outBlocked (decide (64 ≤ e)) q r = false) :
    exec (.descriptorEnd e) s = toMain s (s.main.descriptorEnded e q r rest).after := by
  have hend : Main.descriptorEnd e s.main = .next (s.main.descriptorEnded e q r rest) := by
    simp only [Main.descriptorEnd, hx, hrun, hqueue, hfin, hout, Bool.not_true, Bool.false_eq_true, if_false]
    rfl
  exact exec_eq_toMain (f := thenAfter (Main.descriptorEnd e)) rfl (by simp only [thenAfter, hend])

/-- A refused descriptor's record is NOT_PERMITTED and 14 zero bytes (R141, assumption log 31). -/
theorem Main.engOutputs_refused_record (m : Main) (q : EngDesc) :
    (m.engOutputs q .refused).1 = toBytes 2 0x0010 ++ List.replicate 14 0 := by
  have hzeros : toBytes 14 0 = List.replicate 14 0 := by decide
  exact congrArg (toBytes 2 0x0010 ++ ·) hzeros

/-- Settles O22, from what an engine makes of each kind of descriptor and what its end leaves. -/
theorem descriptorLife : Obligations.DescriptorLife := by
  refine ⟨fun s e q hq => ⟨?gather, ?sampler, ?stream, exec_reservedDescriptor_of_unknown hq⟩, ?ended⟩
  case gather =>
    intro he hop hlist
    have htaken := exec_gatherDescriptor_of_free hq he hop hlist
    exact ⟨fun hlegal => htaken.trans (congrArg _ (Main.gatherStart_of_illegal hlegal)), fun _ => htaken⟩
  case sampler =>
    intro he hop hlogits hpen
    rw [exec_samplerDescriptor_of_free hq he hop hlogits hpen]
    refine ⟨fun hlegal => congrArg _ (Main.samplerStart_of_illegal hlegal), fun hlegal => ?_⟩
    obtain ⟨run, m1, hstart⟩ := Main.samplerStart_of_legal (e := e) hlegal
    exact ⟨run, m1, congrArg _ hstart⟩
  case stream =>
    intro he hop
    rw [exec_streamDescriptor_of_head hq he hop]
    exact ⟨fun hlegal => congrArg _ (Main.streamStart_of_illegal hlegal),
      fun hlegal => congrArg _ (Main.streamStart_of_legal hlegal)⟩
  case ended =>
    intro s e x r q rest hx hrun hqueue hfin hout
    refine ⟨exec_descriptorEnd_of_finished hx hrun hqueue hfin hout, ?_⟩
    rintro rfl
    exact s.main.engOutputs_refused_record q

end Sys2Proof.Machine
end

section
/-! Messages that modules send each other outside their spans' requests (R169, R335, R380, R394-R396, R452, R471-R473, R485). -/

namespace Sys2Proof.Machine

/-! ### SAG notices and pace tokens (R335, R452, R453) -/

section
variable {s : State} {sender tk limit : Nat}

/-- The fabric processors of a running module take a SAG notice (R335). -/
theorem exec_sagNotice_of_running (detected : Nat) (recovered : Bool) (hrun : s.main.running = true) :
    exec (.sagNotice sender detected recovered) s = .next (s.sagNotice sender detected recovered) := if_pos hrun

/-- A notice of a module that is no peer changes nothing (R335). -/
theorem State.sagNotice_of_stranger (detected : Nat) (recovered : Bool) (h : s.main.peers.contains sender = false) :
    s.sagNotice sender detected recovered = s := if_pos (by rw [h]; rfl)

/-- A running module takes a token whose time is that of a round (R452). -/
theorem exec_paceToken_of_round (hrun : s.main.running = true) (htk : tk % 100000 = 0) :
    exec (.paceToken sender tk limit) s = .next (s.paceToken sender limit) :=
  (if_neg (not_not_intro htk)).trans (if_pos hrun)

/-- A peer's token with a legal limit takes the place of the one before (R452). -/
theorem State.paceToken_of_legal (hpeer : s.main.peers.contains sender = true) (hmin : 16 ≤ limit) (hmax : limit ≤ 64) :
    s.paceToken sender limit =
      { s.sagsAct with power := s.sagsAct.power.token { module := sender, limit := limit, sagAt := none } } :=
  (if_neg (by rw [hpeer]; decide)).trans (if_neg (by omega))

/-- A peer's token with a reserved limit is counted and discarded (R452, assumption log 53). -/
theorem State.paceToken_of_reserved (hpeer : s.main.peers.contains sender = true) (hlimit : limit < 16 ∨ 64 < limit) :
    s.paceToken sender limit = { s with main := s.main.bump 5 1 0 1 } :=
  (if_neg (by rw [hpeer]; decide)).trans (if_pos hlimit)

end

/-! ### Abort messages (R471-R473) -/

section
variable {m : Main} {span a : Nat} {source : EngineId} {late : Bool}

/-- How far an abort number lies ahead of the span's own, modulo 2^16 (R472). -/
def Main.abortAhead (m : Main) (span a : Nat) : Nat := (a + 2 ^ 16 - m.abortNum span) % 2 ^ 16

/-- A span without a record has no abort number to compare (R472). -/
theorem Main.takeAbort_of_no_record (h : m.recOf span = none) : m.takeAbort span a source late = m :=
  if_pos (by rw [h]; rfl)

/-- A number ahead of the span's own, which is not 0, is an error of its sagger and becomes its own (R472). -/
theorem Main.takeAbort_of_ahead {r : SpanRec} (hrec : m.recOf span = some r) (ha : a ≠ 0) (hn : m.abortNum span ≠ 0)
    (hmin : 1 ≤ m.abortAhead span a) (hmax : m.abortAhead span a ≤ 0x7FFF) :
    m.takeAbort span a source late = (m.saggerError span 0x34 source none a false (some a)).setAbort span a := by
  refine (if_neg (by simp [hrec, ha])).trans (if_pos ?_)
  rw [if_neg hn]
  exact Bool.and_eq_true_iff.2 ⟨decide_eq_true hmin, decide_eq_true hmax⟩

/-- A number that is the span's own or lies behind it is left (R472). -/
theorem Main.takeAbort_of_not_ahead (hn : m.abortNum span ≠ 0)
    (h : m.abortAhead span a = 0 ∨ 0x7FFF < m.abortAhead span a) : m.takeAbort span a source late = m := by
  refine (ite_eq_left_iff.2 fun _ => if_neg ?_)
  rw [if_neg hn, Bool.and_eq_true, decide_eq_true_eq, decide_eq_true_eq]
  unfold Main.abortAhead at h
  omega

end

section
variable {s : State} {span : Nat} {slot : BitVec 128}

/-- A message whose reserved bits are not zero is counted and discarded. -/
theorem exec_abort_of_reserved (h : slot.toNat % 2 ^ 27 ≠ 0) : exec (.abort span slot) s = toMain s (s.main.bump 5 1 0 1) :=
  exec_eq_toMain (f := Main.abortMsg span slot) rfl (if_pos (by simpa [bits] using h))

/-- What the abort number of a message does; a number is late when its time lies before the span's record, less 1 µs (R472). -/
def Main.abortTaken (m : Main) (span : Nat) (slot : BitVec 128) : Main :=
  m.takeAbort span (abortSlot slot).abort ⟨4, 3⟩ (decide ((abortSlot slot).time + 1000 ≤ m.bornAt span))

/-- A message takes its abort number, and does nothing else unless it owes a receipt: a revocation's, of a span with a record. -/
theorem exec_abort_of_legal (h : slot.toNat % 2 ^ 27 = 0) :
    ∃ m1, exec (.abort span slot) s = toMain s m1 ∧
      (s.main.recOf span = none ∨ (abortSlot slot).cause ≠ 0x35 → m1 = s.main.abortTaken span slot) := by
  have hbits : bits slot.toNat 26 0 = 0 := by simpa [bits] using h
  by_cases hno : s.main.recOf span = none ∨ (abortSlot slot).cause ≠ 0x35
  · refine ⟨_, exec_eq_toMain (f := Main.abortMsg span slot) rfl ((if_neg (not_not_intro hbits)).trans (if_pos ?_)), fun _ => rfl⟩
    rcases hno with hnone | hcause
    · exact .inl (by rw [hnone]; rfl)
    · exact .inr (.inr (.inr hcause))
  · have hmeaning : ∃ m1, s.main.abortMsg span slot = .next m1 := by
      unfold Main.abortMsg
      split
      · exact ⟨_, rfl⟩
      · dsimp only
        split <;> exact ⟨_, rfl⟩
    obtain ⟨m1, hm1⟩ := hmeaning
    exact ⟨m1, exec_eq_toMain (f := Main.abortMsg span slot) rfl hm1, fun hyes => absurd hyes hno⟩

end

/-! ### Signals on fences of other modules (R380, R394-R396) -/

section
variable {s : State} {sig : FenceSignal} {st : Status} {q : QRef} {p : Packet}

/-- The record a signal leaves with its fence when its context is checked (R239). -/
def signalRecord (sig : FenceSignal) : Option RelRec :=
  if sig.checked then
    some { scope := sig.scope, module := sig.sender, cluster := 0, core := 15, host := false, modLevel := true }
  else none

/-- A signal is applied here, and its sender told what became of it (R394, R396). -/
theorem exec_remoteFenceSignal_of_signal (h : sig.answer = none) :
    exec (.remoteFenceSignal sig) s =
      let r := s.main.signalFence s.main.fab.module sig.sender sig.ctx sig.handle sig.value (signalRecord sig)
      toMain s (r.2.sendCtrl (.fenceAck sig.sender sig.id r.1)) :=
  exec_eq_toMain (f := Main.fenceMsg sig) rfl (by simp only [Main.fenceMsg, h]; rfl)

/-- The target's word completes the packet that waits for it (R380). -/
theorem exec_remoteFenceSignal_of_answer (h : sig.answer = some st) (hp : s.main.signalPacket sig.id = some (q, p))
    (hst : st ∈ signalAnswers) : exec (.remoteFenceSignal sig) s = toMain s (s.main.completePacket q p st 0 0) := by
  have hlive : st ≠ .trackerLost := by
    rintro rfl
    exact absurd hst (by decide)
  refine exec_eq_toMain (f := Main.fenceMsg sig) rfl ?_
  simp only [Main.fenceMsg, h, hp]
  exact (if_neg hlive).trans (if_pos (List.contains_iff_mem.2 hst))

/-- A signal whose request timer runs out is lost, no earlier than the timer's end (R380). -/
theorem exec_remoteFenceSignal_of_lost (h : sig.answer = some .trackerLost) (hp : s.main.signalPacket sig.id = some (q, p)) :
    exec (.remoteFenceSignal sig) s = toMain s ((s.main.until p.due).completePacket q p .trackerLost 0 0) := by
  refine exec_eq_toMain (f := Main.fenceMsg sig) rfl ?_
  simp only [Main.fenceMsg, h, hp, if_true]

end

/-! ### Neighbours that bank (R272, R485) -/

section
variable {s : State} {module : Nat}

/-- The groups in service to a neighbour. -/
def Main.groupsTo (m : Main) (module : Nat) : List Group :=
  m.fab.groups.filter (fun g => g.neighbour == module && !(m.activeIn g).isEmpty)

/-- A group leaves service with all its active lanes (R272). -/
def Main.groupFails (m : Main) (g : Group) : Main :=
  ((m.activeIn g).foldl (fun m i => m.modLane i (fun l => { l with st := .failed })) m).groupOut g

/-- When a neighbour banks, every group in service to it leaves service (R485). -/
theorem exec_bankingNotice (s : State) (module : Nat) :
    exec (.bankingNotice module) s =
      toMain s (Main.keepingOrder (fun m => (s.main.groupsTo module).foldl Main.groupFails m) s.main).flush :=
  exec_eq_toMain (f := Main.bankingNotice module) rfl rfl

/-- No ordered request loses its lane where nothing changes. -/
@[simp] theorem Main.keepingOrder_id (m : Main) : Main.keepingOrder (fun m => m) m = m := by
  have hlost : m.fab.entries.filter (fun e => e.ord && m.pinned e.dest e.span != m.pinned e.dest e.span) = [] := by
    refine List.filter_eq_nil_iff.2 fun e _ => ?_
    rw [bne_self_eq_false, Bool.and_false]
    exact Bool.false_ne_true
  simp only [Main.keepingOrder, hlost, List.map_nil, List.eraseDups_nil, List.foldl_nil]

/-- A notice of a module that is no neighbour takes no group out of service (R485). -/
theorem exec_bankingNotice_of_stranger (h : (s.main.fab.groups.any fun g => g.neighbour == module) = false) :
    exec (.bankingNotice module) s = toMain s s.main.flush := by
  have hgroups : s.main.groupsTo module = [] := by
    simp only [List.any_eq_false, beq_iff_eq] at h
    simpa [Main.groupsTo] using fun g hg hto => absurd hto (h g hg)
  rw [exec_bankingNotice, hgroups]
  exact congrArg (fun m : Main => toMain s m.flush) s.main.keepingOrder_id

end

/-- Settles O29, from what each message comes to in a module that runs. -/
theorem controlMessages : Obligations.ControlMessages := by
  refine fun s => ⟨?sag, ?pace, fun span slot => exec_abort_of_reserved, ?abort,
    fun sig => exec_remoteFenceSignal_of_signal, ?answer, fun module => exec_bankingNotice_of_stranger, ?banking⟩
  case sag =>
    intro sender detected recovered hrun
    have htaken := exec_sagNotice_of_running (sender := sender) detected recovered (beq_iff_eq.2 hrun)
    exact ⟨fun hstranger => htaken.trans (congrArg _ (State.sagNotice_of_stranger detected recovered hstranger)), fun _ => htaken⟩
  case pace =>
    intro sender tk limit hrun htk hpeer
    rw [exec_paceToken_of_round (beq_iff_eq.2 hrun) htk]
    exact ⟨fun hmin hmax => congrArg _ (State.paceToken_of_legal hpeer hmin hmax),
      fun hlimit => congrArg _ (State.paceToken_of_reserved hpeer hlimit)⟩
  case abort =>
    intro span slot hreserved
    obtain ⟨m1, hexec, htakes⟩ := exec_abort_of_legal (s := s) (span := span) hreserved
    refine ⟨m1, hexec, fun hnone => (htakes (.inl hnone)).trans (Main.takeAbort_of_no_record hnone), ?_⟩
    intro r hrec hn hcause a ahead
    have htaken : m1 = s.main.abortTaken span slot := htakes (.inr hcause)
    exact ⟨fun ha hmin hmax => htaken.trans (Main.takeAbort_of_ahead hrec ha hn hmin hmax),
      fun hbehind => htaken.trans (Main.takeAbort_of_not_ahead hn hbehind)⟩
  case answer =>
    intro sig st q p hanswer hp
    refine ⟨fun hst => exec_remoteFenceSignal_of_answer hanswer hp (by simpa [signalAnswers] using hst), ?_⟩
    rintro rfl
    exact exec_remoteFenceSignal_of_lost hanswer hp
  case banking =>
    intro module g hgroups
    rw [exec_bankingNotice, Main.groupsTo, hgroups]
    rfl

end Sys2Proof.Machine
end

section
/-! ECS commands on contexts, queues, fences, L2 partitions, landing counters and regions (R172-R176, R289, R292, R363-R373,
R388-R399, R412). -/

namespace Sys2Proof.Machine

/-! ### Commands that leave something to settle (R420) -/

section
variable {s : State} {mb : Mbx} {c : Cmd} {cmd : MbCmd} {op : Nat} {body : EcsIn → State → Ans} {y : Instr} {m1 : Main}
  {settle : Main → Main}

/-- A command that begins and waits, with what is settled after it. -/
theorem exec_of_hold_settling {why : HeldFor} (hy : exec y s = settling settle (State.ecsOp op body mb c s))
    (hbegin : EcsBegins s mb c cmd op) (hbody : body (ecsIn mb c cmd) s = .hold why { s with main := m1 }) :
    exec y s = toMain s (settle (m1.hold mb cmd why).saturate) := by
  rw [hy, State.ecsOp_begins hbegin, hbody]
  rfl

/-- A command that begins and waits for another on its object, with what is settled after it. -/
theorem exec_of_again_settling (hy : exec y s = settling settle (State.ecsOp op body mb c s))
    (hbegin : EcsBegins s mb c cmd op) (hbody : body (ecsIn mb c cmd) s = .again) :
    exec y s = toMain s (settle (s.main.hold mb cmd .again).saturate) := by
  rw [hy, State.ecsOp_begins hbegin, hbody]
  rfl

end

/-! ### Arguments (R2, R5, R409) -/

theorem ofBytes_append (a b : List Byte) : ofBytes (a ++ b) = ofBytes a + 256 ^ a.length * ofBytes b := by
  induction a with
  | nil => simp only [List.nil_append, ofBytes, List.length_nil, Nat.pow_zero, Nat.one_mul, Nat.zero_add]
  | cons x a ih =>
    simp only [List.cons_append, ofBytes, ih, List.length_cons, Nat.pow_succ', Nat.mul_add, Nat.mul_assoc, Nat.add_assoc]

/-- A field is its low bytes and, above them, its high bytes (R2). -/
theorem fieldAt_add (l : List Byte) (off n k : Nat) :
    fieldAt l off (n + k) = fieldAt l off n + 256 ^ n * fieldAt l (off + n) k := by
  simp only [fieldAt, List.take_add, List.drop_drop, ofBytes_append]
  rcases Nat.le_total n (l.drop off).length with hlong | hshort
  · rw [List.length_take_of_le hlong]
  · have htail : l.drop (off + n) = [] := List.drop_eq_nil_of_le (by rw [List.length_drop] at hshort; omega)
    simp [htail, ofBytes]

/-- A field of four bytes whose high half is zero is its low half (R5). -/
theorem EcsIn.arg_four_of_high {i : EcsIn} {off : Nat} (h : i.high off 4 16 = none) : i.arg off 4 = i.arg off 2 := by
  have hclear : ∀ k < 4, i.arg (off + k) 1 * 256 ^ k / 2 ^ 16 = 0 ∨ 8 * k + 8 ≤ 16 := by
    intro k hk
    simp only [EcsIn.high, Option.map_eq_none_iff, List.find?_eq_none, List.mem_range, Bool.and_eq_true, bne_iff_ne,
      decide_eq_true_eq, not_and, Nat.not_lt] at h
    exact Decidable.or_iff_not_imp_left.2 (h k hk)
  have h2 := hclear 2 (by decide)
  have h3 := hclear 3 (by decide)
  have hfour : i.arg off 4 = i.arg off 2 + 256 ^ 2 * (i.arg (off + 2) 1 + 256 ^ 1 * i.arg (off + 3) 1) := by
    simp only [EcsIn.arg, fieldAt_add i.cmd.bytes off 2 2, fieldAt_add i.cmd.bytes (off + 2) 1 1]
  omega

section
variable {s : State} {i : EcsIn} {x : Context} {named : List (Nat × Nat)}

/-- The context that a command is on is the one of its number. -/
theorem OnContext.ctxOf_num (h : OnContext s i named x) : s.main.ctxOf x.num = some x := by
  obtain ⟨hctx, -⟩ := h
  rwa [Main.ctxOf_num hctx]

/-- The caller may use the context that a command is on (R409). -/
theorem OnContext.mayUse (h : OnContext s i named x) : mayUse i.mb x = true := by
  obtain ⟨-, hmay, -⟩ := h
  exact hmay

/-- The four bytes that name a context hold its number. -/
theorem OnContext.arg_num (h : OnContext s i named x) : i.arg 0x20 4 = x.num := by
  obtain ⟨hctx, -, -, hhigh⟩ := h
  rw [EcsIn.arg_four_of_high hhigh, Main.ctxOf_num hctx]

end

/-! ### Contexts and queues (R364, R369-R373, R390, R391) -/

section
variable {s : State} {i : EcsIn} {x : Context}

/-- A context is torn down whatever its state and its sagger's (R390, R391). -/
theorem ctxDestroy_of_named (hx : OnContext s i [] x) :
    ctxDestroy i s = .hold (.teardown x.num) { s with main := s.main.beginTeardown x.num } :=
  onCtx_go hx (by simp [noBad]) (.inl rfl) (by simp)

/-- A context that is resident gives its slots up (R369). -/
theorem ctxEvict_of_accepts (hx : OnContext s i [] x) (haccepts : x.accepts) (hfence : s.main.fenced x.span = false) :
    ctxEvict i s = .main s (.good []) (if x.state = .resident then s.main.giveUp x.num else s.main) :=
  onCtx_go hx (by simp [noBad]) (.inr haccepts) (fun _ => hfence)

/-- A queue takes no more packets, and its ring no more pages. -/
def Main.closeQueue (m : Main) (q : QRef) : Main :=
  ((m.modQueue q (fun y => { y with avail := y.ridx, destroying := true })).cutPuts (fun p => p.owner == .ring q)).restWaiting q.ctx

/-- A queue closes and goes once nothing of it runs; a command on one that closes already waits for it. -/
theorem queueDestroy_of_named {y : Queue} (hx : OnContext s i [(0x24, 1)] x) (haccepts : x.accepts)
    (hfence : s.main.fenced x.span = false) (hy : s.main.queueOf ⟨x.num, i.arg 0x24 1⟩ = some y) :
    queueDestroy i s = if y.destroying then .again
      else .hold (.queue ⟨x.num, i.arg 0x24 1⟩) { s with main := s.main.closeQueue ⟨x.num, i.arg 0x24 1⟩ } := by
  have hnamed : s.main.queueNamed i x = some y := hy
  refine (onCtx_go hx (by simp [hnamed]) (.inr haccepts) (fun _ => hfence)).trans ?_
  simp only [hnamed]
  rfl

end

/-! ### Fences (R392-R399) -/

section
variable {s : State} {i : EcsIn} {x : Context}

/-- A fence's mirror is none, or 16 bytes of a writable region of the context that no glaze slot covers (R393). -/
def Main.MirrorNamed (m : Main) (i : EcsIn) (mirror : Option Loc) : Prop :=
  i.arg 0x30 1 = 2 ∧ mirror = none ∨ i.arg 0x30 1 = 0 ∧ mirror = some (.region (i.arg 0x34 4) (i.arg 0x38 8)) ∧
    ∃ r, m.regionOf (i.arg 0x34 4) = some r ∧ r.ctx = i.arg 0x20 4 ∧ r.write = true ∧ r.glaze = none ∧
      i.arg 0x38 8 + 16 ≤ r.len

/-- The fence that FENCE_CREATE makes under an index, of the index's generation (assumption log 76). -/
def Main.newFence (m : Main) (i : EcsIn) (x : Context) (idx : Nat) (mirror : Option Loc) : Fence :=
  { gen := match m.objs.fenceGens.find? (fun y => y.1 == idx) with | some y => y.2 | none => 1
    index := idx, owner := x.num, value := BitVec.ofNat 64 (i.arg 0x28 8), live := true, grants := [], regress := 0, rr := none
    mirror := mirror, mirrorOn := mirror.isSome }

/-- A fence is made under the lowest free index (assumption log 76), and its first value mirrored (R392, R393). -/
theorem fenceCreate_of_room {idx : Nat} {mirror : Option Loc} (hx : OnContext s i [(0x28, 8), (0x30, 16)] x)
    (haccepts : x.accepts) (hhigh : i.high 0x31 3 0 = none) (hmirror : s.main.MirrorNamed i mirror)
    (hroom : (s.main.objs.fences.filter (fun f => f.owner == x.num)).length < 4096)
    (hidx : lowestFree (s.main.objs.fences.map (·.index)) 262144 = some idx) :
    fenceCreate i s = .main s (.good (fields [(0x20, toBytes 4 (s.main.newFence i x idx mirror).handle)]))
      (({ s.main with objs := { s.main.objs with fences := s.main.objs.fences ++ [s.main.newFence i x idx mirror] } }
        : Main).writeMirror (s.main.newFence i x idx mirror).handle) := by
  have hown : ∀ h ∈ (if i.arg 0x30 1 = 0 then [i.arg 0x34 4] else []), ∃ r, s.main.regionOf h = some r ∧ r.ctx = x.num := by
    rcases hmirror with ⟨hkind, -⟩ | ⟨hkind, -, r, hr, hctx, -⟩
    · simp [hkind]
    · simpa [hkind] using ⟨r, hr, hctx.trans hx.arg_num⟩
  refine (if_neg (ne_true_of_eq_false (Main.foreign_of_own hx.ctxOf_num hx.mayUse hown))).trans ?_
  rw [onCtx_go hx ?checks (.inr haccepts) (by simp)]
  case checks =>
    rcases hmirror with ⟨hkind, -⟩ | ⟨hkind, -, r, hr, hctx, hwrite, hglaze, hlen⟩
    · simp [hkind, hhigh]
    · simp [hkind, hhigh, hr, hctx, hwrite, hglaze, hlen]
  simp only [if_neg (Nat.not_le.2 hroom), hidx]
  rcases hmirror with ⟨hkind, rfl⟩ | ⟨hkind, rfl, -⟩ <;> simp only [hkind, EcsIn.loc] <;> rfl

variable {f : Fence}

/-- A command on a fence that the caller may name and that the context has the right to comes to its own meaning (R409). -/
theorem onFence_go {named : List (Nat × Nat)} {query : Bool} {bad : List (Option Nat)} {may : Fence → Context → Bool}
    {go : Context → Fence → Ans} (hx : OnContext s i ((0x24, 4) :: named) x) (hname : s.main.mayFence i (i.arg 0x24 4) = true)
    (hf : s.main.fenceOf (i.arg 0x24 4) = some f) (hright : may f x = true) (hbad : ∀ o ∈ bad, o = none)
    (hq : query = true ∨ x.accepts) : onFence i s named query bad may go = go x f := by
  refine (onCtx_go hx ?_ hq (by simp)).trans (by simp only [hname, hf])
  simpa [hname, hf, hright] using hbad

/-- The owner's FENCE_DESTROY abandons a fence and frees its index (R398, R399). -/
theorem fenceDestroy_of_owner (hx : OnContext s i [(0x24, 4)] x) (haccepts : x.accepts)
    (hname : s.main.mayFence i (i.arg 0x24 4) = true) (hf : s.main.fenceOf (i.arg 0x24 4) = some f) (howner : f.owner = x.num) :
    fenceDestroy i s = .main s (.good []) ((s.main.abandonFence f.handle).freeFence f.handle) := by
  refine (onFence_go hx hname hf (by simp [howner]) (by simp) (.inr haccepts)).trans ?_
  simp only [if_pos howner]

/-- A fence without the grants of a context of a module. -/
def Fence.without (f : Fence) (module ctx : Nat) : Fence :=
  { f with grants := f.grants.filter (fun g => !(g.module == module && g.ctx == ctx)) }

/-- The FENCE_DESTROY of another context gives up its grants (R399). -/
theorem fenceDestroy_of_granted (hx : OnContext s i [(0x24, 4)] x) (haccepts : x.accepts)
    (hname : s.main.mayFence i (i.arg 0x24 4) = true) (hf : s.main.fenceOf (i.arg 0x24 4) = some f) (howner : f.owner ≠ x.num)
    (hgrant : s.main.granted f x = true) :
    fenceDestroy i s = .main s (.good [])
      ((s.main.modFence f.handle (fun f => f.without s.main.fab.module x.num)).freeFence f.handle) := by
  refine (onFence_go hx hname hf (by simp [hgrant]) (by simp) (.inr haccepts)).trans ?_
  simp only [if_neg howner]
  rfl

/-- The grant that FENCE_GRANT names: WAIT in bit 0 of its rights, SIGNAL in bit 1 (R394). -/
def EcsIn.grant (i : EcsIn) : Grant :=
  { module := i.arg 0x28 2, ctx := i.arg 0x2C 4, wait := bit (i.arg 0x30 1) 0, signal := bit (i.arg 0x30 1) 1 }

section
variable (hx : OnContext s i [(0x24, 4), (0x28, 2), (0x2C, 4), (0x30, 1)] x) (haccepts : x.accepts)
  (hname : s.main.mayFence i (i.arg 0x24 4) = true) (hf : s.main.fenceOf (i.arg 0x24 4) = some f) (howner : f.owner = x.num)
  (hmodule : i.high 0x28 2 13 = none) (hctx : i.high 0x2C 4 16 = none)
include hx haccepts hname hf howner hmodule hctx

/-- The owner's REMOVE takes a context's grants away (R394). -/
theorem fenceGrant_of_remove (hremove : i.arg 0x30 1 = 128) :
    fenceGrant i s = .main s (.good []) ((s.main.modFence f.handle (fun g => { g with
      grants := (f.without i.grant.module i.grant.ctx).grants })).freeFence f.handle) := by
  have hbit : bit 128 7 = true := rfl
  refine (onFence_go hx hname hf (beq_iff_eq.2 howner) ?checks (.inr haccepts)).trans (if_pos (by rw [hremove, hbit]))
  case checks =>
    simp [hmodule, hctx, hremove, hbit]

/-- The owner's grant takes the place of those that the context had; WAIT is for contexts of this module alone (R394). -/
theorem fenceGrant_of_rights (hrights : i.arg 0x30 1 < 4) (hsome : i.grant.wait = true ∨ i.grant.signal = true)
    (hhere : i.grant.wait = true → i.grant.module = s.main.fab.module)
    (hroom : (f.without i.grant.module i.grant.ctx).grants.length < 32) :
    fenceGrant i s = .main s (.good []) (s.main.modFence f.handle (fun g => { g with
      grants := (f.without i.grant.module i.grant.ctx).grants ++ [i.grant] })) := by
  have hbit : bit (i.arg 0x30 1) 7 = false := beq_eq_false_iff_ne.2 (by omega)
  have hlow : i.arg 0x30 1 / 4 = 0 := Nat.div_eq_of_lt hrights
  refine (onFence_go hx hname hf (beq_iff_eq.2 howner) ?checks (.inr haccepts)).trans
    ((if_neg (ne_true_of_eq_false hbit)).trans (if_neg (Nat.not_le.2 hroom)))
  case checks =>
    have hlegal : (!i.grant.wait && !i.grant.signal || i.grant.wait && i.grant.module != s.main.fab.module) = false := by
      cases hwait : i.grant.wait
      · simpa [hwait] using hsome
      · simp [hhere hwait]
    simp only [EcsIn.grant] at hlegal
    simp [hmodule, hctx, hbit, hlow, hlegal]

end

/-- A context with the right to signal does, on the host's behalf in checked mode (R396). -/
theorem fenceSignal_of_may (hx : OnContext s i [(0x24, 4), (0x28, 8)] x) (haccepts : x.accepts)
    (hname : s.main.mayFence i (i.arg 0x24 4) = true) (hf : s.main.fenceOf (i.arg 0x24 4) = some f)
    (hmay : f.maySignal s.main.fab.module s.main.fab.module x.num = true) :
    fenceSignal i s =
      let r := s.main.signalFence s.main.fab.module s.main.fab.module x.num f.handle (BitVec.ofNat 64 (i.arg 0x28 8))
        (if x.checked then some s.main.hostPos else none)
      .main s { status := r.1 } r.2 :=
  onFence_go hx hname hf hmay (by simp) (.inr haccepts)

end

/-! ### L2 partitions (R172-R176) -/

section
variable {s : State} {i : EcsIn} {x : Context}

/-- The registers of one cluster with a context's ways set, when an entry is free. -/
def L2Part.assignAt (ctx ways : Nat) (l2 l : List L2Part) (k : Nat) : List L2Part :=
  match (nth l2 k L2Part.reset).assign ctx ways with | some p => l.set k p | none => l

/-- A context's ways are set in every cluster named, each the span's and with an entry for it (R174-R176). -/
theorem ctxL2part_of_entries (hx : OnContext s i [(0x24, 4), (0x28, 2)] x) (haccepts : x.accepts)
    (hfence : s.main.fenced x.span = false) (hways : i.high 0x28 2 12 = none)
    (hentries : ∀ k ∈ bitsSet 32 (i.arg 0x24 4), k ∈ s.main.spanClusters x.span ∧
      ((nth s.main.l2 k L2Part.reset).assign x.num (i.arg 0x28 2)).isSome = true) :
    ctxL2part i s = .main s (.good []) { s.main with
      l2 := (bitsSet 32 (i.arg 0x24 4)).foldl (L2Part.assignAt x.num (i.arg 0x28 2) s.main.l2) s.main.l2 } := by
  refine (onCtx_go hx ?checks (.inr haccepts) (fun _ => hfence)).trans (if_neg ?room)
  case checks =>
    simpa [hways] using fun k hk => (hentries k hk).1
  case room =>
    simpa using fun k hk => Option.isSome_iff_ne_none.1 (hentries k hk).2

end

/-! ### Landing counters (R289, R292) -/

section
variable {s : State} {i : EcsIn} {x : Context}

/-- The n lowest indices that no counter has. -/
def Main.freeCounters (m : Main) (n : Nat) : List Nat :=
  ((List.range (min 16384 ((m.objs.counters.map (·.idx)).length + n))).filter
    (fun k => !(m.objs.counters.map (·.idx)).contains k)).take n

/-- Counters are allocated under the lowest free indices, at 0 (R289). -/
theorem lcAlloc_of_room (hx : OnContext s i [(0x24, 2)] x) (haccepts : x.accepts) (hfence : s.main.fenced x.span = false)
    (hpos : 0 < i.arg 0x24 2) (hmax : i.arg 0x24 2 ≤ 1024)
    (hroom : i.arg 0x24 2 ≤ (s.main.freeCounters (i.arg 0x24 2)).length) (hfabric : s.main.fabricOut = false) :
    ∃ r, r.status = .ok ∧ lcAlloc i s = .main s r { s.main with objs := { s.main.objs with
      counters := s.main.objs.counters ++
        (s.main.freeCounters (i.arg 0x24 2)).map (fun k => { idx := k, ctx := x.num, value := 0, last := none }) } } := by
  refine ⟨_, ?status, (onCtx_go hx ?checks (.inr haccepts) (fun _ => hfence)).trans
    ((if_neg (ne_true_of_eq_false hfabric)).trans (if_neg (Nat.not_lt.2 hroom)))⟩
  case checks => simp [Nat.ne_of_gt hpos, hmax]
  case status => rfl

/-- A counter is a context's own just when it exists and is the context's. -/
theorem Main.ownsCounter_iff {m : Main} {k : Nat} :
    m.ownsCounter x k = true ↔ ∃ y, m.counterOf k = some y ∧ y.ctx = x.num := by
  cases h : m.counterOf k <;> simp [Main.ownsCounter, h]

/-- A command whose counters are its context's own names nothing of another VF's context (R409). -/
theorem Main.foreign_of_own_counters {m : Main} {counters : List Nat} (hx : m.ctxOf x.num = some x)
    (hmay : mayUse i.mb x = true) (hown : ∀ k ∈ counters, m.ownsCounter x k = true) :
    m.foreign i [] counters = false := by
  cases hv : i.vf with
  | none => simp [Main.foreign, hv]
  | some fn =>
    simp only [Main.foreign, hv, List.any_nil, Bool.false_or, List.any_eq_false]
    intro k hk
    obtain ⟨y, hy, hctx⟩ := Main.ownsCounter_iff.1 (hown k hk)
    simp [hy, hctx, hx, EcsIn.fn_of_vf hv hmay]

/-- A counter of the context takes its value, and the packets that waited for it go on (R289). -/
theorem lcSet_of_own (hx : OnContext s i [(0x24, 2), (0x28, 8)] x) (haccepts : x.accepts)
    (hfence : s.main.fenced x.span = false) (hown : s.main.ownsCounter x (i.arg 0x24 2) = true) :
    lcSet i s =
      let k := i.arg 0x24 2
      let m1 := s.main.modCounter k (fun y => { y with value := BitVec.ofNat 64 (i.arg 0x28 8) })
      .main s (.good []) ((m1.counterWaiters k).foldl (fun m w => m.wakeCounterPacket k w) m1) := by
  have hforeign := Main.foreign_of_own_counters hx.ctxOf_num hx.mayUse (List.forall_mem_singleton.2 hown)
  exact (if_neg (ne_true_of_eq_false hforeign)).trans
    (onCtx_go hx (by simp [hown]) (.inr haccepts) (fun _ => hfence))

/-- The counters that LC_FREE names: up to 96 in its arguments, more in its input. -/
def EcsIn.countersNamed (i : EcsIn) : List Nat :=
  if i.arg 0x24 2 ≤ 96 then (List.range (i.arg 0x24 2)).map (fun k => i.arg (0x28 + 2 * k) 2)
  else (List.range (i.arg 0x24 2)).map (fun k => fieldAt i.data (2 * k) 2)

/-- Counters of the context are freed (R292). -/
theorem lcFree_of_own (hx : OnContext s i [(0x24, 2), (0x28, if i.arg 0x24 2 ≤ 96 then 2 * i.arg 0x24 2 else 0)] x)
    (haccepts : x.accepts) (hfence : s.main.fenced x.span = false) (hpos : 0 < i.arg 0x24 2)
    (hdata : 96 < i.arg 0x24 2 → 2 * i.arg 0x24 2 ≤ i.data.length)
    (hown : ∀ k ∈ i.countersNamed, s.main.ownsCounter x k = true) :
    lcFree i s = .main s (.good []) (i.countersNamed.foldl Main.freeCounter s.main) := by
  have hforeign := Main.foreign_of_own_counters hx.ctxOf_num hx.mayUse hown
  have hall : i.countersNamed.findIdx? (fun k => !s.main.ownsCounter x k) = none := by simpa using hown
  refine (if_neg (ne_true_of_eq_false hforeign)).trans
    ((onCtx_go hx ?checks (.inr haccepts) (fun _ => hfence)).trans ((if_neg ?data).trans ?_))
  case checks =>
    unfold EcsIn.countersNamed at hall
    simp only [hall]
    simp [Nat.ne_of_gt hpos]
  case data => exact fun ⟨hmany, hshort⟩ => Nat.not_lt.2 (hdata hmany) hshort
  unfold EcsIn.countersNamed at hall ⊢
  simp only [hall]

end

/-! ### Regions (R388, R412, R496) -/

section
variable {s : State} {i : EcsIn} {x : Context}

/-- A region's glaze slot is none, or one that serves the context and whose pages the region fills (R496). -/
def Main.GlazeNamed (m : Main) (i : EcsIn) (x : Context) (glaze : Option Nat) : Prop :=
  i.arg 0x3C 2 = 0xFFFF ∧ glaze = none ∨ i.arg 0x3C 2 < 256 ∧ m.slotServes x (i.arg 0x3C 2) = true ∧
    i.arg 0x30 8 % 4096 = 0 ∧ glaze = some (i.arg 0x3C 2)

/-- The region that REGION_REGISTER makes (R412). -/
def Main.newRegion (m : Main) (i : EcsIn) (x : Context) (glaze : Option Nat) : Region :=
  { handle := m.newHandle, ctx := x.num, iova := i.arg 0x28 8, len := i.arg 0x30 8
    read := bit (i.arg 0x38 1) 0, write := bit (i.arg 0x38 1) 1, glaze := glaze }

/-- A region is registered under the next handle that is free (R412, assumption log 76). -/
theorem regionRegister_of_room {glaze : Option Nat} (hx : OnContext s i [(0x28, 8), (0x30, 8), (0x38, 1), (0x3C, 2)] x)
    (haccepts : x.accepts) (haligned : i.arg 0x28 8 % 4096 = 0) (hpos : 0 < i.arg 0x30 8)
    (htop : i.arg 0x28 8 + i.arg 0x30 8 ≤ 2 ^ 64) (hrights : i.high 0x38 1 2 = none) (hglaze : s.main.GlazeNamed i x glaze)
    (hmine : (s.main.objs.regions.filter (fun r => r.ctx == x.num)).length < 256) (hroom : s.main.objs.regions.length < 65536) :
    regionRegister i s = .main s (.good (fields [(0x20, toBytes 4 s.main.newHandle)]))
      { s.main with objs := { s.main.objs with
        regions := s.main.objs.regions ++ [s.main.newRegion i x glaze], nextRegion := s.main.newHandle + 1 } } := by
  have hfull : ¬ (256 ≤ (s.main.objs.regions.filter (fun r => r.ctx == x.num)).length ∨ 65536 ≤ s.main.objs.regions.length) :=
    not_or.2 ⟨Nat.not_le.2 hmine, Nat.not_le.2 hroom⟩
  refine (onCtx_go hx ?checks (.inr haccepts) (by simp)).trans ((if_neg hfull).trans ?_)
  case checks =>
    rcases hglaze with ⟨hslot, -⟩ | ⟨hslot, hserves, hpages, -⟩
    · simpa [haligned, Nat.ne_of_gt hpos, hrights, hslot] using htop
    · simpa [haligned, Nat.ne_of_gt hpos, hrights, hslot, hserves, hpages] using htop
  rcases hglaze with ⟨hslot, rfl⟩ | ⟨hslot, -, -, rfl⟩
  · simp only [hslot]
    rfl
  · have hglazed : (i.arg 0x3C 2 != 0xFFFF) = true := bne_iff_ne.2 (by omega)
    simp only [hglazed]
    rfl

/-- A region of the context that neither a packet nor a mirror names is released (R412). -/
theorem regionRelease_of_unused {r : Region} (hx : OnContext s i [(0x24, 4)] x) (haccepts : x.accepts)
    (hr : s.main.regionOf (i.arg 0x24 4) = some r) (hctx : r.ctx = x.num)
    (hunused : s.main.regionUsed x.num (i.arg 0x24 4) = false) :
    regionRelease i s = .main s (.good []) { s.main with objs := { s.main.objs with
      regions := s.main.objs.regions.filter (fun r => r.handle != i.arg 0x24 4) } } := by
  have hforeign := Main.foreign_of_own hx.ctxOf_num hx.mayUse (List.forall_mem_singleton.2 ⟨r, hr, hctx⟩)
  refine (if_neg (ne_true_of_eq_false hforeign)).trans
    ((onCtx_go hx ?checks (.inr haccepts) (by simp)).trans (if_neg (ne_true_of_eq_false hunused)))
  simp [hr, hctx]

end

/-- Settles O51, from what each command comes to when its checks pass. -/
theorem ecsContextCommands : Obligations.EcsContextCommands := by
  intro s mb c cmd x i m main held on
  refine ⟨?ctxDestroy, ?ctxEvict, ?queue, ?fenceCreate, fun f hname hf => ⟨?destroyOwn, ?destroyGranted, ?remove, ?grant, ?signal⟩,
    ?l2, ?alloc, ?set, ?freeFew, ?freeMany, ?register, ?release⟩
  case ctxDestroy =>
    intro hbegin hx
    exact exec_of_hold_settling (settle := fun m => m.dmaPump.after) rfl hbegin (ctxDestroy_of_named hx)
  case ctxEvict =>
    rintro ⟨hbegin, hx, haccepts⟩ hfence
    exact exec_of_main rfl hbegin (ctxEvict_of_accepts hx haccepts hfence)
  case queue =>
    rintro y ⟨hbegin, hx, haccepts⟩ hfence hy q
    have hcomes := queueDestroy_of_named hx haccepts hfence hy
    exact ⟨fun hagain => exec_of_again_settling rfl hbegin (hcomes.trans (if_pos hagain)),
      fun hfirst => exec_of_hold_settling rfl hbegin (hcomes.trans (if_neg (ne_true_of_eq_false hfirst)))⟩
  case fenceCreate =>
    rintro idx mirror ⟨hbegin, hx, haccepts⟩ hhigh hmirror hroom hidx g f
    exact exec_of_main rfl hbegin (fenceCreate_of_room hx haccepts hhigh hmirror hroom hidx)
  case destroyOwn =>
    rintro ⟨hbegin, hx, haccepts⟩ howner
    exact exec_of_main rfl hbegin (fenceDestroy_of_owner hx haccepts hname hf howner)
  case destroyGranted =>
    rintro ⟨hbegin, hx, haccepts⟩ howner hgrant drop
    exact exec_of_main rfl hbegin (fenceDestroy_of_granted hx haccepts hname hf howner hgrant)
  case remove =>
    rintro ⟨hbegin, hx, haccepts⟩ howner hmodule hctx hremove rest
    exact exec_of_main rfl hbegin (fenceGrant_of_remove hx haccepts hname hf howner hmodule hctx hremove)
  case grant =>
    rintro ⟨module, ctx, wait, signal⟩ ⟨hbegin, hx, haccepts⟩ howner hmodule hctx rfl rfl rfl rfl hrights hsome hhere rest hroom
    exact exec_of_main rfl hbegin (fenceGrant_of_rights hx haccepts hname hf howner hmodule hctx hrights hsome hhere hroom)
  case signal =>
    rintro ⟨hbegin, hx, haccepts⟩ hmay r
    exact exec_of_main rfl hbegin (fenceSignal_of_may hx haccepts hname hf hmay)
  case l2 =>
    rintro ⟨hbegin, hx, haccepts⟩ hfence hways hentries set
    exact exec_of_main rfl hbegin (ctxL2part_of_entries hx haccepts hfence hways hentries)
  case alloc =>
    rintro n used free ⟨hbegin, hx, haccepts⟩ hfence hpos hmax hroom hfabric
    obtain ⟨r, hok, hcomes⟩ := lcAlloc_of_room hx haccepts hfence hpos hmax hroom hfabric
    exact ⟨r, hok, exec_of_main rfl hbegin hcomes⟩
  case set =>
    rintro ⟨hbegin, hx, haccepts⟩ hfence hown k m1
    exact exec_of_main rfl hbegin (lcSet_of_own hx haccepts hfence hown)
  case freeFew =>
    rintro n rfl hpos hfew ⟨hbegin, hx, haccepts⟩ hfence idxs hown
    have hnamed : i.countersNamed = idxs := if_pos hfew
    rw [← hnamed] at hown ⊢
    exact exec_of_main rfl hbegin (lcFree_of_own (by rwa [if_pos hfew]) haccepts hfence hpos
      (fun hmany => absurd hmany (Nat.not_lt.2 hfew)) hown)
  case freeMany =>
    rintro n rfl hmany hdata ⟨hbegin, hx, haccepts⟩ hfence idxs hown
    have hnamed : i.countersNamed = idxs := if_neg (Nat.not_le.2 hmany)
    rw [← hnamed] at hown ⊢
    exact exec_of_main rfl hbegin (lcFree_of_own (by rwa [if_neg (Nat.not_le.2 hmany)]) haccepts hfence
      (Nat.zero_lt_of_lt hmany) (fun _ => hdata) hown)
  case register =>
    rintro glaze ⟨hbegin, hx, haccepts⟩ haligned hpos htop hrights hglaze hmine hroom r
    exact exec_of_main rfl hbegin (regionRegister_of_room hx haccepts haligned hpos htop hrights hglaze hmine hroom)
  case release =>
    rintro r ⟨hbegin, hx, haccepts⟩ hr hctx hunused
    exact exec_of_main rfl hbegin (regionRelease_of_unused hx haccepts hr hctx hunused)

end Sys2Proof.Machine
end

section
/-! A whole line written by an uncached agent (R190, R191, R209, R212). -/

namespace Sys2Proof.Machine

/-! ### What a home discards and writes -/

/-- A directory that has dropped a line's entry lists none for it. -/
@[simp] theorem Coh.entryOf_dropEntry (c : Coh) (line : Nat) : (c.dropEntry line).entryOf line = none := by
  simp [Coh.entryOf, Coh.dropEntry]

/-- Invalidations change nothing of memory. -/
@[simp] theorem Main.invalidateSharers_mem (m : Main) (line : Nat) (except : Option Nat) :
    (m.invalidateSharers line except).mem = m.mem := by
  unfold Main.invalidateSharers
  cases m.coh.entryOf line with
  | none => rfl
  | some e => rfl

/-- Copies that are discarded leave memory as it is. -/
@[simp] theorem Main.discardLine_mem (m : Main) (line : Nat) : (m.discardLine line).mem = m.mem := by
  unfold Main.discardLine
  cases m.coh.entryOf line with
  | none => rfl
  | some e =>
    dsimp only
    cases e.st with
    | shared => exact m.invalidateSharers_mem line none
    | home => rfl
    | ownedClean => rfl
    | ownedDirty => rfl

/-- A line whose copies are discarded has no entry. -/
theorem Main.discardLine_entryOf (m : Main) (line : Nat) : (m.discardLine line).coh.entryOf line = none := by
  unfold Main.discardLine
  cases h : m.coh.entryOf line with
  | none => exact h
  | some e => exact Coh.entryOf_dropEntry _ line

@[simp] theorem Main.memWrite_mem (m : Main) (line : Nat) (data : List Byte) (poison : Bool) :
    (m.memWrite line data poison).mem = m.mem.setLine line data poison := rfl

@[simp] theorem Main.memWrite_coh (m : Main) (line : Nat) (data : List Byte) (poison : Bool) :
    (m.memWrite line data poison).coh = m.coh := rfl

/-! ### Marks (R190, R191) -/

/-- A line written without a mark carries none. -/
theorem Memory.bad_setLine_clean (m : Memory) (l : Nat) (d : List Byte) : (m.setLine l d false).bad l = false := by
  simp [Memory.bad, Memory.setLine]

/-- A line written without a mark leaves the marks of the others. -/
theorem Memory.bad_setLine_clean_other (m : Memory) {l k : Nat} (d : List Byte) (hk : k ≠ l) :
    (m.setLine l d false).bad k = m.bad k := by
  rw [Bool.eq_iff_iff]
  simp [Memory.bad, Memory.setLine, hk]

/-! ### The request at its home (R208, R209) -/

/-- A line that is not held back and that no request waits for is served at once (R208). -/
theorem Main.mustWait_of_free {m : Main} {line : Nat} (hline : m.lineBlocked line = false)
    (hwait : ∀ x ∈ m.coh.waiting, x.line ≠ line) : m.mustWait line = false := by
  have hfirst : m.coh.waiting.find? (fun r => r.line == line) = none := by simpa using hwait
  simp only [Main.mustWait, Main.lineHeldFor, hline, hfirst, Bool.or_self]

/-- A write of a whole line whose home can serve it has the bytes of a line, and its home discards every copy and writes them. -/
theorem exec_iwf_next {s t : State} {line : Nat} {bytes : List Byte} (hgo : s.main.mustWait line = false)
    (h : exec (.iwf line bytes) s = .next t) :
    bytes.length = 128 ∧
      t.main = ((s.main.bump 1 4 (homeOf line) 1).discardLine line).memWrite line bytes false := by
  obtain ⟨m, hm, rfl⟩ := onMain_next (f := Main.writeUncached line 0 bytes true) h
  unfold Main.writeUncached at hm
  split at hm
  case isTrue => cases hm
  case isFalse hwhole =>
    have hlen : bytes.length = 128 := by
      simp only [bne_self_eq_false, Bool.false_or, Bool.true_and, Bool.or_eq_true, not_or, bne_iff_ne, ne_eq,
        Decidable.not_not] at hwhole
      obtain ⟨⟨hlen, -⟩, -⟩ := hwhole
      exact hlen
    unfold Main.atHome at hm
    split at hm
    case isTrue => cases hm
    case isFalse =>
      rw [if_neg (by simp [HomeReq.line, hgo])] at hm
      cases hm
      exact ⟨hlen, if_pos ⟨rfl, hlen⟩⟩

/-- Settles O31, from what the home does with the line: it discards what the agents hold and writes the bytes. -/
theorem wholeLineWrite : Obligations.WholeLineWrite := by
  intro s t line bytes hwf hline hwait hexec
  obtain ⟨hlen, ht⟩ := exec_iwf_next (Main.mustWait_of_free hline hwait) hexec
  have hmem : t.main.mem = s.main.mem.setLine line bytes false := by simp [ht]
  have hcoh : t.main.coh.entryOf line = none := by
    rw [ht, Main.memWrite_coh]
    exact Main.discardLine_entryOf _ line
  rw [hmem]
  refine ⟨Memory.line_setLine hwf line hlen false, Memory.bad_setLine_clean _ line bytes, hcoh,
    Memory.setLine_wf hwf line bytes false, fun a ha => ?_, fun l hl => Memory.bad_setLine_clean_other _ bytes hl⟩
  rw [Memory.setLine_get hwf line hlen, if_neg ha]

end Sys2Proof.Machine
end

section
/-! What events, error records and the recalls of the homes leave alone of the block. -/

namespace Sys2Proof.Machine

/-- The block without what events, error records and the recalls of the homes may change: the bytes and marks of memory, the copies with
their directory, the list of error records, what has gone to the host and to the BMC, counters and free values. -/
def Main.bystanders (m : Main) : Main :=
  { m with
    free := 0, host := HostSt.reset, tele := [], bmcOut := []
    rcv := { m.rcv with errs := [], nextErr := 0, overflow := 0, overdue := false, raised := [] }
    mem := { m.mem with cells := [], poison := [] }
    coh := { m.coh with copies := [], dir := [], bufs := [], invq := [] } }

/-- Blocks with the same bystanders have the same composition. -/
theorem Main.comp_of_bystanders {m m1 : Main} (h : m1.bystanders = m.bystanders) : m1.comp = m.comp :=
  calc m1.comp = m1.bystanders.comp := rfl
    _ = m.bystanders.comp := by rw [h]

/-- What every round of a loop leaves alone, the loop leaves alone. -/
theorem Main.foldl_bystanders {α : Type} {g : Main → α → Main} (hg : ∀ m a, (g m a).bystanders = m.bystanders) (l : List α)
    (m : Main) : (l.foldl g m).bystanders = m.bystanders :=
  List.foldlRecOn (motive := fun x : Main => x.bystanders = m.bystanders) l g rfl fun x hx a _ => (hg x a).trans hx

section
variable (m : Main)

/-! ### Events (R429-R435) -/

@[simp] theorem Main.modEq_bystanders (fn : Fn) (i : Nat) (f : EvQ → EvQ) : (m.modEq fn i f).bystanders = m.bystanders := rfl

@[simp] theorem Main.writeLate_bystanders (fn : Fn) (a : Nat) (d : List Byte) : (m.writeLate fn a d).bystanders = m.bystanders := rfl

@[simp] theorem Main.sendMsix_bystanders (fn : Fn) (v : Nat) : (m.sendMsix fn v).bystanders = m.bystanders := by
  unfold Main.sendMsix
  cases m.fnOf fn with
  | none => rfl
  | some r => dsimp only; split <;> rfl

@[simp] theorem Main.eqNotify_bystanders (fn : Fn) (i : Nat) : (m.eqNotify fn i).bystanders = m.bystanders := by
  unfold Main.eqNotify
  cases m.eqOf fn i with
  | none => rfl
  | some q =>
    dsimp only
    split
    · split
      · exact Main.sendMsix_bystanders _ _ _
      · rfl
    · rfl

@[simp] theorem Main.eqWrite_bystanders (fn : Fn) (i : Nat) (q : EvQ) (e : Event) :
    (m.eqWrite fn i q e).bystanders = m.bystanders := by
  rw [Main.eqWrite, Main.eqNotify_bystanders, Main.modEq_bystanders, Main.writeLate_bystanders]

/-- Looking a page up may count as a use of its translation, and no more. -/
theorem Main.pageOf_bystanders {m m1 : Main} {fn : Fn} {pasid a : Nat} {write : Bool}
    (h : m.pageOf fn pasid a write = some m1) : m1.bystanders = m.bystanders := by
  unfold Main.pageOf at h
  cases hr : m.fnOf fn with
  | none => simp [hr] at h
  | some r =>
    simp only [hr] at h
    split at h
    · cases h; rfl
    · obtain ⟨e, -, rfl⟩ := Option.map_eq_some_iff.1 h
      rfl

/-- A record is written, kept until it can be, or lost. -/
@[simp] theorem Main.eqPut_bystanders (fn : Fn) (i : Nat) (q : EvQ) (e : Event) :
    (m.eqPut fn i q e).bystanders = m.bystanders := by
  unfold Main.eqPut
  dsimp only
  split
  · rfl
  · split
    case h_1 m1 hpage =>
      split at hpage
      · exact (Main.eqWrite_bystanders _ _ _ _ _).trans (Main.pageOf_bystanders hpage)
      · cases hpage
    case h_2 => rfl

@[simp] theorem Main.eqPost_bystanders (fn : Fn) (i : Nat) (e : Event) : (m.eqPost fn i e).bystanders = m.bystanders := by
  unfold Main.eqPost
  cases m.eqOf fn i with
  | none => rfl
  | some q =>
    dsimp only
    split
    · split
      · rfl
      · split
        · rfl
        · exact m.eqPut_bystanders fn i q e
    · rfl

@[simp] theorem Main.postFn_bystanders (fn : Fn) (e : Event) : (m.postFn fn e).bystanders = m.bystanders := by
  unfold Main.postFn
  cases m.fnOf fn with
  | none => rfl
  | some r =>
    refine Main.foldl_bystanders (fun x i => ?_) _ m
    split
    · exact x.eqPost_bystanders fn i e
    · rfl

/-- An event goes to the host's queues and to the BMC. -/
@[simp] theorem Main.post_bystanders (type cls subject : Nat) (st : Status) (detail : Nat) :
    (m.post type cls subject st detail).bystanders = m.bystanders := by
  have hboth (e : Event) : ((m.postFn ⟨0, 0⟩ e).postFn ⟨1, 0⟩ e).bystanders = m.bystanders :=
    (Main.postFn_bystanders _ _ e).trans (m.postFn_bystanders _ e)
  unfold Main.post
  dsimp only
  split
  · exact hboth _
  · exact hboth _

/-! ### Error records (R477-R479) -/

@[simp] theorem Main.openErr_bystanders (e : ErrNew) (st : ErrSt) : (m.openErr e st).2.bystanders = m.bystanders :=
  Main.post_bystanders _ _ _ _ _ _

@[simp] theorem Main.closeErr_bystanders (id : Nat) (st : ErrSt) (x : Status) :
    (m.closeErr id st x).bystanders = m.bystanders := by
  unfold Main.closeErr Main.endErr
  cases m.rcv.errs.find? (fun r => r.id == id) with
  | none => rfl
  | some r => exact Main.post_bystanders _ _ _ _ _ _

@[simp] theorem Main.noteAside_bystanders (e : ErrNew) : (m.noteAside e).bystanders = m.bystanders := by
  unfold Main.noteAside
  split
  · rfl
  · split
    · rfl
    · exact (Main.closeErr_bystanders _ _ _ _).trans (m.openErr_bystanders e .handling)

/-! ### Recalls (R207, R210, R213, R215) -/

@[simp] theorem Main.writeBackCopy_bystanders (agent line : Nat) : (m.writeBackCopy agent line).bystanders = m.bystanders := by
  unfold Main.writeBackCopy
  cases m.coh.copyOf agent line with
  | none => rfl
  | some c => dsimp only; split <;> rfl

/-- An owner that gives its line up, or has died with it. -/
@[simp] theorem Main.takeFromOwner_bystanders (e : DirEntry) : (m.takeFromOwner e).bystanders = m.bystanders := by
  unfold Main.takeFromOwner
  split
  · split
    · exact (Main.noteAside_bystanders _ _).trans (Main.post_bystanders _ _ _ _ _ _)
    · rfl
  · exact m.writeBackCopy_bystanders e.owner e.line

@[simp] theorem Main.takeCopies_bystanders (line : Nat) : (m.takeCopies line).bystanders = m.bystanders := by
  unfold Main.takeCopies
  cases m.coh.entryOf line with
  | none => rfl
  | some e =>
    dsimp only
    cases e.st with
    | shared => unfold Main.invalidateSharers; cases m.coh.entryOf line <;> rfl
    | home => unfold Main.releaseBuf; cases m.coh.bufOf line <;> rfl
    | ownedClean => exact m.takeFromOwner_bystanders e
    | ownedDirty => exact m.takeFromOwner_bystanders e

@[simp] theorem Main.recallLine_bystanders (line : Nat) : (m.recallLine line).bystanders = m.bystanders :=
  m.takeCopies_bystanders line

/-- Past the write-back an eviction touches only the copies and the directory. -/
@[simp] theorem Main.evict_bystanders (agent line : Nat) : (m.evict agent line).bystanders = m.bystanders := by
  have hback := m.writeBackCopy_bystanders agent line
  unfold Main.evict
  cases m.coh.copyOf agent line with
  | none => rfl
  | some c =>
    dsimp only
    split
    · exact hback
    · split
      · split
        · split <;> exact hback
        · exact hback
      · split <;> exact hback

/-- A walk of the agents' tags evicts copies and recalls lines (R213). -/
@[simp] theorem Main.walkLines_bystanders (hit : Nat → Bool) : (m.walkLines hit).bystanders = m.bystanders :=
  (Main.foldl_bystanders (fun x line => x.recallLine_bystanders line) _ _).trans
    (Main.foldl_bystanders (fun x (c : Copy) => x.evict_bystanders c.agent c.line) _ m)

end

end Sys2Proof.Machine
end

section
/-! Memory channels: patrol scrub, zeroing, retirement and failure (R193-R202). -/

namespace Sys2Proof.Machine

/-! ### Patrol scrub and the copy of a channel (R193, R199) -/

/-- What was found lies on allocated lines of the channel. -/
theorem Main.readable_of_allocated {m : Main} {c : Nat} {found : List (Nat × Ecc)}
    (h : ∀ y ∈ found, y.1 * 128 / 2 ^ 32 = c ∧ m.allocated y.1 = true) : m.readable c found = true :=
  List.all_eq_true.2 fun y hy => by
    obtain ⟨hchan, halloc⟩ := h y hy
    rw [beq_iff_eq.2 hchan, halloc, Bool.and_self]

section
variable {s : State} {c : Nat} {found : List (Nat × Ecc)}

theorem exec_patrolScrub_of_allocated (hc : c < 192) (hlive : (s.main.chan c).state ≠ .retired)
    (hfound : ∀ y ∈ found, y.1 * 128 / 2 ^ 32 = c ∧ s.main.allocated y.1 = true) :
    exec (.patrolScrub c found) s = toMain s (s.main.foundOn found) :=
  exec_eq_toMain (f := Main.patrol c found) rfl (if_neg (by simp [hc, hlive, Main.readable_of_allocated hfound]))

/-- The copy to the replacement ends: new requests to the channel are held. -/
theorem exec_evacuationCopyDone_of_evacuating {p : Nat} (hrepl : (s.main.chan c).repl = some p)
    (hstate : (s.main.chan c).state = .evacuating) (hcopy : (s.main.chan c).copied = false)
    (hfound : ∀ y ∈ found, y.1 * 128 / 2 ^ 32 = c ∧ s.main.allocated y.1 = true) :
    exec (.evacuationCopyDone c found) s =
      toMain s ((s.main.foundOn found).modChan c (fun x => { x with copied := true })) :=
  exec_eq_toMain (f := Main.copyDone c found) rfl
    (if_pos ⟨hstate, by simp [hrepl], hcopy, Main.readable_of_allocated hfound⟩)

/-- The channel map swaps once the copy has ended (R199). -/
theorem exec_channelMapSwap_of_copied {p : Nat} (hrepl : (s.main.chan c).repl = some p)
    (hcopied : (s.main.chan c).copied = true) :
    exec (.channelMapSwap c) s = toMain s (((s.main.zeroUnallocated c).swapMap c p .bound).linesGo.settleRetire) :=
  exec_eq_toMain (f := Main.mapSwap c) rfl (by simp only [Main.mapSwap, hrepl, hcopied, if_true])

/-! ### Retirement and failure (R197-R202) -/

theorem exec_retirementRequired_of_mustRetire (hable : s.main.retirable c = true) (hmust : s.main.mustRetire c = true) :
    exec (.retirementRequired c) s = toMain s (s.main.askRetire c) :=
  exec_eq_toMain (f := Main.retirementRequired c) rfl (if_neg (by simp [hable, hmust]))

/-- The replacement of a channel that is being copied fails: the copy starts anew (R202). -/
theorem exec_channelFailure_of_replacement {y : Nat} (hc : c < 192) (hlive : (s.main.chan c).state ≠ .retired)
    (hy : (List.range 192).find? (fun y => (s.main.chan y).repl == some c) = some y) :
    exec (.channelFailure c) s = toMain s (s.main.replacementFails y c) :=
  exec_eq_toMain (f := Main.channelFails c) rfl
    ((if_neg (not_or.2 ⟨Nat.not_le.2 hc, hlive⟩)).trans (by simp only [hy]))

/-- A channel that fails: its allocated lines are poisoned, and the loss is noted (R200, R479). -/
def Main.channelLost (m : Main) (c : Nat) : Main :=
  ((m.poisonChannel c).modChan c (fun x => { x with failed := true })).noteErr
    { sev := .corrected, cause := 0x03, poison := true, status := .poisoned, source := ⟨5, c⟩, detail := c }

/-- A channel that replaces none is lost, and its retirement is asked for unless it is in progress (R200). -/
theorem exec_channelFailure_of_no_replacement (hc : c < 192) (hlive : (s.main.chan c).state ≠ .retired)
    (hnone : ∀ y < 192, (s.main.chan y).repl ≠ some c) :
    exec (.channelFailure c) s = toMain s (if (s.main.chan c).repl.isSome then s.main.channelLost c
      else (s.main.channelLost c).askRetire c) := by
  have hfind : (List.range 192).find? (fun y => (s.main.chan y).repl == some c) = none := by simpa using hnone
  exact exec_eq_toMain (f := Main.channelFails c) rfl
    ((if_neg (not_or.2 ⟨Nat.not_le.2 hc, hlive⟩)).trans (by simp only [hfind]; rfl))

/-! ### Zeroing of a channel (R194, R195) -/

/-- A released channel zeroed and IDLE, what the agents had of it recalled first. -/
def Main.channelZeroed (m : Main) (c : Nat) : Main :=
  let m0 := m.recallChannel c
  let mem := m0.mem.zeroRange (c, 0, 0xC0000000)
  let m1 : Main := { m0 with mem := { mem with zeroing := mem.zeroing.erase (c, .release) } }
  ((m1.modChan c (fun x => { x with state := .idle })).setOwner (.memory, c) .idle).bump 2 4 c 0xC0000000

theorem exec_zeroingComplete_channel (hjob : (c, ZeroFor.release) ∈ s.main.mem.zeroing) (hreclaim : s.main.coh.reclaim = [])
    (hheld : ∀ e ∈ s.main.mem.extents, e.held = true → e.mask.getLsbD c = false) :
    exec (.zeroingComplete (.channel c)) s = toMain s (s.main.channelZeroed c).settleRetire := by
  have hfree : s.main.mem.extents.any (fun e => e.held && e.mask.getLsbD c) = false := by simpa using hheld
  refine exec_eq_toMain (f := Main.zeroed (.channel c)) rfl ((if_neg ?_).trans ((if_neg ?_).trans ((if_neg ?_).trans rfl)))
  · simpa using hjob
  · simp [hreclaim]
  · simp [hfree]

end

/-! ### Zeroing of an extent (R186, R188, R195, R328) -/

/-- An extent that is passed is one of a span whose transition is open (R328). -/
theorem Main.exists_rec_of_passing {m : Main} {e : Extent} (h : m.passing e = true) :
    ∃ r ∈ m.comp.recs, e.span = r.id ∧ r.phase ≠ .stable := by
  obtain ⟨r, hr, hpass⟩ := List.any_eq_true.1 h
  simp only [Bool.and_eq_true, beq_iff_eq] at hpass
  obtain ⟨⟨hid, hphase⟩, -⟩ := hpass
  exact ⟨r, hr, hid.symm, by rw [hphase]; decide⟩

/-- An extent that is held is MOVING when it is passed, and ACTIVE otherwise (R328). -/
theorem Main.mem_markMoving {m : Main} {y : Extent} (h : y ∈ m.markMoving.mem.extents) :
    ∃ x ∈ m.mem.extents, y.idx = x.idx ∧ (x.state ≠ .zeroing →
      y.state = .active ∨ y.state = .moving ∧ ∃ r ∈ m.comp.recs, y.span = r.id ∧ r.phase ≠ .stable) := by
  obtain ⟨x, hx, rfl⟩ := List.mem_map.1 h
  refine ⟨x, hx, ?_⟩
  by_cases hz : x.state = .zeroing
  · simp [hz]
  · cases hpass : m.passing x with
    | false => simp [hz]
    | true => simpa [hz] using Main.exists_rec_of_passing hpass

/-- Counting zeroed bytes leaves memory as it is. -/
theorem Main.countZeroed_mem (m : Main) (l : List (Nat × Nat × Nat)) :
    (l.foldl (fun m r => m.bump 2 4 r.1 r.2.2) m).mem = m.mem :=
  List.foldlRecOn (motive := fun x : Main => x.mem = m.mem) l _ rfl fun _ hx _ _ => hx

/-- The granules of a new extent are zeroed, what the agents had of them recalled first. -/
def Main.granulesZeroed (m : Main) (i : Nat) (e : Extent) : Main :=
  let m0 := m.walkLines (fun line => e.ranges.any (inRange line))
  let mem := e.ranges.foldl Memory.zeroRange m0.mem
  { m0 with mem := { mem with
    extents := modWhere mem.extents (fun x => x.idx == i) (fun x => { x with state := .active })
    zeroing := mem.zeroing.erase (i, .extent i) } }

/-- The new extent is held: ACTIVE, or MOVING when it is passed at once. -/
def Main.extentZeroed (m : Main) (i : Nat) (e : Extent) : Main :=
  e.ranges.foldl (fun m r => m.bump 2 4 r.1 r.2.2) (m.granulesZeroed i e).markMoving

theorem Main.extentZeroed_cells (m : Main) (i : Nat) (e : Extent) :
    (m.extentZeroed i e).mem.cells =
      (e.ranges.foldl Memory.zeroRange (m.walkLines (fun line => e.ranges.any (inRange line))).mem).cells := by
  rw [Main.extentZeroed, Main.countZeroed_mem]
  rfl

/-- The records by which the new extent is passed are those from before. -/
theorem Main.granulesZeroed_comp (m : Main) (i : Nat) (e : Extent) : (m.granulesZeroed i e).comp = m.comp :=
  calc (m.granulesZeroed i e).comp = (m.walkLines (fun line => e.ranges.any (inRange line))).comp := rfl
    _ = m.comp := Main.comp_of_bystanders (m.walkLines_bystanders _)

/-- Every extent of the number that was zeroed is held afterwards. -/
theorem Main.extentZeroed_extents {m : Main} {i : Nat} {e y : Extent} (h : y ∈ (m.extentZeroed i e).mem.extents)
    (hi : y.idx = i) :
    y.state = .active ∨ y.state = .moving ∧ ∃ r ∈ m.comp.recs, y.span = r.id ∧ r.phase ≠ .stable := by
  rw [Main.extentZeroed, Main.countZeroed_mem] at h
  obtain ⟨x, hx, hidx, hheld⟩ := Main.mem_markMoving h
  rw [Main.granulesZeroed_comp] at hheld
  apply hheld
  obtain ⟨z, -, rfl⟩ := List.mem_map.1 hx
  by_cases hz : z.idx = i
  · simp [hz]
  · have hother : y.idx = z.idx := by simpa [hz] using hidx
    exact absurd (hother.symm.trans hi) hz

theorem exec_zeroingComplete_extent {s : State} {c : Nat} {e : Extent}
    (he : s.main.mem.extents.find? (fun e => e.idx == c && e.state == .zeroing) = some e) (hreclaim : s.main.coh.reclaim = []) :
    exec (.zeroingComplete (.extent c)) s = toMain s ((s.main.extentZeroed c e).answerHeld (.extent c)
      (Reply.good (fields [(0x20, toBytes 2 c), (0x24, toBytes 2 e.choff)]))) := by
  refine exec_eq_toMain (f := Main.zeroed (.extent c)) rfl ?_
  simp only [Main.zeroed, he]
  exact (if_neg (by simp [hreclaim])).trans rfl

/-- Settles O34, from what each command on a channel or an extent comes to. -/
theorem channelResults : Obligations.ChannelResults := by
  intro s c x
  refine ⟨fun found => exec_patrolScrub_of_allocated,
    fun hjob _ hreclaim hheld => exec_zeroingComplete_channel hjob hreclaim hheld, ?extent,
    exec_retirementRequired_of_mustRetire,
    fun p hrepl => ⟨fun found => exec_evacuationCopyDone_of_evacuating hrepl, exec_channelMapSwap_of_copied hrepl⟩,
    fun hc hlive => ⟨fun y => exec_channelFailure_of_replacement hc hlive, exec_channelFailure_of_no_replacement hc hlive⟩⟩
  case extent =>
    intro e he hreclaim
    exact ⟨_, exec_zeroingComplete_extent he hreclaim, s.main.extentZeroed_cells c e, fun y => Main.extentZeroed_extents⟩

end Sys2Proof.Machine
end

section
/-! ECS commands on the module: parameters, bindings, lasers, power, error records, resets, swaps, channel retirement, banking
(R197-R202, R247, R409, R413, R414, R449, R451, R457, R478, R485, R486, R488, R544). -/

namespace Sys2Proof.Machine

/-! ### Answers and checks (R5, R405) -/

section
variable {s : State} {mb : Mbx} {c : Cmd} {cmd : MbCmd} {op : Nat} {body : EcsIn → State → Ans} {y : Instr}

/-- A command that begins and is answered, whatever of the state it changes. -/
theorem exec_of_answer {r : Reply} {t : State} (hy : exec y s = State.ecsOp op body mb c s) (hbegin : EcsBegins s mb c cmd op)
    (hbody : body (ecsIn mb c cmd) s = .done r t) : exec y s = .next (s.answer (ecsIn mb c cmd) c.outOk r t) := by
  rw [hy, State.ecsOp_begins hbegin, hbody]

/-- A command that begins and is answered, with what is settled after it. -/
theorem exec_of_answer_settling {settle : Main → Main} {r : Reply} {t : State}
    (hy : exec y s = settling settle (State.ecsOp op body mb c s)) (hbegin : EcsBegins s mb c cmd op)
    (hbody : body (ecsIn mb c cmd) s = .done r t) :
    exec y s = toMain (s.answer (ecsIn mb c cmd) c.outOk r t) (settle (s.answer (ecsIn mb c cmd) c.outOk r t).main) := by
  rw [hy, State.ecsOp_begins hbegin, hbody]
  rfl

end

/-- Without a check no offset is left to answer. -/
@[simp] theorem EcsIn.lowest_nil : EcsIn.lowest [] = none := rfl

/-- A byte below 2^n has no bit set above the lowest n (R5). -/
theorem EcsIn.high_byte_of_lt {i : EcsIn} {off n : Nat} (h : i.arg off 1 < 2 ^ n) : i.high off 1 n = none := by
  simp [EcsIn.high, Nat.div_eq_of_lt h]

section
variable {s : State} {i : EcsIn}

/-! ### Parameters and bindings (R409, R413, R414) -/

/-- A parameter takes a value of its range. -/
theorem setParam_of_range {r : Nat × Nat} (hreserved : i.reserved [(0x20, 2), (0x28, 8)] = none)
    (hr : paramRange (i.arg 0x20 2) = some r) (hlow : r.1 ≤ i.arg 0x28 8) (hhigh : i.arg 0x28 8 ≤ r.2) :
    setParam i s = .main s (.good [])
      (({ s.main with params := modNth s.main.params (i.arg 0x20 2 - 1) (fun _ => i.arg 0x28 8) } : Main).saturate) := by
  simp [setParam, hreserved, hr, Nat.not_lt.2 hlow, Nat.not_lt.2 hhigh]

/-- The VF that FN_BIND names. -/
def EcsIn.boundFn (i : EcsIn) : Fn := ⟨i.arg 0x20 1, i.arg 0x21 1⟩

/-- The bindings but the one of the VF and the span that FN_BIND names. -/
def Main.otherBindings (m : Main) (i : EcsIn) : List (Fn × Nat) :=
  m.elbor.bound.filter (· != (i.boundFn, i.arg 0x24 4))

/-- FN_BIND names a VF that is there, and its reserved bits are zero. -/
structure BindsFn (s : State) (i : EcsIn) (r : FnRec) : Prop where
  reserved : i.reserved [(0x20, 3), (0x24, 4)] = none
  port : i.arg 0x20 1 < 2
  vf : i.arg 0x21 1 ≠ 0
  flags : i.high 0x22 1 1 = none
  span : i.high 0x24 4 20 = none
  fn : s.main.fnOf i.boundFn = some r
  present : r.present = true

/-- FN_BIND on a VF that is there binds it, or unbinds it unless it has a context on the span. -/
theorem fnBind_of_bindsFn {r : FnRec} (h : BindsFn s i r)
    (hspan : bit (i.arg 0x22 1) 0 = true ∨ (s.main.recOf (i.arg 0x24 4)).isSome = true) :
    fnBind i s =
      if bit (i.arg 0x22 1) 0 = true then
        if s.main.objs.ctxs.any (fun c => c.fn == i.boundFn && c.span == i.arg 0x24 4) = true then .no s 0xFFFF
        else .main s (.good []) { s.main with elbor := { s.main.elbor with bound := s.main.otherBindings i } }
      else .main s (.good [])
        { s.main with elbor := { s.main.elbor with bound := s.main.otherBindings i ++ [(i.boundFn, i.arg 0x24 4)] } } := by
  obtain ⟨hreserved, hport, hvf, hflags, hhigh, hfn, hpresent⟩ := h
  unfold EcsIn.boundFn at hfn
  have hthere : (!bit (i.arg 0x22 1) 0 && (s.main.recOf (i.arg 0x24 4)).isNone) = false := by
    rcases hspan with hspan | hspan
    · simp [hspan]
    · simp [Option.isNone_eq_false_iff.2 hspan]
  simp [fnBind, Main.otherBindings, EcsIn.boundFn, hreserved, Nat.not_lt.2 (Nat.le_of_lt_succ hport), bne_iff_ne.2 hvf, hflags,
    hhigh, hfn, hpresent, hthere]

/-- A VF is bound to a span that has a record. -/
theorem fnBind_of_bind {r : FnRec} (h : BindsFn s i r) (hbind : bit (i.arg 0x22 1) 0 = false)
    (hspan : (s.main.recOf (i.arg 0x24 4)).isSome = true) :
    fnBind i s = .main s (.good [])
      { s.main with elbor := { s.main.elbor with bound := s.main.otherBindings i ++ [(i.boundFn, i.arg 0x24 4)] } } :=
  (fnBind_of_bindsFn h (.inr hspan)).trans (if_neg (ne_true_of_eq_false hbind))

/-- A VF is unbound from a span on which it has no context. -/
theorem fnBind_of_unbind {r : FnRec} (h : BindsFn s i r) (hunbind : bit (i.arg 0x22 1) 0 = true)
    (hctxs : ∀ x ∈ s.main.objs.ctxs, x.fn = i.boundFn → x.span ≠ i.arg 0x24 4) :
    fnBind i s = .main s (.good []) { s.main with elbor := { s.main.elbor with bound := s.main.otherBindings i } } := by
  have hnone : ¬ s.main.objs.ctxs.any (fun c => c.fn == i.boundFn && c.span == i.arg 0x24 4) = true := by simpa using hctxs
  exact (fnBind_of_bindsFn h (.inl hunbind)).trans ((if_pos hunbind).trans (if_neg hnone))

/-! ### Lasers (R247, R544) -/

/-- One engine held off, or released. -/
def Main.laserAct (i : EcsIn) (m : Main) (e : Nat) : Main :=
  if i.arg 0x22 1 = 0 then (m.modOpt e (fun o => { o with shutdown := true })).darken e
  else m.modOpt e (fun o => { o with shutdown := false })

/-- The engines named are held off or released, in rising order. -/
def Main.lasersActed (m : Main) (i : EcsIn) : Main := ((bitsSet 16 (i.arg 0x20 2)).foldl (Main.laserAct i) m).flush

theorem laserShutdown_of_legal (hreserved : i.reserved [(0x20, 3)] = none) (hact : i.arg 0x22 1 ≤ 1) :
    laserShutdown i s = .main s (.good (fields [(0x20, toBytes 2 (s.main.lasersActed i).heldOff)])) (s.main.lasersActed i) := by
  simp only [laserShutdown, hreserved, Nat.not_lt.2 hact, decide_false, EcsIn.fails_false, EcsIn.lowest_none_cons, EcsIn.lowest_nil]
  rfl

/-! ### Power (R449, R451, R457) -/

/-- The cap is a multiple of 10 W from 1,200 W to 3,200 W, and 3,200 W in fixed-frequency mode. -/
theorem powerCap_of_legal (hreserved : i.reserved [(0x20, 2)] = none) (hmin : 1200 ≤ i.arg 0x20 2) (hmax : i.arg 0x20 2 ≤ 3200)
    (hten : i.arg 0x20 2 % 10 = 0) (hfixed : s.power.fixed = true → i.arg 0x20 2 = 3200) :
    powerCap i s = .done (.good (fields [(0x20, toBytes 2 (i.arg 0x20 2))]))
      (({ s with power := { s.power with cap := i.arg 0x20 2 } } : State).postPower 15 .ok (i.arg 0x20 2)) := by
  have hkeeps : ¬ (s.power.fixed = true ∧ i.arg 0x20 2 < 3200) := fun ⟨hon, hlt⟩ => Nat.ne_of_lt hlt (hfixed hon)
  simp only [powerCap, hreserved, Nat.not_lt.2 hmin, Nat.not_lt.2 hmax, hten, hkeeps, decide_false, Bool.or_self, bne_self_eq_false,
    EcsIn.fails_false, EcsIn.lowest_none_cons, EcsIn.lowest_nil, if_false]

/-- An emergency limit is a code from 16 to 64. -/
theorem powerEmergency_of_limit (hreserved : i.reserved [(0x20, 2)] = none) (hset : i.arg 0x20 1 = 0) (hmin : 16 ≤ i.arg 0x21 1)
    (hmax : i.arg 0x21 1 ≤ 64) :
    powerEmergency i s = .done (.good []) (s.limit (fun p => { p with hold := some (i.arg 0x21 1) })) := by
  simp [powerEmergency, hreserved, hset, Nat.not_lt.2 hmin, Nat.not_lt.2 hmax]

/-- The emergency limit is released. -/
theorem powerEmergency_of_release (hreserved : i.reserved [(0x20, 2)] = none) (hset : i.arg 0x20 1 = 1)
    (hcode : i.arg 0x21 1 = 0) :
    powerEmergency i s = .done (.good []) (s.limit (fun p => { p with hold := none })) := by
  simp [powerEmergency, hreserved, hset, hcode]

/-- Fixed-frequency mode is changed at a cap of 3,200 W. -/
theorem fixedFreq_of_cap (hreserved : i.reserved [(0x20, 1)] = none) (hhigh : i.high 0x20 1 1 = none) (hcap : 3200 ≤ s.power.cap) :
    fixedFreq i s = .done (.good (fields [(0x20, toBytes 1 (b2n (bit (i.arg 0x20 1) 0)))])) (s.limit (fun p =>
      { p with fixed := bit (i.arg 0x20 1) 0, capLim := if bit (i.arg 0x20 1) 0 then max 56 p.capLim else p.capLim })) := by
  simp only [fixedFreq, hreserved, hhigh, EcsIn.lowest_none_cons, EcsIn.lowest_nil, if_neg (Nat.not_lt.2 hcap)]

/-! ### Error records and resets (R465, R470, R474, R478, R488) -/

/-- The closed records named are given up. -/
theorem errAck_of_reserved (hreserved : i.reserved [(0x20, 4), (0x24, 2)] = none) :
    errAck i s = .main s (.good []) { s.main with rcv := { s.main.rcv with errs := s.main.rcv.errs.filter (fun e => e.isOpen ||
      !(decide (i.arg 0x20 4 ≤ e.id) && decide (e.id < i.arg 0x20 4 + i.arg 0x24 2))) } } := by
  simp only [errAck, hreserved]

/-- A sagger is reset; one that is scrubbed has a span without contexts. -/
theorem saggerReset_of_named (hreserved : i.reserved [(0x20, 4), (0x24, 1)] = none) (hspan : i.high 0x20 4 20 = none)
    (hflags : i.high 0x24 1 1 = none) (hrec : i.arg 0x20 4 ≠ 0 → (s.main.recOf (i.arg 0x20 4)).isSome = true)
    (hscrub : bit (i.arg 0x24 1) 0 = true → i.arg 0x20 4 ≠ 0 ∧ ∀ x ∈ s.main.objs.ctxs, x.span ≠ i.arg 0x20 4) :
    saggerReset i s = .hold (.reopen (i.arg 0x20 4))
      { s with main := s.main.saggerError (i.arg 0x20 4) 0x35 ⟨7, 0x502⟩ none 0 (bit (i.arg 0x24 1) 0) none } := by
  have hthere : (i.arg 0x20 4 != 0 && (s.main.recOf (i.arg 0x20 4)).isNone) = false := by simpa using hrec
  have hsome : (bit (i.arg 0x24 1) 0 && i.arg 0x20 4 == 0) = false := by
    cases hbit : bit (i.arg 0x24 1) 0 with
    | false => rfl
    | true => simpa using (hscrub hbit).1
  have hempty : (bit (i.arg 0x24 1) 0 && s.main.objs.ctxs.any (fun c => c.span == i.arg 0x20 4)) = false := by
    cases hbit : bit (i.arg 0x24 1) 0 with
    | false => rfl
    | true => simpa using (hscrub hbit).2
  simp only [saggerReset, hreserved, hspan, hflags, hthere, hsome, hempty, EcsIn.fails_false, EcsIn.lowest_none_cons,
    EcsIn.lowest_nil, Bool.false_eq_true, if_false]

/-- A reset of the device that preserves nothing: bit 0 makes it cold. -/
theorem deviceReset_of_plain (hreserved : i.reserved [(0x20, 1), (0x24, 2), (0x28, 4), (0x2C, 1), (0x30, 0)] = none)
    (hkind : i.arg 0x20 1 ≤ 1) (hnone : i.arg 0x2C 1 = 0) :
    deviceReset i s = .main s (.good []) (s.main.deviceError 0x43 ⟨7, 0x503⟩ none 0 (bit (i.arg 0x20 1) 0)) := by
  have hhigh : i.high 0x20 1 2 = none := EcsIn.high_byte_of_lt (by omega)
  have hkeep : bit (i.arg 0x20 1) 1 = false := by simp [bit, Nat.div_eq_of_lt (Nat.lt_succ_of_le hkind)]
  simp [deviceReset, hnone, hreserved, hhigh, hkeep]

/-- What a reset preserves: a slot with its generation, and the spans named. -/
def EcsIn.preserve (i : EcsIn) (n : Nat) : Preserve :=
  { slot := i.arg 0x24 2, gen := i.arg 0x28 4, spans := (List.range n).map (fun k => i.arg (0x30 + 4 * k) 4) }

/-- A warm reset that preserves up to 40 spans, all of them stable. -/
theorem deviceReset_of_preserve {n : Nat} (hn : i.arg 0x2C 1 = n) (hmax : n ≤ 40)
    (hreserved : i.reserved [(0x20, 1), (0x24, 2), (0x28, 4), (0x2C, 1), (0x30, 4 * n)] = none) (hkind : i.arg 0x20 1 = 2)
    (hslot : i.arg 0x24 2 < 256) (hstable : i.unstable s.main n = none) (hdev : s.main.rcv.dev = none) :
    deviceReset i s = .main s (.good []) (({ s.main with rcv := { s.main.rcv with preserve := some (i.preserve n) } } : Main).deviceError
      0x43 ⟨7, 0x503⟩ none 0 false) := by
  have hhigh : i.high 0x20 1 2 = none := EcsIn.high_byte_of_lt (by omega)
  have hcold : bit 2 0 = false := rfl
  have hkeep : bit 2 1 = true := rfl
  simp [deviceReset, EcsIn.preserve, hn, Nat.min_eq_left hmax, Nat.not_lt.2 hmax, hreserved, hhigh, hkind, hcold, hkeep,
    Nat.not_le.2 hslot, hstable, hdev]

/-! ### Spare cores, channels and banking (R197-R202, R485, R486, R488) -/

/-- The good spare core of a cluster without a swap in progress begins to replace a core. -/
theorem spareSwap_of_spare {u : CoreUnit} (hreserved : i.reserved [(0x20, 2)] = none) (hcluster : i.arg 0x20 1 < 32)
    (hcore : i.arg 0x21 1 < 8) (hu : s.main.cores.units[i.arg 0x20 1 * 9 + 8]? = some u) (hgood : u.good = true)
    (hidle : u.inService = false) (hswaps : ∀ x ∈ s.main.rcv.swaps, x.cluster ≠ i.arg 0x20 1) :
    spareSwap i s = .hold (.swap (i.arg 0x20 1))
      { s with main := s.main.beginSwap (i.arg 0x20 1 * 9 + i.arg 0x21 1) } := by
  have hnone : s.main.rcv.swaps.any (fun x => x.cluster == i.arg 0x20 1) = false := by simpa using hswaps
  simp [spareSwap, hreserved, Nat.not_le.2 hcluster, Nat.not_le.2 hcore, nth, hu, hgood, hidle, hnone]

/-- A channel that is neither replaced nor a replacement becomes due for retirement. -/
theorem chRetire_of_served (hreserved : i.reserved [(0x20, 1)] = none) (hc : i.arg 0x20 1 < 192)
    (hlive : (s.main.chan (i.arg 0x20 1)).state ≠ .retired) (hrepl : (s.main.chan (i.arg 0x20 1)).repl = none)
    (hnone : ∀ y, y < 192 → (s.main.chan y).repl ≠ some (i.arg 0x20 1)) :
    chRetire i s = .hold (.retire (i.arg 0x20 1))
      { s with main := s.main.modChan (i.arg 0x20 1) (fun x => { x with due := true }) } := by
  have hfree : (List.range 192).any (fun x => (s.main.chan x).repl == some (i.arg 0x20 1)) = false := by simpa using hnone
  simp [chRetire, hreserved, Nat.not_le.2 hc, beq_eq_false_iff_ne.2 hlive, hrepl, hfree]

/-- The retirement of a channel that is being replaced has begun already. -/
theorem chRetire_of_replaced (hreserved : i.reserved [(0x20, 1)] = none) (hc : i.arg 0x20 1 < 192)
    (hlive : (s.main.chan (i.arg 0x20 1)).state ≠ .retired) (hrepl : (s.main.chan (i.arg 0x20 1)).repl.isSome = true) :
    chRetire i s = .done (.good []) s := by
  simp [chRetire, hreserved, Nat.not_le.2 hc, beq_eq_false_iff_ne.2 hlive, hrepl]

/-- A module that can bank does so. -/
theorem enterBanked_of_bankable (hreserved : i.reserved [(0x20, 4)] = none) (hkey : i.arg 0x20 4 = 0x4B4E4142)
    (hbank : s.main.bankable = true) :
    enterBanked i s = .main s (.good []) (s.main.bankEnter 0x54 ⟨7, 0x505⟩ none) := by
  simp [enterBanked, hreserved, hkey, hbank]

end

/-- Settles O50, from what each command comes to when its checks pass. -/
theorem ecsModuleCommands : Obligations.EcsModuleCommands := by
  intro s mb c cmd i done main held
  refine ⟨?setParam, ?fnBind, ?laser, ?cap, ?emergency, ?fixed, ?errAck, ?sagger, ?device, ?preserve, ?swap, ?retire, ?banked⟩
  case setParam =>
    intro hbegin hreserved r hr hlow hhigh
    exact exec_of_main rfl hbegin (setParam_of_range hreserved hr hlow hhigh)
  case fnBind =>
    intro hbegin hreserved hport hvf hflags hspan vf rest r hfn hpresent
    have hbinds : BindsFn s i r := ⟨hreserved, hport, hvf, hflags, hspan, hfn, hpresent⟩
    exact ⟨fun hbind hrec => exec_of_main rfl hbegin (fnBind_of_bind hbinds hbind hrec),
      fun hunbind hctxs => exec_of_main rfl hbegin (fnBind_of_unbind hbinds hunbind hctxs)⟩
  case laser =>
    intro hbegin hreserved hact act m1
    exact exec_of_main rfl hbegin (laserShutdown_of_legal hreserved hact)
  case cap =>
    intro hbegin hreserved hmin hmax hten hfixed
    exact exec_of_answer rfl hbegin (powerCap_of_legal hreserved hmin hmax hten hfixed)
  case emergency =>
    intro hbegin hreserved
    exact ⟨fun hset hmin hmax => exec_of_answer rfl hbegin (powerEmergency_of_limit hreserved hset hmin hmax),
      fun hset hcode => exec_of_answer rfl hbegin (powerEmergency_of_release hreserved hset hcode)⟩
  case fixed =>
    intro hbegin hreserved hhigh on hcap
    exact exec_of_answer rfl hbegin (fixedFreq_of_cap hreserved hhigh hcap)
  case errAck =>
    intro hbegin hreserved errs
    exact exec_of_main rfl hbegin (errAck_of_reserved hreserved)
  case sagger =>
    intro hbegin hreserved hspan hflags span scrub hrec hscrub
    exact exec_of_hold_settling rfl hbegin (saggerReset_of_named hreserved hspan hflags hrec hscrub)
  case device =>
    intro hbegin hreserved hkind hnone
    exact exec_of_main rfl hbegin (deviceReset_of_plain hreserved hkind hnone)
  case preserve =>
    intro n hbegin hn hmax hreserved hkind hslot hstable hdev p
    exact exec_of_main rfl hbegin (deviceReset_of_preserve hn hmax hreserved hkind hslot hstable hdev)
  case swap =>
    intro hbegin hreserved hcluster hcore u hu hgood hidle hswaps
    exact exec_of_hold rfl hbegin (spareSwap_of_spare hreserved hcluster hcore hu hgood hidle hswaps)
  case retire =>
    intro hbegin hreserved hc k hlive
    exact ⟨fun hrepl hnone => exec_of_hold_settling rfl hbegin (chRetire_of_served hreserved hc hlive hrepl hnone),
      fun hrepl => exec_of_answer_settling rfl hbegin (chRetire_of_replaced hreserved hc hlive hrepl)⟩
  case banked =>
    intro hbegin hreserved hkey hbank
    exact exec_of_main rfl hbegin (enterBanked_of_bankable hreserved hkey hbank)

end Sys2Proof.Machine
end

section
/-! What caching agents tell the homes, what homes ask of agents, range recalls and dead agents (R209-R216). -/

namespace Sys2Proof.Machine

/-! ### Events and error records leave memory alone (R429-R435, R477-R479) -/

/-- What every round of a loop leaves alone of its state, the loop leaves alone. -/
theorem foldl_view_eq {α β γ : Type} {view : β → γ} {g : β → α → β} (hg : ∀ x a, view (g x a) = view x) (l : List α) (x : β) :
    view (l.foldl g x) = view x :=
  List.foldlRecOn (motive := fun y => view y = view x) l g rfl fun y hy a _ => (hg y a).trans hy

section
variable (m : Main)

@[simp] theorem Main.sendMsix_mem (fn : Fn) (v : Nat) : (m.sendMsix fn v).mem = m.mem := by
  unfold Main.sendMsix
  cases m.fnOf fn with
  | none => rfl
  | some r => dsimp only; split <;> rfl

@[simp] theorem Main.eqNotify_mem (fn : Fn) (i : Nat) : (m.eqNotify fn i).mem = m.mem := by
  unfold Main.eqNotify
  cases m.eqOf fn i with
  | none => rfl
  | some q =>
    dsimp only
    split
    · split
      · exact Main.sendMsix_mem _ _ _
      · rfl
    · rfl

@[simp] theorem Main.modEq_mem (fn : Fn) (i : Nat) (f : EvQ → EvQ) : (m.modEq fn i f).mem = m.mem := rfl

@[simp] theorem Main.writeLate_mem (fn : Fn) (a : Nat) (d : List Byte) : (m.writeLate fn a d).mem = m.mem := rfl

@[simp] theorem Main.eqWrite_mem (fn : Fn) (i : Nat) (q : EvQ) (e : Event) : (m.eqWrite fn i q e).mem = m.mem := by
  rw [Main.eqWrite, Main.eqNotify_mem, Main.modEq_mem, Main.writeLate_mem]

theorem Main.pageOf_mem {m m1 : Main} {fn : Fn} {pasid a : Nat} {write : Bool} (h : m.pageOf fn pasid a write = some m1) :
    m1.mem = m.mem := by
  unfold Main.pageOf at h
  cases hr : m.fnOf fn with
  | none => simp [hr] at h
  | some r =>
    simp only [hr] at h
    split at h
    · cases h; rfl
    · obtain ⟨e, -, rfl⟩ := Option.map_eq_some_iff.1 h
      rfl

@[simp] theorem Main.eqPut_mem (fn : Fn) (i : Nat) (q : EvQ) (e : Event) : (m.eqPut fn i q e).mem = m.mem := by
  unfold Main.eqPut
  dsimp only
  split
  · rfl
  · split
    case h_1 m1 hpage =>
      split at hpage
      · exact (m1.eqWrite_mem fn i q e).trans (Main.pageOf_mem hpage)
      · cases hpage
    case h_2 => rfl

@[simp] theorem Main.eqPost_mem (fn : Fn) (i : Nat) (e : Event) : (m.eqPost fn i e).mem = m.mem := by
  unfold Main.eqPost
  cases m.eqOf fn i with
  | none => rfl
  | some q =>
    dsimp only
    split
    · split
      · rfl
      · split
        · rfl
        · exact m.eqPut_mem fn i q e
    · rfl

@[simp] theorem Main.postFn_mem (fn : Fn) (e : Event) : (m.postFn fn e).mem = m.mem := by
  unfold Main.postFn
  cases m.fnOf fn with
  | none => rfl
  | some r =>
    refine foldl_view_eq (view := Main.mem) (fun x i => ?_) _ m
    split
    · exact x.eqPost_mem fn i e
    · rfl

@[simp] theorem Main.post_mem (type cls subject : Nat) (st : Status) (detail : Nat) :
    (m.post type cls subject st detail).mem = m.mem := by
  have hboth (e : Event) : ((m.postFn ⟨0, 0⟩ e).postFn ⟨1, 0⟩ e).mem = m.mem := by simp
  unfold Main.post
  dsimp only
  split
  · exact hboth _
  · exact hboth _

@[simp] theorem Main.openErr_mem (e : ErrNew) (st : ErrSt) : (m.openErr e st).2.mem = m.mem := Main.post_mem _ _ _ _ _ _

@[simp] theorem Main.closeErr_mem (id : Nat) (st : ErrSt) (x : Status) : (m.closeErr id st x).mem = m.mem := by
  unfold Main.closeErr Main.endErr
  cases m.rcv.errs.find? (fun r => r.id == id) with
  | none => rfl
  | some r => exact Main.post_mem _ _ _ _ _ _

@[simp] theorem Main.noteAside_mem (e : ErrNew) : (m.noteAside e).mem = m.mem := by
  unfold Main.noteAside
  split
  · rfl
  · split
    · rfl
    · exact (Main.closeErr_mem _ _ _ _).trans (m.openErr_mem e .handling)

/-- A lost line is marked, and nothing else of memory changes. -/
@[simp] theorem Main.loseLine_mem (line : Nat) : (m.loseLine line).mem = m.mem.poisonLine line :=
  (Main.noteAside_mem _ _).trans (Main.post_mem _ _ _ _ _ _)

end

/-! ### Notices of agents (R209, R211) -/

/-- An agent tells its home of a copy that it holds in a state that the notice is for. -/
theorem Main.noticeOf_of_copy {m : Main} {agent line : Nat} {c : Copy} {ok : CopyState → Bool} {go : Main → Main}
    (hc : m.coh.copyOf agent line = some c) (hok : ok c.st = true) : m.noticeOf agent line ok go = .next (go m) := by
  simp only [Main.noticeOf, hc, hok, if_true]

section
variable {s : State} {agent line : Nat} {c : Copy}

theorem exec_dirtyNotice_of_e (hc : s.main.coh.copyOf agent line = some c) (hst : c.st = .e) :
    exec (.dirtyNotice agent line) s = toMain s (s.main.homeDN agent line) :=
  exec_eq_toMain rfl (Main.noticeOf_of_copy hc (by simp [hst]))

theorem exec_writeBack_of_m (hc : s.main.coh.copyOf agent line = some c) (hst : c.st = .m) :
    exec (.writeBack agent line) s = toMain s (s.main.evict agent line) :=
  exec_eq_toMain rfl (Main.noticeOf_of_copy hc (by simp [hst]))

theorem exec_evictionNotice_of_not_m (hc : s.main.coh.copyOf agent line = some c) (hst : c.st ≠ .m) :
    exec (.evictionNotice agent line) s = toMain s (s.main.evict agent line) :=
  exec_eq_toMain rfl (Main.noticeOf_of_copy hc (by simp [hst]))

end

/-! ### Invalidations (R210, R215) -/

/-- The entry found for a line is the line's. -/
theorem Coh.line_of_entryOf {c : Coh} {line : Nat} {e : DirEntry} (h : c.entryOf line = some e) : e.line = line := by
  simpa using List.find?_some h

/-- The invalidation in the queue of an agent that lives (R210). -/
def Main.invQueued (m : Main) (agent line : Nat) : Main :=
  if m.coh.dead.contains agent then m else { m with coh := { m.coh with invq := m.coh.invq ++ [(agent, line)] } }

section
variable {m : Main} {agent line : Nat}

/-- A queued invalidation changes the queues of the agents alone. -/
theorem Main.invQueued_eq : m.invQueued agent line = { m with coh := { m.coh with
    invq := if agent ∈ m.coh.dead then m.coh.invq else m.coh.invq ++ [(agent, line)] } } := by
  by_cases h : agent ∈ m.coh.dead <;> simp [Main.invQueued, h]

/-- The home no longer counts a sharer that it lists (R210). -/
def Main.unlisted (m : Main) (agent line : Nat) (e : DirEntry) : Main :=
  let rest := m.coh.removeSharer e.sharers agent line
  if e.st == .shared && e.sharers.has agent then
    if rest.isEmpty then { m with coh := m.coh.dropEntry line }
    else { m with coh := m.coh.modEntry line (fun e => { e with sharers := rest }) }
  else m

/-- What the home no longer counts changes its directory alone. -/
theorem Main.unlisted_eq (e : DirEntry) : ∃ dir, m.unlisted agent line e = { m with coh := { m.coh with dir := dir } } := by
  unfold Main.unlisted
  dsimp only
  split
  · split
    · exact ⟨_, rfl⟩
    · exact ⟨_, rfl⟩
  · exact ⟨_, rfl⟩

/-- Whether an agent is the owner by an entry, and lives. -/
def Coh.owns (c : Coh) (agent : Nat) (e : DirEntry) : Bool :=
  (e.st == .ownedClean || e.st == .ownedDirty) && e.owner == agent && !c.dead.contains agent

/-- An invalidation of a line that no entry lists. -/
theorem Main.queueInv_of_unlisted (hagent : agent < 320) (he : m.coh.entryOf line = none) :
    m.queueInv agent line = .next (m.invQueued agent line) := by
  have hqueued : (m.invQueued agent line).coh.entryOf line = none := by rw [Main.invQueued_eq]; exact he
  unfold Main.invQueued at hqueued
  simp only [Main.queueInv, if_neg (Nat.not_le.2 hagent), hqueued]
  rfl

/-- An invalidation of a line that an entry lists: its owner acts at once, another agent acknowledges. -/
theorem Main.queueInv_of_entry {e : DirEntry} (hagent : agent < 320) (he : m.coh.entryOf line = some e) :
    m.queueInv agent line = .next (if m.coh.owns agent e then
      { m.takeFromOwner e with coh := (m.takeFromOwner e).coh.dropEntry line }
      else (m.invQueued agent line).unlisted agent line e) := by
  have hqueued : (m.invQueued agent line).coh.entryOf line = some e := by rw [Main.invQueued_eq]; exact he
  unfold Main.invQueued at hqueued
  simp only [Main.queueInv, if_neg (Nat.not_le.2 hagent), hqueued, Coh.owns, Main.unlisted, Main.invQueued]
  split
  · rfl
  · split
    · split <;> rfl
    · rfl

end

section
variable {s : State} {agent line : Nat}

/-- An owner that lives writes its line back and gives its copy up at once, and the entry is freed (R210). -/
theorem exec_invalidation_of_owner {e : DirEntry} (hagent : agent < 320) (he : s.main.coh.entryOf line = some e)
    (hst : e.st = .ownedClean ∨ e.st = .ownedDirty) (howner : e.owner = agent) (hlive : agent ∉ s.main.coh.dead) :
    exec (.invalidation agent line) s = toMain s { s.main.writeBackCopy agent line with
      coh := ((s.main.writeBackCopy agent line).coh.dropCopy agent line).dropEntry line } := by
  have howns : s.main.coh.owns agent e = true := by simpa [Coh.owns, howner, hlive] using hst
  have htake : s.main.takeFromOwner e = { s.main.writeBackCopy agent line with
      coh := (s.main.writeBackCopy agent line).coh.dropCopy agent line } := by
    simp [Main.takeFromOwner, howner, hlive, Coh.line_of_entryOf he]
  refine exec_eq_toMain (f := Main.queueInv agent line) rfl ((Main.queueInv_of_entry hagent he).trans ?_)
  rw [if_pos howns, htake]

/-- An agent that is no living owner acknowledges as the invalidation enters its queue, and keeps its copy until it applies that; a dead
one's counts as acknowledged (R210, R215). -/
theorem exec_invalidation_of_not_owner (hagent : agent < 320)
    (hnot : ∀ e, s.main.coh.entryOf line = some e →
      e.st = .shared ∨ e.st = .home ∨ e.owner ≠ agent ∨ agent ∈ s.main.coh.dead) :
    ∃ m1, exec (.invalidation agent line) s = toMain s m1 ∧ m1.mem = s.main.mem ∧ m1.coh.copies = s.main.coh.copies ∧
      m1.coh.invq = (if agent ∈ s.main.coh.dead then s.main.coh.invq else s.main.coh.invq ++ [(agent, line)]) := by
  have hcomes {m1 : Main} (h : s.main.queueInv agent line = .next m1) : exec (.invalidation agent line) s = toMain s m1 :=
    exec_eq_toMain rfl h
  cases he : s.main.coh.entryOf line with
  | none =>
    refine ⟨_, hcomes (Main.queueInv_of_unlisted hagent he), ?_⟩
    rw [Main.invQueued_eq]
    exact ⟨rfl, rfl, rfl⟩
  | some e =>
    have howns : s.main.coh.owns agent e = false := by
      obtain hst | hst | howner | hdead := hnot e he <;> simp [Coh.owns, *]
    obtain ⟨dir, hdir⟩ := (s.main.invQueued agent line).unlisted_eq (agent := agent) (line := line) e
    have hgo := Main.queueInv_of_entry hagent he
    rw [howns, if_neg Bool.false_ne_true, hdir, Main.invQueued_eq] at hgo
    exact ⟨_, hcomes hgo, rfl, rfl, rfl⟩

/-! ### Forwards (R209) -/

/-- An owner keeps its copy in a state, clean of what it has written back. -/
def Coh.keptIn (c : Coh) (st : CopyState) (owner line : Nat) : Coh :=
  c.modCopy owner line (fun c => { c with st := st, poison := c.backMark, written := [] })

/-- The block when an owner has answered a forward: it writes back, and keeps the line or gives it up as the forward asks. -/
def Main.forwarded (m : Main) (owner line : Nat) (kind : FwdKind) : Main :=
  let m1 := m.writeBackCopy owner line
  { m1 with coh := match kind with
    | .own => (m1.coh.dropCopy owner line).dropEntry line
    | .shared => (m1.coh.keptIn .s owner line).modEntry line
        (fun x => { x with st := .shared, sharers := x.sharers.clear.add owner })
    | .uncached => (m1.coh.keptIn .e owner line).modEntry line (fun x => { x with st := .ownedClean }) }

/-- A forward of a line that is owned, once its home can serve it. -/
theorem exec_forward_of_owned {e : DirEntry} (he : s.main.coh.entryOf line = some e)
    (hst : e.st = .ownedClean ∨ e.st = .ownedDirty) (hgo : s.main.mustWait line = false) (kind : FwdKind) :
    exec (.forward line kind) s = toMain s (s.main.forwarded e.owner line kind) := by
  have howned : (e.st == .shared || e.st == .home) = false := by obtain h | h := hst <;> simp [h]
  refine exec_eq_toMain (f := Main.forwardTo line kind) rfl ?_
  simp only [Main.forwardTo, he, howned, hgo, Bool.false_eq_true, if_false]
  cases kind with
  | shared => rfl
  | own => rfl
  | uncached => rfl

end

/-! ### Range recalls (R213, R216) -/

section
variable {s : State} {c first count : Nat}

/-- The walk of the agents' tags for granules of a channel, and the recalls in progress it leaves. -/
def Main.walked (m : Main) (x : Nat × Nat × Nat) (walks : List (Nat × Nat × Nat)) : Main :=
  { m.walkLines (inGranules x) with coh := { (m.walkLines (inGranules x)).coh with walks := walks } }

theorem exec_rangeRecall_of_granules (hc : c < 192) (hcount : 0 < count) (htop : first + count ≤ 1536) :
    exec (.rangeRecall c first count) s =
      toMain s (s.main.walked (c, first, count) (s.main.coh.walks ++ [(c, first, count)])) :=
  exec_eq_toMain (f := Main.recallRange (c, first, count)) rfl (if_neg (by dsimp only; omega))

theorem exec_rangeRecallComplete_of_walk (hwalk : (c, first, count) ∈ s.main.coh.walks) (hreclaim : s.main.coh.reclaim = []) :
    exec (.rangeRecallComplete c first count) s = toMain s (s.main.walked (c, first, count)
      ((s.main.walkLines (inGranules (c, first, count))).coh.walks.erase (c, first, count))) :=
  exec_eq_toMain (f := Main.recallDone (c, first, count)) rfl
    ((if_neg (by simpa using hwalk)).trans (if_neg (by simp [hreclaim])))

end

/-! ### Dead agents (R215, R216) -/

theorem exec_agentDeath_of_lt {s : State} {agent : Nat} (hagent : agent < 320) :
    exec (.agentDeath agent) s = toMain s (s.main.killAgent agent) :=
  exec_eq_toMain (f := fun m => if agent < 320 then .next (m.killAgent agent) else .refused (.noSubject "agent")) rfl
    (if_pos hagent)

/-- An agent that dies while fewer than five reclaims run or wait: what it held is lost, and its reclaim begins or waits. -/
theorem Main.killAgent_of_room {m : Main} {agent : Nat} (hlive : agent ∉ m.coh.dead) (hroom : m.coh.reclaim.length < 5) :
    m.killAgent agent = { m with coh := { m.coh with
      dead := m.coh.dead ++ [agent], reclaim := m.coh.reclaim ++ [agent]
      copies := m.coh.copies.filter (fun c => c.agent != agent)
      invq := m.coh.invq.filter (fun q => q.1 != agent) } } :=
  (if_neg (by simpa using hlive)).trans (if_neg (by simp; omega))

theorem mem_insertSorted {x y : Nat} {l : List Nat} : y ∈ insertSorted x l ↔ y = x ∨ y ∈ l := by
  induction l with
  | nil => simp [insertSorted]
  | cons z r ih =>
    unfold insertSorted
    split
    case isTrue heq => simp [heq]
    case isFalse =>
      split
      · simp
      · simp only [List.mem_cons, ih, or_left_comm]

/-- A line marked carries its mark, and every other line keeps its own (R190). -/
theorem Memory.bad_poisonLine_iff (m : Memory) (line l : Nat) :
    (m.poisonLine line).bad l = true ↔ l = line ∨ m.bad l = true := by
  simp [Memory.bad, Memory.poisonLine, mem_insertSorted]

/-- Of memory a reclaim changes one mark at most: that of a line that the dead agent had modified. -/
theorem Main.reclaimEntry_mem (m : Main) (a : Nat) (e : DirEntry) : (m.reclaimEntry a e).mem =
    if e.st = .ownedDirty ∧ e.owner = a then m.mem.poisonLine e.line else m.mem := by
  unfold Main.reclaimEntry
  cases e.st with
  | shared =>
    cases e.sharers with
    | agents l => dsimp only; split <;> simp
    | clusters v => simp
  | ownedClean => dsimp only; split <;> simp
  | ownedDirty => dsimp only; split <;> simp [*]
  | home => simp

/-- The reclaim of a dead agent over some entries. -/
def Main.reclaimed (m : Main) (a : Nat) (l : List DirEntry) : Main := l.foldl (fun m e => m.reclaimEntry a e) m

theorem Main.reclaimed_cells (m : Main) (a : Nat) (l : List DirEntry) : (m.reclaimed a l).mem.cells = m.mem.cells :=
  foldl_view_eq (view := fun x : Main => x.mem.cells) (fun x e => by
    rw [Main.reclaimEntry_mem]
    split <;> rfl) l m

/-- A reclaim takes no mark away. -/
theorem Main.reclaimed_bad_of_bad {m : Main} {line : Nat} (a : Nat) (l : List DirEntry) (h : m.mem.bad line = true) :
    (m.reclaimed a l).mem.bad line = true :=
  List.foldlRecOn (motive := fun x : Main => x.mem.bad line = true) l _ h fun x hx e _ => by
    rw [Main.reclaimEntry_mem]
    split
    · exact (Memory.bad_poisonLine_iff _ _ _).2 (.inr hx)
    · exact hx

/-- Every line that the dead agent had modified is marked (R215). -/
theorem Main.reclaimed_bad {m : Main} {a : Nat} {l : List DirEntry} {e : DirEntry} (he : e ∈ l) (howner : e.owner = a)
    (hst : e.st = .ownedDirty) : (m.reclaimed a l).mem.bad e.line = true := by
  obtain ⟨before, after, rfl⟩ := List.append_of_mem he
  have hsplit : m.reclaimed a (before ++ e :: after) = ((m.reclaimed a before).reclaimEntry a e).reclaimed a after :=
    List.foldl_append
  rw [hsplit]
  apply Main.reclaimed_bad_of_bad
  rw [Main.reclaimEntry_mem, if_pos ⟨hst, howner⟩]
  exact (Memory.bad_poisonLine_iff _ _ _).2 (.inl rfl)

/-- The block when the reclaim of an agent has ended, before what waited goes on. -/
def Main.reclaimOver (m : Main) (a : Nat) (r : List Nat) : Main :=
  let m1 := m.reclaimed a (m.coh.dir.filter (fun e => e.owner == a || e.sharers.has a))
  { m1 with coh := { m1.coh with dead := m1.coh.dead.filter (· != a), reclaim := r } }

theorem exec_reclaimComplete_of_cons {s : State} {a : Nat} {r : List Nat} (h : s.main.coh.reclaim = a :: r) :
    exec .reclaimComplete s = toMain s (s.main.reclaimOver a r).linesGo :=
  exec_eq_toMain (f := Main.reclaimDone) rfl (by
    simp only [Main.reclaimDone, h]
    rfl)

/-- Settles O32, from what each notice, invalidation, forward, recall and death comes to. -/
theorem coherenceNotices : Obligations.CoherenceNotices := by
  intro s agent line
  refine ⟨fun c hc => ⟨exec_dirtyNotice_of_e hc, exec_writeBack_of_m hc, exec_evictionNotice_of_not_m hc⟩,
    fun hagent => ⟨fun e => exec_invalidation_of_owner hagent, exec_invalidation_of_not_owner hagent⟩,
    ?forward, ?rangeRecall, ?death, ?reclaim⟩
  case forward =>
    intro e he hst hline hwait m1 keep toShared toClean
    have hanswers := exec_forward_of_owned he hst (Main.mustWait_of_free hline hwait)
    exact ⟨hanswers .own, hanswers .shared, hanswers .uncached⟩
  case rangeRecall =>
    intro c first count hc hcount htop hit m1
    exact ⟨exec_rangeRecall_of_granules hc hcount htop, exec_rangeRecallComplete_of_walk⟩
  case death =>
    intro hagent
    refine ⟨exec_agentDeath_of_lt hagent, fun hlive hroom => ?_⟩
    rw [Main.killAgent_of_room hlive hroom]
    exact ⟨rfl, rfl, fun c hc => bne_iff_ne.1 (List.mem_filter.1 hc).2, fun q hq => bne_iff_ne.1 (List.mem_filter.1 hq).2, rfl⟩
  case reclaim =>
    intro a r hreclaim
    refine ⟨s.main.reclaimOver a r, exec_reclaimComplete_of_cons hreclaim, rfl, by simp [Main.reclaimOver],
      Main.reclaimed_cells _ a _, fun e he howner hst => ?_⟩
    exact Main.reclaimed_bad (List.mem_filter.2 ⟨he, by simp [howner]⟩) howner hst

end Sys2Proof.Machine
end

section
/-! Accesses of the memory window: reads that complete or wait in their turn, and writes (R208, R344-R347). -/

namespace Sys2Proof.Machine

/-! ### What a read of span memory leaves alone (R209, R212) -/

section
variable (m : Main)

@[simp] theorem Main.countServe_host (line : Nat) : (m.countServe line).host = m.host := by
  unfold Main.countServe
  cases m.coh.bufOf line with
  | none => rfl
  | some b => rfl

@[simp] theorem Main.writeBackCopy_host (agent line : Nat) : (m.writeBackCopy agent line).host = m.host := by
  unfold Main.writeBackCopy
  cases m.coh.copyOf agent line with
  | none => rfl
  | some c => dsimp only; split <;> rfl

@[simp] theorem Main.homeUR_host (line : Nat) : (m.homeUR line).2.host = m.host := by
  unfold Main.homeUR
  dsimp only
  split
  · split
    · exact (Main.writeBackCopy_host _ _ _).trans (m.countServe_host line)
    · exact m.countServe_host line
  · exact m.countServe_host line

/-- A read of span memory leaves the host interface alone. -/
@[simp] theorem Main.spanRead_host (span sa n : Nat) : (m.spanRead span sa n).2.2.host = m.host := by
  refine foldl_view_eq (view := fun x : List Byte × Bool × Main => x.2.2.host) (fun x p => ?_) _ ([], false, m)
  dsimp only
  split
  · exact Main.homeUR_host _ _
  · rfl

end

/-! ### Window reads (R208, R346, R347) -/

/-- A sender that keeps no place gives none up. -/
theorem Main.leaveTurns_of_no_place {m : Main} {who : TurnOf} (h : ∀ x ∈ m.coh.waiting, x.turnOf ≠ some who) (hit : Nat → Bool) :
    m.leaveTurns who hit = m := by
  have hnone : m.coh.waiting.filter (fun r => r.turnOf == some who && hit r.line) = [] := by
    rw [List.filter_eq_nil_iff]
    exact fun x hx => by simp [h x hx]
  have hall : m.coh.waiting.filter (fun r => !(r.turnOf == some who && hit r.line)) = m.coh.waiting := by
    rw [List.filter_eq_self]
    exact fun x hx => by simp [h x hx]
  simp only [Main.leaveTurns, hnone, hall, List.map_nil, List.foldl_nil]

/-- The block when a window read has its turn: its places at the homes are given up, and it waits no more. -/
def Main.windowTurn (m : Main) (fn : Fn) (off len : Nat) : Main :=
  { m.leaveTurns (.window fn off len) (fun _ => true) with
    host := { m.host with winWaits := m.host.winWaits.filter (fun x => x != ⟨fn, off, len⟩) } }

section
variable {m : Main} {r : FnRec} {fn : Fn} {off len : Nat}

/-- A read that has not waited finds its turn at once. -/
theorem Main.windowTurn_of_new (hnew : ⟨fn, off, len⟩ ∉ m.host.winWaits)
    (hplace : ∀ x ∈ m.coh.waiting, x.turnOf ≠ some (.window fn off len)) : m.windowTurn fn off len = m := by
  have hall : m.host.winWaits.filter (fun x => x != ⟨fn, off, len⟩) = m.host.winWaits := by
    rw [List.filter_eq_self]
    exact fun x hx => bne_iff_ne.2 (ne_of_mem_of_not_mem hx hnew)
  rw [Main.windowTurn, Main.leaveTurns_of_no_place hplace, hall]

theorem Main.windowGo_of_none (hwin : m.window r off len = .none) :
    m.windowGo r fn off len = (m.windowTurn fn off len).windowDone fn off .unsupported [] false := by
  simp only [Main.windowGo, hwin]
  rfl

theorem Main.windowGo_of_closed (hwin : m.window r off len = .closed) :
    m.windowGo r fn off len = (m.windowTurn fn off len).windowDone fn off .aborted [] false := by
  simp only [Main.windowGo, hwin]
  rfl

variable {g : Segment}

/-- A read whose lines cannot be served yet takes its turn at their homes. -/
theorem Main.windowGo_of_held (hwin : m.window r off len = .mem g)
    (hheld : m.spanHeld (some (.window fn off len)) g.span (g.addr off) len = true) (hnew : ⟨fn, off, len⟩ ∉ m.host.winWaits) :
    m.windowGo r fn off len =
      let m1 := m.takeTurns (.window fn off len) (m.spanLines g.span (g.addr off) len)
      { m1 with host := { m1.host with winWaits := m1.host.winWaits ++ [⟨fn, off, len⟩] } } := by
  have hcontains : m.host.winWaits.contains ⟨fn, off, len⟩ = false := by simpa using hnew
  simp only [Main.windowGo, hwin, hheld, hcontains, if_true, Bool.false_eq_true, if_false]

/-- A read that waits goes on waiting while its lines cannot be served. -/
theorem Main.windowGo_of_still_held (hwin : m.window r off len = .mem g)
    (hheld : m.spanHeld (some (.window fn off len)) g.span (g.addr off) len = true) (hwaits : ⟨fn, off, len⟩ ∈ m.host.winWaits) :
    m.windowGo r fn off len = m := by
  have hcontains : m.host.winWaits.contains ⟨fn, off, len⟩ = true := by simpa using hwaits
  simp only [Main.windowGo, hwin, hheld, hcontains, if_true]

/-- The block when a window read has been served its bytes. -/
def Main.windowServed (m : Main) (g : Segment) (fn : Fn) (off len : Nat) : Main :=
  let x := m.spanRead g.span (g.addr off) len
  x.2.2.windowDone fn off .ok x.1 x.2.1

/-- A read whose lines can be served completes with the bytes. -/
theorem Main.windowGo_of_free (hwin : m.window r off len = .mem g)
    (hfree : m.spanHeld (some (.window fn off len)) g.span (g.addr off) len = false) :
    m.windowGo r fn off len = (m.windowTurn fn off len).windowServed g fn off len := by
  simp only [Main.windowGo, hwin, hfree, Bool.false_eq_true, if_false]
  rfl

theorem Main.windowServed_host (m : Main) (g : Segment) (fn : Fn) (off len : Nat) :
    (m.windowServed g fn off len).host = { m.host with winReads := m.host.winReads ++
      [{ fn := fn, off := off, st := .ok, data := (m.spanRead g.span (g.addr off) len).1
         ep := (m.spanRead g.span (g.addr off) len).2.1 }] } := by
  simp only [Main.windowServed, Main.windowDone, Main.spanRead_host]

/-- A read that has been served waits no more, and its completion is the newest. -/
theorem Main.windowServed_completes (m : Main) (g : Segment) (fn : Fn) (off len : Nat) :
    let m1 := (m.windowTurn fn off len).windowServed g fn off len
    ⟨fn, off, len⟩ ∉ m1.host.winWaits ∧ ∃ d ep, m1.host.winReads =
      m.host.winReads ++ [{ fn := fn, off := off, st := .ok, data := d, ep := ep }] := by
  dsimp only
  rw [Main.windowServed_host]
  exact ⟨by simp [Main.windowTurn], _, _, rfl⟩

end

section
variable {s : State} {fn : Fn} {r : FnRec} {off : Nat}

/-- An AtomicOp to the window is answered Unsupported Request (R347). -/
theorem exec_windowRead_of_atomic {len : Nat} (hfn : s.main.fnOf fn = some r) (hreach : s.main.fnReach fn = true) (hlen : 0 < len) :
    exec (.windowRead fn off len true) s = toMain s (s.main.windowDone fn off .unsupported [] false) := by
  refine exec_eq_toMain (f := Main.windowRead fn off len true) rfl ?_
  simp [Main.windowRead, hfn, hreach, Nat.ne_of_gt hlen]

/-- A read of other bytes than those that are waited for goes on as the window and its lines allow. -/
theorem exec_windowRead_of_new {len : Nat} (hfn : s.main.fnOf fn = some r) (hreach : s.main.fnReach fn = true) (hlen : 0 < len)
    (hnew : ⟨fn, off, len⟩ ∉ s.main.host.winWaits) :
    exec (.windowRead fn off len false) s = toMain s (s.main.windowGo r fn off len) := by
  refine exec_eq_toMain (f := Main.windowRead fn off len false) rfl ?_
  simp [Main.windowRead, hfn, hreach, Nat.ne_of_gt hlen, hnew]

/-! ### Window writes (R346, R347) -/

/-- What a write comes to that meets something of the window: discarded and logged, or performed. -/
def Main.windowWritten (m : Main) (fn : Fn) (off : Nat) (bytes : List Byte) (bad : Bool) : WinHit → Main
  | .none => m.aerLog .unsupported fn off
  | .closed => m.aerLog .aborted fn off
  | .mem g => if g.wr then m.spanWrite g.span (g.addr off) bytes bad else m.aerLog .unsupported fn off

theorem exec_windowWrite_of_fnReach {bytes : List Byte} (hfn : s.main.fnOf fn = some r) (hreach : s.main.fnReach fn = true)
    (hbytes : bytes ≠ []) (bad : Bool) : exec (.windowWrite fn off bytes bad) s =
      toMain s (s.main.windowWritten fn off bytes bad (s.main.window r off bytes.length)) := by
  refine exec_eq_toMain (f := Main.windowWrite fn off bytes bad) rfl ?_
  have hpass : ¬((!s.main.fnReach fn) = true ∨ bytes = []) := by simp [hreach, hbytes]
  simp only [Main.windowWrite, hfn, if_neg hpass]
  cases s.main.window r off bytes.length with
  | none => rfl
  | closed => rfl
  | mem g => cases hwr : g.wr <;> simp [Main.windowWritten, hwr]

end

/-- Settles O35, from what a read of the window comes to in its turn and what a write meets. -/
theorem windowResults : Obligations.WindowResults := by
  intro s fn r off hfn hreach
  refine ⟨fun m st data ep => rfl, fun len hlen => ⟨exec_windowRead_of_atomic hfn hreach hlen, ?read, ?waits⟩, ?write⟩
  case read =>
    intro hnew hplace
    have hgo := exec_windowRead_of_new (off := off) hfn hreach hlen hnew
    have hturn := Main.windowTurn_of_new hnew hplace
    refine ⟨fun hwin => ?none, fun hwin => ?closed, fun g hwin => ⟨fun hfree => ?free, fun hheld => ?held⟩⟩
    case none => rw [hgo, Main.windowGo_of_none hwin, hturn]
    case closed => rw [hgo, Main.windowGo_of_closed hwin, hturn]
    case free =>
      rw [hgo, Main.windowGo_of_free hwin hfree, hturn]
      rfl
    case held => rw [hgo, Main.windowGo_of_held hwin hheld hnew]
  case waits =>
    intro g hwaits hwin
    refine ⟨fun hheld => Main.windowGo_of_still_held hwin hheld hwaits, fun hfree => ?_⟩
    rw [Main.windowGo_of_free hwin hfree]
    exact s.main.windowServed_completes g fn off len
  case write =>
    intro bytes bad hbytes ur ca
    have hgo := exec_windowWrite_of_fnReach (off := off) hfn hreach hbytes bad
    refine ⟨fun hwin => ?none, fun hwin => ?closed, fun g hwin => ⟨fun hwr => ?readOnly, fun hwr => ?performed⟩⟩
    case none => rw [hgo, hwin]; rfl
    case closed => rw [hgo, hwin]; rfl
    case readOnly => simp only [hgo, hwin, Main.windowWritten, hwr, Bool.false_eq_true, if_false, ur]
    case performed => simp only [hgo, hwin, Main.windowWritten, hwr, if_true]

end Sys2Proof.Machine
end

section
/-! Messages of collectives, and reserved messages (R253, R300, R304). -/

namespace Sys2Proof.Machine

/-! ### CDATA and CFAIL (R300, R304) -/

section
variable {s : State} {g : Msg} {m1 : Main} {op : Nat}

/-- A message whose collective runs here goes to its run. -/
theorem Main.collMessage_of_run {m : Main} {i : Nat} (f : Main → Nat → Main) (htake : m.takeMsg g = some m1) (hop : g.op = op)
    (hlegal : msgReserved g = false) (hrun : m1.collIdx g.span (fieldAt g.data 0 4) = some i) (hgo : m1.collWaits i = false) :
    Main.collMessage op f g m = .next (f m1 i) := by
  simp [Main.collMessage, htake, hop, hlegal, hrun, hgo]

/-- A message whose collective neither runs here nor is over here is kept until it starts. -/
theorem Main.collMessage_of_early {m : Main} (f : Main → Nat → Main) (htake : m.takeMsg g = some m1) (hop : g.op = op)
    (hlegal : msgReserved g = false) (hrun : m1.collIdx g.span (fieldAt g.data 0 4) = none)
    (hover : (m1.collIds.any fun u => u.span == g.span && u.id == fieldAt g.data 0 4 && u.left.contains g.src) = false) :
    Main.collMessage op f g m = .next { m1 with early := m1.early ++ [g] } := by
  simp only [Main.collMessage, htake, hop, hlegal, hrun, hover, ne_eq, not_true_eq_false, Bool.false_eq_true, or_self, if_false]

/-! ### Reserved messages (R253) -/

/-- What breaks R253: HOPS or LEN out of range, a bit of a tag echo that is reserved, an OP that is none. -/
theorem msgReserved_of_broken (h : g.hops = 0 ∨ 4 < g.hops ∨ 256 < msgLen g ∨
    (g.tag % 64 ≠ 0 ∧ opChannel g.op ≠ none ∧ opChannel g.op ≠ some 2) ∨
    (opChannel g.op = none ∧ ¬(0x60 ≤ g.op ∧ g.op ≤ 0x7F))) :
    msgReserved g = true := by
  obtain h | h | h | ⟨htag, hsome, hcoll⟩ | ⟨hnone, hop⟩ := h
  case inr.inr.inr.inl =>
    obtain ⟨v, hv⟩ := Option.ne_none_iff_exists'.1 hsome
    have hne : v ≠ 2 := fun h2 => hcoll (hv.trans (congrArg some h2))
    simp [msgReserved, hv, hne, htag]
  case inr.inr.inr.inr =>
    have hout : g.op < 0x60 ∨ 0x7F < g.op := by omega
    simp [msgReserved, hnone, hout]
  all_goals simp [msgReserved, h]

/-- A reserved request or landing is counted, and answered NOT_PERMITTED. -/
theorem exec_reservedMessage_of_asking (htake : s.main.takeMsg g = some m1) (hres : msgReserved g = true)
    (hasks : opChannel g.op = some 0 ∨ opChannel g.op = some 3) :
    exec (.reservedMessage g) s = toMain s ((m1.bump 5 1 0 1).respondErr g .notPermitted 0) := by
  refine exec_eq_toMain (f := Main.reservedMsg g) rfl ?_
  obtain h | h := hasks
  · simp [Main.reservedMsg, hres, htake, h]
  · simp [Main.reservedMsg, hres, htake, h]

/-- A reserved message that asks for nothing is counted, and no more. -/
theorem exec_reservedMessage_of_telling (htake : s.main.takeMsg g = some m1) (hres : msgReserved g = true)
    (hreq : opChannel g.op ≠ some 0) (hland : opChannel g.op ≠ some 3) :
    exec (.reservedMessage g) s = toMain s (m1.bump 5 1 0 1) := by
  refine exec_eq_toMain (f := Main.reservedMsg g) rfl ?_
  simp only [Main.reservedMsg, hres, htake, Bool.not_true, Bool.false_eq_true, if_false]

end

/-- Settles O24, from where a collective's message goes and what a reserved message comes to. -/
theorem otherMessages : Obligations.OtherMessages := by
  intro s g m1 htake
  refine ⟨fun i hlegal hrun hgo => ⟨fun hop => ?data, fun hop => ?fail⟩,
    fun hlegal hrun hover => ⟨fun hop => ?earlyData, fun hop => ?earlyFail⟩,
    fun hbroken => ⟨exec_reservedMessage_of_asking htake (msgReserved_of_broken hbroken),
      exec_reservedMessage_of_telling htake (msgReserved_of_broken hbroken)⟩⟩
  case data => exact exec_eq_toMain rfl (Main.collMessage_of_run (fun m i => m.collTake i g) htake hop hlegal hrun hgo)
  case fail => exact exec_eq_toMain rfl (Main.collMessage_of_run (fun m i => m.collFail i g) htake hop hlegal hrun hgo)
  case earlyData => exact exec_eq_toMain rfl (Main.collMessage_of_early (fun m i => m.collTake i g) htake hop hlegal hrun hover)
  case earlyFail => exact exec_eq_toMain rfl (Main.collMessage_of_early (fun m i => m.collFail i g) htake hop hlegal hrun hover)

end Sys2Proof.Machine
end

section
/-! Flits of a lane: DATA, NAK, CREDIT and IDLE (R250-R257, R270, R276, R522, R524). -/

namespace Sys2Proof.Machine

/-! ### What counting and hearing leave of a lane -/

/-- Codewords are counted outside the fabric. -/
@[simp] theorem Main.countFec_fab (m : Main) (i : Nat) (fec : Ecc) : (m.countFec i fec).fab = m.fab := by
  cases fec <;> rfl

@[simp] theorem Main.countFec_time (m : Main) (i : Nat) (fec : Ecc) : (m.countFec i fec).time = m.time := by
  cases fec <;> rfl

theorem Main.countFec_laneTests (m : Main) (i : Nat) (fec : Ecc) : (m.countFec i fec).laneTests i = m.laneTests i := by
  simp only [Main.laneTests, Main.countFec_fab]

theorem Main.countFec_takesFrom (m : Main) (i : Nat) (fec : Ecc) (l : Lane) (phys : Nat) :
    (m.countFec i fec).takesFrom i l phys = m.takesFrom i l phys := by
  simp only [Main.takesFrom, Main.sparingOf, Main.countFec_fab]

/-- Credits are no business of the lane's receiver. -/
theorem Lane.giveBack_receiver (l : Lane) (vc n : Nat) :
    (l.giveBack vc n).rxSeq = l.rxSeq ∧ (l.giveBack vc n).owed = l.owed := by
  induction n generalizing l with
  | zero => exact ⟨rfl, rfl⟩
  | succ n ih =>
    unfold Lane.giveBack
    dsimp only
    split
    · exact ih _
    · exact ih _

/-- Nor are acknowledgements. -/
theorem Lane.acked_receiver (l : Lane) (h : BitVec 128) (now : Nat) :
    (l.acked h now).rxSeq = l.rxSeq ∧ (l.acked h now).owed = l.owed := by
  unfold Lane.acked
  split
  · split <;> exact ⟨rfl, rfl⟩
  · exact ⟨rfl, rfl⟩

@[simp] theorem Lane.heard_rxSeq (l : Lane) (h : BitVec 128) (now : Nat) : (l.heard h now).rxSeq = l.rxSeq :=
  (Lane.giveBack_receiver _ _ _).1.trans ((Lane.giveBack_receiver _ _ _).1.trans (l.acked_receiver h now).1)

@[simp] theorem Lane.heard_owed (l : Lane) (h : BitVec 128) (now : Nat) : (l.heard h now).owed = l.owed :=
  (Lane.giveBack_receiver _ _ _).2.trans ((Lane.giveBack_receiver _ _ _).2.trans (l.acked_receiver h now).2)

/-- A lane that has heard a flit's header is what the header makes of it. -/
theorem Main.hear_lane {m : Main} {i : Nat} {l : Lane} (hl : m.fab.lanes[i]? = some l) (h : BitVec 128) :
    (m.hear i l h).fab.lanes[i]? = some (l.heard h m.time) := by
  have hset : (m.modLane i (fun _ => l.heard h m.time)).fab.lanes[i]? = some (l.heard h m.time) := by
    simp [modNth_eq_modify, hl]
  unfold Main.hear
  dsimp only
  split <;> exact hset

@[simp] theorem Main.hear_time (m : Main) (i : Nat) (l : Lane) (h : BitVec 128) : (m.hear i l h).time = m.time := by
  unfold Main.hear
  dsimp only
  split <;> rfl

/-- A replay that a header ends is logged. -/
def Main.logReplay (m : Main) (i : Nat) (l heard : Lane) : Main :=
  if l.resends ≠ 0 ∧ heard.resends = 0 then m.log (.replay i) else m

theorem Main.hear_eq (m : Main) (i : Nat) (l : Lane) (h : BitVec 128) :
    m.hear i l h = (m.modLane i (fun _ => l.heard h m.time)).logReplay i l (l.heard h m.time) := rfl

/-- What changes of a lane after it has heard a header may change with it. -/
theorem Main.hear_modLane (m : Main) (i : Nat) (l : Lane) (h : BitVec 128) (f : Lane → Lane) :
    (m.hear i l h).modLane i f =
      (m.modLane i (fun _ => f (l.heard h m.time))).logReplay i l (l.heard h m.time) := by
  have hboth : (m.modLane i (fun _ => l.heard h m.time)).modLane i f = m.modLane i (fun _ => f (l.heard h m.time)) := by
    simp only [Main.modLane, modNth_eq_modify, List.modify_modify_eq]
    rfl
  rw [Main.hear_eq, Main.logReplay, Main.logReplay, ← hboth]
  split <;> rfl

/-- What a change makes of a lane depends on that lane alone. -/
theorem Main.modLane_congr {m : Main} {i : Nat} {l : Lane} {f g : Lane → Lane} (hl : m.fab.lanes[i]? = some l) (hfg : f l = g l) :
    m.modLane i f = m.modLane i g := by
  have hlanes : m.fab.lanes.modify i f = m.fab.lanes.modify i g := by
    refine List.ext_getElem? fun k => ?_
    by_cases hk : i = k
    · subst hk
      simp [hl, hfg]
    · simp [List.getElem?_modify_ne, hk]
  simp only [Main.modLane, modNth_eq_modify, hlanes]

/-! ### DATA flits (R250, R251, R254, R257, R270, R522) -/

section
variable {s : State} {i phys : Nat} {fl : Flit} {l : Lane}

/-- A looped engine's flit is only counted. -/
theorem exec_dataFlit_of_looped (phys : Nat) (fl : Flit) (hl : s.main.fab.lanes[i]? = some l) (hloop : s.main.laneTests i = true) :
    exec (.dataFlit i phys fl) s = toMain s (s.main.countFec i fl.fec) :=
  exec_eq_toMain (f := Main.dataFlit i phys fl) rfl (by simp [Main.dataFlit, hl, Main.countFec_laneTests, hloop])

/-- Outside a spare the receiver takes flits from the physical lane that serves it. -/
theorem Main.takesFrom_of_no_spare {m : Main} (l : Lane) (phys : Nat) (h : m.sparingOf i = none) :
    m.takesFrom i l phys = (phys == l.phys) := by
  simp only [Main.takesFrom, h]

/-- During a hitless spare it takes them from the spare, and from the old lane up to the named LSEQ (R270 step 4). -/
theorem Main.takesFrom_of_hitless {m : Main} {p : Sparing} {c : Nat} (l : Lane) (phys : Nat) (h : m.sparingOf i = some p)
    (hhitless : p.hitless = true) (htrained : p.trained = true) (hcut : p.cut = some c) :
    m.takesFrom i l phys = true ↔ phys = 8 ∨ phys = l.phys ∧ seqFrom c l.rxSeq = false := by
  simp [Main.takesFrom, h, hhitless, htrained, hcut]

/-- A flit that is bad, or is not the one expected, is discarded and a NAK sent. -/
theorem exec_dataFlit_of_unexpected (hl : s.main.fab.lanes[i]? = some l) (hst : l.st = .active)
    (hloop : s.main.laneTests i = false) (htakes : s.main.takesFrom i l phys = true)
    (hbad : flitGood fl = false ∨ fhLseq fl.hdr ≠ l.rxSeq) :
    exec (.dataFlit i phys fl) s =
      toMain s ((s.main.countFec i fl.fec).modLane i (fun l => { l with nakSent := true })) := by
  have hno : (!flitGood fl || fhLseq fl.hdr != l.rxSeq) = true := by simpa using hbad
  exact exec_eq_toMain (f := Main.dataFlit i phys fl) rfl
    (by simp [Main.dataFlit, hl, hst, Main.countFec_laneTests, hloop, Main.countFec_takesFrom, htakes, hno])

/-- The lane after a good flit with the LSEQ it expected. -/
def Lane.accepts (l : Lane) (fl : Flit) (now : Nat) : Lane :=
  { l.heard fl.hdr now with
    rxSeq := (l.rxSeq + 1) % 4096, rxAny := true, nakSent := false, incoming := (unpack l fl).2
    owed := modNth l.owed (fhVc fl.hdr) (· + 1) }

/-- Such a flit is accepted, and the messages that it completes are received. -/
theorem exec_dataFlit_of_expected (hl : s.main.fab.lanes[i]? = some l) (hst : l.st = .active)
    (hloop : s.main.laneTests i = false) (htakes : s.main.takesFrom i l phys = true)
    (hgood : flitGood fl = true) (hseq : fhLseq fl.hdr = l.rxSeq) :
    exec (.dataFlit i phys fl) s = toMain s (((unpack l fl).1.foldl (fun m p => m.received i p)
      ((((s.main.countFec i fl.fec).modLane i (fun _ => l.accepts fl s.main.time)).logReplay i l
        (l.heard fl.hdr s.main.time)).bump 3 1 i 1)).flush) := by
  refine exec_eq_toMain (f := Main.dataFlit i phys fl) rfl ?_
  simp only [Main.dataFlit, hl, hst, Main.countFec_laneTests, hloop, Main.countFec_takesFrom, htakes, hgood, hseq,
    Main.hear_modLane, Main.countFec_time, Lane.heard_rxSeq, Lane.heard_owed, Lane.accepts]
  simp

/-! ### NAK, CREDIT and IDLE (R250, R254, R255, R257, R276, R522) -/

/-- A header on an active lane is heard, and what waits is tried again. -/
theorem Main.onLane_of_active {m : Main} (hl : m.fab.lanes[i]? = some l) (hst : l.st = .active) (h : BitVec 128) (f : Main → Main) :
    m.onLane i h f = .next ((f (m.hear i l h)).flush) := by
  simp [Main.onLane, hl, hst]

/-- A lane that sends the first flit again of those which another record of it holds. -/
def Lane.resent (x l : Lane) (now : Nat) : Lane :=
  { x with resends := l.resends + 1, waitAt := now, last := l.replay.getLast?.map (·.flit) }

/-- A NAK: the first flit that its header leaves in the replay buffer is sent again, at most 8 times. -/
theorem exec_nak_of_active {h : BitVec 128} (hl : s.main.fab.lanes[i]? = some l) (hst : l.st = .active) (hkind : fhKind h = 2) :
    let l1 := l.heard h s.main.time
    let m1 := (s.main.bump 3 2 i 1).hear i l h
    exec (.nak i h) s = toMain s ((if l1.replay = [] then m1 else if 8 ≤ l1.resends then m1.failLane i
      else m1.modLane i (fun x => x.resent l1 s.main.time)).flush) := by
  intro l1 m1
  have hlane : m1.fab.lanes[i]? = some l1 := Main.hear_lane (m := s.main.bump 3 2 i 1) hl h
  have htime : m1.time = s.main.time := Main.hear_time _ i l h
  have hagain : m1.modLane i (fun x => x.resent x s.main.time) = m1.modLane i (fun x => x.resent l1 s.main.time) :=
    Main.modLane_congr hlane rfl
  refine exec_eq_toMain (f := Main.nakFlit i h) rfl ?_
  rw [Main.nakFlit, if_neg (not_not_intro hkind), Main.onLane_of_active (m := s.main.bump 3 2 i 1) hl hst, ← hagain]
  simp only [m1] at hlane htime
  simp only [hlane, htime, List.isEmpty_iff, Lane.resent, m1]

/-- A CREDIT. -/
theorem exec_credit_of_active {h : BitVec 128} (hl : s.main.fab.lanes[i]? = some l) (hst : l.st = .active) (hkind : fhKind h = 3) :
    exec (.credit i h) s = toMain s ((s.main.hear i l h).flush) :=
  exec_eq_toMain (f := Main.creditFlit i h) rfl
    ((if_neg (not_not_intro hkind)).trans (Main.onLane_of_active hl hst h _))

/-- An IDLE with a good CRC advances the cone. -/
theorem exec_idle_of_good {h : BitVec 128} (hl : s.main.fab.lanes[i]? = some l) (hst : l.st = .active) (hkind : fhKind h = 1)
    (hloop : s.main.laneTests i = false) :
    exec (.idle i h true) s =
      toMain s (((s.main.hear i l h).modLane i (fun x => { x with coneAt := s.main.time })).flush) := by
  refine exec_eq_toMain (f := Main.idleFlit i h true) rfl ?_
  simp [Main.idleFlit, hkind, hloop, Main.onLane_of_active hl hst]

/-- One with a bad CRC is ignored. -/
theorem exec_idle_of_bad {h : BitVec 128} (hl : s.main.fab.lanes[i]? = some l) (hst : l.st = .active) (hkind : fhKind h = 1)
    (hloop : s.main.laneTests i = false) : exec (.idle i h false) s = .next s :=
  exec_eq_toMain (f := Main.idleFlit i h false) rfl (by simp [Main.idleFlit, hkind, hloop, Main.laneActive, hl, hst])

/-- On a looped engine a good IDLE says nothing. -/
theorem exec_idle_of_looped_good {h : BitVec 128} (hkind : fhKind h = 1) (hloop : s.main.laneTests i = true) :
    exec (.idle i h true) s = .next s :=
  exec_eq_toMain (f := Main.idleFlit i h true) rfl (by simp [Main.idleFlit, hkind, hloop])

/-- In a loopback with IDLE flits a bad one counts as an uncorrectable codeword (R522; assumption log 95). -/
theorem exec_idle_of_looped_bad {h : BitVec 128} (hkind : fhKind h = 1) (hloop : s.main.laneTests i = true)
    (hpattern : (s.main.optOf (i / 8)).pattern = 0) :
    exec (.idle i h false) s = toMain s (s.main.countFec i .uncorrectable) :=
  exec_eq_toMain (f := Main.idleFlit i h false) rfl (by simp [Main.idleFlit, hkind, hloop, hpattern])

end

/-- Settles O25, from what each kind of flit comes to on a looped and on an active lane. -/
theorem flitResults : Obligations.FlitResults := by
  refine ⟨fun s i phys fl h l hl hloop => ?looped, fun s i phys fl l hl hst => ⟨?takes, fun hloop htakes => ?data⟩,
    fun s i h l hl hst => ?others⟩
  case looped =>
    exact ⟨exec_dataFlit_of_looped phys fl hl hloop,
      fun hkind => ⟨exec_idle_of_looped_good hkind hloop, exec_idle_of_looped_bad hkind hloop⟩⟩
  case takes => exact ⟨Main.takesFrom_of_no_spare l phys, fun p c => Main.takesFrom_of_hitless l phys⟩
  case data => exact ⟨exec_dataFlit_of_unexpected hl hst hloop htakes, exec_dataFlit_of_expected hl hst hloop htakes⟩
  case others =>
    exact ⟨exec_nak_of_active hl hst, exec_credit_of_active hl hst,
      fun hkind hloop => ⟨exec_idle_of_good hl hst hkind hloop, exec_idle_of_bad hl hst hkind hloop⟩⟩

end Sys2Proof.Machine
end

section
/-! Failing lanes, spares, retraining and training (R243, R245, R255, R260, R270-R275). -/

namespace Sys2Proof.Machine

/-! ### Lanes that fail (R255, R271) -/

section
variable {s : State} {i : Nat} {l : Lane}

theorem Main.laneActive_of_active {m : Main} (hl : m.fab.lanes[i]? = some l) (hst : l.st = .active) : m.laneActive i = true := by
  simp [Main.laneActive, hl, hst]

/-- When 8 resends have not been accepted the lane fails at once. -/
theorem exec_laneAckTimeout_of_spent (hl : s.main.fab.lanes[i]? = some l) (hst : l.st = .active) (hkept : l.replay ≠ [])
    (hspent : 8 ≤ l.resends) : exec (.laneAckTimeout i) s = toMain s ((s.main.failLane i).flush) :=
  exec_eq_toMain (f := Main.ackLate i) rfl (by simp [Main.ackLate, hl, hst, hkept, hspent])

/-- Otherwise it fails when 100 µs have passed without an acknowledgement. -/
theorem exec_laneAckTimeout_of_waiting (hl : s.main.fab.lanes[i]? = some l) (hst : l.st = .active) (hkept : l.replay ≠ [])
    (hwait : l.resends < 8) :
    exec (.laneAckTimeout i) s = toMain s (((s.main.until (l.waitAt + 100000)).failLane i).flush) := by
  have hleft : ¬ 8 ≤ l.resends := by omega
  exact exec_eq_toMain (f := Main.ackLate i) rfl (by simp [Main.ackLate, hl, hst, hkept, hleft])

theorem exec_laneSignalLoss_of_active (hl : s.main.fab.lanes[i]? = some l) (hst : l.st = .active) :
    exec (.laneSignalLoss i) s = toMain s ((s.main.failLane i).flush) :=
  exec_eq_toMain (f := Main.signalLoss i) rfl (if_pos (Main.laneActive_of_active hl hst))

/-! ### Degrading lanes (R270, R414, R522) -/

/-- An error ratio above the threshold makes the lane ask for its spare. -/
theorem exec_berWindow_of_active (hl : s.main.fab.lanes[i]? = some l) (hst : l.st = .active)
    (hproc : s.main.procOut (fabProc i) = false) (hloop : s.main.laneTests i = false) (ber : Word) :
    exec (.berWindow i ber) s = toMain s (if (f32 (BitVec.ofNat 32 (s.main.param 5))).lt (f32 ber) then
      (s.main.gauge 3 5 i ber.toNat).degrade i else s.main.gauge 3 5 i ber.toNat) := by
  refine exec_eq_toMain (f := Main.berWindow i ber) rfl ?_
  simp only [Main.berWindow, hloop, Main.laneActive_of_active hl hst, hproc, Bool.not_true, Bool.or_self, Bool.false_eq_true,
    if_false]

/-- Of a looped lane the error ratio is only shown. -/
theorem exec_berWindow_of_looped (hloop : s.main.laneTests i = true) (ber : Word) :
    exec (.berWindow i ber) s = toMain s (s.main.gauge 3 5 i ber.toNat) :=
  exec_eq_toMain (f := Main.berWindow i ber) rfl (if_pos hloop)

theorem exec_rxPowerAlarm_of_active (hl : s.main.fab.lanes[i]? = some l) (hst : l.st = .active)
    (hproc : s.main.procOut (fabProc i) = false) (uw : Nat) :
    exec (.rxPowerAlarm i uw) s = toMain s ((s.main.gauge 3 6 i uw).degrade i) :=
  exec_eq_toMain (f := Main.powerAlarm i uw) rfl (by simp [Main.powerAlarm, Main.laneActive_of_active hl hst, hproc])

theorem Main.degrade_of_free {m : Main} (h : m.spareFree i = true) : m.degrade i = m.beginSpare i true (.spareRequest i false) :=
  if_pos h

theorem Main.degrade_of_taken {m : Main} (h : m.spareFree i = false) : m.degrade i = m := by
  simp [Main.degrade, h]

/-! ### Spares that the far end asks for (R270, R271, R273) -/

/-- A free spare trains for no lane. -/
theorem Main.sparingOf_of_spareFree {m : Main} (h : m.spareFree i = true) : m.sparingOf i = none := by
  simp only [Main.spareFree, Main.optOf, nth, Bool.and_eq_true] at h
  obtain ⟨⟨-, hidle⟩, -⟩ := h
  unfold Main.sparingOf
  cases he : m.fab.engines[i / 8]? with
  | none => rfl
  | some e =>
    have hnone : e.sparing = none := by simpa [he] using hidle
    simp [hnone]

/-- A free spare is granted, and trains. -/
theorem exec_spareRequest_of_free (hl : s.main.fab.lanes[i]? = some l) (hst : l.st = .active)
    (hproc : s.main.procOut (fabProc i) = false) (hfree : s.main.spareFree i = true) (abrupt : Bool) :
    exec (.spareRequest ⟨i, abrupt⟩) s =
      toMain s ((if abrupt then s.main.stopLane i else s.main).beginSpare i (!abrupt) (.spareGrant i)) :=
  exec_eq_toMain (f := Main.spareAsked i abrupt) rfl
    (by simp [Main.spareAsked, hproc, Main.sparingOf_of_spareFree hfree, Main.laneActive_of_active hl hst, hfree])

/-- Where none is free the request changes nothing. -/
theorem exec_spareRequest_of_taken (hl : s.main.fab.lanes[i]? = some l) (hst : l.st = .active)
    (hproc : s.main.procOut (fabProc i) = false) (htaken : s.main.spareFree i = false) (hnone : s.main.sparingOf i = none)
    (abrupt : Bool) : exec (.spareRequest ⟨i, abrupt⟩) s = .next s :=
  exec_eq_toMain (f := Main.spareAsked i abrupt) rfl
    (by simp [Main.spareAsked, hproc, hnone, Main.laneActive_of_active hl hst, htaken])

/-- A spare that this end has begun is granted as the same one, abrupt when either end's is (R273). -/
theorem exec_spareRequest_of_begun {r : Sparing} (hproc : s.main.procOut (fabProc i) = false)
    (hr : s.main.sparingOf i = some r) (abrupt : Bool) :
    exec (.spareRequest ⟨i, abrupt⟩) s = toMain s (if abrupt = true ∧ r.hitless = true then
      ((s.main.sendFabric i (.spareGrant i)).stopLane i).modOpt (i / 8) (fun o => { o with sparing := some { r with hitless := false } })
      else s.main.sendFabric i (.spareGrant i)) :=
  exec_eq_toMain (f := Main.spareAsked i abrupt) rfl (by simp [Main.spareAsked, hproc, hr])

/-! ### Trained spares (R243, R270, R271, R273) -/

section
variable {r : Sparing} (hproc : s.main.procOut (fabProc i) = false) (hr : s.main.sparingOf i = some r)
  (hl : s.main.fab.lanes[i]? = some l)
include hproc hr hl

/-- An abrupt spare takes its lane over. -/
theorem exec_spareTrained_of_abrupt (named : Nat) (hknown : r.known = true) (htrained : r.trained = false)
    (habrupt : r.hitless = false) (hlit : s.main.laneDark i = false) :
    exec (.spareTrained i named) s = toMain s ((s.main.useSpare i).flush) :=
  exec_eq_toMain (f := Main.spareTrained i named) rfl
    (by simp [Main.spareTrained, hr, hl, htrained, hproc, hknown, habrupt, hlit])

/-- While the lane's laser source is being taken over it waits. -/
theorem exec_spareTrained_of_dark (named : Nat) (hknown : r.known = true) (htrained : r.trained = false)
    (habrupt : r.hitless = false) (hdark : s.main.laneDark i = true) :
    exec (.spareTrained i named) s =
      toMain s (s.main.modOpt (i / 8) (fun o => { o with sparing := some { r with trained := true } })) :=
  exec_eq_toMain (f := Main.spareTrained i named) rfl
    (by simp [Main.spareTrained, hr, hl, htrained, hproc, hknown, habrupt, hdark])

/-- A hitless spare names the LSEQ from which on this end sends on it, and learns the far end's. -/
theorem exec_spareTrained_of_hitless (named : Nat) (hknown : r.known = true) (htrained : r.trained = false)
    (hhitless : r.hitless = true) (hcalm : l.resends = 0) (hlit : s.main.laneDark i = false) :
    exec (.spareTrained i named) s = toMain s (((s.main.modOpt (i / 8) (fun o => { o with
      sparing := some { r with trained := true, lseq := some l.txSeq, cut := some (named % 4096) } })).modLane i
        (fun l => { l with txPhys := 8 })).sendCtrl (.named i l.txSeq)) :=
  exec_eq_toMain (f := Main.spareTrained i named) rfl
    (by simp [Main.spareTrained, hr, hl, htrained, hproc, hknown, hhitless, hcalm, hlit])

/-- Its switch is over when the flits before both named LSEQs are done with. -/
theorem exec_hitlessSpare_of_named (htrained : r.trained = true) (hhitless : r.hitless = true) (hcalm : l.resends = 0)
    (hlit : s.main.laneDark i = false)
    (hsent : ∀ n f, r.lseq = some n → f ∈ l.replay → seqFrom n (fhLseq f.flit.hdr) = true)
    (hcame : ∀ c, r.cut = some c → seqFrom c l.rxSeq = true) :
    exec (.hitlessSpare i) s =
      toMain s ((((s.main.useSpare i).log (.spare i)).postFabric i 1 (s.main.laneNeighbour i)).flush) := by
  have hacked : (l.replay.all fun f => r.lseq.all fun n => seqFrom n (fhLseq f.flit.hdr)) = true := by
    simp only [List.all_eq_true, Option.all_eq_true]
    exact fun f hf n hn => hsent n f hn hf
  have hnamed : (r.cut.all fun c => seqFrom c l.rxSeq) = true := by
    simpa only [Option.all_eq_true] using hcame
  exact exec_eq_toMain (f := Main.hitless i) rfl
    (by simp only [Main.hitless, hr, hl, hhitless, htrained, hproc, hcalm, hlit, hacked, hnamed]; simp)

end

/-! ### Retraining (R274, R275) -/

/-- A lane that is calibrated, has failed or is miswired trains, and tells its identity. -/
theorem Main.trainLane_eq (m : Main) (k : Nat) : m.trainLane k =
    if (m.fab.lanes[k]?.any fun l => l.st == .calibrating || l.st == .failed || l.st == .miswired) = true then
      (m.modLane k (fun l => { l with st := .training })).sendCtrl (.identity k)
    else m := by
  unfold Main.trainLane
  cases m.fab.lanes[k]? with
  | none => rfl
  | some l => simp [or_assoc]

/-- The lanes of a lit engine that is not looped train, and its spare is ready. -/
theorem exec_laneRetrain_of_ready {e : Nat} (he : e < 16) (hlit : (s.main.optOf e).laserOn = true)
    (hplain : (s.main.optOf e).loopback = 0) (hproc : s.main.procOut (fabProc (e * 8)) = false) :
    let m1 := s.main.modOpt e (fun o => { o with spare := if o.spareUsed.isSome then .active else .standby })
    exec (.laneRetrain e) s = toMain s ((engineLanes e).foldl (fun m k =>
      if (m.fab.lanes[k]?.any fun l => l.st == .calibrating || l.st == .failed || l.st == .miswired) = true then
        (m.modLane k (fun l => { l with st := .training })).sendCtrl (.identity k)
      else m) m1) := by
  have hlt : ¬ 16 ≤ e := by omega
  intro m1
  rw [← show Main.trainLane = _ from funext fun m => funext fun k => m.trainLane_eq k]
  exact exec_eq_toMain (f := Main.retrained e) rfl (by simp [Main.retrained, hlt, hlit, hplain, hproc, m1])

/-! ### Identities of spares (R245, R273, R275) -/

/-- What a spare is known to reach, and what becomes of it. -/
def Main.spareReaches (m : Main) (i : Nat) (tx : LaneEnd) (trip : Nat) (st : LaneState) : Main :=
  m.modOpt (i / 8) (fun o => { o with spareFar := some tx, spareTrip := trip, spare := st, sparing := none })

/-- A lane whose spare does not train for it goes on if it is only degrading. -/
def Main.withoutSpare (m : Main) (i : Nat) (r : Sparing) : Main := if r.hitless then m else m.withdraw i

/-- Whether a spare's two ends are spares of neighbours that its lane's group names, and agree on it. -/
def Main.spareWired (m : Main) (i : Nat) (tx rx : LaneEnd) : Prop := tx = rx ∧ tx.module = m.laneNeighbour i ∧ tx.lane = 8

section
variable {m : Main} {r : Sparing} {tx rx : LaneEnd}

/-- It reaches the spare of the engine on which the lane's far end lies: it trains on. -/
theorem Main.spareIdentity_of_same (trip : Nat) (hl : m.fab.lanes[i]? = some l) (hwired : m.spareWired i tx rx)
    (hfar : tx.engine = l.farEngine) :
    m.spareIdentity i r tx rx trip = (m.modOpt (i / 8) (fun o => { o with
      spareFar := some tx, spareTrip := trip, sparing := some { r with known := true } })).modLane i
        (fun l => { l with roundTrip := trip }) := by
  unfold Main.spareWired at hwired
  simp only [Main.spareIdentity, hl, if_pos (And.intro hwired hfar)]

/-- It reaches another engine's: it stays for a lane that lies there. -/
theorem Main.spareIdentity_of_other (trip : Nat) (hl : m.fab.lanes[i]? = some l) (hwired : m.spareWired i tx rx)
    (hfar : tx.engine ≠ l.farEngine) :
    m.spareIdentity i r tx rx trip =
      Main.keepingOrder (fun m => (m.spareReaches i tx trip .standby).withoutSpare i r) m := by
  have hother : ¬(m.spareWired i tx rx ∧ tx.engine = l.farEngine) := fun h => hfar h.2
  unfold Main.spareWired at hwired hother
  simp only [Main.spareIdentity, hl, if_neg hother, if_pos hwired, Main.spareReaches, Main.withoutSpare]

/-- It is miswired, which is posted. -/
theorem Main.spareIdentity_of_miswired (trip : Nat) (hl : m.fab.lanes[i]? = some l) (hwired : ¬ m.spareWired i tx rx) :
    m.spareIdentity i r tx rx trip = Main.keepingOrder (fun m =>
      ((m.spareReaches i tx trip .miswired).postFabric i 5 tx.module).withoutSpare i r) m := by
  have hother : ¬(m.spareWired i tx rx ∧ tx.engine = l.farEngine) := fun h => hwired h.1
  unfold Main.spareWired at hwired hother
  simp only [Main.spareIdentity, hl, if_neg hother, if_neg hwired, Main.spareReaches, Main.withoutSpare]

/-- The identity exchange of a spare that trains. -/
theorem exec_identityExchange_of_spare (trip : Nat) (hl : s.main.fab.lanes[i]? = some l)
    (hproc : s.main.procOut (fabProc i) = false) (hr : s.main.sparingOf i = some r) (hknown : r.known = false) :
    exec (.identityExchange i tx rx trip) s = toMain s ((s.main.spareIdentity i r tx rx trip).flush) :=
  exec_eq_toMain (f := Main.identity i tx rx trip) rfl (by simp [Main.identity, hl, hproc, hr, hknown])

end

/-! ### Identities of lanes (R260, R275) -/

/-- What a lane's far end has told, and what becomes of the lane. -/
def Main.laneReaches (m : Main) (i : Nat) (tx : LaneEnd) (trip : Nat) (st : LaneState) : Main :=
  m.modLane i (fun l => { l with
    st := st, farModule := tx.module, farEngine := tx.engine, farLane := tx.lane, roundTrip := trip })

section
variable {tx rx : LaneEnd} {g : Group} (hl : s.main.fab.lanes[i]? = some l) (hproc : s.main.procOut (fabProc i) = false)
  (hnone : s.main.sparingOf i = none) (hst : l.st = .training ∨ l.st = .calibrating)
include hl hproc hnone hst

/-- A lane of no group goes on training. -/
theorem exec_identityExchange_of_no_group (trip : Nat) (hgroup : s.main.laneGroup i = none) :
    exec (.identityExchange i tx rx trip) s = toMain s (s.main.laneReaches i tx trip .training) := by
  have htrains : ¬(l.st ≠ .training ∧ l.st ≠ .calibrating) := fun h => hst.elim h.1 h.2
  refine exec_eq_toMain (f := Main.identity i tx rx trip) rfl ?_
  simp only [Main.identity, hl, hproc, hnone, if_neg htrains, hgroup, Bool.false_eq_true, if_false, Main.laneReaches]

/-- A lane comes up when both ends agree and its neighbour is the one its group names; the first of a group's is posted. -/
theorem exec_identityExchange_of_neighbour (trip : Nat) (hgroup : s.main.laneGroup i = some g) (hends : tx = rx)
    (hmodule : tx.module = g.neighbour) :
    let m1 := Main.keepingOrder (fun m => m.modLane i (fun l => l.fresh tx trip m.time)) s.main
    exec (.identityExchange i tx rx trip) s = toMain s ((if s.main.activeIn g = [] ∧ s.main.rcv.phase = .running then
      m1.postFabric g.num 4 g.neighbour else m1).flush) := by
  have htrains : ¬(l.st ≠ .training ∧ l.st ≠ .calibrating) := fun h => hst.elim h.1 h.2
  refine exec_eq_toMain (f := Main.identity i tx rx trip) rfl ?_
  simp only [Main.identity, hl, hproc, hnone, if_neg htrains, hgroup, if_pos (And.intro hends hmodule), Bool.false_eq_true,
    if_false, Bool.and_eq_true, List.isEmpty_iff, beq_iff_eq]

/-- Otherwise it is miswired, which is posted. -/
theorem exec_identityExchange_of_stranger (trip : Nat) (hgroup : s.main.laneGroup i = some g)
    (hwrong : tx ≠ rx ∨ tx.module ≠ g.neighbour) :
    exec (.identityExchange i tx rx trip) s =
      toMain s ((s.main.laneReaches i tx trip .miswired).postFabric i 5 tx.module) := by
  have htrains : ¬(l.st ≠ .training ∧ l.st ≠ .calibrating) := fun h => hst.elim h.1 h.2
  have hnot : ¬(tx = rx ∧ tx.module = g.neighbour) := fun h => hwrong.elim (fun hne => hne h.1) (fun hne => hne h.2)
  refine exec_eq_toMain (f := Main.identity i tx rx trip) rfl ?_
  simp only [Main.identity, hl, hproc, hnone, if_neg htrains, hgroup, if_neg hnot, Bool.false_eq_true, if_false,
    Main.laneReaches]

end

end

/-- Settles O26, from what each command on a lane, its spare and its training comes to. -/
theorem laneRecovery : Obligations.LaneRecovery := by
  refine ⟨fun s i l hl hst => ⟨exec_laneAckTimeout_of_spent hl hst, exec_laneAckTimeout_of_waiting hl hst,
      exec_laneSignalLoss_of_active hl hst, fun hproc hloop => ?active⟩,
    fun s i => ⟨fun hproc => ?served, exec_laneRetrain_of_ready, fun l tx rx trip hl hproc => ?identity⟩⟩
  case active =>
    refine ⟨exec_berWindow_of_active hl hst hproc hloop, exec_rxPowerAlarm_of_active hl hst hproc, fun hfree => ⟨?_, ?_⟩,
      fun htaken => ⟨exec_spareRequest_of_taken hl hst hproc htaken, Main.degrade_of_taken htaken⟩⟩
    · exact exec_spareRequest_of_free hl hst hproc hfree
    · exact Main.degrade_of_free hfree
  case served =>
    refine ⟨fun r abrupt hr => exec_spareRequest_of_begun hproc hr abrupt, fun ber hloop => exec_berWindow_of_looped hloop ber,
      fun r l named hr hl hknown => ⟨fun htrained habrupt => ⟨?_, ?_⟩, ?_, ?_⟩⟩
    · exact exec_spareTrained_of_abrupt hproc hr hl named hknown htrained habrupt
    · exact exec_spareTrained_of_dark hproc hr hl named hknown htrained habrupt
    · exact exec_spareTrained_of_hitless hproc hr hl named hknown
    · exact exec_hitlessSpare_of_named hproc hr hl
  case identity =>
    refine ⟨fun r hr hknown => ?spare, fun hnone hst => ⟨?alone, fun g hg => ⟨?up, ?wrong⟩⟩⟩
    case spare =>
      have hexchange := exec_identityExchange_of_spare (tx := tx) (rx := rx) trip hl hproc hr hknown
      refine ⟨fun hwired hfar => ?_, fun hwired hfar => ?_, fun hwired => ?_⟩
      · rw [hexchange, Main.spareIdentity_of_same trip hl hwired hfar]
      · rw [hexchange, Main.spareIdentity_of_other trip hl hwired hfar]
        rfl
      · rw [hexchange, Main.spareIdentity_of_miswired trip hl hwired]
        rfl
    case alone => exact exec_identityExchange_of_no_group hl hproc hnone hst trip
    case up => exact exec_identityExchange_of_neighbour hl hproc hnone hst trip hg
    case wrong => exact exec_identityExchange_of_stranger hl hproc hnone hst trip hg

end Sys2Proof.Machine
end

section
/-! What messages that leave on the fabric leave alone of the block. -/

namespace Sys2Proof.Machine

/-- The block without what messages may change that leave on the fabric: what events and error records may, the lanes, the messages that
wait or have come, those of the module's own that have left, and the drills' counts. -/
def Main.offTheRoad (m : Main) : Main :=
  { m.bystanders with
    drills := []
    fab := { m.fab with lanes := [], outbox := [], arrived := [], ctrlOut := [] } }

/-- Blocks with the same bystanders differ in no more than traffic. -/
theorem Main.offTheRoad_of_bystanders {m m1 : Main} (h : m1.bystanders = m.bystanders) : m1.offTheRoad = m.offTheRoad :=
  calc m1.offTheRoad = m1.bystanders.offTheRoad := rfl
    _ = m.bystanders.offTheRoad := by rw [h]

/-- Traffic takes no fabric time. -/
theorem Main.time_of_offTheRoad {m m1 : Main} (h : m1.offTheRoad = m.offTheRoad) : m1.time = m.time :=
  (congrArg (fun x : Main => x.time) h :)

/-- Nor does it change whether that is locked. -/
theorem Main.timeState_of_offTheRoad {m m1 : Main} (h : m1.offTheRoad = m.offTheRoad) : m1.fab.timeState = m.fab.timeState :=
  (congrArg (fun x : Main => x.fab.timeState) h :)

/-- No entry to the banked state begins or ends by it. -/
theorem Main.banking_of_offTheRoad {m m1 : Main} (h : m1.offTheRoad = m.offTheRoad) : m1.rcv.banking = m.rcv.banking :=
  (congrArg (fun x : Main => x.rcv.banking) h :)

section
variable (m : Main)

@[simp] theorem Main.modLane_offTheRoad (i : Nat) (f : Lane → Lane) : (m.modLane i f).offTheRoad = m.offTheRoad := rfl
@[simp] theorem Main.bump_offTheRoad (g c i n : Nat) : (m.bump g c i n).offTheRoad = m.offTheRoad := rfl
@[simp] theorem Main.corrupt_offTheRoad (i action : Nat) : (m.corrupt i action).offTheRoad = m.offTheRoad := rfl

@[simp] theorem Main.postFabric_offTheRoad (subject cause neighbour : Nat) :
    (m.postFabric subject cause neighbour).offTheRoad = m.offTheRoad :=
  Main.offTheRoad_of_bystanders (m.post_bystanders _ _ _ _ _)

/-! ### Flits and messages (R256-R263, R517-R519) -/

@[simp] theorem Main.drill_offTheRoad (vc : Nat) (g : Msg) (i : Nat) : (m.drill vc g i).2.offTheRoad = m.offTheRoad := by
  refine foldl_view_eq (view := fun x : List Drill × Main => x.2.offTheRoad) (fun x id => ?_) _ ([], m)
  dsimp only
  split
  · rfl
  · split <;> rfl

@[simp] theorem Main.passHeld_offTheRoad (vc : Nat) (g : Msg) (i : Nat) : (m.passHeld vc g i).offTheRoad = m.offTheRoad := by
  refine foldl_view_eq (view := Main.offTheRoad) (fun x id => ?_) _ m
  rfl

@[simp] theorem Main.sendTurn_offTheRoad (i vc : Nat) (g : Msg) (k : Nat) (l : Lane) :
    (m.sendTurn i vc g k l).offTheRoad = m.offTheRoad := by
  unfold Main.sendTurn
  dsimp only
  split
  · simp
  · split
    · split <;> simp
    · split
      · simp
      · split <;> simp

/-- However many flits a lane sends. -/
@[simp] theorem Main.pumpLane_offTheRoad (n i : Nat) : (Main.pumpLane n i m).offTheRoad = m.offTheRoad := by
  induction n generalizing m with
  | zero => rfl
  | succ n ih =>
    unfold Main.pumpLane
    split
    · rfl
    · split
      · rfl
      · split
        · split
          · rfl
          · exact ih _
        · split
          · exact (ih _).trans (Main.sendTurn_offTheRoad _ _ _ _ _ _)
          · exact ih _
          · rfl

@[simp] theorem Main.sendOn_offTheRoad (vc : Nat) (half : Option Nat) (g : Msg) : (m.sendOn vc half g).offTheRoad = m.offTheRoad := by
  unfold Main.sendOn
  split
  · rfl
  · split
    case h_1 m1 hassign =>
      obtain ⟨i, -, rfl⟩ := Option.map_eq_some_iff.1 hassign
      exact Main.pumpLane_offTheRoad _ _ _
    case h_2 => rfl

/-! ### The module's own messages (R252, R256) -/

@[simp] theorem Main.sendFar_offTheRoad (vc dest : Nat) (c : CtrlMsg) : (m.sendFar vc dest c).offTheRoad = m.offTheRoad := by
  unfold Main.sendFar
  split
  · rfl
  · exact m.sendOn_offTheRoad vc none _

@[simp] theorem Main.sendNear_offTheRoad (lane : Option Nat) (c : CtrlMsg) : (m.sendNear lane c).offTheRoad = m.offTheRoad := by
  cases lane with
  | none => rfl
  | some i => exact Main.pumpLane_offTheRoad _ _ _

/-- A message to another module is sent far, one to a neighbour near; an identity exchange is no flit. -/
@[simp] theorem Main.sendCtrl_offTheRoad (c : CtrlMsg) : (m.sendCtrl c).offTheRoad = m.offTheRoad := by
  cases c with
  | identity lane => rfl
  | fenceSignal | fenceAck | sagNotice | paceToken | abort | pierReceipt | work => exact Main.sendFar_offTheRoad _ _ _ _
  | bankingNotice | timeReply | spareRequest | spareGrant | accepted | named => exact Main.sendNear_offTheRoad _ _ _

end

end Sys2Proof.Machine
end

section
/-! Fabric time and its sources (R277-R279). -/

namespace Sys2Proof.Machine

/-! ### What steps fabric time (R277, R278) -/

@[simp] theorem Main.postFabric_time (m : Main) (subject cause neighbour : Nat) :
    (m.postFabric subject cause neighbour).time = m.time :=
  Main.time_of_offTheRoad (m.postFabric_offTheRoad subject cause neighbour)

@[simp] theorem Main.sendCtrl_time (m : Main) (c : CtrlMsg) : (m.sendCtrl c).time = m.time :=
  Main.time_of_offTheRoad (m.sendCtrl_offTheRoad c)

@[simp] theorem Main.sendCtrl_timeState (m : Main) (c : CtrlMsg) : (m.sendCtrl c).fab.timeState = m.fab.timeState :=
  Main.timeState_of_offTheRoad (m.sendCtrl_offTheRoad c)

@[simp] theorem Main.lockTime_time (m : Main) : m.lockTime.time = m.time := by
  unfold Main.lockTime
  dsimp only
  split
  · exact Main.postFabric_time _ _ _ _
  · rfl

/-- Once a module has joined an offset steers its time. -/
theorem Main.offsetTime_time {m : Main} (h : m.fab.timeState ≠ .unlocked) (off : Int) (inBound : Bool) :
    (m.offsetTime off inBound).time = m.time := by
  rw [Main.offsetTime, if_neg h]
  split
  · exact m.lockTime_time
  · rfl

theorem Main.timeExchange_time {m m1 : Main} {n : Nat} {off : Int} {inBound : Bool} (hjoined : m.fab.timeState ≠ .unlocked)
    (h : Main.timeExchange n off inBound m = .next m1) : m1.time = m.time := by
  have hsteers : ((m.sendCtrl (.timeReply n)).offsetTime off inBound).time = m.time := by
    rw [Main.offsetTime_time (by rwa [Main.sendCtrl_timeState]), Main.sendCtrl_time]
  unfold Main.timeExchange at h
  split at h
  · cases h
  · dsimp only at h
    split at h
    · cases h
      exact m.sendCtrl_time _
    · cases h
      exact hsteers

theorem Main.ftimeEdge_time {m m1 : Main} {off : Int} {spaced : Bool} (hjoined : m.fab.timeState ≠ .unlocked)
    (h : Main.ftimeEdge off spaced m = .next m1) : m1.time = m.time := by
  unfold Main.ftimeEdge at h
  split at h
  · cases h
    rfl
  · cases h
    cases spaced with
    | false => rfl
    | true => exact Main.offsetTime_time hjoined off true

/-! ### Exchanges with neighbours and HOLDOVER (R277, R278) -/

section
variable {s : State} {n : Nat}

/-- A neighbour's exchange is answered, and no more, unless it is the timing neighbour's and no other source supplies time. -/
theorem exec_timeExchange_of_answered (off : Int) (inBound : Bool)
    (hnear : (s.main.fab.groups.any fun g => g.neighbour == n && !(s.main.activeIn g).isEmpty) = true)
    (hother : s.main.fab.root = s.main.fab.module ∨ s.main.fab.syncing = true ∨ s.main.timingNeighbour n = false) :
    exec (.timeExchange n off inBound) s = toMain s (s.main.sendCtrl (.timeReply n)) := by
  have hanswers : s.main.fab.root = s.main.fab.module ∨ s.main.fab.syncing = true ∨ (!s.main.timingNeighbour n) = true := by
    simpa only [Bool.not_eq_true'] using hother
  refine exec_eq_toMain (f := Main.timeExchange n off inBound) rfl ?_
  simp only [Main.timeExchange, hnear, if_pos hanswers, Bool.not_true, Bool.false_eq_true, if_false]

/-- When a source of time was last heard. -/
def Main.stampHeard (m : Main) : Main := { m with fab := { m.fab with lastHeard := m.time } }

theorem exec_timeExchange_of_timing (off : Int) (inBound : Bool)
    (hnear : (s.main.fab.groups.any fun g => g.neighbour == n && !(s.main.activeIn g).isEmpty) = true)
    (hroot : s.main.fab.root ≠ s.main.fab.module) (hsync : s.main.fab.syncing = false) (htiming : s.main.timingNeighbour n = true) :
    exec (.timeExchange n off inBound) s =
      toMain s ((s.main.sendCtrl (.timeReply n)).offsetTime off inBound).stampHeard := by
  have hsteers : ¬(s.main.fab.root = s.main.fab.module ∨ s.main.fab.syncing = true ∨ (!s.main.timingNeighbour n) = true) := by
    simp [hroot, hsync, htiming]
  refine exec_eq_toMain (f := Main.timeExchange n off inBound) rfl ?_
  simp only [Main.timeExchange, hnear, if_neg hsteers, Bool.not_true, Bool.false_eq_true, if_false, Main.stampHeard]

/-- Ten milliseconds without the timing neighbour; the event names no lane and no module (assumption log 105). -/
theorem exec_holdover_of_locked (hlocked : s.main.fab.timeState = .locked) (hroot : s.main.fab.root ≠ s.main.fab.module)
    (hsync : s.main.fab.syncing = false) :
    let m1 := s.main.until (s.main.fab.lastHeard + 10000000)
    exec .holdover s = toMain s (({ m1 with fab := { m1.fab with timeState := .holdover } } : Main).postFabric 0 6 0) :=
  exec_eq_toMain (f := Main.holdover) rfl (by simp [Main.holdover, hlocked, hroot, hsync])

/-! ### FTIME_SYNC (R279) -/

theorem exec_ftimeSync_of_off (off : Int) (spaced : Bool) (h : s.main.fab.syncOn = false) :
    exec (.ftimeSync off spaced) s = .next s :=
  exec_eq_toMain (f := Main.ftimeEdge off spaced) rfl (by simp [Main.ftimeEdge, h])

/-- An edge steers when it is spaced as it should be. -/
theorem exec_ftimeSync_of_on (off : Int) (spaced : Bool) (h : s.main.fab.syncOn = true) :
    let m1 := if spaced then s.main.offsetTime off true else s.main
    exec (.ftimeSync off spaced) s = toMain s { m1 with fab := { m1.fab with lastSync := m1.time, syncLost := false } } :=
  exec_eq_toMain (f := Main.ftimeEdge off spaced) rfl (by simp [Main.ftimeEdge, h])

theorem exec_ftimeSyncLoss_of_syncing (h : s.main.fab.syncing = true) :
    let m1 := s.main.until (s.main.fab.lastSync + 3000000000)
    exec .ftimeSyncLoss s = toMain s { m1 with fab := { m1.fab with syncLost := true, lastHeard := m1.time } } :=
  exec_eq_toMain (f := Main.ftimeLost) rfl (by simp [Main.ftimeLost, h])

end

/-- Settles O28, from what each source of time brings and what steps the time of a module that has joined. -/
theorem fabricTime : Obligations.FabricTime := by
  refine ⟨fun s => ⟨fun n off inB hnear => ⟨?answered, ?timing⟩, exec_holdover_of_locked,
    fun off spaced => ⟨exec_ftimeSync_of_off off spaced, exec_ftimeSync_of_on off spaced⟩, exec_ftimeSyncLoss_of_syncing,
    fun on => rfl⟩, ?steers⟩
  case answered => exact exec_timeExchange_of_answered off inB hnear
  case timing => exact exec_timeExchange_of_timing off inB hnear
  case steers =>
    rintro s t c hjoined (⟨n, off, inB, rfl⟩ | ⟨off, spaced, rfl⟩) hnext
    · obtain ⟨m, hm, rfl⟩ := onMain_next (f := Main.timeExchange n off inB) hnext
      exact Main.timeExchange_time hjoined hm
    · obtain ⟨m, hm, rfl⟩ := onMain_next (f := Main.ftimeEdge off spaced) hnext
      exact Main.ftimeEdge_time hjoined hm

end Sys2Proof.Machine
end

section
/-! Joining the fabric, and the way into the banked state (R277, R440, R476, R481, R485). -/

namespace Sys2Proof.Machine

/-! ### Joining (R278, R462, R464) -/

/-- A module that has its map joins when its time is locked, or when it is the root, which locks it. -/
theorem exec_startStepDone_of_joining {s : State} (rep : StepReport) (hidle : stepOf s.main.rcv.phase = none)
    (hjoin : s.main.rcv.joining = true) (hmap : s.main.fab.mapped = true)
    (htime : s.main.fab.root = s.main.fab.module ∨ s.main.fab.timeState ≠ .unlocked) :
    ∃ t, exec (.startStepDone rep) s = .next t ∧ t.main.rcv.joining = false ∧ t.main.fab.timeState ≠ .unlocked := by
  have hexec : exec (.startStepDone rep) s = onMain Main.join s := by
    change execStartStepDone rep s = _
    simp only [execStartStepDone, hidle]
  let m1 : Main := { s.main with rcv := { s.main.rcv with joining := false } }
  by_cases hlocked : s.main.fab.timeState = .unlocked
  · have hroot := htime.resolve_right (not_not_intro hlocked)
    have hm : Main.join s.main = .next m1.lockTime := by simp [Main.join, hjoin, hmap, hroot, hlocked, m1]
    have hlock : m1.lockTime = { m1 with fab := { m1.fab with timeState := .locked } } := by simp [Main.lockTime, m1, hlocked]
    refine ⟨_, exec_eq_toMain hexec hm, ?_⟩
    simp [hlock, m1]
  · have hm : Main.join s.main = .next m1 := by simp [Main.join, hjoin, hmap, hlocked, m1]
    exact ⟨_, exec_eq_toMain hexec hm, rfl, hlocked⟩

/-! ### The beginning of the entry (R476, R481, R485 steps 1 and 2) -/

theorem Main.sendWave_offTheRoad (m : Main) (span fenced a cause : Nat) :
    (m.sendWave span fenced a cause).offTheRoad = m.offTheRoad :=
  foldl_view_eq (view := Main.offTheRoad) (fun x _ => x.sendCtrl_offTheRoad _) _ m

/-- The notices and waves that tell of an entry do not end it. -/
theorem Main.tellNeighbours_banking (m : Main) (cause : Nat) : (m.tellNeighbours cause).rcv.banking = m.rcv.banking := by
  refine (foldl_view_eq (view := fun x : Main => x.rcv.banking) (fun x span => ?_) _ _).trans
    (Main.banking_of_offTheRoad (foldl_view_eq (view := Main.offTheRoad) (fun x _ => x.sendCtrl_offTheRoad _) _ m))
  exact (Main.banking_of_offTheRoad (Main.sendWave_offTheRoad _ _ _ _ _)).trans rfl

@[simp] theorem Main.bankEnter_banking (m : Main) (cause : Nat) (source : EngineId) (parent : Option Nat) :
    (m.bankEnter cause source parent).rcv.banking = some cause := by
  unfold Main.bankEnter
  dsimp only
  split
  · rw [Main.tellNeighbours_banking]
    exact Main.banking_of_offTheRoad (Main.offTheRoad_of_bystanders (Main.post_bystanders _ _ _ _ _ _))
  · rfl

/-- A command that begins an entry leaves the module in it. -/
theorem exec_enters_of_toMain {c : Instr} {s : State} {m : Main} {cause : Nat} (hexec : exec c s = toMain s m)
    (hm : m.rcv.banking = some cause) : ∃ t, exec c s = .next t ∧ t.main.rcv.banking = some cause := ⟨_, hexec, hm⟩

/-- A device reset whose fence or first step is late escalates to the banked state. -/
theorem exec_deviceResetEscalation_of_dev {s : State} {d : DevReset} (h : s.main.rcv.dev = some d) :
    ∃ t, exec .deviceResetEscalation s = .next t ∧ t.main.rcv.banking = some 0x50 := by
  have hlate : ∃ m : Main, Main.deviceLate s.main = .next (m.bankEnter 0x50 ⟨4, 3⟩ d.recId) := by
    simp only [Main.deviceLate, h]
    exact ⟨_, rfl⟩
  obtain ⟨m, hm⟩ := hlate
  exact exec_enters_of_toMain (exec_eq_toMain (f := Main.deviceLate) rfl hm) (m.bankEnter_banking _ _ _)

/-- Whether Elbor core 3 has stalled within the last 10 s. -/
def Main.stalledLately (m : Main) : Bool :=
  match m.rcv.lastCore3 with
  | some x => decide (m.time < x + 10000000000)
  | none => false

theorem Main.core3Stall_of_up {m : Main} (hup : m.core3Up = true) : m.core3Stall =
    if m.stalledLately && m.bankable then .next (m.bankEnter 0x55 ⟨4, 3⟩ none)
    else .next (({ m with rcv := { m.rcv with stallMark := some m.time, lastCore3 := some m.time } } : Main).egResetProc 3) := by
  rw [Main.core3Stall, if_neg (by simp [hup])]
  rfl

theorem exec_elborCore3Stall_of_again {s : State} (hup : s.main.core3Up = true) (hagain : s.main.stalledLately = true)
    (hable : s.main.bankable = true) : ∃ t, exec .elborCore3Stall s = .next t ∧ t.main.rcv.banking = some 0x55 :=
  exec_enters_of_toMain (exec_eq_toMain (f := Main.core3Stall) rfl
    ((Main.core3Stall_of_up hup).trans (if_pos (by simp [hagain, hable])))) (Main.bankEnter_banking _ _ _ _)

theorem exec_elborCore3Stall_of_first {s : State} (hup : s.main.core3Up = true) (hfirst : s.main.stalledLately = false) :
    exec .elborCore3Stall s = toMain s (({ s.main with rcv := { s.main.rcv with
      stallMark := some s.main.time, lastCore3 := some s.main.time } } : Main).egResetProc 3) :=
  exec_eq_toMain (f := Main.core3Stall) rfl ((Main.core3Stall_of_up hup).trans (if_neg (by simp [hfirst])))

/-! ### What the last step's answers and events leave alone (R485 steps 2 and 3) -/

/-- What the last step of the entry empties: composition, memory, work groups and objects. -/
def Main.holdings (m : Main) : Comp × Memory × List WorkGroup × Objs := (m.comp, m.mem, m.cores.wgs, m.objs)

section
variable (m : Main)

@[simp] theorem Main.post_holdings (type cls subject : Nat) (st : Status) (detail : Nat) :
    (m.post type cls subject st detail).holdings = m.holdings := by
  have hbeside := m.post_bystanders type cls subject st detail
  have hcomp := Main.comp_of_bystanders hbeside
  have hcores : (m.post type cls subject st detail).cores = m.cores := (congrArg (fun x : Main => x.cores) hbeside :)
  have hobjs : (m.post type cls subject st detail).objs = m.objs := (congrArg (fun x : Main => x.objs) hbeside :)
  simp only [Main.holdings, hcomp, hcores, hobjs, Main.post_mem]

@[simp] theorem Main.reply_holdings (mb : Mbx) (c : MbCmd) (r : Reply) : (m.reply mb c r).holdings = m.holdings := by
  unfold Main.reply
  dsimp only
  split <;> rfl

/-- An answer with its output touches the mailbox and host memory. -/
@[simp] theorem Main.answerOut_holdings (x : Mbx × MbCmd) (r : Reply) : (m.answerOut x r).holdings = m.holdings := by
  unfold Main.answerOut
  dsimp only
  split
  · simp
  · split
    · simp
    · split
      · simp
      · rw [Main.reply_holdings]
        split <;> rfl

@[simp] theorem Main.postSecurity_holdings (cause slot : Nat) (st : Status) (detail : Nat) :
    (m.postSecurity cause slot st detail).holdings = m.holdings := by
  unfold Main.postSecurity
  split
  · rfl
  · exact Main.post_holdings _ _ _ _ _ _

@[simp] theorem Main.endRevoke_holdings (r : Revoke) : (m.endRevoke r).holdings = m.holdings := by
  refine (foldl_view_eq (view := Main.holdings) (fun x c => x.answerOut_holdings c _) _ _).trans ?_
  split <;> exact Main.postSecurity_holdings _ _ _ _ _

@[simp] theorem Main.finishRevokes_holdings : m.finishRevokes.holdings = m.holdings :=
  foldl_view_eq (view := Main.holdings) (fun x r => x.endRevoke_holdings r) _ m

@[simp] theorem Main.answerBanked_holdings : m.answerBanked.holdings = m.holdings := by
  unfold Main.answerBanked
  exact foldl_view_eq (view := Main.holdings) (fun x (c : Mbx × MbCmd) => x.reply_holdings c.1 c.2 { status := .banked }) _ m

@[simp] theorem Main.egDeliver_holdings (bank bit : Nat) : (m.egDeliver bank bit).holdings = m.holdings := by
  unfold Main.egDeliver
  split
  · rfl
  · dsimp only
    split <;> rfl

@[simp] theorem Main.egSettle_holdings : m.egSettle.holdings = m.holdings :=
  foldl_view_eq (view := Main.holdings)
    (fun x bank => foldl_view_eq (view := Main.holdings) (fun y bit => y.egDeliver_holdings bank bit) _ x) _ m

@[simp] theorem Main.egSetMode_holdings (static : Bool) : (m.egSetMode static).holdings = m.holdings :=
  Main.egSettle_holdings _

@[simp] theorem Main.egResetProc_holdings (p : Nat) : (m.egResetProc p).holdings = m.holdings := by
  refine (foldl_view_eq (view := Main.holdings) (fun x g => ?_) _ _).trans rfl
  rfl

/-- A record that is closed changes itself, and its event goes out. -/
theorem Main.endErr_bystanders (tell : Bool) (id : Nat) (st : ErrSt) (x : Status) :
    (m.endErr tell id st x).bystanders = m.bystanders := by
  unfold Main.endErr
  split
  · rfl
  · dsimp only
    split
    · exact Main.post_bystanders _ _ _ _ _ _
    · rfl

@[simp] theorem Main.endErr_holdings (tell : Bool) (id : Nat) (st : ErrSt) (x : Status) :
    (m.endErr tell id st x).holdings = m.holdings := by
  unfold Main.endErr
  split
  · rfl
  · dsimp only
    split
    · exact Main.post_holdings _ _ _ _ _ _
    · rfl

/-! ### What is left (R464, R485) -/

/-- When no span is kept no record of one stays. -/
theorem Main.keepOnly_nil_recs : (m.keepOnly []).comp.recs = [] := by
  simp [Main.keepOnly]

/-- Nor a byte of memory. -/
theorem Main.keepOnly_nil_cells : (m.keepOnly []).mem.cells = [] := by
  refine List.filter_eq_nil_iff.2 fun x _ => ?_
  dsimp only
  generalize nth m.comp.memOwner (x.1 / 2 ^ 32) .idle = owner
  cases owner <;> simp

end

/-- Work groups and objects go with the rails. -/
theorem Main.lose_keepOnly_work (m : Main) (cold : Bool) (keep : List Nat) :
    ((m.lose cold).keepOnly keep).cores.wgs = [] ∧ ((m.lose cold).keepOnly keep).objs = Objs.reset := ⟨rfl, rfl⟩

/-- The module after its rails have gone off and the commands that waited have been answered, before it is banked. -/
def Main.railsGone (m : Main) : Main :=
  [0, 1, 2, 6, 7, 8, 9, 10, 11].foldl Main.egResetProc
    ((((m.recordRaised.joinBanked.flashErrs.lose false).keepOnly []).finishRevokes.answerBanked).egSetMode true)

/-- The module marked as banked: no step of a start, no entry and no device reset is under way, and the main rails are off. -/
def Main.markBanked (m : Main) : Main :=
  { m with
    elbor := { m.elbor with paused := none }
    rcv := { m.rcv with phase := .banked, mainRails := false, banking := none, joining := false, dev := none }
    sec := { m.sec with switching := none, owed := [], unlocking := none } }

/-- Records of the entry closed. -/
def Main.closeBanked (m : Main) (l : List ErrRec) : Main :=
  l.foldl (fun m r => m.endErr (bankTells r.cause) r.id .done .banked) m

theorem Main.bankFinish_eq (m : Main) : m.bankFinish =
    m.railsGone.markBanked.closeBanked (m.railsGone.rcv.errs.filter (fun r => r.isOpen && r.sev == .banked)) := rfl

theorem Main.railsGone_holdings (m : Main) :
    m.railsGone.holdings = ((m.recordRaised.joinBanked.flashErrs.lose false).keepOnly []).holdings := by
  refine (foldl_view_eq (view := Main.holdings) (fun x p => x.egResetProc_holdings p) _ _).trans ?_
  simp only [Main.egSetMode_holdings, Main.answerBanked_holdings, Main.finishRevokes_holdings]

theorem Main.closeBanked_bystanders (m : Main) (l : List ErrRec) : (m.closeBanked l).bystanders = m.bystanders :=
  Main.foldl_bystanders (fun x (r : ErrRec) => x.endErr_bystanders (bankTells r.cause) r.id .done .banked) l m

theorem Main.closeBanked_holdings (m : Main) (l : List ErrRec) : (m.closeBanked l).holdings = m.holdings :=
  foldl_view_eq (view := Main.holdings) (fun x (r : ErrRec) => x.endErr_holdings (bankTells r.cause) r.id .done .banked) l m

/-- What the loss of the main rails leaves of the holdings, the rest of the last step leaves. -/
theorem Main.bankFinish_holdings (m : Main) :
    m.bankFinish.holdings = ((m.recordRaised.joinBanked.flashErrs.lose false).keepOnly []).holdings := by
  have hmark (x : Main) : x.markBanked.holdings = x.holdings := rfl
  rw [Main.bankFinish_eq, Main.closeBanked_holdings, hmark, Main.railsGone_holdings]

/-- Blocks with the same bystanders are in the same phase, in the same entry, and on the same rails. -/
theorem Main.phase_of_bystanders {m m1 : Main} (h : m1.bystanders = m.bystanders) :
    m1.rcv.phase = m.rcv.phase ∧ m1.rcv.banking = m.rcv.banking ∧ m1.rcv.mainRails = m.rcv.mainRails :=
  ⟨(congrArg (fun x : Main => x.rcv.phase) h :), (congrArg (fun x : Main => x.rcv.banking) h :),
    (congrArg (fun x : Main => x.rcv.mainRails) h :)⟩

/-- Closing the records leaves the module banked. -/
theorem Main.bankFinish_rcv (m : Main) :
    m.bankFinish.rcv.phase = .banked ∧ m.bankFinish.rcv.banking = none ∧ m.bankFinish.rcv.mainRails = false := by
  rw [Main.bankFinish_eq]
  exact Main.phase_of_bystanders (Main.closeBanked_bystanders m.railsGone.markBanked _)

theorem State.bankFinish_main (s : State) : s.bankFinish.main = s.main.bankFinish := by
  unfold State.bankFinish
  generalize s.main.bankFinish = m
  rfl

theorem State.bankFinish_stopped (s : State) : s.bankFinish.power.stopped = false := by
  unfold State.bankFinish
  generalize s.main.bankFinish = m
  rfl

/-- The last step of an entry leaves nothing of spans, memory, work and objects. -/
theorem exec_banked_of_banking {s : State} {cause : Nat} (h : s.main.rcv.banking = some cause) :
    ∃ t, exec (.banked cause) s = .next t ∧ t.main.rcv.phase = .banked ∧ t.main.rcv.banking = none ∧
      t.main.rcv.mainRails = false ∧ t.main.comp.recs = [] ∧ t.main.mem.cells = [] ∧ t.main.cores.wgs = [] ∧
      t.main.objs = Objs.reset ∧ t.power.stopped = false := by
  obtain ⟨hphase, hbanking, hrails⟩ := s.main.bankFinish_rcv
  have hholds := s.main.bankFinish_holdings
  simp only [Main.holdings, Prod.mk.injEq] at hholds
  obtain ⟨hcomp, hmem, hwgs, hobjs⟩ := hholds
  have hrecs := (congrArg Comp.recs hcomp).trans (Main.keepOnly_nil_recs _)
  have hcells := (congrArg Memory.cells hmem).trans (Main.keepOnly_nil_cells _)
  obtain ⟨hnoWgs, hnoObjs⟩ := s.main.recordRaised.joinBanked.flashErrs.lose_keepOnly_work false []
  refine ⟨s.bankFinish, if_pos h, ?_⟩
  rw [State.bankFinish_main]
  exact ⟨hphase, hbanking, hrails, hrecs, hcells, hwgs.trans hnoWgs, hobjs.trans hnoObjs, s.bankFinish_stopped⟩

/-- Settles O46, from how the module joins, how an entry begins, and what its last step leaves. -/
theorem bankedResults : Obligations.BankedResults := by
  intro s
  exact ⟨exec_startStepDone_of_joining, fun cause => exec_banked_of_banking, fun d => exec_deviceResetEscalation_of_dev,
    fun hup => ⟨exec_elborCore3Stall_of_again hup, exec_elborCore3Stall_of_first hup⟩⟩

end Sys2Proof.Machine
end

section
/-! What every command keeps: the queue of waiting commands, the laws of the power side, and the lock of the test port (R445, R446, R449,
R451, R457, R461, R512, R527). -/

namespace Sys2Proof.Machine

/-! ### The laws of the power side (R445, R446, R449, R451, R457, R461) -/

/-- The power side but for what the Kiln loop does with L: every limit and L are codes from 16 to 64, the cap is one that POWER_CAP_SET
takes and 3,200 W in fixed-frequency mode. -/
structure Power.Codes (p : Power) : Prop where
  loc_min : 16 ≤ p.loc
  loc_max : p.loc ≤ 64
  cap_min : 1200 ≤ p.cap
  cap_max : p.cap ≤ 3200
  cap_ten : p.cap % 10 = 0
  cap_fixed : p.fixed = true → p.cap = 3200
  hold : ∀ h, p.hold = some h → 16 ≤ h ∧ h ≤ 64
  thermal_min : 16 ≤ p.thermal
  thermal_max : p.thermal ≤ 64
  capLim_min : 16 ≤ p.capLim
  capLim_max : p.capLim ≤ 64

theorem Power.legal_iff {p : Power} : p.legal ↔ p.Codes ∧ (p.stopped = false → p.loc ≤ p.limit) := by
  constructor
  · rintro ⟨h1, h2, hlim, h3, h4, h5, h6, h7, h8, h9, h10, h11⟩
    exact ⟨⟨h1, h2, h3, h4, h5, h6, h7, h8, h9, h10, h11⟩, hlim⟩
  · rintro ⟨⟨h1, h2, h3, h4, h5, h6, h7, h8, h9, h10, h11⟩, hlim⟩
    exact ⟨h1, h2, hlim, h3, h4, h5, h6, h7, h8, h9, h10, h11⟩

theorem Power.legal.codes {p : Power} (h : p.legal) : p.Codes := (Power.legal_iff.1 h).1

theorem Power.Codes.hold_min {p : Power} (h : p.Codes) : 16 ≤ p.hold.getD 64 := by
  cases hp : p.hold with
  | none => decide
  | some x => exact (h.hold x hp).1

/-- No engaged limiter imposes less than the floor. -/
theorem Power.Codes.limit_min {p : Power} (h : p.Codes) : 16 ≤ p.limit := by
  have hflags (b : Bool) (x : Nat) (hx : 16 ≤ x) : 16 ≤ if b then x else 64 := by split <;> omega
  exact le_min (le_min (hflags _ 16 le_rfl) h.hold_min) (le_min (hflags _ 32 (by decide))
    (le_min h.thermal_min (le_min h.capLim_min (hflags _ 56 (by decide)))))

/-- Once L has fallen to the lowest limit the power side is legal. -/
theorem Power.Codes.settle_legal {p : Power} (h : p.Codes) : p.settle.legal := by
  have hfloor : 16 ≤ if p.stopped then (if p.floor then 16 else 64) else p.limit := by
    have := h.limit_min
    split
    · split <;> decide
    · exact this
  refine Power.legal_iff.2 ⟨{ h with loc_min := le_min h.loc_min hfloor, loc_max := (min_le_left _ _).trans h.loc_max }, fun hrun => ?_⟩
  have hrun : p.stopped = false := hrun
  change min p.loc _ ≤ p.limit
  rw [hrun]
  exact min_le_right _ _

/-! ### States that keep them -/

/-- The queue is as before, and the power side stays legal. -/
structure Keeps (s t : State) : Prop where
  queue : t.pending = s.pending
  power : s.power.legal → t.power.legal

/-- Nor does the test port open. -/
structure Guards (s t : State) : Prop extends Keeps s t where
  port : t.tap.opened = true → s.tap.opened = true

theorem Keeps.trans {s t u : State} (h1 : Keeps s t) (h2 : Keeps t u) : Keeps s u :=
  ⟨h2.queue.trans h1.queue, fun h => h2.power (h1.power h)⟩

@[simp] theorem Guards.refl (s : State) : Guards s s := ⟨⟨rfl, id⟩, id⟩

theorem Guards.trans {s t u : State} (h1 : Guards s t) (h2 : Guards t u) : Guards s u :=
  ⟨h1.toKeeps.trans h2.toKeeps, fun h => h1.port (h2.port h)⟩

/-- What changes Main alone keeps them, -/
@[simp] theorem Guards.main (s : State) (m : Main) : Guards s { s with main := m } := ⟨⟨rfl, id⟩, id⟩

/-- and so does what changes Main and the snapshot. -/
theorem Guards.snapshot (s : State) (m : Main) (x : Option Snapshot) : Guards s { s with main := m, snap := x } := ⟨⟨rfl, id⟩, id⟩

/-- A power side that is legal put in place. -/
theorem Guards.withPower {s : State} {p : Power} (m : Main) (h : s.power.legal → p.legal) :
    Guards s { s with main := m, power := p } := ⟨⟨rfl, h⟩, id⟩

/-- A power side that settles needs its codes alone. -/
theorem Guards.settled {s : State} {p : Power} (m : Main) (h : s.power.Codes → p.Codes) :
    Guards s { s with main := m, power := p.settle } := .withPower m fun hs => (h hs.codes).settle_legal

/-! ### Outcomes -/

/-- Whatever state an outcome goes on to meets a condition. -/
def Comes (o : Outcome) (P : State → Prop) : Prop := ∀ t, o = .next t → P t

@[simp] theorem Comes.next {t : State} {P : State → Prop} : Comes (.next t) P ↔ P t :=
  ⟨fun h => h t rfl, fun h u hu => by cases hu; exact h⟩

@[simp] theorem Comes.refused (r : Refusal) (P : State → Prop) : Comes (.refused r) P := fun _ h => by cases h

theorem Comes.ite {p : Prop} [Decidable p] {o o1 : Outcome} {P : State → Prop} (h : p → Comes o P) (h1 : ¬ p → Comes o1 P) :
    Comes (if p then o else o1) P := by
  split
  · exact h ‹_›
  · exact h1 ‹_›

/-- A command that goes on when a condition holds. -/
theorem Comes.when {p : Prop} [Decidable p] {t : State} {r : Refusal} {P : State → Prop} (h : p → P t) :
    Comes (if p then .next t else .refused r) P :=
  .ite (fun hp => Comes.next.2 (h hp)) (fun _ => .refused _ _)

/-- A command that is refused when a condition holds. -/
theorem Comes.unless {p : Prop} [Decidable p] {o : Outcome} {r : Refusal} {P : State → Prop} (h : ¬ p → Comes o P) :
    Comes (if p then .refused r else o) P := .ite (fun _ => .refused _ _) h

theorem Comes.onMain (f : Main → Out) (s : State) : Comes (onMain f s) (Guards s) := fun t h => by
  obtain ⟨m, _, rfl⟩ := onMain_next h
  exact .main s m

theorem Comes.onSupply {kiln : Bool} {bad : Option String} {go : State → State} {s : State} (h : Guards s (go s)) :
    Comes (s.onSupply kiln bad go) (Guards s) := fun t ht => by
  obtain ⟨_, _, rfl⟩ := State.onSupply_next ht
  exact h

/-- A row of the test port that opens nothing. -/
theorem Comes.onTap {f : Tap → Tap} {s : State} (h : (f s.tap).opened = true → s.tap.opened = true) :
    Comes (s.onTap f) (Guards s) := fun t ht => by
  obtain ⟨_, rfl⟩ := State.onTap_next ht
  exact ⟨⟨rfl, id⟩, h⟩

theorem Comes.settling {o : Outcome} {s : State} (f : Main → Main) (h : Comes o (Guards s)) : Comes (settling f o) (Guards s) := by
  cases o with
  | next t => exact Comes.next.2 ((Comes.next.1 h).trans (.main t _))
  | fault r => exact h
  | refused r => exact h

/-! ### Limiters and POWER events (R445, R446, R460) -/

section
variable {s : State}

theorem State.postPower_guards (s : State) (cause : Nat) (st : Status) (detail : Nat) : Guards s (s.postPower cause st detail) := by
  unfold State.postPower
  dsimp only
  split
  · exact .main s _
  · exact .withPower _ id

/-- The limiters changed: L falls with them, and there is at most one event beside it. -/
theorem State.limit_eq (s : State) (f : Power → Power) : s.limit f = { s with power := (f s.power).settle } ∨
    ∃ cause detail, s.limit f = ({ s with power := (f s.power).settle } : State).postPower cause .ok detail := by
  unfold State.limit
  extract_lets p q s1
  by_cases hmode : (!p.fixed || !q.fixed) = true
  · exact .inl (if_pos hmode)
  · rw [if_neg hmode]
    by_cases hleaves : p.lowest = 56 ∧ q.lowest ≠ 56
    · exact .inr ⟨_, _, if_pos hleaves⟩
    · rw [if_neg hleaves]
      by_cases hreturns : p.lowest ≠ 56 ∧ q.lowest = 56
      · exact .inr ⟨_, _, if_pos hreturns⟩
      · exact .inl (if_neg hreturns)

theorem State.limit_guards {f : Power → Power} (h : s.power.Codes → (f s.power).Codes) : Guards s (s.limit f) := by
  have hsettled : Guards s { s with power := (f s.power).settle } := .settled s.main h
  rcases s.limit_eq f with heq | ⟨cause, detail, heq⟩
  · rw [heq]
    exact hsettled
  · rw [heq]
    exact hsettled.trans (State.postPower_guards _ _ _ _)

theorem State.notifySag_guards (s : State) : Guards s s.notifySag := by
  unfold State.notifySag
  split
  · exact .refl s
  · exact .withPower _ id

theorem State.notifyOver_guards (s : State) : Guards s s.notifyOver := by
  unfold State.notifyOver
  split
  · exact .refl s
  · exact .withPower _ id

@[simp] theorem State.source_power (s : State) (n : Nat) (level : Bool) : (s.source n level).power = s.power := by
  unfold State.source
  rfl

theorem State.source_guards (s : State) (n : Nat) (level : Bool) : Guards s (s.source n level) := by
  unfold State.source
  exact .main s _

/-- A limiter that a pin or an alert moves, with its source. -/
theorem State.pin_guards {f : Power → Power} (source : Nat) (level : Bool) (h : s.power.Codes → (f s.power).Codes) :
    Guards s ((s.source source level).limit f) :=
  (s.source_guards source level).trans (State.limit_guards (by rw [State.source_power]; exact h))


/-! ### Rows of the supply, the limiters and the Kiln -/

theorem State.brakeOn_guards (s : State) : Guards s s.brakeOn :=
  (State.pin_guards 917 true fun h => { h with }).trans (State.postPower_guards _ _ _ _)

theorem State.brakeOff_guards (s : State) : Guards s s.brakeOff :=
  ((State.pin_guards 917 false fun h => { h with }).trans (State.postPower_guards _ _ _ _)).trans (State.notifyOver_guards _)

theorem State.alertOn_guards (rail : Nat) (s : State) : Guards s (s.alertOn rail) :=
  (State.pin_guards 916 true fun h => { h with }).trans (State.postPower_guards _ _ _ _)

theorem State.alertOff_guards (s : State) : Guards s s.alertOff :=
  (State.pin_guards 916 false fun h => { h with }).trans (State.notifyOver_guards _)

theorem State.assertSource_guards (source : Nat) (level : Bool) (s : State) : Guards s (s.assertSource source level) := by
  unfold State.assertSource
  split
  · split
    · exact s.brakeOn_guards
    · exact s.brakeOff_guards
  · split
    · split
      · exact (Guards.main s s.main.draw.2).trans (State.alertOn_guards _ _)
      · exact s.alertOff_guards
    · exact s.source_guards source level

theorem State.sagBegin_guards (mv : Nat) (s : State) : Guards s (s.sagBegin mv) := by
  unfold State.sagBegin
  have hlog (p : Power) (e : LogEntry) (h : p.Codes) : ({ p.addLog e with inputMv := mv, sag := true } : Power).Codes := by
    unfold Power.addLog
    split <;> exact { h with }
  exact ((State.limit_guards (hlog _ _)).trans (State.postPower_guards _ _ _ _)).trans (State.notifySag_guards _)

theorem State.sagOver_guards (mv : Nat) (s : State) : Guards s (s.sagOver mv) := by
  unfold State.sagOver
  exact (((Guards.main s _).trans (State.limit_guards fun h => { h with })).trans (State.postPower_guards _ _ _ _)).trans
    (State.notifyOver_guards _)

/-- The supply log is no part of the laws of the power side. -/
theorem Power.addLog_legal {p : Power} (e : LogEntry) (h : p.legal) : (p.addLog e).legal := by
  unfold Power.addLog
  split <;> exact h

/-- What the sensor of the input reads is no part of them either. -/
theorem Power.reads_legal {p : Power} (now mv : Nat) (h : p.legal) : (p.reads now mv).legal := h

theorem State.surgeBegin_guards (mv : Nat) (s : State) : Guards s (s.surgeBegin mv) := by
  unfold State.surgeBegin
  extract_lets e
  have hlog : Guards s { s with power := (s.power.addLog e).reads s.main.time mv } :=
    .withPower s.main fun h => Power.reads_legal _ _ (Power.addLog_legal e h)
  exact hlog.trans (State.postPower_guards _ _ _ _)

theorem State.surge_guards (mv : Nat) (s : State) : Guards s (s.surge mv) := by
  unfold State.surge
  split
  · exact .withPower _ id
  · exact s.surgeBegin_guards mv

theorem State.excursion_guards (mv us : Nat) (s : State) : Guards s (s.excursion mv us) := by
  have hlog (e : LogEntry) : Guards s { s with power := s.power.addLog e } := .withPower s.main (Power.addLog_legal e)
  unfold State.excursion
  extract_lets low e s1
  split
  · exact hlog e
  · exact (hlog e).trans (State.postPower_guards _ _ _ _)

theorem State.thermalTo_guards {hottest limit : Nat} (hcode : s.power.Codes → 16 ≤ limit ∧ limit ≤ 64) :
    Guards s (s.thermalTo hottest limit) := by
  have hmoved : Guards s (s.limit (fun p => { p with hottest := hottest, thermal := limit, thermalAt := s.main.time })) :=
    State.limit_guards fun h => { h with thermal_min := (hcode h).1, thermal_max := (hcode h).2 }
  unfold State.thermalTo
  extract_lets was s1
  split
  · exact hmoved.trans (State.postPower_guards _ _ _ _)
  · split
    · exact hmoved.trans (State.postPower_guards _ _ _ _)
    · exact hmoved

/-- The thermal limiter moves from a code to a code. -/
theorem State.thermalMove_guards (hottest : Nat) (s : State) : Guards s (s.thermalMove hottest) := by
  unfold State.thermalMove
  refine (Guards.main s _).trans (State.thermalTo_guards fun h => ?_)
  obtain ⟨hmin, hmax⟩ := And.intro h.thermal_min h.thermal_max
  split
  · decide
  · split
    · omega
    · split <;> omega

/-- The cap limiter moves from a code to a code. -/
theorem Power.capStep_codes {p : Power} (h : p.Codes) (now watts : Nat) (win : List (Nat × Nat)) :
    16 ≤ (p.capStep now watts win).1 ∧ (p.capStep now watts win).1 ≤ 64 := by
  obtain ⟨hmin, hmax⟩ := And.intro h.capLim_min h.capLim_max
  have hlow : 16 ≤ (if p.fixed then 56 else 16) ∧ (if p.fixed then 56 else 16) ≤ 64 := by split <;> decide
  unfold Power.capStep
  extract_lets low ms above
  split
  · dsimp only
    omega
  · split
    · dsimp only
      omega
    · split <;> dsimp only <;> omega

/-- L rises by one code at most, to no more than the limit. -/
theorem Power.Codes.raised {p : Power} (h : p.Codes) : ({ p with loc := if p.loc < p.limit then p.loc + 1 else p.loc } : Power).Codes := by
  have hlimit : p.limit ≤ 64 := (min_le_right _ _).trans ((min_le_right _ _).trans ((min_le_left _ _).trans h.thermal_max))
  have hmin := h.loc_min
  have hmax := h.loc_max
  refine { h with loc_min := ?_, loc_max := ?_ } <;> dsimp only <;> split <;> omega

theorem State.loopOnce_guards (watts mv : Nat) (s : State) : Guards s (s.loopOnce watts mv) := by
  unfold State.loopOnce
  refine (Guards.main s _).trans (State.limit_guards fun h => ?_)
  extract_lets hist p c q
  have hread : p.Codes := { h with }
  obtain ⟨hmin, hmax⟩ : 16 ≤ c.1 ∧ c.1 ≤ 64 := Power.capStep_codes hread _ _ _
  have hcap : q.Codes := { hread with capLim_min := hmin, capLim_max := hmax }
  exact hcap.raised

theorem State.sagsAct_guards (s : State) : Guards s s.sagsAct := by
  unfold State.sagsAct
  extract_lets m low spans
  split
  · exact .refl s
  · exact State.limit_guards fun h => { h with }

theorem State.apply_guards (s : State) : Guards s s.apply := by
  unfold State.apply
  exact (Guards.main s _).trans (State.limit_guards fun h => { h with })

theorem State.sagNotice_guards (sender detected : Nat) (recovered : Bool) (s : State) :
    Guards s (s.sagNotice sender detected recovered) := by
  unfold State.sagNotice
  extract_lets m old due t m1
  have htold : Guards s { s.sagsAct with main := m1, power := s.sagsAct.power.token t } := s.sagsAct_guards.trans (.withPower m1 id)
  split
  · exact .refl s
  · exact htold.trans (State.sagsAct_guards _)

theorem State.paceToken_guards (sender limit : Nat) (s : State) : Guards s (s.paceToken sender limit) := by
  unfold State.paceToken
  extract_lets m
  split
  · exact .refl s
  · split
    · exact .main s _
    · exact s.sagsAct_guards.trans (.withPower _ id)

theorem State.meter_guards (mj : Nat) (x : EnergyUse) (s : State) : Guards s (s.meter mj x) := by
  unfold State.meter
  extract_lets m shares acc p
  refine .withPower _ fun h => ?_
  split <;> exact h

end

section
variable {s : State}

theorem State.round_guards (s : State) : Guards s s.round := by
  unfold State.round
  exact .withPower _ id

/-! ### Starts and the banked state (R440, R462-R466, R485, R533) -/

/-- As a start begins L has fallen to the lowest limit, whatever it was. -/
theorem Power.Codes.atStart {p : Power} (h : p.Codes) (cold : Bool) : (p.atStart cold).legal := by
  cases cold with
  | false => exact Power.Codes.settle_legal { h with }
  | true =>
    have hcodes : 16 ≤ 64 ∧ 64 ≤ 64 := by decide
    obtain ⟨hmin, hmax⟩ := hcodes
    exact Power.Codes.settle_legal { h with
      loc_min := hmin, loc_max := hmax, cap_fixed := nofun, hold := nofun, thermal_min := hmin, thermal_max := hmax
      capLim_min := hmin, capLim_max := hmax }

theorem Tap.locked_opened (t : Tap) : t.locked.opened = false := by
  unfold Tap.locked
  split <;> rfl

theorem State.restart_guards (s : State) (cold : Bool) : Guards s (s.restart cold) := by
  refine ⟨⟨rfl, fun h => ?_⟩, fun h => ?_⟩
  · exact h.codes.atStart cold
  · have hlocked : (s.restart cold).tap.opened = false := s.tap.locked_opened
    rw [hlocked] at h
    cases h

theorem State.failStart_guards (s : State) (step : Nat) : Guards s (s.failStart step) := by
  unfold State.failStart
  extract_lets
  split
  · split
    · exact (Guards.main s _).trans (State.restart_guards _ _)
    · exact (Guards.main s _).trans (State.restart_guards _ _)
  · split
    · exact .main s _
    · exact (Guards.main s _).trans (State.restart_guards _ _)

theorem State.bankFinish_guards (s : State) : Guards s s.bankFinish := by
  unfold State.bankFinish
  exact .settled _ fun h => { h with }

theorem State.standbyUp_guards (s : State) : Guards s s.standbyUp := by
  unfold State.standbyUp
  exact .main s _

theorem State.beginCold_guards (s : State) : Guards s s.beginCold := by
  unfold State.beginCold
  split
  · exact (Guards.main s _).trans (State.standbyUp_guards _)
  · exact s.restart_guards true

/-- Without power the cap is all that is left of the laws' subject. -/
theorem Power.Codes.lost {p : Power} (h : p.Codes) (hottest : Nat) (log : List LogEntry) :
    ({ Power.reset with cap := p.cap, hottest := hottest, flashLog := log } : Power).legal := by
  obtain ⟨hcodes, hlimit⟩ := Power.legal_iff.1 (show Power.reset.legal by decide)
  exact Power.legal_iff.2 ⟨{ hcodes with cap_min := h.cap_min, cap_max := h.cap_max, cap_ten := h.cap_ten, cap_fixed := nofun }, hlimit⟩

theorem State.powerGone_guards (s : State) : Guards s s.powerGone := by
  unfold State.powerGone
  exact ⟨⟨rfl, fun h => h.codes.lost _ _⟩, nofun⟩

theorem State.deviceStart_guards (cold : Bool) (s : State) : Comes (s.deviceStart cold) (Guards s) := by
  unfold State.deviceStart
  split
  · exact .refused _ _
  · exact .unless fun _ => .unless fun _ => Comes.next.2 (s.restart_guards cold)

theorem execStartStepDone_guards (rep : StepReport) (s : State) : Comes (execStartStepDone rep s) (Guards s) := by
  unfold execStartStepDone
  split
  · exact .onMain _ s
  · extract_lets needs44
    refine .unless fun _ => .unless fun _ => ?_
    split
    · split
      · exact Comes.next.2 ((Guards.main s _).trans (State.restart_guards _ _))
      · exact Comes.next.2 (.main s _)
    · exact Comes.next.2 (s.failStart_guards _)

theorem execStartStepTimeout_guards (s : State) : Comes (execStartStepTimeout s) (Guards s) := by
  unfold execStartStepTimeout
  split
  · exact .unless fun _ => Comes.next.2 ((Guards.main s _).trans (State.failStart_guards _ _))
  · exact .refused _ _

theorem execStandbyPowerApplied_guards (s : State) : Comes (execStandbyPowerApplied s) (Guards s) := by
  unfold execStandbyPowerApplied
  refine .unless fun _ => .ite (fun _ => Comes.next.2 ?_) fun _ => Comes.next.2 s.beginCold_guards
  exact ((Guards.main s _).trans (State.bankFinish_guards _)).trans (State.standbyUp_guards _)

theorem execThermtripHoldEnd_guards (s : State) : Comes (execThermtripHoldEnd s) (Guards s) := by
  unfold execThermtripHoldEnd
  have hcooled : Guards s { s with power := { s.power with hottest := min s.power.hottest 950 } } := .withPower s.main id
  exact .when fun _ => hcooled.trans (State.restart_guards _ _)

theorem execUndervoltageBank_guards (bulk : Nat) (s : State) : Comes (execUndervoltageBank bulk s) (Guards s) := by
  unfold execUndervoltageBank
  refine .unless fun _ => Comes.next.2 ?_
  exact (State.postPower_guards s 3 .banked (bulk / 10)).trans (.withPower _ id)

theorem execThermtrip_guards (hottest : Nat) (s : State) : Comes (execThermtrip hottest s) (Guards s) := by
  unfold execThermtrip
  refine .unless fun _ => Comes.next.2 ?_
  have hread : Guards s { s with power := { s.power with hottest := hottest } } := .withPower s.main id
  exact (hread.trans (State.postPower_guards _ 12 .ok (hottest % 2 ^ 16))).trans (.main _ _)

/-! ### Processors reset or switched (R446, R461, R475, R487) -/

/-- A loop that stops holds L at 56 or below: while it is stopped only the hardware's limits act. -/
theorem Power.Codes.stopped_legal {p : Power} (h : p.Codes) :
    ({ p with stopped := true, loc := min p.loc 56 } : Power).legal :=
  Power.legal_iff.2 ⟨{ h with
    loc_min := le_min h.loc_min (by decide), loc_max := (min_le_left _ _).trans h.loc_max }, nofun⟩

theorem State.switchOne_guards (s : State) (comp k : Nat) : Guards s (s.switchOne comp k) := by
  unfold State.switchOne
  dsimp only
  split
  · exact .main s _
  · split
    · exact Guards.withPower (s := s) _ fun h => h.codes.stopped_legal
    · split
      · exact .main s _
      · exact .main s _

theorem State.settleFabric_guards (s : State) : Guards s s.settleFabric := by
  unfold State.settleFabric
  exact .main s _

theorem State.endSwitch_guards (s : State) (comp : Nat) (ok : Bool) : Guards s (s.endSwitch comp ok) := by
  unfold State.endSwitch
  dsimp only
  split
  · exact (Guards.main s _).trans (State.limit_guards fun h => { h with })
  · exact .main s _

theorem State.switched_guards (s : State) (comp : Nat) : Comes (s.switched comp) (Guards s) := by
  unfold State.switched
  split
  · exact .refused _ _
  · refine .unless fun _ => .ite (fun _ => Comes.next.2 ?_) fun _ => Comes.next.2 (s.endSwitch_guards comp true)
    exact (s.switchOne_guards comp _).trans (State.settleFabric_guards _)

end

/-! ### ECS commands (R404-R411, R415-R421) -/

/-- Whatever state an answer goes with keeps the queue, the laws of the power side and the lock of the test port. -/
def Ans.Guards (s : State) : Ans → Prop
  | .done _ t => Machine.Guards s t
  | .hold _ t => Machine.Guards s t
  | .again => True

namespace Ans.Guards
variable {s t : State}

@[simp] theorem done (r : Reply) : Ans.Guards s (.done r t) ↔ Machine.Guards s t := Iff.rfl
@[simp] theorem hold (why : HeldFor) : Ans.Guards s (.hold why t) ↔ Machine.Guards s t := Iff.rfl
@[simp] theorem again : Ans.Guards s .again := trivial
@[simp] theorem no (o : Nat) : Ans.Guards s (.no s o) := .refl s
@[simp] theorem main (r : Reply) (m : Main) : Ans.Guards s (.main s r m) := Machine.Guards.main s m
@[simp] theorem busy (us : Nat) : Ans.Guards s (.busy s us) := .refl s
@[simp] theorem badInput (o : Nat) : Ans.Guards s (.badInput s o) := .refl s

@[simp] theorem closed (i : EcsIn) : Ans.Guards s (.closed i s) := by
  unfold Ans.closed
  split
  · exact again
  · exact .refl s

theorem ite {p : Prop} [Decidable p] {a b : Ans} (ha : Ans.Guards s a) (hb : Ans.Guards s b) : Ans.Guards s (if p then a else b) := by
  split
  · exact ha
  · exact hb

/-- A command on a context keeps what its own meaning keeps, -/
theorem onCtx {i : EcsIn} {named : List (Nat × Nat)} {query needs : Bool} {bad : Context → List (Option Nat)} {go : Context → Ans}
    (h : ∀ c, Ans.Guards s (go c)) : Ans.Guards s (onCtx i s named query needs bad go) := by
  unfold Machine.onCtx
  repeat' split
  all_goals simp [h]

/-- and so do one on a fence, -/
theorem onFence {i : EcsIn} {named : List (Nat × Nat)} {query : Bool} {bad : List (Option Nat)} {may : Fence → Context → Bool}
    {go : Context → Fence → Ans} (h : ∀ c f, Ans.Guards s (go c f)) : Ans.Guards s (onFence i s named query bad may go) := by
  unfold Machine.onFence
  refine onCtx fun c => ?_
  split
  · exact h c _
  · exact no _

/-- one on a span, -/
theorem onSpan {i : EcsIn} {named : List (Nat × Nat)} {bad : List (Option Nat)} {go : Nat → Ans}
    (h : ∀ x, Ans.Guards s (go x)) : Ans.Guards s (onSpan i s named bad go) := by
  unfold Machine.onSpan
  dsimp only
  repeat' split
  all_goals simp [h]

/-- and one on an open transition. -/
theorem openCommand {i : EcsIn} {named : List (Nat × Nat)} {go : SpanRec → Ans} (h : ∀ r, Ans.Guards s (go r)) :
    Ans.Guards s (openCommand i s named go) := by
  unfold Machine.openCommand
  repeat' split
  all_goals simp [h]

end Ans.Guards

section
variable (i : EcsIn) (s : State)

theorem setParam_guards : (setParam i s).Guards s := by
  unfold setParam
  dsimp only
  repeat' split
  all_goals simp

theorem fnBind_guards : (fnBind i s).Guards s := by
  unfold fnBind
  dsimp only
  repeat' split
  all_goals simp

theorem laserShutdown_guards : (laserShutdown i s).Guards s := by
  unfold laserShutdown
  dsimp only
  repeat' split
  all_goals simp

theorem ctxCreate_guards : (ctxCreate i s).Guards s := by
  unfold ctxCreate
  dsimp only
  repeat' split
  all_goals simp

theorem ctxDestroy_guards : (ctxDestroy i s).Guards s := .onCtx fun c => by simp

theorem ctxQuery_guards : (ctxQuery i s).Guards s := .onCtx fun c => by simp

theorem ctxEvict_guards : (ctxEvict i s).Guards s := .onCtx fun c => by simp

theorem queueCreate_guards : (queueCreate i s).Guards s := by
  unfold queueCreate
  refine .ite (.no _) (.onCtx fun c => ?_)
  dsimp only
  repeat' split
  all_goals simp

theorem fenceCreate_guards : (fenceCreate i s).Guards s := by
  unfold fenceCreate
  refine .ite (.no _) (.onCtx fun c => ?_)
  dsimp only
  repeat' split
  all_goals simp

theorem lcFree_guards : (lcFree i s).Guards s := by
  unfold lcFree
  refine .ite (.no _) (.onCtx fun c => ?_)
  repeat' split
  all_goals simp

theorem lcSet_guards : (lcSet i s).Guards s := .ite (.no _) (.onCtx fun c => by simp)

theorem regionRelease_guards : (regionRelease i s).Guards s := by
  unfold regionRelease
  refine .ite (.no _) (.onCtx fun c => ?_)
  repeat' split
  all_goals simp

theorem queueDestroy_guards : (queueDestroy i s).Guards s := by
  unfold queueDestroy
  refine .onCtx fun c => ?_
  dsimp only
  repeat' split
  all_goals simp

theorem queueQuery_guards : (queueQuery i s).Guards s := by
  unfold queueQuery
  refine .onCtx fun c => ?_
  repeat' split
  all_goals simp

theorem ctxL2part_guards : (ctxL2part i s).Guards s := by
  unfold ctxL2part
  refine .onCtx fun c => ?_
  dsimp only
  repeat' split
  all_goals simp

theorem lcAlloc_guards : (lcAlloc i s).Guards s := by
  unfold lcAlloc
  refine .onCtx fun c => ?_
  dsimp only
  repeat' split
  all_goals simp

theorem regionRegister_guards : (regionRegister i s).Guards s := by
  unfold regionRegister
  refine .onCtx fun c => ?_
  dsimp only
  repeat' split
  all_goals simp

theorem fenceDestroy_guards : (fenceDestroy i s).Guards s := by
  unfold fenceDestroy
  refine .onFence fun c f => ?_
  dsimp only
  repeat' split
  all_goals simp

theorem fenceGrant_guards : (fenceGrant i s).Guards s := by
  unfold fenceGrant
  refine .onFence fun c f => ?_
  dsimp only
  repeat' split
  all_goals simp

theorem fenceSignal_guards : (fenceSignal i s).Guards s := by
  unfold fenceSignal
  refine .onFence fun c f => ?_
  dsimp only
  repeat' split
  all_goals simp

theorem fenceQuery_guards : (fenceQuery i s).Guards s := by
  unfold fenceQuery
  refine .onFence fun c f => ?_
  dsimp only
  repeat' split
  all_goals simp

theorem extCreate_guards : (extCreate i s).Guards s := by
  unfold extCreate
  refine .onSpan fun span => ?_
  dsimp only
  repeat' split
  all_goals simp

theorem extDestroy_guards : (extDestroy i s).Guards s := by
  unfold extDestroy
  refine .onSpan fun span => ?_
  repeat' split
  all_goals simp

theorem composeCommit_guards : (composeCommit i s).Guards s := by
  unfold composeCommit
  refine .openCommand fun r => ?_
  dsimp only
  repeat' split
  all_goals simp

theorem composeAbort_guards : (composeAbort i s).Guards s := by
  unfold composeAbort
  refine .openCommand fun r => ?_
  dsimp only
  repeat' split
  all_goals simp

theorem chRetire_guards : (chRetire i s).Guards s := by
  unfold chRetire
  dsimp only
  repeat' split
  all_goals simp

theorem winMap_guards : (winMap i s).Guards s := by
  unfold winMap
  dsimp only
  repeat' split
  all_goals simp

theorem winUnmap_guards : (winUnmap i s).Guards s := by
  unfold winUnmap
  dsimp only
  repeat' split
  all_goals simp

theorem spanCreate_guards : (spanCreate i s).Guards s := by
  unfold spanCreate
  dsimp only
  repeat' split
  all_goals simp

theorem spanDestroy_guards : (spanDestroy i s).Guards s := by
  unfold spanDestroy
  dsimp only
  repeat' split
  all_goals simp

theorem composePrepare_guards : (composePrepare i s).Guards s := by
  unfold composePrepare
  dsimp only
  repeat' split
  all_goals simp

theorem slotAssign_guards : (slotAssign i s).Guards s := by
  unfold slotAssign
  dsimp only
  repeat' split
  all_goals simp

theorem slotRevoke_guards : (slotRevoke i s).Guards s := by
  unfold slotRevoke
  dsimp only
  repeat' split
  all_goals simp

theorem debugUnlock_guards : (debugUnlock i s).Guards s := by
  unfold debugUnlock
  dsimp only
  repeat' split
  all_goals simp

theorem errAck_guards : (errAck i s).Guards s := by
  unfold errAck
  dsimp only
  repeat' split
  all_goals simp

theorem saggerReset_guards : (saggerReset i s).Guards s := by
  unfold saggerReset
  dsimp only
  repeat' split
  all_goals simp

theorem deviceReset_guards : (deviceReset i s).Guards s := by
  unfold deviceReset
  dsimp only
  repeat' split
  all_goals simp

theorem spareSwap_guards : (spareSwap i s).Guards s := by
  unfold spareSwap
  dsimp only
  repeat' split
  all_goals simp

theorem enterBanked_guards : (enterBanked i s).Guards s := by
  unfold enterBanked
  repeat' split
  all_goals simp

theorem fwStage_guards : (fwStage i s).Guards s := by
  unfold fwStage
  dsimp only
  repeat' split
  all_goals simp

theorem drillArm_guards : (drillArm i s).Guards s := by
  unfold drillArm
  dsimp only
  repeat' split
  all_goals simp

theorem drillDisarm_guards : (drillDisarm i s).Guards s := by
  unfold drillDisarm
  dsimp only
  repeat' split
  all_goals simp

theorem loopbackSet_guards : (loopbackSet i s).Guards s := by
  unfold loopbackSet
  dsimp only
  repeat' split
  all_goals simp

end

theorem reads_guards (f : EcsIn → State → Reply) (i : EcsIn) (s : State) : (reads f i s).Guards s := .refl s

section
variable (i : EcsIn) (s : State)

/-- A cap that POWER_CAP_SET may take, put in place. -/
theorem Power.Codes.capped {p : Power} (h : p.Codes) {c : Nat} (hmin : 1200 ≤ c) (hmax : c ≤ 3200) (hten : c % 10 = 0)
    (hfixed : p.fixed = true → 3200 ≤ c) : ({ p with cap := c } : Power).Codes :=
  { h with cap_min := hmin, cap_max := hmax, cap_ten := hten, cap_fixed := fun hf => le_antisymm hmax (hfixed hf) }

theorem powerCap_guards : (powerCap i s).Guards s := by
  unfold powerCap
  dsimp only
  split
  case h_1 => exact .no _
  case h_2 hok =>
    have hrange := EcsIn.lowest_eq_none_iff.1 hok
    simp only [List.mem_cons, List.not_mem_nil, or_false, forall_eq_or_imp, forall_eq, EcsIn.fails_eq_none_iff,
      Bool.or_eq_false_iff, decide_eq_false_iff_not, not_lt, bne_eq_false_iff_eq] at hrange
    obtain ⟨-, ⟨hmin, hmax⟩, hten⟩ := hrange
    split
    case isTrue => exact .no _
    case isFalse hfixed =>
      have hset : Guards s { s with power := { s.power with cap := i.arg 0x20 2 } } := .withPower s.main fun h => by
        obtain ⟨hcodes, hlimit⟩ := Power.legal_iff.1 h
        exact Power.legal_iff.2 ⟨hcodes.capped hmin hmax hten fun hf => not_lt.1 fun hlow => hfixed ⟨hf, hlow⟩, hlimit⟩
      exact hset.trans (State.postPower_guards _ _ _ _)

/-- A hold that POWER_EMERGENCY sets is a code. -/
theorem powerEmergency_guards : (powerEmergency i s).Guards s := by
  unfold powerEmergency
  dsimp only
  split
  case h_1 => exact .no _
  case h_2 hok =>
    refine State.limit_guards fun h => { h with hold := fun x hx => ?_ }
    have hrange := EcsIn.lowest_eq_none_iff.1 hok
    simp only [List.mem_cons, List.not_mem_nil, or_false, forall_eq_or_imp, forall_eq, EcsIn.fails_eq_none_iff] at hrange
    obtain ⟨-, -, hcode⟩ := hrange
    dsimp only at hx
    split at hx
    · cases hx
    case isFalse hset =>
      cases hx
      rw [if_neg hset] at hcode
      simpa using hcode

/-- Fixed-frequency mode begins at the cap of 3,200 W alone. -/
theorem fixedFreq_guards : (fixedFreq i s).Guards s := by
  unfold fixedFreq
  dsimp only
  split
  case h_1 => exact .no _
  case h_2 =>
    split
    case isTrue => exact .no _
    case isFalse hcap =>
      refine State.limit_guards fun h => ?_
      obtain ⟨hmin, hmax⟩ := And.intro h.capLim_min h.capLim_max
      exact { h with
        cap_fixed := fun _ => le_antisymm h.cap_max (not_lt.1 hcap)
        capLim_min := by dsimp only; split <;> omega
        capLim_max := by dsimp only; split <;> omega }

theorem powerQuery_guards : (tells powerReply i s).Guards s := by
  unfold tells powerReply
  dsimp only
  split
  · exact .refl s
  · split
    · exact s.sagsAct_guards
    · exact s.sagsAct_guards.trans (.main _ _)

theorem State.activate_guards {s t : State} {comp : Nat} (h : s.activate comp = .deferred t ∨ s.activate comp = .begun t) :
    Guards s t := by
  unfold State.activate at h
  dsimp only at h
  repeat' split at h
  all_goals simp only [reduceCtorEq, or_self, false_or, or_false, FwStart.deferred.injEq, FwStart.begun.injEq] at h
  · rw [← h]
    exact .main s _
  · rw [← h]
    exact s.switchOne_guards comp 0

theorem fwActivate_guards : (fwActivate i s).Guards s := by
  unfold fwActivate
  dsimp only
  split
  · exact .no _
  · split
    · simp
    · simp
    · simp
    next heq => exact State.activate_guards (.inl heq)
    next heq => exact State.activate_guards (.inr heq)

theorem reservedOp_guards : (reservedOp i s).Guards s := by
  unfold reservedOp
  exact .ite (.no _) (.no _)

/-! ### What every ECS command goes through -/

/-- An answer given from a state that keeps them, or from the one before, keeps them. -/
theorem State.answer_guards {s t : State} (i : EcsIn) (outOk : Bool) (r : Reply) (h : Guards s t) : Guards s (s.answer i outOk r t) := by
  unfold State.answer
  dsimp only
  split
  · exact h.trans (.main t _)
  · split
    · exact .main s _
    · split
      · exact .main s _
      · split
        · exact .main s _
        · exact .main s _
        · split
          · exact h.trans (.main t _)
          · split
            · exact h.trans (.main t _)
            · exact h.trans (.main t _)

theorem State.unlockFails_guards (i : EcsIn) (s : State) : Guards s (s.unlockFails i) := by
  unfold State.unlockFails
  split
  · exact .main s _
  · exact .refl s

theorem State.begin_guards {body : EcsIn → State → Ans} (i : EcsIn) (s : State) (h : ∀ i s, (body i s).Guards s) :
    (s.begin_ i body).Guards s := by
  unfold State.begin_
  dsimp only
  split
  · exact .refl s
  · split
    · exact s.unlockFails_guards i
    · split
      · exact s.unlockFails_guards i
      · split
        · exact s.unlockFails_guards i
        · exact h i s

theorem State.beginNow_guards {body : EcsIn → State → Ans} (i : EcsIn) (outOk : Bool) (s : State) (h : ∀ i s, (body i s).Guards s) :
    Guards s (s.beginNow i outOk body) := by
  have hbegin := State.begin_guards i s h
  unfold State.beginNow
  split
  next heq => exact State.answer_guards i outOk _ (by rwa [heq] at hbegin)
  next heq =>
    rw [heq] at hbegin
    exact Guards.trans hbegin (.main _ _)
  next => exact .main s _

theorem State.beginRead_guards {body : EcsIn → State → Ans} (i : EcsIn) (outOk : Bool) (s : State) (h : ∀ i s, (body i s).Guards s) :
    Guards s (s.beginRead i outOk body) := by
  unfold State.beginRead
  split
  · exact s.beginNow_guards i outOk h
  · split
    · exact .main s _
    · exact (Guards.main s _).trans (State.beginNow_guards _ _ _ h)
    · exact (Guards.main s _).trans (State.beginNow_guards _ _ _ h)

/-- An ECS command keeps what its own meaning keeps. -/
theorem State.ecs_guards {body : EcsIn → State → Ans} {ops : Nat → Bool} (mb : Mbx) (c : Cmd) (s : State) (h : ∀ i s, (body i s).Guards s) :
    Comes (State.ecs ops body mb c s) (Guards s) := by
  unfold State.ecs
  split
  · exact .refused _ _
  · dsimp only
    refine .unless fun _ => .unless fun _ => .ite (fun _ => .ite (fun _ => ?_) fun _ => .ite (fun _ => ?_) fun _ => .ite (fun _ => ?_)
      fun _ => ?_) fun _ => .unless fun _ => .unless fun _ => .unless fun _ => ?_
    · exact Comes.next.2 (.refl s)
    · exact Comes.next.2 (State.answer_guards _ _ _ (.refl s))
    · exact Comes.next.2 (.main s _)
    · exact Comes.next.2 (s.beginRead_guards _ _ h)
    · exact Comes.next.2 (s.beginRead_guards _ _ h)

theorem State.ecsOp_guards {body : EcsIn → State → Ans} {op : Nat} (mb : Mbx) (c : Cmd) (s : State) (h : ∀ i s, (body i s).Guards s) :
    Comes (State.ecsOp op body mb c s) (Guards s) := State.ecs_guards mb c s h

theorem execSpanDestroy_guards (mb : Mbx) (c : Cmd) (s : State) : Comes (execSpanDestroy mb c s) (Guards s) := by
  unfold execSpanDestroy
  exact .settling _ (State.ecsOp_guards mb c s spanDestroy_guards)

theorem execComposeCommit_guards (mb : Mbx) (c : Cmd) (s : State) : Comes (execComposeCommit mb c s) (Guards s) := by
  unfold execComposeCommit
  exact .settling _ (State.ecsOp_guards mb c s composeCommit_guards)

theorem execComposeAbort_guards (mb : Mbx) (c : Cmd) (s : State) : Comes (execComposeAbort mb c s) (Guards s) := by
  unfold execComposeAbort
  exact .settling _ (State.ecsOp_guards mb c s composeAbort_guards)

theorem execCtxDestroy_guards (mb : Mbx) (c : Cmd) (s : State) : Comes (execCtxDestroy mb c s) (Guards s) := by
  unfold execCtxDestroy
  exact .settling _ (State.ecsOp_guards mb c s ctxDestroy_guards)

theorem execQueueDestroy_guards (mb : Mbx) (c : Cmd) (s : State) : Comes (execQueueDestroy mb c s) (Guards s) := by
  unfold execQueueDestroy
  exact .settling _ (State.ecsOp_guards mb c s queueDestroy_guards)

theorem execChRetire_guards (mb : Mbx) (c : Cmd) (s : State) : Comes (execChRetire mb c s) (Guards s) := by
  unfold execChRetire
  exact .settling _ (State.ecsOp_guards mb c s chRetire_guards)

theorem execSaggerReset_guards (mb : Mbx) (c : Cmd) (s : State) : Comes (execSaggerReset mb c s) (Guards s) := by
  unfold execSaggerReset
  exact .settling _ (State.ecsOp_guards mb c s saggerReset_guards)

/-- A query answered from a snapshot changes Main and the snapshot alone. -/
theorem State.staleSnapshot_guards (mb : Mbx) (seq : BitVec 32) (outOk : Bool) (s : State) :
    Comes (s.staleSnapshot mb seq outOk) (Guards s) := by
  unfold State.staleSnapshot
  split
  · exact .refused _ _
  next c _ =>
    extract_lets s1 t i
    have hage : Guards s s1 := by
      simp only [s1]
      split
      · exact .refl s
      · exact .main s _
    have hkept : Guards s t := hage.trans (.snapshot s1 _ _)
    refine .unless fun _ => ?_
    split
    next heq =>
      refine Comes.next.2 (hkept.trans (State.answer_guards _ _ _ ?_))
      refine (congrArg (Ans.Guards t) heq).mp (State.begin_guards i t fun i s => ?_)
      split
      · exact .refl s
      · exact .again
    next => exact .refused _ _

/-! ### Messages, hints, stalls -/

theorem State.pldm_guards {f : MctpFrom} {go : State → State} {s : State} (h : Guards s (go s)) : Comes (s.pldm f go) (Guards s) := by
  unfold State.pldm
  exact .ite (fun _ => Comes.next.2 (.refl s)) fun _ => .unless fun _ => Comes.next.2 h

theorem State.pldmSay_guards (s : State) (f : MctpFrom) (type cmd : Nat) (body : List Byte) : Guards s (s.pldmSay f type cmd body) := by
  unfold State.pldmSay
  exact .main s _

theorem State.pldmBase_guards (f : MctpFrom) (req : List Byte) (s : State) : Guards s (s.pldmBase f req) := by
  unfold State.pldmBase
  dsimp only
  have hsaid (m : Main) (type cmd : Nat) (body : List Byte) :
      Guards s (({ s with main := m } : State).pldmSay f type cmd body) :=
    (Guards.main s m).trans (State.pldmSay_guards _ _ _ _ _)
  repeat' split
  all_goals exact hsaid _ _ _ _

theorem State.pldmPlatform_guards (f : MctpFrom) (req : PldmReq) (s : State) : Guards s (s.pldmPlatform f req) := by
  unfold State.pldmPlatform
  have hsaid (m : Main) (type cmd : Nat) (body : List Byte) :
      Guards s (({ s with main := m } : State).pldmSay f type cmd body) :=
    (Guards.main s m).trans (State.pldmSay_guards _ _ _ _ _)
  cases req with
  | receiver on => exact hsaid _ _ _ _
  | other code => exact hsaid _ _ _ _
  | sensor id =>
    dsimp only
    split
    · exact hsaid _ _ _ _
    · exact hsaid _ _ _ _

theorem State.pldmUpdate_guards (f : MctpFrom) (req : PldmFw) (img : List Byte) (s : State) : Guards s (s.pldmUpdate f req img) := by
  unfold State.pldmUpdate
  have hsaid (m : Main) (type cmd : Nat) (body : List Byte) :
      Guards s (({ s with main := m } : State).pldmSay f type cmd body) :=
    (Guards.main s m).trans (State.pldmSay_guards _ _ _ _ _)
  cases req with
  | stage comp version =>
    dsimp only
    repeat' split
    all_goals exact hsaid _ _ _ _
  | activate comp =>
    dsimp only
    split
    · exact hsaid _ _ _ _
    · split
      · exact hsaid _ _ _ _
      · exact hsaid _ _ _ _
      · exact hsaid _ _ _ _
      next heq => exact (State.activate_guards (.inl heq)).trans (State.pldmSay_guards _ _ _ _ _)
      next heq => exact (State.activate_guards (.inr heq)).trans (State.pldmSay_guards _ _ _ _ _)

theorem execMctpControl_guards (msg : MctpMsg MctpReq) (s : State) : Comes (execMctpControl msg s) (Guards s) := by
  unfold execMctpControl
  exact .ite (fun _ => Comes.next.2 (.refl s)) fun _ => .when fun _ => .main s _

theorem execHintPhaseStart_guards (ctx : Nat) (s : State) : Comes (execHintPhaseStart ctx s) (Guards s) := by
  unfold execHintPhaseStart
  dsimp only
  split
  · exact .refused _ _
  · exact .ite (fun _ => Comes.next.2 (.main s _)) fun _ => .unless fun _ => Comes.next.2 (.main s _)

theorem execHintPhaseEnd_guards (ctx : Nat) (s : State) : Comes (execHintPhaseEnd ctx s) (Guards s) := by
  unfold execHintPhaseEnd
  dsimp only
  split
  · exact .refused _ _
  · exact Comes.next.2 (.main s _)

/-- A stalled Kiln leaves L at 56 at most. -/
theorem execConeStall_guards (e : EngineId) (s : State) : Comes (execConeStall e s) (Guards s) := by
  have hstall := Comes.onMain (Main.stall e) s
  unfold execConeStall
  split
  next t heq =>
    refine Comes.next.2 ?_
    have ht : Guards s t := hstall t heq
    split
    · refine ht.trans (.withPower t.main fun h => ?_)
      obtain ⟨hcodes, hlimit⟩ := Power.legal_iff.1 h
      exact Power.legal_iff.2 ⟨{ hcodes with
        loc_min := le_min hcodes.loc_min (by decide), loc_max := (min_le_left _ _).trans hcodes.loc_max },
        fun hrun => (min_le_left _ _).trans (hlimit hrun)⟩
    · exact ht
  next => exact hstall

theorem execModReset_guards (s : State) : Comes (execModReset s) (Guards s) := by
  unfold execModReset
  exact .unless fun _ => Comes.next.2 (.main s _)

theorem execBusWarnAssert_guards (s : State) : Comes (execBusWarnAssert s) (Guards s) := by
  unfold execBusWarnAssert
  refine .onSupply ?_
  exact (State.pin_guards 918 true fun h => { h with }).trans (State.postPower_guards _ _ _ _)

theorem execBusWarnRelease_guards (s : State) : Comes (execBusWarnRelease s) (Guards s) := by
  unfold execBusWarnRelease
  refine .onSupply ?_
  exact (State.pin_guards 918 false fun h => { h with }).trans (State.postPower_guards _ _ _ _)

theorem execThermalStep_guards (hottest : Nat) (s : State) : Comes (execThermalStep hottest s) (Guards s) := by
  unfold execThermalStep
  exact .onSupply (s.thermalMove_guards hottest)

theorem execThermal105_guards (hottest : Nat) (s : State) : Comes (execThermal105 hottest s) (Guards s) := by
  unfold execThermal105
  refine .onSupply ?_
  exact State.thermalTo_guards fun _ => by decide

theorem execTapIdcode_guards (s : State) : Comes (execTapIdcode s) (Guards s) := by
  unfold execTapIdcode
  exact .onTap id

theorem execTrst_guards (s : State) : Comes (execTrst s) (Guards s) := by
  unfold execTrst
  exact .onTap fun h => by cases h

theorem execDroop_guards (cluster : Nat) (recovered : Bool) (s : State) : Comes (execDroop cluster recovered s) (Guards s) := by
  unfold execDroop
  refine .onSupply ?_
  split
  · exact .withPower s.main id
  · exact .withPower _ id

theorem execSurgeEnd_guards (s : State) : Comes (execSurgeEnd s) (Guards s) := by
  unfold execSurgeEnd
  exact .onSupply (.withPower s.main id)

theorem execPaceApply_guards (s : State) : Comes (execPaceApply s) (Guards s) := by
  unfold execPaceApply
  exact .unless fun _ => .unless fun _ => Comes.next.2 s.apply_guards

theorem execPaceToken_guards (sender tk limit : Nat) (s : State) : Comes (execPaceToken sender tk limit s) (Guards s) := by
  unfold execPaceToken
  exact .unless fun _ => .when fun _ => s.paceToken_guards sender limit

/-- An instruction of the test port that takes the pins leaves its lock as it is. -/
theorem Tap.takePins_opened (t : Tap) (code : Nat) : (t.takePins code).opened = t.opened := by
  unfold Tap.takePins
  split
  · rfl
  · rfl

theorem execTapSamplePreload_guards (s : State) : Comes (execTapSamplePreload s) (Guards s) := by
  unfold execTapSamplePreload
  intro t ht
  obtain ⟨_, rfl⟩ := State.onTap_next ht
  exact ⟨⟨rfl, id⟩, id⟩

/-! ### The Seal processor (R505, R512) -/

/-- What waits for receipts goes on: the queue and the power side are not touched. -/
theorem State.settleSeal_keeps (s : State) : Keeps s s.settleSeal := by
  unfold State.settleSeal State.settleUnlock
  split
  · exact ⟨rfl, id⟩
  · exact ⟨rfl, id⟩

theorem Comes.sealing {o : Outcome} {s : State} (h : Comes o (Guards s)) : Comes (sealing o) (Keeps s) := by
  cases o with
  | next t =>
    have ht : Guards s t := h t rfl
    have hsealed : Keeps s t.settleSeal := ht.toKeeps.trans t.settleSeal_keeps
    exact Comes.next.2 hsealed
  | fault r => exact fun t ht => (h t ht).toKeeps
  | refused r => exact fun t ht => (h t ht).toKeeps

theorem Comes.onSeal (f : Main → Out) (s : State) : Comes (onSeal f s) (Keeps s) := by
  have h := Comes.onMain f s
  unfold Machine.onSeal
  split
  next t heq => exact Comes.next.2 ((h t heq).toKeeps.trans t.settleSeal_keeps)
  next => exact fun t ht => (h t ht).toKeeps

end

/-! ### Every command -/

/-- The commands of the Seal processor after which what waits for receipts goes on. -/
def sealCommand : Instr → Bool
  | .slotRevoke _ _ => true
  | .debugUnlock _ _ => true
  | .pierReceipt _ _ => true
  | .pierReceiptTimeout _ => true
  | .engineReceiptTimeout _ => true
  | _ => false

/-- Every other command keeps the queue, the laws of the power side and the lock of the test port: most of them change Main alone. -/
theorem exec_guards {c : Instr} (s : State) (hc : sealCommand c = false) : Comes (exec c s) (Guards s) := by
  cases c with
  | slotRevoke => cases hc
  | debugUnlock => cases hc
  | pierReceipt => cases hc
  | pierReceiptTimeout => cases hc
  | engineReceiptTimeout => cases hc
  | identify mb c => exact State.ecsOp_guards mb c s (reads_guards _)
  | moduleStatus mb c => exact State.ecsOp_guards mb c s (reads_guards _)
  | telemetryRead mb c => exact State.ecsOp_guards mb c s (reads_guards _)
  | fabricQuery mb c => exact State.ecsOp_guards mb c s (reads_guards _)
  | setParam mb c => exact State.ecsOp_guards mb c s setParam_guards
  | getParam mb c => exact State.ecsOp_guards mb c s (reads_guards _)
  | fnBind mb c => exact State.ecsOp_guards mb c s fnBind_guards
  | spanCreate mb c => exact State.ecsOp_guards mb c s spanCreate_guards
  | spanDestroy mb c => exact execSpanDestroy_guards mb c s
  | composePrepare mb c => exact State.ecsOp_guards mb c s composePrepare_guards
  | composeCommit mb c => exact execComposeCommit_guards mb c s
  | composeAbort mb c => exact execComposeAbort_guards mb c s
  | spanQuery mb c => exact State.ecsOp_guards mb c s (reads_guards _)
  | spanList mb c => exact State.ecsOp_guards mb c s (reads_guards _)
  | ctxCreate mb c => exact State.ecsOp_guards mb c s ctxCreate_guards
  | ctxDestroy mb c => exact execCtxDestroy_guards mb c s
  | ctxQuery mb c => exact State.ecsOp_guards mb c s ctxQuery_guards
  | ctxEvict mb c => exact State.ecsOp_guards mb c s ctxEvict_guards
  | queueCreate mb c => exact State.ecsOp_guards mb c s queueCreate_guards
  | queueDestroy mb c => exact execQueueDestroy_guards mb c s
  | queueQuery mb c => exact State.ecsOp_guards mb c s queueQuery_guards
  | fenceCreate mb c => exact State.ecsOp_guards mb c s fenceCreate_guards
  | fenceDestroy mb c => exact State.ecsOp_guards mb c s fenceDestroy_guards
  | fenceGrant mb c => exact State.ecsOp_guards mb c s fenceGrant_guards
  | fenceSignal mb c => exact State.ecsOp_guards mb c s fenceSignal_guards
  | fenceQuery mb c => exact State.ecsOp_guards mb c s fenceQuery_guards
  | ctxL2part mb c => exact State.ecsOp_guards mb c s ctxL2part_guards
  | lcAlloc mb c => exact State.ecsOp_guards mb c s lcAlloc_guards
  | lcSet mb c => exact State.ecsOp_guards mb c s lcSet_guards
  | lcFree mb c => exact State.ecsOp_guards mb c s lcFree_guards
  | extCreate mb c => exact State.ecsOp_guards mb c s extCreate_guards
  | extDestroy mb c => exact State.ecsOp_guards mb c s extDestroy_guards
  | extQuery mb c => exact State.ecsOp_guards mb c s (reads_guards _)
  | chRetire mb c => exact execChRetire_guards mb c s
  | winMap mb c => exact State.ecsOp_guards mb c s winMap_guards
  | winUnmap mb c => exact State.ecsOp_guards mb c s winUnmap_guards
  | regionRegister mb c => exact State.ecsOp_guards mb c s regionRegister_guards
  | regionRelease mb c => exact State.ecsOp_guards mb c s regionRelease_guards
  | powerCapSet mb c => exact State.ecsOp_guards mb c s powerCap_guards
  | powerEmergency mb c => exact State.ecsOp_guards mb c s powerEmergency_guards
  | fixedFreq mb c => exact State.ecsOp_guards mb c s fixedFreq_guards
  | powerQuery mb c => exact State.ecsOp_guards mb c s powerQuery_guards
  | laserShutdown mb c => exact State.ecsOp_guards mb c s laserShutdown_guards
  | errRead mb c => exact State.ecsOp_guards mb c s (reads_guards _)
  | errAck mb c => exact State.ecsOp_guards mb c s errAck_guards
  | saggerReset mb c => exact execSaggerReset_guards mb c s
  | deviceReset mb c => exact State.ecsOp_guards mb c s deviceReset_guards
  | coreSpareSwap mb c => exact State.ecsOp_guards mb c s spareSwap_guards
  | enterBanked mb c => exact State.ecsOp_guards mb c s enterBanked_guards
  | debugRead mb c => exact State.ecsOp_guards mb c s (reads_guards _)
  | secQuery mb c => exact State.ecsOp_guards mb c s (reads_guards _)
  | slotAssign mb c => exact State.ecsOp_guards mb c s slotAssign_guards
  | fwStage mb c => exact State.ecsOp_guards mb c s fwStage_guards
  | fwActivate mb c => exact State.ecsOp_guards mb c s fwActivate_guards
  | fwQuery mb c => exact State.ecsOp_guards mb c s (reads_guards _)
  | drillArm mb c => exact State.ecsOp_guards mb c s drillArm_guards
  | drillDisarm mb c => exact State.ecsOp_guards mb c s drillDisarm_guards
  | loopbackSet mb c => exact State.ecsOp_guards mb c s loopbackSet_guards
  | drillQuery mb c => exact State.ecsOp_guards mb c s (reads_guards _)
  | reservedCommand mb c => exact State.ecs_guards (ops := fun op => (classOf op).isNone) mb c s reservedOp_guards
  | sag mv => 
    refine Comes.onSupply ?_
    exact State.sagBegin_guards mv s
  | sagEnd mv => 
    refine Comes.onSupply ?_
    exact State.sagOver_guards mv s
  | surge mv => 
    refine Comes.onSupply ?_
    exact State.surge_guards mv s
  | shortExcursion mv durationUs => 
    refine Comes.onSupply ?_
    exact State.excursion_guards mv durationUs s
  | pwrbrakeAssert => 
    refine Comes.onSupply ?_
    exact s.brakeOn_guards
  | pwrbrakeRelease => 
    refine Comes.onSupply ?_
    exact s.brakeOff_guards
  | regulatorAlert rail => 
    refine Comes.onSupply ?_
    exact State.alertOn_guards rail s
  | regulatorAlertRelease => 
    refine Comes.onSupply ?_
    exact s.alertOff_guards
  | kilnLoop watts mv => 
    refine Comes.onSupply ?_
    exact State.loopOnce_guards watts mv s
  | energyMeter inputMj x => 
    refine Comes.onSupply ?_
    exact State.meter_guards inputMj x s
  | sagNotice sender detected recovered => exact .when fun _ => State.sagNotice_guards sender detected recovered s
  | paceRound => exact .when fun _ => s.round_guards
  | sourceAssert source level => exact .unless fun _ => Comes.next.2 (State.assertSource_guards source level s)
  | banked cause => exact .when fun _ => s.bankFinish_guards
  | overvoltageSwitchOpen => exact .when fun _ => s.powerGone_guards
  | standbyLoss => exact .when fun _ => s.powerGone_guards
  | modResetRelease => exact .when fun _ => s.beginCold_guards
  | firmwareActivationDone component => exact .unless fun _ => s.switched_guards component
  | firmwareHeartbeatFail component => exact .when fun _ => s.endSwitch_guards component false
  | elborServicePauseEnd => exact s.switched_guards 0
  | coldStart => exact s.deviceStart_guards true
  | warmStart => exact s.deviceStart_guards false
  | staleSnapshot mb seq outOk => exact s.staleSnapshot_guards mb seq outOk
  | pldmBase msg => exact State.pldm_guards (State.pldmBase_guards _ _ s)
  | pldmPlatform msg => exact State.pldm_guards (State.pldmPlatform_guards _ _ s)
  | pldmFirmwareUpdate from_ req image => exact State.pldm_guards (State.pldmUpdate_guards _ _ _ s)
  | mctpControl msg => exact execMctpControl_guards msg s
  | hintPhaseStart ctx => exact execHintPhaseStart_guards ctx s
  | hintPhaseEnd ctx => exact execHintPhaseEnd_guards ctx s
  | coneStall e => exact execConeStall_guards e s
  | busWarnAssert => exact execBusWarnAssert_guards s
  | thermalStep hottest => exact execThermalStep_guards hottest s
  | thermal105 hottest => exact execThermal105_guards hottest s
  | busWarnRelease => exact execBusWarnRelease_guards s
  | modReset => exact execModReset_guards s
  | droop cluster recovered => exact execDroop_guards cluster recovered s
  | surgeEnd => exact execSurgeEnd_guards s
  | paceApply => exact execPaceApply_guards s
  | paceToken sender tk limit => exact execPaceToken_guards sender tk limit s
  | tapSamplePreload => exact execTapSamplePreload_guards s
  | startStepDone rep => exact execStartStepDone_guards rep s
  | startStepTimeout => exact execStartStepTimeout_guards s
  | standbyPowerApplied => exact execStandbyPowerApplied_guards s
  | thermtripHoldEnd => exact execThermtripHoldEnd_guards s
  | undervoltageBank bulk => exact execUndervoltageBank_guards bulk s
  | thermtrip hottest => exact execThermtrip_guards hottest s
  | tapBypass => exact Comes.onTap (f := Tap.bypass) id
  | tapIdcode => exact execTapIdcode_guards s
  | tapExtest => exact Comes.onTap (f := fun t => t.takePins 0x00) fun h => by rwa [Tap.takePins_opened] at h
  | tapClamp => exact Comes.onTap (f := fun t => t.takePins 0x04) fun h => by rwa [Tap.takePins_opened] at h
  | tapHighz => exact Comes.onTap (f := fun t => t.takePins 0x05) fun h => by rwa [Tap.takePins_opened] at h
  | slotSchedule => exact Comes.onMain Main.slotSchedule s
  | sealProcessorFault => exact Comes.onMain Main.sealFault s
  | ftimeSyncEnable on => exact Comes.onMain (fun m => .next { m with fab := { m.fab with syncOn := on, syncLost := false, lastSync := m.time } }) s
  | exit b f => exact Comes.onMain (fun m => afterExit b (exitIns.issue b f m)) s
  | agentDeath agent => exact Comes.onMain (fun m => if agent < 320 then .next (m.killAgent agent) else .refused (.noSubject "agent")) s
  | eqCtlEnSet fn q => exact Comes.onMain (fun m => m.onEq fn q (fun _ => m.modEq fn q EvQ.start)) s
  | eqCtlEnClear fn q => exact Comes.onMain (fun m => m.onEq fn q (m.eqStop fn q)) s
  | eqHead fn q w => exact Comes.onMain (fun m => m.onEq fn q (m.eqHeadWrite fn q w)) s
  | eqErrClear fn q w => exact Comes.onMain (fun m => m.onEq fn q (fun _ => m.modEq fn q (fun x => { x with err := x.err && !w.getLsbD 0 }))) s
  | bankingNotice module => exact Comes.onMain (Main.bankingNotice module) s
  | trst => exact execTrst_guards s
  | _ => exact Comes.onMain _ s

/-- Every command keeps the queue and the laws of the power side. -/
theorem exec_keeps (c : Instr) (s : State) : Comes (exec c s) (Keeps s) := by
  cases hc : sealCommand c with
  | false => exact fun t ht => (exec_guards s hc t ht).toKeeps
  | true =>
    cases c with
    | slotRevoke mb c => exact .sealing (State.ecsOp_guards mb c s slotRevoke_guards)
    | debugUnlock mb c => exact .sealing (State.ecsOp_guards mb c s debugUnlock_guards)
    | pierReceipt module slot => exact .onSeal (Main.pierReceipt module slot) s
    | pierReceiptTimeout slot => exact .onSeal _ s
    | engineReceiptTimeout engine => exact .onSeal _ s
    | _ => cases hc

/-- An idle nanosecond touches neither. -/
theorem State.idle_keeps (s : State) : Keeps s s.idle := by
  unfold State.idle
  exact Keeps.trans (Guards.main s _).toKeeps (State.settleSeal_keeps _)

/-- Settles O57: a command touches the queue in no arm, and a settled receipt leaves it too. -/
theorem queueUntouched : Obligations.QueueUntouched := by
  unfold Obligations.QueueUntouched
  exact fun c s t ht => (exec_keeps c s t ht).queue

/-- Settles O58: outside the Seal processor's commands the port stays as locked as it was. -/
theorem testPortOpens : Obligations.TestPortOpens := by
  unfold Obligations.TestPortOpens
  intro c s t ht hlocked hopen
  cases hc : sealCommand c with
  | false =>
    have hstays := (exec_guards s hc t ht).port hopen
    rw [hlocked] at hstays
    cases hstays
  | true =>
    cases c with
    | slotRevoke mb x => exact .inl ⟨mb, x, .inl rfl⟩
    | debugUnlock mb x => exact .inl ⟨mb, x, .inr rfl⟩
    | pierReceipt module slot => exact .inr ⟨module, slot, .inl rfl⟩
    | pierReceiptTimeout slot => exact .inr ⟨slot, 0, .inr (.inl rfl)⟩
    | engineReceiptTimeout engine => exact .inr ⟨engine, 0, .inr (.inr rfl)⟩
    | _ => cases hc

/-- Settles O59: every command keeps the power side legal, and so does an idle nanosecond. -/
theorem powerStaysLegal : Obligations.PowerStaysLegal := by
  unfold Obligations.PowerStaysLegal
  intro s t hlegal hstep
  unfold step at hstep
  split at hstep
  next c rest heq => exact (exec_keeps c { s with pending := rest } t hstep).power hlegal
  next => exact (Comes.next.2 s.idle_keeps t hstep).power hlegal

end Sys2Proof.Machine
end

section
/-! The pins, the limiters, the rails' energies, the span lockstep and the hints (R335, R422, R445-R448, R452-R456). -/

namespace Sys2Proof.Machine

section
variable {s : State}

/-! ### What an event of the power side leaves of it -/

/-- A POWER event is noted among those posted; the rest of the power side stays. -/
theorem State.postPower_power (s : State) (cause : Nat) (st : Status) (detail : Nat) :
    ∃ posted, (s.postPower cause st detail).power = { s.power with posted := posted } := by
  unfold State.postPower
  dsimp only
  split
  · exact ⟨s.power.posted, rfl⟩
  · exact ⟨_, rfl⟩

/-- The limiters leave what they are set to, and L with them. -/
theorem State.limit_power (s : State) (f : Power → Power) :
    ∃ posted, (s.limit f).power = { (f s.power).settle with posted := posted } := by
  rcases s.limit_eq f with heq | ⟨cause, detail, heq⟩
  · exact ⟨(f s.power).settle.posted, by rw [heq]⟩
  · rw [heq]
    exact State.postPower_power _ _ _ _

/-- While the loop runs L is at most the lowest limit, and the limits are those of the limiters. -/
theorem State.limit_of_running {f : Power → Power} (hrun : (s.limit f).power.stopped = false) :
    (s.limit f).power.loc = min (f s.power).loc (f s.power).limit ∧ (s.limit f).power.limit = (f s.power).limit := by
  obtain ⟨posted, hp⟩ := s.limit_power f
  rw [hp] at hrun ⊢
  have hrun : (f s.power).stopped = false := hrun
  refine ⟨?_, rfl⟩
  change min (f s.power).loc _ = _
  rw [hrun]
  rfl

/-! ### Rows of the supply and of the pins (R445, R447, R448) -/

/-- The supply runs where the Kiln loop does. -/
theorem State.standby_of_kilnLoops (h : s.kilnLoops = true) : s.main.standby = true := by
  unfold State.kilnLoops Main.kilnUp at h
  unfold Main.standby
  cases hp : s.main.rcv.phase <;> simp_all

/-- A row of the standby supply acts once its own condition holds. -/
theorem State.onSupply_of_standby {bad : Option String} {go : State → State} {t : State} (hs : s.main.standby = true)
    (hbad : bad = none) (hgo : go s = t) : s.onSupply false bad go = .next t := by
  simp [State.onSupply, hs, hbad, hgo]

/-- So does one of the Kiln's while its loop runs. -/
theorem State.onSupply_of_loops {bad : Option String} {go : State → State} {t : State} (hloops : s.kilnLoops = true)
    (hbad : bad = none) (hgo : go s = t) : s.onSupply true bad go = .next t := by
  simp [State.onSupply, State.standby_of_kilnLoops hloops, hloops, hbad, hgo]

theorem needs_of {ok : Bool} {what : String} (h : ok = true) : needs ok what = none := if_pos h

theorem exec_pwrbrakeAssert_of_released (hs : s.main.standby = true) (hb : s.power.brake = false) :
    exec .pwrbrakeAssert s = .next s.brakeOn := State.onSupply_of_standby hs (needs_of (by simp [hb])) rfl

theorem exec_pwrbrakeRelease_of_asserted (hs : s.main.standby = true) (hb : s.power.brake = true) :
    exec .pwrbrakeRelease s = .next s.brakeOff := State.onSupply_of_standby hs (needs_of hb) rfl

theorem exec_regulatorAlert_of_new {rail : Nat} (hs : s.main.standby = true) (hrail : rail < 6) (hnew : rail ∉ s.power.alerts) :
    exec (.regulatorAlert rail) s = .next (s.alertOn rail) :=
  State.onSupply_of_standby hs (needs_of (by simp [hrail, hnew])) rfl

theorem exec_regulatorAlertRelease_of_alerts (hs : s.main.standby = true) (halerts : s.power.alerts ≠ []) :
    exec .regulatorAlertRelease s = .next s.alertOff := State.onSupply_of_standby hs (needs_of (by simpa using halerts)) rfl

/-- Source 917 is the brake (R422). -/
theorem State.assertSource_brake {level : Bool} (hs : s.main.standby = true) (hlevel : level ≠ s.power.brake) :
    s.assertSource 917 level = if level then s.brakeOn else s.brakeOff := by
  unfold State.assertSource
  exact if_pos ⟨rfl, hs, hlevel⟩

/-- Source 916 is the alert: it is released by whichever asserts none, -/
theorem State.assertSource_alertOff (hs : s.main.standby = true) (halerts : s.power.alerts ≠ []) :
    s.assertSource 916 false = s.alertOff := by
  unfold State.assertSource
  rw [if_neg (by simp), if_pos ⟨rfl, hs, by simpa using halerts⟩]
  rfl

/-- and raised on a rail that is open. -/
theorem State.assertSource_alertOn (hs : s.main.standby = true) (halerts : s.power.alerts = []) :
    s.assertSource 916 true = State.alertOn (s.main.draw.1 % 6) { s with main := s.main.draw.2 } := by
  unfold State.assertSource
  rw [if_neg (by simp), if_pos ⟨rfl, hs, by simpa using halerts⟩]
  rfl

/-- An alert forces the floor. -/
theorem State.alertOn_floor (rail : Nat) (s : State) : (s.alertOn rail).power.floor = true := by
  unfold State.alertOn
  obtain ⟨posted, hpost⟩ := State.postPower_power ((s.source 916 true).limit (fun p => { p with alerts := p.alerts ++ [rail] })) 7 .ok rail
  obtain ⟨noted, hlimit⟩ := (s.source 916 true).limit_power (fun p => { p with alerts := p.alerts ++ [rail] })
  rw [hpost, hlimit]
  simp [Power.floor, Power.settle]

theorem exec_sourceAssert_of_exists {n : Nat} {level : Bool} (hn : n < 920) :
    exec (.sourceAssert n level) s = .next (s.assertSource n level) := if_neg (not_le.2 hn)

/-! ### The droop (R447) -/

theorem exec_droop_of_new {k : Nat} (hs : s.main.standby = true) (hk : k < 32) (hrails : s.main.rcv.mainRails = true)
    (hnew : k ∉ s.power.drooping) : exec (.droop k false) s = .next { s with
      main := s.main.bump 1 7 k 1, power := { s.power with drooping := s.power.drooping ++ [k] } } := by
  change execDroop k false s = _
  unfold execDroop
  exact State.onSupply_of_standby hs (needs_of (by simp [hk, hrails, hnew])) rfl

theorem exec_droop_of_drooping {k : Nat} (hs : s.main.standby = true) (hk : k < 32) (hrails : s.main.rcv.mainRails = true)
    (hold : k ∈ s.power.drooping) : exec (.droop k true) s =
      .next { s with power := { s.power with drooping := s.power.drooping.erase k } } := by
  change execDroop k true s = _
  unfold execDroop
  exact State.onSupply_of_standby hs (needs_of (by simp [hk, hrails, hold])) rfl

/-! ### The Kiln's limiters (R445, R448, R449) -/

theorem State.thermalTo_thermal (s : State) (hottest limit : Nat) : (s.thermalTo hottest limit).power.thermal = limit := by
  obtain ⟨noted, hlimit⟩ := s.limit_power (fun p => { p with hottest := hottest, thermal := limit, thermalAt := s.main.time })
  have hset : (s.limit (fun p => { p with hottest := hottest, thermal := limit, thermalAt := s.main.time })).power.thermal = limit := by
    rw [hlimit]
    rfl
  have hposted (cause : Nat) (st : Status) (detail : Nat) (x : State) : (x.postPower cause st detail).power.thermal = x.power.thermal := by
    obtain ⟨posted, hpost⟩ := x.postPower_power cause st detail
    rw [hpost]
  unfold State.thermalTo
  extract_lets was s1
  split
  · exact (hposted _ _ _ _).trans hset
  · split
    · exact (hposted _ _ _ _).trans hset
    · exact hset

theorem exec_thermalStep_of_loops (hloops : s.kilnLoops = true) (hot : Nat) :
    exec (.thermalStep hot) s = .next (s.thermalMove hot) :=
  State.onSupply_of_loops hloops rfl rfl

theorem exec_thermal105_of_hot (hloops : s.kilnLoops = true) {hot : Nat} (hhot : 1050 ≤ hot) :
    exec (.thermal105 hot) s = .next (s.thermalTo hot 16) := by
  change execThermal105 hot s = _
  unfold execThermal105
  exact State.onSupply_of_loops hloops (needs_of (by simpa using hhot)) rfl

theorem exec_kilnLoop_of_bounded (hloops : s.kilnLoops = true) {watts mv : Nat} (hw : watts ≤ s.mostWatts) :
    exec (.kilnLoop watts mv) s = .next (s.loopOnce watts mv) :=
  State.onSupply_of_loops hloops (needs_of (by simpa using hw)) rfl

theorem exec_busWarnAssert_of_released (hloops : s.kilnLoops = true) (hw : s.power.busWarn = false) : exec .busWarnAssert s =
    .next (((s.source 918 true).limit (fun p => { p with busWarn := true })).postPower 8 .ok 0) := by
  change execBusWarnAssert s = _
  unfold execBusWarnAssert
  exact State.onSupply_of_loops hloops (needs_of (by simp [hw])) rfl

theorem exec_busWarnRelease_of_asserted (hloops : s.kilnLoops = true) (hw : s.power.busWarn = true) : exec .busWarnRelease s =
    .next (((s.source 918 false).limit (fun p => { p with busWarn := false })).postPower 9 .ok 0) := by
  change execBusWarnRelease s = _
  unfold execBusWarnRelease
  exact State.onSupply_of_loops hloops (needs_of hw) rfl

theorem exec_energyMeter_of_measurable (hloops : s.kilnLoops = true) {mj : Nat} {rails : List Nat} {uses : List GrainUse}
    (hmj : measurable mj rails = true) (huses : ∀ u ∈ uses, u.rail < 5 ∧ u.kind < 3) :
    exec (.energyMeter mj ⟨rails, uses⟩) s = .next (s.meter mj ⟨rails, uses⟩) :=
  State.onSupply_of_loops hloops (needs_of (by simpa [hmj] using huses)) rfl

end

theorem apportionFrom_length (e t : Nat) (ws : List Nat) (c : Nat) : (apportionFrom e t c ws).length = ws.length := by
  induction ws generalizing c with
  | nil => rfl
  | cons w r ih => simp [apportionFrom, ih]

/-- The parts of a total from a weight on add up: each ends where the next begins. -/
theorem apportionFrom_sum (e t : Nat) (ws : List Nat) (c : Nat) :
    (apportionFrom e t c ws).sum = e * (c + ws.sum) / t - e * c / t := by
  induction ws generalizing c with
  | nil => simp [apportionFrom]
  | cons w r ih =>
    have hfirst : e * c / t ≤ e * (c + w) / t := Nat.div_le_div_right (Nat.mul_le_mul_left e (Nat.le_add_right c w))
    have hrest : e * (c + w) / t ≤ e * (c + w + r.sum) / t :=
      Nat.div_le_div_right (Nat.mul_le_mul_left e (Nat.le_add_right (c + w) r.sum))
    rw [apportionFrom, List.sum_cons, ih, List.sum_cons, ← Nat.add_assoc]
    omega

/-- All of an amount is divided where a weight is not zero (R456). -/
theorem apportion_sum (e : Nat) {ws : List Nat} (h : ws.sum ≠ 0) : (apportion e ws).sum = e := by
  rw [apportion, apportionFrom_sum, Nat.zero_add, Nat.mul_zero, Nat.zero_div, Nat.sub_zero,
    Nat.mul_div_cancel _ (Nat.pos_of_ne_zero h)]

/-- The shares of one rail among all shares are those of its uses. -/
theorem railShares_filter (rails : List Nat) (uses : List GrainUse) {r : Nat} (hr : r < 5) :
    (railShares rails uses).filter (fun x => x.1.rail == r) =
      (uses.filter (fun u => u.rail == r)).zip
        (apportion (nth rails r 0 * 1000000) ((uses.filter (fun u => u.rail == r)).map (·.count))) := by
  have hchunk (q : Nat) (l : List Nat) : ((uses.filter (fun u => u.rail == q)).zip l).filter (fun x => x.1.rail == r) =
      if q = r then (uses.filter (fun u => u.rail == q)).zip l else [] := by
    have hrail : ∀ x ∈ (uses.filter (fun u => u.rail == q)).zip l, x.1.rail = q := fun x hx => by
      simpa using (List.mem_filter.1 (List.of_mem_zip hx).1).2
    split
    case isTrue heq => exact List.filter_eq_self.2 fun x hx => by simp [hrail x hx, heq]
    case isFalse hne => exact List.filter_eq_nil_iff.2 fun x hx => by simp [hrail x hx, hne]
  rw [railShares, List.filter_flatMap]
  simp only [hchunk]
  interval_cases r <;> simp [List.range, List.range.loop]

theorem railShares_sum (rails : List Nat) (uses : List GrainUse) {r : Nat} (hr : r < 5)
    (hcount : ((uses.filter (fun u => u.rail == r)).map (·.count)).sum ≠ 0) :
    (((railShares rails uses).filter (fun x => x.1.rail == r)).map (·.2)).sum = nth rails r 0 * 1000000 := by
  rw [railShares_filter rails uses hr, List.map_snd_zip (by simp [apportion, apportionFrom_length]), apportion_sum _ hcount]


/-! ### THERMTRIP# (R448, R485) -/

section
variable (m : Main)

@[simp] theorem Main.egDeliver_rcv (bank bit : Nat) : (m.egDeliver bank bit).rcv = m.rcv := by
  unfold Main.egDeliver
  split
  · rfl
  · dsimp only
    split <;> rfl

@[simp] theorem Main.egSettle_rcv : m.egSettle.rcv = m.rcv :=
  foldl_view_eq (view := Main.rcv) (fun x bank => foldl_view_eq (view := Main.rcv) (fun y bit => y.egDeliver_rcv bank bit) _ x) _ m

@[simp] theorem Main.egInput_rcv (source : Nat) (level : Bool) : (m.egInput source level).rcv = m.rcv := by
  unfold Main.egInput
  exact Main.egSettle_rcv _

/-- The swaps that end change units alone. -/
theorem Main.endSwaps_rcv : m.endSwaps.rcv = { m.rcv with swaps := [] } :=
  foldl_view_eq (view := Main.rcv) (fun x (u : Swap) => (rfl : (x.admitWithout u.core).rcv = x.rcv)) _ _

/-- Records that join another change themselves, and their events go out. -/
theorem Main.joinOthers_bystanders (tell : Bool) (parent : Nat) : (m.joinOthers tell parent).bystanders = m.bystanders :=
  Main.foldl_bystanders (fun x (r : ErrRec) =>
    (Main.endErr_bystanders (x.modErr r.id (fun r => { r with parent := some parent })) tell r.id .joined r.status).trans rfl) _ m

/-- An entry of which there is no time to tell leaves THERMTRIP# as it is. -/
theorem Main.bankEnter_thermtrip {cause : Nat} (hsilent : bankTells cause = false) (source : EngineId) (parent : Option Nat) :
    (m.bankEnter cause source parent).rcv.thermtrip = m.rcv.thermtrip := by
  have hswaps : m.endSwaps.rcv.thermtrip = m.rcv.thermtrip := by rw [Main.endSwaps_rcv]
  have hjoin : (m.endSwaps.joinOthers (bankTells cause) m.rcv.nextErr).rcv.thermtrip = m.endSwaps.rcv.thermtrip :=
    (congrArg (fun x : Main => x.rcv.thermtrip) (Main.joinOthers_bystanders _ _ _) :)
  unfold Main.bankEnter
  dsimp only
  rw [if_neg (by simp [hsilent])]
  exact hjoin.trans hswaps

end

/-- The module with a sensor at 115 °C: THERMTRIP# is low, and its source asserts. -/
def Main.tripped (m : Main) : Main := ({ m with rcv := { m.rcv with thermtrip := true } } : Main).egInput 919 true

theorem Main.tripped_rcv (m : Main) : m.tripped.rcv = { m.rcv with thermtrip := true } := by
  unfold Main.tripped
  exact Main.egInput_rcv _ _ _

/-- A trip changes nothing that decides whether the module may be banked. -/
theorem Main.tripped_bankable (m : Main) : m.tripped.bankable = m.bankable := by
  unfold Main.bankable Main.resettable
  rw [Main.tripped_rcv]

/-- A POWER event is posted or counted. -/
theorem State.postPower_bystanders (s : State) (cause : Nat) (st : Status) (detail : Nat) :
    (s.postPower cause st detail).main.bystanders = s.main.bystanders := by
  unfold State.postPower
  dsimp only
  split
  · rfl
  · exact Main.post_bystanders _ _ _ _ _ _

/-- Whether the module may be banked does not turn on what has been told. -/
theorem Main.bankable_of_bystanders {m m1 : Main} (h : m1.bystanders = m.bystanders) : m1.bankable = m.bankable := by
  obtain ⟨hphase, hbanking, -⟩ := Main.phase_of_bystanders h
  unfold Main.bankable Main.resettable
  rw [hphase, hbanking]

/-- The state with a sensor at 115 °C read and told of. -/
def State.tripTold (s : State) (hot : Nat) : State :=
  ({ s with power := { s.power with hottest := hot } } : State).postPower 12 .ok (hot % 2 ^ 16)

/-- A module with a trip enters the banked state where it may. -/
def Main.bankTrip (m : Main) : Main := if m.bankable then m.bankEnter 0x52 ⟨6, 1⟩ none else m

theorem exec_thermtrip_eq {s : State} {hot : Nat} (hs : s.main.standby = true) (hhot : 1150 ≤ hot)
    (hnew : s.main.rcv.thermtrip = false) :
    exec (.thermtrip hot) s = .next { s.tripTold hot with main := (s.tripTold hot).main.tripped.bankTrip } := by
  change execThermtrip hot s = _
  unfold execThermtrip Main.tripped Main.bankTrip
  rw [if_neg (by simp [hs, hnew, hhot])]
  rfl

theorem Main.bankTrip_thermtrip (m : Main) : m.bankTrip.rcv.thermtrip = m.rcv.thermtrip := by
  unfold Main.bankTrip
  split
  · exact m.bankEnter_thermtrip rfl _ _
  · rfl

theorem Main.bankTrip_banking {m : Main} (h : m.bankable = true) : m.bankTrip.rcv.banking = some 0x52 := by
  unfold Main.bankTrip
  rw [if_pos h]
  exact m.bankEnter_banking _ _ _

theorem exec_thermtrip_of_hot {s : State} {hot : Nat} (hs : s.main.standby = true) (hhot : 1150 ≤ hot)
    (hnew : s.main.rcv.thermtrip = false) : ∃ t, exec (.thermtrip hot) s = .next t ∧ t.main.rcv.thermtrip = true ∧
      t.power.hottest = hot ∧ (s.main.bankable = true → t.main.rcv.banking = some 0x52) := by
  refine ⟨_, exec_thermtrip_eq hs hhot hnew, ?_, ?_, fun hbank => ?_⟩
  · simp only [Main.bankTrip_thermtrip, Main.tripped_rcv]
  · obtain ⟨posted, hpost⟩ := ({ s with power := { s.power with hottest := hot } } : State).postPower_power 12 .ok (hot % 2 ^ 16)
    simp only [State.tripTold, hpost]
  · have hable : (s.tripTold hot).main.bankable = s.main.bankable := Main.bankable_of_bystanders (State.postPower_bystanders _ _ _ _)
    simp only [Main.bankTrip_banking, Main.tripped_bankable, hable, hbank]

/-- Settles O42: each row acts once its condition holds, the limiters set what they are set to, and the parts of a rail's energy add up. -/
theorem limiterResults : Obligations.LimiterResults := by
  unfold Obligations.LimiterResults
  refine ⟨fun s hs => ⟨exec_pwrbrakeAssert_of_released hs, exec_pwrbrakeRelease_of_asserted hs,
    fun rail => exec_regulatorAlert_of_new hs, exec_regulatorAlertRelease_of_alerts hs, fun hb => ?_, fun hb => ?_, fun ha => ?_,
    fun ha => ?_, fun k hk hrails => ⟨exec_droop_of_new hs hk hrails, exec_droop_of_drooping hs hk hrails⟩, fun hloops => ?_,
    fun hot => exec_thermtrip_of_hot hs⟩, fun rails uses r => railShares_sum rails uses, fun s f => State.limit_of_running⟩
  · rw [exec_pwrbrakeAssert_of_released hs hb, exec_sourceAssert_of_exists (by decide), State.assertSource_brake hs (by simp [hb])]
    rfl
  · rw [exec_pwrbrakeRelease_of_asserted hs hb, exec_sourceAssert_of_exists (by decide), State.assertSource_brake hs (by simp [hb])]
    rfl
  · rw [exec_regulatorAlertRelease_of_alerts hs ha, exec_sourceAssert_of_exists (by decide), State.assertSource_alertOff hs ha]
  · exact ⟨_, (exec_sourceAssert_of_exists (by decide)).trans (congrArg _ (State.assertSource_alertOn hs ha)), State.alertOn_floor _ _⟩
  · exact ⟨exec_busWarnAssert_of_released hloops, exec_busWarnRelease_of_asserted hloops,
      fun hot => ⟨exec_thermalStep_of_loops hloops hot, State.thermalTo_thermal _ _ _⟩,
      fun hot hhot => ⟨exec_thermal105_of_hot hloops hhot, State.thermalTo_thermal _ _ _⟩,
      fun watts mv => exec_kilnLoop_of_bounded hloops, fun mj rails uses => exec_energyMeter_of_measurable hloops⟩

/-! ### Span lockstep (R335, R452, R453) -/

theorem Main.running_of_phase {m : Main} (h : m.rcv.phase = .running) : m.running = true := by
  simp [Main.running, h]

theorem exec_paceApply_of_due {s : State} (hrun : s.main.running = true) (hdue : s.power.applied ≠ s.power.roundAt) :
    exec .paceApply s = .next s.apply :=
  (if_neg (by simp [hrun])).trans (if_neg hdue)

/-- An application notes its round, and S of every span is the least of L at the round and the limits of its peers. -/
theorem State.apply_paces (s : State) : s.apply.power.applied = s.power.roundAt ∧
    s.apply.power.paces = s.main.comp.recs.map (fun r => (r.id,
      (s.power.tokens.filter (fun k => ((s.main.until (s.power.roundAt + 50000)).otherPiers r.id).contains k.module)).foldl
        (fun a k => min a (k.now (s.main.until (s.power.roundAt + 50000)).time)) s.power.atRound)) := by
  unfold State.apply
  extract_lets s1 m pace
  obtain ⟨posted, hlimit⟩ := s1.limit_power (fun p => { p with applied := p.roundAt, paces := m.comp.recs.map (pace p) })
  rw [hlimit]
  exact ⟨rfl, rfl⟩

/-! ### Hints (R454) -/

theorem soonest_cons (x : Nat) (l : List Nat) : soonest (x :: l) = some (l.foldl min x) := by
  induction l generalizing x with
  | nil => rfl
  | cons y r ih => exact ih (min x y)

/-- The least of a start and some numbers is no more than any of them. -/
theorem foldl_min_le (l : List Nat) (x : Nat) : ∀ y ∈ x :: l, l.foldl min x ≤ y := by
  induction l generalizing x with
  | nil => simp
  | cons z r ih =>
    obtain ⟨hhead, htail⟩ := List.forall_mem_cons.1 (ih (min x z))
    exact List.forall_mem_cons.2 ⟨hhead.trans (min_le_left x z), List.forall_mem_cons.2 ⟨hhead.trans (min_le_right x z), htail⟩⟩

/-- The earliest of some times is no later than any of them. -/
theorem le_of_soonest {l : List Nat} {t x : Nat} (h : soonest l = some t) (hx : x ∈ l) : t ≤ x := by
  cases l with
  | nil => cases hx
  | cons y r =>
    rw [soonest_cons, Option.some.injEq] at h
    rw [← h]
    exact foldl_min_le r y x hx

/-- The hint that is the next of a context is of the context and the state asked for, and none of those comes before it. -/
theorem Main.nextHint_least {m : Main} {ctx : Nat} {online : Bool} {h : Hint} (hnext : m.nextHint ctx online h = true) :
    h.ctx = ctx ∧ h.online = online ∧ ∀ x ∈ m.hints, x.ctx = ctx → x.online = online →
      if online then h.stop ≤ x.stop else h.start ≤ x.start := by
  simp only [Main.nextHint, Bool.and_eq_true, beq_iff_eq] at hnext
  obtain ⟨⟨hctx, honline⟩, hsoon⟩ := hnext
  refine ⟨hctx, honline, fun x hx hxctx hxon => ?_⟩
  have hmem : x ∈ m.hints.filter (fun y => y.ctx == ctx && y.online == online) := List.mem_filter.2 ⟨hx, by simp [hxctx, hxon]⟩
  have hle := le_of_soonest hsoon (List.mem_map_of_mem hmem)
  cases online <;> exact hle

section
variable {s : State} {ctx : Nat} {h : Hint}

/-- A hint that is over when its phases would come online goes, -/
theorem exec_hintPhaseStart_of_over (hfind : s.main.hints.find? (s.main.nextHint ctx false) = some h)
    (hover : h.stop ≤ (s.main.until h.start).time) : exec (.hintPhaseStart ctx) s = toMain s { s.main.until h.start with
      hints := changeHint (s.main.nextHint ctx false) (fun _ => none) (s.main.until h.start).hints } := by
  change execHintPhaseStart ctx s = _
  simp only [execHintPhaseStart, hfind]
  exact if_pos hover

/-- and otherwise they come online unless the floor holds. -/
theorem exec_hintPhaseStart_of_due (hfind : s.main.hints.find? (s.main.nextHint ctx false) = some h)
    (hdue : (s.main.until h.start).time < h.stop) (hfloor : s.power.floor = false) :
    exec (.hintPhaseStart ctx) s = toMain s { s.main.until h.start with
      hints := changeHint (s.main.nextHint ctx false) (fun h => some { h with online := true }) (s.main.until h.start).hints } := by
  change execHintPhaseStart ctx s = _
  simp only [execHintPhaseStart, hfind]
  exact (if_neg (not_le.2 hdue)).trans (if_neg (by simp [hfloor]))

theorem exec_hintPhaseEnd_of_online (hfind : s.main.hints.find? (s.main.nextHint ctx true) = some h) :
    exec (.hintPhaseEnd ctx) s = toMain s { s.main.until h.stop with
      hints := changeHint (s.main.nextHint ctx true) (fun _ => none) (s.main.until h.stop).hints } := by
  change execHintPhaseEnd ctx s = _
  simp only [execHintPhaseEnd, hfind]

end

/-- Settles O43: a round and its application are the rows' own, and the hint of a phase is the earliest of its context. -/
theorem lockstepAndHints : Obligations.LockstepAndHints := by
  unfold Obligations.LockstepAndHints
  refine ⟨fun s hphase => ?_, fun s ctx h => ⟨fun hfind => ⟨exec_hintPhaseStart_of_over hfind, exec_hintPhaseStart_of_due hfind⟩,
    exec_hintPhaseEnd_of_online, fun online hfind => Main.nextHint_least (List.find?_some hfind)⟩⟩
  have hrun := Main.running_of_phase hphase
  exact ⟨if_pos hrun, fun hdue => ⟨_, exec_paceApply_of_due hrun hdue, s.apply_paces⟩⟩

end Sys2Proof.Machine
end

section
/-! The registers of the event queues and of the Event Gatherer (R422-R432). -/

namespace Sys2Proof.Machine

/-! ### Event queues (R429-R432) -/

section
variable {s : State} {fn : Fn} {q : Nat} {x : EvQ}

/-- A write of a register of an event queue that is there. -/
theorem Main.onEq_of_eqOf {m : Main} (hreach : m.fnReach fn = true) (hq : m.eqOf fn q = some x) (f : EvQ → Main) :
    m.onEq fn q f = .next (f x) := by
  simp [Main.onEq, hreach, hq]

/-- A function's record is read back as it was changed. -/
theorem Main.fnOf_modFn {f : FnRec → FnRec} (hf : ∀ r, (f r).fn = r.fn) (m : Main) (fn : Fn) :
    (m.modFn fn f).fnOf fn = (m.fnOf fn).map f := by
  refine (find?_modWhere_of_kept (p := fun r : FnRec => r.fn == fn) (fun r _ => by rw [hf r]) m.host.fns).trans ?_
  change (m.fnOf fn).map _ = _
  cases hr : m.fnOf fn with
  | none => rfl
  | some r =>
    have hmine : r.fn = fn := by simpa using List.find?_some hr
    simp [hmine]

/-- A changed queue is read back changed. -/
theorem Main.eqOf_modEq (m : Main) (fn : Fn) (q : Nat) (f : EvQ → EvQ) : (m.modEq fn q f).eqOf fn q = (m.eqOf fn q).map f := by
  have hfn : (m.modEq fn q f).fnOf fn = (m.fnOf fn).map (fun r => { r with eqs := modNth r.eqs q f }) :=
    Main.fnOf_modFn (f := fun r => { r with eqs := modNth r.eqs q f }) (fun _ => rfl) m fn
  simp only [Main.eqOf, hfn]
  cases m.fnOf fn with
  | none => rfl
  | some r => simp [modNth_eq_modify, List.getElem?_modify_eq]

theorem EvQ.start_of_off (hen : x.en = false) (hoff : x.state = .off) : x.start = { x with
    en := true, state := .run, armed := true, head := 0, tail := 0, lost := 0, lostFull := 0, lostSince := 0 } :=
  if_pos (by simp [hen, hoff])

theorem EvQ.start_of_not_off (h : x.en = true ∨ x.state ≠ .off) : x.start = { x with en := true } :=
  if_neg (by rcases h with h | h <;> simp [h])

/-- Whether an access is a write of a record of a queue. -/
def HostPut.ofEq (fn : Fn) (q : Nat) (p : HostPut) : Bool :=
  p.fn == fn && (match p.owner with | .event k _ => k == q | _ => false)

/-- What clearing EN makes of a queue whose writes in progress are `waits`. -/
def EvQ.stopped (y : EvQ) (waits : List HostPut) (st : EqState) : EvQ :=
  { (List.range (waits.length - 1)).foldl (fun y _ => y.lose) y with en := false, state := if waits.isEmpty then .off else st }

/-- Of the writes of a queue that is stopped the first stays, and the others are lost. -/
theorem Main.eqStop_eq (m : Main) (fn : Fn) (q : Nat) (x : EvQ) : m.eqStop fn q x =
    Main.modEq { m with host := { m.host with
      puts := m.host.puts.filter (fun p => !HostPut.ofEq fn q p) ++ (m.host.puts.filter (HostPut.ofEq fn q)).take 1 } } fn q
      (fun y => y.stopped (m.host.puts.filter (HostPut.ofEq fn q)) x.state) := rfl

theorem exec_eqCtlEnClear_of_eqOf (hreach : s.main.fnReach fn = true) (hq : s.main.eqOf fn q = some x) :
    exec (.eqCtlEnClear fn q) s = toMain s (s.main.eqStop fn q x) :=
  exec_eq_toMain (f := fun m => m.onEq fn q (m.eqStop fn q)) rfl (Main.onEq_of_eqOf hreach hq _)

theorem Main.eqStop_of_idle {m : Main} (hidle : m.host.puts.any (HostPut.ofEq fn q) = false) (x : EvQ) :
    m.eqStop fn q x = m.modEq fn q (fun x => { x with en := false, state := .off }) := by
  have hnot : ∀ p ∈ m.host.puts, HostPut.ofEq fn q p = false := by simpa using hidle
  have hnone : m.host.puts.filter (HostPut.ofEq fn q) = [] := List.filter_eq_nil_iff.2 fun p hp => by simp [hnot p hp]
  have hrest : m.host.puts.filter (fun p => !HostPut.ofEq fn q p) = m.host.puts :=
    List.filter_eq_self.2 fun p hp => by simp [hnot p hp]
  rw [Main.eqStop_eq, hnone, hrest, List.take_nil, List.append_nil]
  rfl

theorem Main.eqStop_puts (m : Main) (fn : Fn) (q : Nat) (x : EvQ) :
    (m.eqStop fn q x).host.puts.filter (HostPut.ofEq fn q) = (m.host.puts.filter (HostPut.ofEq fn q)).take 1 := by
  change (m.host.puts.filter (fun p => !HostPut.ofEq fn q p) ++ (m.host.puts.filter (HostPut.ofEq fn q)).take 1).filter _ = _
  have hothers : (m.host.puts.filter (fun p => !HostPut.ofEq fn q p)).filter (HostPut.ofEq fn q) = [] := by
    simp [List.filter_filter]
  have hmine : ((m.host.puts.filter (HostPut.ofEq fn q)).take 1).filter (HostPut.ofEq fn q) =
      (m.host.puts.filter (HostPut.ofEq fn q)).take 1 :=
    List.filter_eq_self.2 fun p hp => (List.mem_filter.1 (List.mem_of_mem_take hp)).2
  rw [List.filter_append, hothers, hmine, List.nil_append]

/-- While a write is in progress the queue keeps its state with EN cleared. -/
theorem Main.eqStop_eqOf {m : Main} {y : EvQ} (hbusy : m.host.puts.any (HostPut.ofEq fn q) = true)
    (hy : (m.eqStop fn q x).eqOf fn q = some y) : y.en = false ∧ y.state = x.state := by
  have hwaits : (m.host.puts.filter (HostPut.ofEq fn q)).isEmpty = false := by
    obtain ⟨p, hp, hmine⟩ := List.any_eq_true.1 hbusy
    exact List.isEmpty_eq_false_iff_exists_mem.2 ⟨p, List.mem_filter.2 ⟨hp, hmine⟩⟩
  rw [Main.eqStop_eq, Main.eqOf_modEq] at hy
  obtain ⟨z, -, rfl⟩ := Option.map_eq_some_iff.1 hy
  exact ⟨rfl, if_neg (by simp [hwaits])⟩

/-- A write of EQ_HEAD past TAIL is not taken, -/
theorem exec_eqHead_of_past {w : Word} (hreach : s.main.fnReach fn = true) (hq : s.main.eqOf fn q = some x)
    (hpast : (x.tail - x.head).toNat < (w - x.head).toNat) : exec (.eqHead fn q w) s = .next s :=
  exec_eq_toMain (f := fun m => m.onEq fn q (m.eqHeadWrite fn q w)) rfl
    ((Main.onEq_of_eqOf hreach hq _).trans (congrArg Host.Outcome.next (if_neg (not_le.2 hpast))))

/-- and one up to it arms the queue. -/
theorem exec_eqHead_of_le {w : Word} (hreach : s.main.fnReach fn = true) (hq : s.main.eqOf fn q = some x)
    (hle : (w - x.head).toNat ≤ (x.tail - x.head).toNat) (hlost : x.lostFull = 0) : exec (.eqHead fn q w) s =
      toMain s ((s.main.modEq fn q (fun x => { x with head := w, armed := true })).eqNotify fn q) := by
  refine exec_eq_toMain (f := fun m => m.onEq fn q (m.eqHeadWrite fn q w)) rfl ((Main.onEq_of_eqOf hreach hq _).trans ?_)
  rw [Main.eqHeadWrite, if_pos hle]
  simp [hlost]

/-- Settles O37: each register's write acts on the queue that it names. -/
theorem eventQueueRegisters : Obligations.EventQueueRegisters := by
  unfold Obligations.EventQueueRegisters
  intro s fn q x w hreach hq
  refine ⟨exec_eq_toMain (f := fun m => m.onEq fn q (fun _ => m.modEq fn q EvQ.start)) rfl (Main.onEq_of_eqOf hreach hq _),
    EvQ.start_of_off, EvQ.start_of_not_off, ⟨fun hidle => ?_, fun hbusy => ?_⟩, exec_eqHead_of_past hreach hq,
    exec_eqHead_of_le hreach hq, ?_⟩
  · exact (exec_eqCtlEnClear_of_eqOf hreach hq).trans (congrArg (toMain s) (Main.eqStop_of_idle hidle x))
  · exact ⟨_, exec_eqCtlEnClear_of_eqOf hreach hq, Main.eqStop_puts _ _ _ _, fun y => Main.eqStop_eqOf hbusy⟩
  · exact exec_eq_toMain
      (f := fun m => m.onEq fn q (fun _ => m.modEq fn q (fun x => { x with err := x.err && !w.getLsbD 0 }))) rfl
      (Main.onEq_of_eqOf hreach hq _)

end

/-! ### The Event Gatherer (R422-R427) -/

section
variable {s : State} {cpu bank : Nat}

/-- A write of a window by a processor that may write it acts, -/
theorem Main.egWrite_of_may {m : Main} (hcpu : cpu < 12) (hbank : bank < 16) (hup : m.procUp cpu = true)
    (hmay : m.egMayWrite cpu bank = true) (f : Main → EgBank → EgBank) :
    m.egWrite cpu bank f = .next ((m.modBank bank (f m)).egSettle) := by
  unfold Main.egWrite
  rw [if_neg (by omega), if_neg (by simp [hup]), if_neg (by simp [hmay])]

/-- and by any other is counted. -/
theorem Main.egWrite_of_other {m : Main} (hcpu : cpu < 12) (hbank : bank < 16) (hup : m.procUp cpu = true)
    (hmay : m.egMayWrite cpu bank = false) (f : Main → EgBank → EgBank) :
    m.egWrite cpu bank f = .next (m.bump 5 3 0 1) := by
  unfold Main.egWrite
  rw [if_neg (by omega), if_neg (by simp [hup]), if_pos (by simp [hmay])]

/-- EG_DONE of a processor that may finish. -/
theorem Main.egDone_of_may {m : Main} (hcpu : cpu < 12) (hbank : bank < 16) (hup : m.procUp cpu = true)
    (hmay : m.egMayFinish cpu bank = true) (w : BitVec 64) : m.egDone cpu bank w = .next ((m.modBank bank (fun b =>
      b.finish (Config.egLevel bank) (if cpu = 3 then w else w &&& b.ofProc cpu))).egSettle) := by
  unfold Main.egDone
  rw [if_neg (by omega), if_neg (by simp [hup]), if_neg (by simp [hmay])]

theorem Main.egDone_of_other {m : Main} (hcpu : cpu < 12) (hbank : bank < 16) (hup : m.procUp cpu = true)
    (hmay : m.egMayFinish cpu bank = false) (w : BitVec 64) : m.egDone cpu bank w = .next (m.bump 5 3 0 1) := by
  unfold Main.egDone
  rw [if_neg (by omega), if_neg (by simp [hup]), if_pos (by simp [hmay])]

/-- A processor that may not write a window may finish what it has in service there. -/
theorem Main.egMayFinish_of_served {m : Main} {b : EgBank} (hmay : m.egMayWrite cpu bank = false)
    (hb : m.eg.banks[bank]? = some b) : m.egMayFinish cpu bank = (b.ofProc cpu != 0) := by
  simp [Main.egMayFinish, hmay, hb]

theorem Main.egMayWrite_iff (m : Main) (cpu bank : Nat) : m.egMayWrite cpu bank = true ↔
    bank < 12 ∧ cpu = bank ∨ 12 ≤ bank ∧ (cpu = 3 ∨ ∃ i, i < 64 ∧ m.eg.target bank i = cpu) := by
  unfold Main.egMayWrite
  by_cases hbank : bank < 12
  · simp [hbank, not_le.2 hbank]
  · simp [hbank, not_lt.1 hbank]

/-- Elbor core 3's writes of EG_MODE and EG_ROUTE are taken, -/
theorem Main.egCore3_of_core3 {m : Main} (hup : m.procUp 3 = true) (f : Main → Main) : m.egCore3 3 f = .next (f m).egSettle := by
  unfold Main.egCore3
  rw [if_neg (by decide), if_neg (by simp [hup]), if_neg (by simp)]

/-- and another processor's are counted. -/
theorem Main.egCore3_of_other {m : Main} (hcpu : cpu < 12) (hother : cpu ≠ 3) (hup : m.procUp cpu = true) (f : Main → Main) :
    m.egCore3 cpu f = .next (m.bump 5 3 0 1) := by
  unfold Main.egCore3
  rw [if_neg (by omega), if_neg (by simp [hup]), if_pos hother]

/-- A route of a shared source as a write of Elbor core 3 leaves it. -/
def routeWritten (w old : Word) : Word := BitVec.ofNat 32
  (routeField (bits old.toNat 11 8) (bits w.toNat 11 8) * 256 + routeField (bits old.toNat 3 0) (bits w.toNat 3 0))

theorem Main.egRouteSet_of_shared {source : Nat} (hlow : 768 ≤ source) (hhigh : source < 1024) (cpu : Nat) (w : Word) (m : Main) :
    m.egRouteSet cpu source w = m.egCore3 cpu (fun m =>
      { m with eg := { m.eg with route := modNth m.eg.route (source - 768) (routeWritten w) } }) := if_neg (by omega)

/-- A source that is neither the alert nor the brake asserts its input alone. -/
theorem exec_sourceAssert_of_plain {source : Nat} (hexists : source < 920) (halert : source ≠ 916) (hbrake : source ≠ 917)
    (level : Bool) : exec (.sourceAssert source level) s = toMain s (s.main.egInput source level) := by
  rw [exec_sourceAssert_of_exists hexists]
  unfold State.assertSource State.source
  rw [if_neg (fun h => hbrake h.1), if_neg (fun h => halert h.1)]

end

/-- Settles O38: the writes go by who may write which window, and a plain source moves its input alone. -/
theorem gathererResults : Obligations.GathererResults := by
  unfold Obligations.GathererResults
  intro s cpu bank source w x
  refine ⟨fun hcpu hbank hup => ⟨fun hmay => ?_, fun hmay c hc => ?_, fun b hmay hb => ⟨fun hidle => ?_, fun hserves => ?_⟩⟩,
    Main.egMayWrite_iff _ _ _, fun hup => ⟨?_, fun hlow hhigh => ?_⟩, fun hcpu hother hup => ⟨?_, fun hlow hhigh => ?_⟩,
    fun hexists halert hbrake => ⟨?_, ?_⟩⟩
  · have hwrite (f : EgBank → EgBank) := Main.egWrite_of_may hcpu hbank hup hmay (fun _ => f)
    exact ⟨exec_eq_toMain (f := Main.egWrite cpu bank _) rfl (hwrite _), exec_eq_toMain (f := Main.egWrite cpu bank _) rfl (hwrite _),
      exec_eq_toMain (f := Main.egWrite cpu bank _) rfl (hwrite _), exec_eq_toMain (f := Main.egWrite cpu bank _) rfl (hwrite _),
      exec_eq_toMain (f := Main.egDone cpu bank w) rfl (Main.egDone_of_may hcpu hbank hup (by simp [Main.egMayFinish, hmay]) w)⟩
  · have hwrite (f : Main → EgBank → EgBank) := Main.egWrite_of_other hcpu hbank hup hmay f
    simp only [List.mem_cons, List.not_mem_nil, or_false] at hc
    rcases hc with rfl | rfl | rfl | rfl
    all_goals exact exec_eq_toMain (f := Main.egWrite cpu bank _) rfl (hwrite _)
  · exact exec_eq_toMain (f := Main.egDone cpu bank w) rfl
      (Main.egDone_of_other hcpu hbank hup (by simp [Main.egMayFinish_of_served hmay hb, hidle]) w)
  · exact exec_eq_toMain (f := Main.egDone cpu bank w) rfl
      (Main.egDone_of_may hcpu hbank hup ((Main.egMayFinish_of_served hmay hb).trans (bne_iff_ne.2 hserves)) w)
  · exact exec_eq_toMain (f := Main.egCore3 3 _) rfl (Main.egCore3_of_core3 hup _)
  · exact exec_eq_toMain (f := Main.egRouteSet 3 source x) rfl
      ((Main.egRouteSet_of_shared hlow hhigh 3 x _).trans (Main.egCore3_of_core3 hup _))
  · exact exec_eq_toMain (f := Main.egCore3 cpu _) rfl (Main.egCore3_of_other hcpu hother hup _)
  · exact exec_eq_toMain (f := Main.egRouteSet cpu source x) rfl
      ((Main.egRouteSet_of_shared hlow hhigh cpu x _).trans (Main.egCore3_of_other hcpu hother hup _))
  · exact exec_sourceAssert_of_plain hexists halert hbrake true
  · exact exec_sourceAssert_of_plain hexists halert hbrake false

end Sys2Proof.Machine
end

section
/-! The registers, slots and responses of the Elbor mailboxes (R353, R401-R407). -/

namespace Sys2Proof.Machine

section
variable {s : State} {fn : Fn} {b : Mailbox}

/-- A write of a register of a mailbox that is there. -/
theorem Main.onBox_of_boxOf {m : Main} (hreach : m.fnReach fn = true) (hb : m.boxOf (.fn fn) = some b) (f : Mailbox → Main → Main) :
    Main.onBox fn f m = .next (f b m) := by
  simp [Main.onBox, hreach, hb]

theorem exec_mbCtlEnSet_of_off (hreach : s.main.fnReach fn = true) (hb : s.main.boxOf (.fn fn) = some b) (hen : b.en = false)
    (hoff : b.state = .off) : exec (.mbCtlEnSet fn) s = toMain s (s.main.modBox (.fn fn) (fun x =>
      { x with en := true, state := .run, pidx := 0, cidx := 0 })) := by
  refine exec_eq_toMain (f := Main.mbEnable fn) rfl ((Main.onBox_of_boxOf hreach hb _).trans ?_)
  simp [hen, hoff]

theorem exec_mbCtlEnSet_of_not_off (hreach : s.main.fnReach fn = true) (hb : s.main.boxOf (.fn fn) = some b)
    (hon : b.en = true ∨ b.state ≠ .off) :
    exec (.mbCtlEnSet fn) s = toMain s (s.main.modBox (.fn fn) (fun x => { x with en := true })) := by
  refine exec_eq_toMain (f := Main.mbEnable fn) rfl ((Main.onBox_of_boxOf hreach hb _).trans ?_)
  rcases hon with hon | hon <;> simp [hon]

/-! ### MB_PIDX (R401, R403) -/

theorem exec_mbPidx_of_not_run {w : Word} (hreach : s.main.fnReach fn = true) (hb : s.main.boxOf (.fn fn) = some b)
    (hrun : b.state ≠ .run) : exec (.mbPidx fn w) s = .next s :=
  exec_eq_toMain (f := Main.mbProduce fn w) rfl ((Main.onBox_of_boxOf hreach hb _).trans (congrArg Host.Outcome.next (if_pos (.inl hrun))))

theorem exec_mbPidx_of_room {w : Word} (hreach : s.main.fnReach fn = true) (hb : s.main.boxOf (.fn fn) = some b)
    (hrun : b.state = .run) (hnew : w ≠ b.pidx) (hmoves : (w - b.pidx).toNat ≤ 64) (hroom : (w - b.cidx).toNat ≤ 64) :
    exec (.mbPidx fn w) s = toMain s (s.main.modBox (.fn fn) (fun x => { x with pidx := w })) :=
  exec_eq_toMain (f := Main.mbProduce fn w) rfl ((Main.onBox_of_boxOf hreach hb _).trans (congrArg Host.Outcome.next
    ((if_neg (by simp [hrun, hnew])).trans (if_pos ⟨hmoves, hroom⟩))))

theorem exec_mbPidx_of_far {w : Word} (hreach : s.main.fnReach fn = true) (hb : s.main.boxOf (.fn fn) = some b)
    (hrun : b.state = .run) (hnew : w ≠ b.pidx) (hfar : 64 < (w - b.pidx).toNat ∨ 64 < (w - b.cidx).toNat) :
    exec (.mbPidx fn w) s = toMain s (s.main.mbError fn 0) :=
  exec_eq_toMain (f := Main.mbProduce fn w) rfl ((Main.onBox_of_boxOf hreach hb _).trans (congrArg Host.Outcome.next
    ((if_neg (by simp [hrun, hnew])).trans (if_neg (by omega)))))

/-! ### Slots (R353, R402, R403) -/

/-- A mailbox whose next slot may be read. -/
structure Main.SlotDue (m : Main) (fn : Fn) (b : Mailbox) : Prop where
  box : m.boxOf (.fn fn) = some b
  ready : m.ready fn = true
  en : b.en = true
  run : b.state = .run
  due : b.cidx ≠ b.pidx
  free : m.slotBusy fn b b.cidx.toNat = false

/-- The page of the next slot. -/
def Main.slotPage (m : Main) (fn : Fn) (b : Mailbox) : PageRes := m.needPage fn 0 (b.slotAt b.cidx.toNat) .slot

/-- The command in a slot that is read. -/
def Main.slotCmd (m : Main) (b : Mailbox) (slot : List Byte) : MbCmd :=
  { idx := b.cidx.toNat, bytes := slot, since := m.time, stale := m.elbor.saturated }

/-- The mailbox with that command waiting. -/
def Main.slotTaken (m : Main) (fn : Fn) (c : MbCmd) : Main := m.modBox (.fn fn) (fun x =>
  { x with cidx := x.cidx + 1, inflight := x.inflight + 1, waiting := x.waiting ++ [c] })

theorem Main.slotRead_of_wait {m m1 : Main} (h : m.SlotDue fn b) (hpage : m.slotPage fn b = .wait m1) (slot : List Byte) (ok : Bool) :
    Main.slotRead fn slot ok m = .next m1 := by
  rw [Main.slotPage] at hpage
  simp only [Main.slotRead, h.box]
  rw [if_neg (by simp [h.ready, h.en, h.run, h.due]), if_neg (by simp [h.free]), hpage]

theorem Main.slotRead_of_lost {m m1 : Main} (h : m.SlotDue fn b) (hpage : m.slotPage fn b = .lost m1) (slot : List Byte) (ok : Bool) :
    Main.slotRead fn slot ok m = .next (m1.mbError fn 1) := by
  rw [Main.slotPage] at hpage
  simp only [Main.slotRead, h.box]
  rw [if_neg (by simp [h.ready, h.en, h.run, h.due]), if_neg (by simp [h.free]), hpage]

theorem Main.slotRead_of_failed {m m1 : Main} (h : m.SlotDue fn b) (hpage : m.slotPage fn b = .have m1) (slot : List Byte) :
    Main.slotRead fn slot false m = .next (m1.mbError fn 1) := by
  rw [Main.slotPage] at hpage
  simp only [Main.slotRead, h.box]
  rw [if_neg (by simp [h.ready, h.en, h.run, h.due]), if_neg (by simp [h.free]), hpage]
  rfl

/-- A slot that is read: its command waits, or is answered BUSY at once in saturation. -/
theorem Main.slotRead_of_have {m m1 : Main} {slot : List Byte} (h : m.SlotDue fn b) (hpage : m.slotPage fn b = .have m1)
    (hlen : slot.length = 256) : Main.slotRead fn slot true m =
      if m.busyNow (m.slotCmd b slot) then .next ((m1.slotTaken fn (m.slotCmd b slot)).reply (.fn fn) (m.slotCmd b slot) (.busy m.retryUs))
      else .next (m1.slotTaken fn (m.slotCmd b slot)).saturate := by
  rw [Main.slotPage] at hpage
  simp only [Main.slotRead, h.box]
  rw [if_neg (by simp [h.ready, h.en, h.run, h.due]), if_neg (by simp [h.free]), hpage]
  dsimp only
  rw [if_neg (by simp), if_neg (by simp [hlen])]
  rfl

/-! ### Responses (R353, R402, R405, R407) -/

/-- The mailbox that is read back has what a change of it left. -/
theorem Main.boxOf_modBox {f : Mailbox → Mailbox} (hf : ∀ x, (f x).mb = x.mb) (m : Main) (mb : Mbx) :
    (m.modBox mb f).boxOf mb = (m.boxOf mb).map f := by
  refine (find?_modWhere_of_kept (p := fun x : Mailbox => x.mb == mb) (fun x _ => by rw [hf x]) m.elbor.boxes).trans ?_
  change (m.boxOf mb).map _ = _
  cases hb : m.boxOf mb with
  | none => rfl
  | some x =>
    have hmine : x.mb = mb := by simpa using List.find?_some hb
    simp [hmine]

section
variable {r : Resp} {rest : List Resp}

/-- The block with the first response of a mailbox taken. -/
def Main.unready (m : Main) (mb : Mbx) (rest : List Resp) : Main := m.modBox mb (fun x => { x with ready := rest })

theorem exec_mailboxResponse_of_failed (hb : s.main.boxOf (.fn fn) = some b) (hready : b.ready = r :: rest) :
    exec (.mailboxResponse (.fn fn) false) s = toMain s (((s.main.unready (.fn fn) rest).mbError fn 2).responseOver fn) := by
  refine exec_eq_toMain (f := Main.respondMb (.fn fn) false) rfl ?_
  simp only [Main.respondMb, hb, hready]
  rfl

theorem exec_mailboxResponse_of_written {m2 : Main} (hb : s.main.boxOf (.fn fn) = some b) (hready : b.ready = r :: rest)
    (hreach : s.main.fnReach fn = true) (hfirst : (s.main.unready (.fn fn) rest).putsOf fn (.response r.idx) = [])
    (hpage : (s.main.unready (.fn fn) rest).pageOf fn 0 (b.slotAt r.idx + 0x100) true = some m2) :
    exec (.mailboxResponse (.fn fn) true) s = toMain s (m2.responseWrite fn (b.slotAt r.idx + 0x100) r.bytes) := by
  rw [Main.unready] at hfirst hpage
  refine exec_eq_toMain (f := Main.respondMb (.fn fn) true) rfl ?_
  simp only [Main.respondMb, hb, hready]
  rw [if_neg (by simp [hreach]), hfirst]
  simp only [List.isEmpty_nil, if_true, hpage]

theorem exec_mailboxResponse_of_unmapped (hb : s.main.boxOf (.fn fn) = some b) (hready : b.ready = r :: rest)
    (hreach : s.main.fnReach fn = true) (hfirst : (s.main.unready (.fn fn) rest).putsOf fn (.response r.idx) = [])
    (hpage : (s.main.unready (.fn fn) rest).pageOf fn 0 (b.slotAt r.idx + 0x100) true = none) :
    exec (.mailboxResponse (.fn fn) true) s = toMain s ((s.main.unready (.fn fn) rest).addPut fn 0 (b.slotAt r.idx + 0x100) r.bytes
      (.response r.idx) (b.slotAt r.idx + 0x100)) := by
  rw [Main.unready] at hfirst hpage
  refine exec_eq_toMain (f := Main.respondMb (.fn fn) true) rfl ?_
  simp only [Main.respondMb, hb, hready]
  rw [if_neg (by simp [hreach]), hfirst]
  simp only [List.isEmpty_nil, if_true, hpage]
  rfl

theorem exec_mailboxResponse_bmc (hb : s.main.boxOf .bmc = some b) (hready : b.ready = r :: rest) (ok : Bool) :
    exec (.mailboxResponse .bmc ok) s = toMain s (if ok then
      (s.main.unready .bmc rest).mctpSend Config.bmcEid r.idx false (mctpHead ++ r.bytes ++ r.out) else s.main.unready .bmc rest) := by
  refine exec_eq_toMain (f := Main.respondMb .bmc ok) rfl ?_
  simp only [Main.respondMb, hb, hready]
  rfl

/-- A page that is found leaves the mailboxes alone. -/
theorem Main.boxOf_of_pageOf {m m2 : Main} {a : Nat} {mb : Mbx} (h : m.pageOf fn 0 a true = some m2) : m2.boxOf mb = m.boxOf mb :=
  (congrArg (fun x : Main => x.boxOf mb) (Main.pageOf_bystanders h) :)

/-- A response written frees its place in the ring, after the MSI-X that its mailbox asks for. -/
theorem Main.responseWrite_of_boxOf {m : Main} (hb : m.boxOf (.fn fn) = some b) (a : Nat) (d : List Byte) : m.responseWrite fn a d =
    (if b.vec.getLsbD 31 then (m.writeLate fn a d).sendMsix fn (b.vec.toNat % 128) else m.writeLate fn a d).responseOver fn := by
  simp only [Main.responseWrite, hb]

end
end

/-- Settles O39: a slot goes by its page, and a response by its page and its mailbox's vector. -/
theorem mailboxResults : Obligations.MailboxResults := by
  unfold Obligations.MailboxResults
  intro s fn b hb
  refine ⟨fun hreach => ⟨exec_mbCtlEnSet_of_off hreach hb, exec_mbCtlEnSet_of_not_off hreach hb, ?_, fun w =>
    ⟨exec_mbPidx_of_not_run hreach hb, exec_mbPidx_of_room hreach hb, exec_mbPidx_of_far hreach hb, ?_⟩⟩,
    fun hready hen hrun hdue hfree slot => ?_, fun r rest hr => ⟨fun f hf hreach hfirst => ⟨fun m2 hpage => ?_,
      exec_mailboxResponse_of_unmapped hb hr hreach hfirst, fun hats => ?_⟩, exec_mailboxResponse_of_failed hb hr⟩,
    fun b1 r rest ok hb1 hr => (exec_mailboxResponse_bmc hb1 hr ok).trans (congrArg (toMain s) ?_)⟩
  · exact exec_eq_toMain (f := Main.mbDisable fn) rfl (Main.onBox_of_boxOf hreach hb _)
  · exact exec_eq_toMain (f := Main.mbClearErr fn w) rfl (Main.onBox_of_boxOf hreach hb _)
  · have hslot : s.main.SlotDue fn b := ⟨hb, hready, hen, hrun, hdue, hfree⟩
    refine ⟨fun m1 ok hpage => ?_, fun m1 ok hpage => ?_, fun m0 hpage => ⟨?_, fun hlen => ⟨fun hroom => ?_, fun hbusy => ?_⟩⟩⟩
    · exact exec_eq_toMain (f := Main.slotRead fn slot ok) rfl (Main.slotRead_of_wait hslot hpage slot ok)
    · exact exec_eq_toMain (f := Main.slotRead fn slot ok) rfl (Main.slotRead_of_lost hslot hpage slot ok)
    · exact exec_eq_toMain (f := Main.slotRead fn slot false) rfl (Main.slotRead_of_failed hslot hpage slot)
    · exact exec_eq_toMain (f := Main.slotRead fn slot true) rfl
        ((Main.slotRead_of_have hslot hpage hlen).trans (if_neg (by simpa [Main.slotCmd] using hroom)))
    · exact exec_eq_toMain (f := Main.slotRead fn slot true) rfl ((Main.slotRead_of_have hslot hpage hlen).trans (if_pos hbusy))
  · have hbox : m2.boxOf (.fn fn) = some { b with ready := rest } := by
      rw [Main.boxOf_of_pageOf hpage, Main.boxOf_modBox (f := fun x => { x with ready := rest }) (fun _ => rfl), hb]
      rfl
    exact (exec_mailboxResponse_of_written hb hr hreach hfirst hpage).trans
      (congrArg (toMain s) (Main.responseWrite_of_boxOf hbox _ _))
  · have hfn : (s.main.modBox (.fn fn) (fun x => { x with ready := rest })).fnOf fn = some f := hf
    simp [Main.pageOf, hfn, hats]
  · simp only [Main.mctpSend, Main.unready, b2n, Bool.false_eq_true, if_false, Nat.zero_mul, Nat.zero_add]

end Sys2Proof.Machine
end

section
/-! The supply's sags, surges and excursions, and what they tell the peers (R334, R436, R439-R441, R460). -/

namespace Sys2Proof.Machine

/-! ### What leaves with a message of the module's own (R252, R256) -/

section
variable (m : Main)

/-- Blocks with the same bystanders have sent the same messages of the module's own. -/
theorem Main.ctrlOut_of_bystanders {m m1 : Main} (h : m1.bystanders = m.bystanders) : m1.fab.ctrlOut = m.fab.ctrlOut :=
  (congrArg (fun x : Main => x.fab.ctrlOut) h :)

@[simp] theorem Main.modLane_ctrlOut (i : Nat) (f : Lane → Lane) : (m.modLane i f).fab.ctrlOut = m.fab.ctrlOut := rfl
@[simp] theorem Main.bump_ctrlOut (g c i n : Nat) : (m.bump g c i n).fab.ctrlOut = m.fab.ctrlOut := rfl
@[simp] theorem Main.corrupt_ctrlOut (i action : Nat) : (m.corrupt i action).fab.ctrlOut = m.fab.ctrlOut := rfl

@[simp] theorem Main.postFabric_ctrlOut (subject cause neighbour : Nat) :
    (m.postFabric subject cause neighbour).fab.ctrlOut = m.fab.ctrlOut :=
  Main.ctrlOut_of_bystanders (m.post_bystanders _ _ _ _ _)

@[simp] theorem Main.drill_ctrlOut (vc : Nat) (g : Msg) (i : Nat) : (m.drill vc g i).2.fab.ctrlOut = m.fab.ctrlOut := by
  refine foldl_view_eq (view := fun x : List Drill × Main => x.2.fab.ctrlOut) (fun x id => ?_) _ ([], m)
  dsimp only
  split
  · rfl
  · split <;> rfl

@[simp] theorem Main.passHeld_ctrlOut (vc : Nat) (g : Msg) (i : Nat) : (m.passHeld vc g i).fab.ctrlOut = m.fab.ctrlOut := by
  refine foldl_view_eq (view := fun x : Main => x.fab.ctrlOut) (fun x id => ?_) _ m
  rfl

@[simp] theorem Main.sendTurn_ctrlOut (i vc : Nat) (g : Msg) (k : Nat) (l : Lane) :
    (m.sendTurn i vc g k l).fab.ctrlOut = m.fab.ctrlOut := by
  unfold Main.sendTurn
  dsimp only
  split
  · simp
  · split
    · split <;> simp
    · split
      · simp
      · split <;> simp

@[simp] theorem Main.pumpLane_ctrlOut (n i : Nat) : (Main.pumpLane n i m).fab.ctrlOut = m.fab.ctrlOut := by
  induction n generalizing m with
  | zero => rfl
  | succ n ih =>
    unfold Main.pumpLane
    split
    · rfl
    · split
      · rfl
      · split
        · split
          · rfl
          · exact ih _
        · split
          · exact (ih _).trans (Main.sendTurn_ctrlOut _ _ _ _ _ _)
          · exact ih _
          · rfl

@[simp] theorem Main.sendOn_ctrlOut (vc : Nat) (half : Option Nat) (g : Msg) : (m.sendOn vc half g).fab.ctrlOut = m.fab.ctrlOut := by
  unfold Main.sendOn
  split
  · rfl
  · split
    case h_1 m1 hassign =>
      obtain ⟨i, -, rfl⟩ := Option.map_eq_some_iff.1 hassign
      exact Main.pumpLane_ctrlOut _ _ _
    case h_2 => rfl

@[simp] theorem Main.sendFar_ctrlOut (vc dest : Nat) (c : CtrlMsg) : (m.sendFar vc dest c).fab.ctrlOut = m.fab.ctrlOut := by
  unfold Main.sendFar
  split
  · rfl
  · exact Main.sendOn_ctrlOut _ _ _ _

/-- A notice stands among the messages that left. -/
theorem Main.sendCtrl_sagNotice_ctrlOut (dest at_ : Nat) (recovered : Bool) :
    (m.sendCtrl (.sagNotice dest at_ recovered)).fab.ctrlOut = m.fab.ctrlOut ++ [.sagNotice dest at_ recovered] :=
  Main.sendFar_ctrlOut _ _ _ _

/-- So does one to each of some modules, all of the same time. -/
theorem Main.sagNotices_ctrlOut (dests : List Nat) (recovered : Bool) :
    (m.sagNotices dests recovered).fab.ctrlOut = m.fab.ctrlOut ++ dests.map (fun d => .sagNotice d m.time recovered) := by
  unfold Main.sagNotices
  induction dests generalizing m with
  | nil => simp
  | cons d ds ih => simp [ih, Main.sendCtrl_sagNotice_ctrlOut]

end

section
variable {s : State}

/-! ### What the peers are told (R334) -/

theorem State.notifySag_of_untold (hrun : s.main.rcv.phase = .running) (hnew : s.power.told = []) :
    s.notifySag = { s with main := s.main.sagNotices s.main.peers false, power := { s.power with told := s.main.peers } } := by
  rw [State.notifySag, if_neg (by simp [Main.running_of_phase hrun, hnew])]

theorem State.notifySag_of_told (h : s.power.told ≠ []) : s.notifySag = s := by
  rw [State.notifySag, if_pos (by simp [h])]

theorem State.notifyOver_of_floor (h : s.power.floor = true) : s.notifyOver = s := if_pos h

theorem State.notifyOver_of_running (hrun : s.main.rcv.phase = .running) (hover : s.power.floor = false) :
    s.notifyOver = { s with main := s.main.sagNotices s.power.told true, power := { s.power with told := [] } } := by
  rw [State.notifyOver, if_neg (by simp [hover]), if_pos (Main.running_of_phase hrun)]

/-- Telling of a sag changes the power side's list of those told alone. -/
theorem State.notifySag_power (s : State) : ∃ told, s.notifySag.power = { s.power with told := told } := by
  unfold State.notifySag
  split
  · exact ⟨s.power.told, rfl⟩
  · exact ⟨_, rfl⟩

theorem State.notifyOver_power (s : State) : ∃ told, s.notifyOver.power = { s.power with told := told } := by
  unfold State.notifyOver
  split
  · exact ⟨s.power.told, rfl⟩
  · exact ⟨_, rfl⟩

/-! ### Sags (R436, R439) -/

@[simp] theorem Power.addLog_stopped (p : Power) (e : LogEntry) : (p.addLog e).stopped = p.stopped := by
  unfold Power.addLog
  split <;> rfl

/-- A limiter that forces the floor brings L down to it. -/
theorem Power.settle_floor {p : Power} (h : p.floor = true) : p.settle.loc ≤ 16 := by
  have hlimit : p.limit ≤ 16 := ((Nat.min_le_left _ _).trans (Nat.min_le_left _ _)).trans (le_of_eq (if_pos h))
  change min p.loc (if p.stopped then (if p.floor then 16 else 64) else p.limit) ≤ 16
  rw [if_pos h]
  split <;> omega

/-- A sag puts the module at the floor. -/
theorem State.sagBegin_power (mv : Nat) : (s.sagBegin mv).power.sag = true ∧ (s.sagBegin mv).power.loc ≤ 16 ∧
    (s.sagBegin mv).power.inputMv = mv := by
  unfold State.sagBegin
  dsimp only
  obtain ⟨told, htold⟩ := State.notifySag_power (State.postPower (s.limit _) 1 .ok (mv / 10))
  obtain ⟨posted, hpost⟩ := State.postPower_power (s.limit _) 1 .ok (mv / 10)
  obtain ⟨posted', hlim⟩ := s.limit_power _
  rw [htold, hpost, hlim]
  exact ⟨rfl, Power.settle_floor rfl, rfl⟩

theorem State.sagOver_power (mv : Nat) : (s.sagOver mv).power.sag = false := by
  unfold State.sagOver
  dsimp only
  obtain ⟨told, htold⟩ := State.notifyOver_power (State.postPower (State.limit _ _) 2 .ok _)
  obtain ⟨posted, hpost⟩ := State.postPower_power (State.limit _ _) 2 .ok _
  obtain ⟨posted', hlim⟩ := State.limit_power _ _
  rw [htold, hpost, hlim]
  rfl

theorem exec_sag_of_falls {mv : Nat} (hs : s.main.standby = true) (hlow : mv < 44000) (hnew : s.power.sag = false) :
    exec (.sag mv) s = .next (s.sagBegin mv) := State.onSupply_of_standby hs (needs_of (by simp [hlow, hnew])) rfl

theorem exec_sagEnd_of_rises {mv : Nat} (hs : s.main.standby = true) (hhigh : 45000 ≤ mv) (hsag : s.power.sag = true) :
    exec (.sagEnd mv) s = .next (s.sagOver mv) := State.onSupply_of_standby hs (needs_of (by simp [hhigh, hsag])) rfl

/-! ### Surges and excursions (R436, R441) -/

theorem exec_surge_of_new {mv : Nat} (hs : s.main.standby = true) (hlow : 59500 < mv) (hhigh : mv ≤ 80000)
    (hnew : s.power.surging = false) : exec (.surge mv) s = .next (s.surgeBegin mv) :=
  State.onSupply_of_standby hs (needs_of (by simp [hlow, hhigh, hnew])) (by simp [State.surge, hnew])

theorem exec_surge_of_surging {mv : Nat} (hs : s.main.standby = true) (hlow : 59500 < mv) (hhigh : mv ≤ 80000)
    (hon : s.power.surging = true) (hholds : s.power.surgeHolds s.main.time = true) :
    exec (.surge mv) s = .next { s with power := s.power.reads s.main.time mv } :=
  State.onSupply_of_standby hs (needs_of (by simp [hlow, hhigh, hholds])) (by simp [State.surge, hon])

theorem exec_surgeEnd_of_surging (hs : s.main.standby = true) (hon : s.power.surging = true)
    (hholds : s.power.surgeHolds s.main.time = true) :
    exec .surgeEnd s = .next { s with power := { s.power.endLog 2 s.main.time with above := none } } := by
  change execSurgeEnd s = _
  unfold execSurgeEnd
  exact State.onSupply_of_standby hs (needs_of (by simp [hon, hholds])) rfl

theorem Power.surgeHolds_iff (p : Power) (now : Nat) :
    p.surgeHolds now = true ↔ p.lasted 2 now ≤ 10000 ∧ ∀ t, p.above = some t → now ≤ t + 100000 := by
  unfold Power.surgeHolds
  cases p.above <;> simp

theorem Power.reads_above {p : Power} (hon : p.surging = true) (now mv : Nat) :
    (p.reads now mv).above = if 72000 < mv then some (p.above.getD now) else none := by
  change p.above72 now mv = _
  simp [Power.above72, hon]

theorem exec_shortExcursion_of_short {mv us : Nat} (hs : s.main.standby = true) (h : shortEnough mv us = true) :
    exec (.shortExcursion mv us) s = .next (s.excursion mv us) := State.onSupply_of_standby hs (needs_of h) rfl

/-! ### Power that goes, and a sag that reaches 41 V (R436, R440) -/

/-- Of a module without power nothing of memory and spans is left. -/
theorem State.powerGone_main (s : State) : s.powerGone.main.rcv.phase = .off ∧ s.powerGone.main.mem.cells = [] ∧
    s.powerGone.main.comp.recs = [] :=
  ⟨rfl, Main.keepOnly_nil_cells _, Main.keepOnly_nil_recs _⟩

/-- The last sag of the supply log is one that banked, and the event of it has gone out. -/
def State.sagBanks (s : State) (bulk : Nat) : State :=
  { s.postPower 3 .banked (bulk / 10) with
    power := (s.postPower 3 .banked (bulk / 10)).power.modLog 1 (fun e => { e with kind := 3, banked := true }) }

theorem exec_undervoltageBank_of_low {bulk : Nat} (hlow : bulk ≤ 41000) (hsag : s.power.sag = true)
    (hrails : s.main.rcv.mainRails = true) (hable : s.main.bankable = true) : exec (.undervoltageBank bulk) s =
      .next { s.sagBanks bulk with main := (s.sagBanks bulk).main.bankEnter 0x51 ⟨6, 0⟩ none } := by
  have hnot : ¬(!s.power.sag || decide (41000 < bulk) || !s.main.rcv.mainRails || !s.main.bankable) = true := by
    simp [hlow, hsag, hrails, hable]
  change execUndervoltageBank bulk s = _
  unfold execUndervoltageBank
  rw [if_neg hnot]
  rfl

theorem exec_undervoltageBank_enters {bulk : Nat} (hlow : bulk ≤ 41000) (hsag : s.power.sag = true)
    (hrails : s.main.rcv.mainRails = true) (hable : s.main.bankable = true) :
    ∃ t, exec (.undervoltageBank bulk) s = .next t ∧ t.main.rcv.banking = some 0x51 := by
  refine ⟨_, exec_undervoltageBank_of_low hlow hsag hrails hable, ?_⟩
  simp only [Main.bankEnter_banking]

end

/-- Settles O41: a row of the supply acts once its own condition holds, and the notices stand among the messages that left. -/
theorem supplyResults : Obligations.SupplyResults := by
  unfold Obligations.SupplyResults
  intro s mv hs
  have hgone {i : Instr} (hrow : exec i s = if s.main.standby then .next s.powerGone else .refused (.noSubject "power")) :
    exec i s = .next s.powerGone := hrow.trans (if_pos hs)
  obtain ⟨hphase, hcells, hrecs⟩ := s.powerGone_main
  obtain ⟨hsag, hfloor, hmv⟩ := s.sagBegin_power mv
  refine ⟨fun hlow hnew => ⟨_, exec_sag_of_falls hs hlow hnew, rfl, hsag, hfloor, hmv⟩,
    fun hhigh hon => ⟨_, exec_sagEnd_of_rises hs hhigh hon, rfl, s.sagOver_power mv⟩, fun hrun hnew => ?_,
    State.notifySag_of_told, State.notifyOver_of_floor, fun hrun hover => ?_, exec_surge_of_new hs,
    fun hon hholds => ⟨exec_surgeEnd_of_surging hs hon hholds, fun hlow hhigh => exec_surge_of_surging hs hlow hhigh hon hholds⟩,
    s.power.surgeHolds_iff _, fun hon => Power.reads_above hon _ _, fun us => exec_shortExcursion_of_short hs,
    ⟨hgone rfl, hgone rfl, hphase, hcells, hrecs⟩, fun bulk => exec_undervoltageBank_enters⟩
  · rw [State.notifySag_of_untold hrun hnew]
    exact ⟨Main.sagNotices_ctrlOut _ _ _, rfl⟩
  · rw [State.notifyOver_of_running hrun hover]
    exact ⟨Main.sagNotices_ctrlOut _ _ _, rfl⟩

end Sys2Proof.Machine
end

section
/-! Doorbells, and the packets of fences, counters, barriers, markers and hints (R342, R343, R375, R380-R385, R454). -/

namespace Sys2Proof.Machine

/-! ### Doorbells (R342, R343) -/

section
variable {s : State} {fn : Fn} {page off : Nat} {bytes : List Byte} {x : Queue} {c : Context}

theorem exec_doorbellWrite_of_no_queue (h : s.main.objs.queues.find? (fun x => x.fn == fn && x.page == page) = none) :
    exec (.doorbellWrite fn page off bytes) s = toMain s (s.main.bump 5 2 0 1) :=
  exec_eq_toMain (f := Main.doorbellWrite fn page off bytes) rfl (by rw [Main.doorbellWrite, h]; rfl)

/-- A write elsewhere in the page, or of less than a word, is ignored whether a queue is there or not. -/
theorem exec_doorbellWrite_of_elsewhere (h : off ≠ 0 ∨ bytes.length < 4) :
    exec (.doorbellWrite fn page off bytes) s = toMain s (s.main.bump 5 2 0 1) := by
  refine exec_eq_toMain (f := Main.doorbellWrite fn page off bytes) rfl ?_
  unfold Main.doorbellWrite
  split
  · rfl
  · exact if_pos (h.elim .inl (fun hshort => .inr (.inl hshort)))

variable (hx : s.main.objs.queues.find? (fun x => x.fn == fn && x.page == page) = some x) (hc : s.main.ctxOf x.ctx = some c)
include hx hc

theorem exec_doorbellWrite_of_going (h : x.destroying = true ∨ c.state = .teardown) :
    exec (.doorbellWrite fn page off bytes) s = toMain s (s.main.bump 5 2 0 1) := by
  refine exec_eq_toMain (f := Main.doorbellWrite fn page off bytes) rfl ?_
  simp only [Main.doorbellWrite, hx, hc]
  exact if_pos (.inr (.inr (by simpa using h)))

theorem exec_doorbellWrite_of_here (hstays : x.destroying = false) (hctx : c.state ≠ .teardown) (hoff : off = 0)
    (hlen : 4 ≤ bytes.length) : exec (.doorbellWrite fn page off bytes) s =
      toMain s (s.main.ringDoorbell ⟨x.ctx, x.idx⟩ x (BitVec.ofNat 32 (fieldAt bytes 0 4))) := by
  refine exec_eq_toMain (f := Main.doorbellWrite fn page off bytes) rfl ?_
  simp only [Main.doorbellWrite, hx, hc]
  exact if_neg (by simp [hstays, hctx, hoff, hlen])

end

/-- How far a doorbell moves the write index, around the 32-bit circle. -/
theorem widx_advance (w avail : Word) : (w - avail).toNat = (w.toNat + 2 ^ 32 - avail.toNat) % 2 ^ 32 := by
  bv_omega

section
variable {m : Main} {q : QRef} {x : Queue} {w : Word}

theorem Main.ringDoorbell_of_same (h : (w - x.avail).toNat = 0) : m.ringDoorbell q x w = m := if_pos h

theorem Main.ringDoorbell_of_room (hpos : 0 < (w - x.avail).toNat) (hroom : (w - x.avail).toNat ≤ x.slots) :
    m.ringDoorbell q x w = (m.modQueue q (fun x => { x with avail := w })).wantSlot q.ctx :=
  (if_neg (Nat.pos_iff_ne_zero.1 hpos)).trans (if_pos hroom)

theorem Main.ringDoorbell_of_far (h : x.slots < (w - x.avail).toNat) :
    m.ringDoorbell q x w = m.postCtx q.ctx 5 .ok (q.q * 2 ^ 56 + 1) :=
  (if_neg (Nat.ne_of_gt (Nat.zero_lt_of_lt h))).trans (if_neg (Nat.not_le.2 h))

end

/-- Settles O17, from where the write falls and how far it moves the index. -/
theorem doorbellResults : Obligations.DoorbellResults := by
  unfold Obligations.DoorbellResults
  refine fun s fn page off bytes => ⟨exec_doorbellWrite_of_no_queue, exec_doorbellWrite_of_elsewhere, fun x c hx hc =>
    ⟨exec_doorbellWrite_of_going hx hc, fun hstays hctx hoff hlen => ?_⟩⟩
  intro w d q
  have hhere := exec_doorbellWrite_of_here hx hc hstays hctx hoff hlen
  have hd : d = (w - x.avail).toNat := (widx_advance w x.avail).symm
  rw [hhere, hd]
  exact ⟨fun hzero => congrArg (toMain s) (Main.ringDoorbell_of_same hzero),
    fun hpos hroom => congrArg (toMain s) (Main.ringDoorbell_of_room hpos hroom),
    fun hfar => congrArg (toMain s) (Main.ringDoorbell_of_far hfar)⟩

/-! ### Packets of fences, counters, barriers, markers and hints (R375, R380-R385) -/

section
variable {s : State} {m m2 : Main} {q : QRef} {pkt d : List Byte} {c : Context} {x : Queue} {p : Packet}

/-- The packet as it runs holds the bytes read. -/
theorem bytes_of_packetStarts (h : PacketStarts m q pkt c x d p m2) : p.bytes = d := by
  obtain ⟨-, -, -, -, -, -, -, -, -, ⟨m0, -, -, -, htake⟩, -, -⟩ := h
  exact (congrArg (fun y : Packet × Main => y.1.bytes) htake).symm

/-- A packet of a type that a test takes starts, with its own legality decided by its bytes. -/
theorem Main.startPacket_of_type {isType : Nat → Bool} {legal : List Byte → Bool} (h : PacketStarts m q pkt c x d p m2)
    (htype : isType (pkType d) = true) (go : Context → Packet → Main → Main) :
    Main.startPacket q pkt isType legal go m = .next (m2.beginPacket q c p (legal d) (go c p)) := by
  obtain ⟨hx, hc, hrun, hproc, hheld, hhalt, havail, hlost, hline, ⟨m0, hpage, hread, hmay, htake⟩, -, -⟩ := h
  cases hl : m0.locRead c x.ring (x.ridx.toNat % x.slots * 64) 64 pkt with
  | mk bytes m1 =>
    rw [hl] at hread hmay htake
    obtain rfl : bytes = some d := hread
    dsimp only at hmay htake
    simp [Main.startPacket, hx, hc, hrun, hproc, hheld, hhalt, havail, hline, hpage, hl, htype, hmay, htake]

/-- Only a marker's DETAIL says more than zero. -/
theorem Main.waitDetail_of_not_marker (h : pkType p.bytes ≠ 9) (ctx : Nat) : m.waitDetail ctx p = 0 := if_neg h

theorem exec_reservedPacket_of_starts (h : PacketStarts s.main q pkt c x d p m2) (htype : pkType d = 0 ∨ 10 ≤ pkType d) :
    exec (.reservedPacket q pkt) s = toMain s (m2.completePacket q p .notPermitted 0 0) := by
  have hstart := Main.startPacket_of_type (isType := fun t => t == 0 || decide (10 ≤ t)) (legal := fun _ => false) h
    (by simpa using htype) (fun _ _ m => m)
  refine exec_eq_toMain (f := Main.reservedPacket q pkt) rfl (hstart.trans (congrArg Host.Outcome.next ?_))
  have hdetail : m2.waitDetail c.num p = 0 := Main.waitDetail_of_not_marker (by rw [bytes_of_packetStarts h]; omega) _
  obtain ⟨-, -, -, -, -, -, -, hlost, -, -, hfence, -⟩ := h
  simp [Main.beginPacket, hlost, hfence, hdetail]

/-! #### FENCE_SIGNAL (R234, R380) -/

theorem exec_fenceSignalPacket_of_starts (h : PacketStarts s.main q pkt c x d p m2) (htype : pkType d = 4)
    (hlegal : signalLegal d = true) : exec (.fenceSignalPacket q pkt) s = toMain s (m2.signalGo q c p) :=
  exec_eq_toMain (f := Main.fenceSignalPacket q pkt) rfl (Main.startPacket_of_starts h htype hlegal (Main.signalGo q))

/-- A fence of this module is signalled at once. -/
theorem Main.signalGo_of_here {f : Fence} (hhere : fieldAt p.bytes 8 2 = m.fab.module)
    (hf : m.fenceOf (fieldAt p.bytes 4 4) = some f)
    (hmay : f.maySignal (fieldAt p.bytes 8 2) (fieldAt p.bytes 8 2) c.num = true) (hlive : f.live = true) :
    m.signalGo q c p = (m.applySignal (fieldAt p.bytes 4 4) (BitVec.ofNat 64 (fieldAt p.bytes 0x10 8))
      (if c.checked then some (m.modPos (fieldAt p.bytes 2 1)) else none)).completePacket q p .ok 0 0 := by
  rw [hhere] at hmay
  simp [Main.signalGo, Main.signalFence, hhere, hf, hmay, hlive]

/-- One of another module is signalled by a message, and the packet waits for its answer. -/
theorem Main.signalGo_of_far (hfar : fieldAt p.bytes 8 2 ≠ m.fab.module) (hscope : 4 ≤ fieldAt p.bytes 2 1)
    (hrouted : m.routed (fieldAt p.bytes 8 2) = true) :
    m.signalGo q c p = (m.modPacket q p.pidx (fun p => { p with waiting := true, due := m.time + m.param 4 * 1000 })).sendCtrl
      (.fenceSignal (fieldAt p.bytes 8 2) (packetNum q p.pidx) (fieldAt p.bytes 4 4) (BitVec.ofNat 64 (fieldAt p.bytes 0x10 8)) 4
        c.checked c.num) := by
  simp [Main.signalGo, hfar, hscope, hrouted]

/-! #### FENCE_WAIT and COUNTER_WAIT (R381, R382) -/

theorem exec_fenceWaitPacket_of_starts (h : PacketStarts s.main q pkt c x d p m2) (htype : pkType d = 5)
    (hlegal : fenceWaitLegal d = true) : exec (.fenceWaitPacket q pkt) s = toMain s (m2.fenceWaitGo q c p) :=
  exec_eq_toMain (f := Main.fenceWaitPacket q pkt) rfl (Main.startPacket_of_starts h htype hlegal (Main.fenceWaitGo q))

theorem Main.fenceWaitGo_of_live {f : Fence} (hf : m.fenceOf (fieldAt p.bytes 4 4) = some f)
    (hmay : f.mayWait m.fab.module c.num = true) (hlive : f.live = true) :
    m.fenceWaitGo q c p = (m.packetWaits q p).wakePacket (fieldAt p.bytes 4 4) (q, p) := by
  simp [Main.fenceWaitGo, hf, hmay, hlive]

theorem Main.fenceWaitGo_of_dead {f : Fence} (hf : m.fenceOf (fieldAt p.bytes 4 4) = some f)
    (hmay : f.mayWait m.fab.module c.num = true) (hdead : f.live = false) :
    m.fenceWaitGo q c p = m.completePacket q p .fenceAbandoned 0 f.value.toNat := by
  simp [Main.fenceWaitGo, hf, hmay, hdead]

theorem exec_counterWait_of_starts (h : PacketStarts s.main q pkt c x d p m2) (htype : pkType d = 6)
    (hlegal : counterWaitLegal d = true) : exec (.counterWait q pkt) s = toMain s (m2.counterWaitGo q c p) :=
  exec_eq_toMain (f := Main.counterWaitPacket q pkt) rfl (Main.startPacket_of_starts h htype hlegal (Main.counterWaitGo q))

theorem Main.counterWaitGo_of_own {k : Counter} (hk : m.counterOf (fieldAt p.bytes 4 2) = some k) (hown : k.ctx = c.num) :
    m.counterWaitGo q c p = (m.packetWaits q p).wakeCounterPacket (fieldAt p.bytes 4 2) (q, p) := by
  simp [Main.counterWaitGo, hk, hown]

/-! #### BARRIER, MARKER and HINT (R383-R385, R454) -/

theorem exec_barrier_of_starts (h : PacketStarts s.main q pkt c x d p m2) (htype : pkType d = 7)
    (hlegal : barrierLegal d = true) : exec (.barrier q pkt) s = toMain s (m2.barrierGo q c p) :=
  exec_eq_toMain (f := Main.barrierPacket q pkt) rfl (Main.startPacket_of_starts h htype hlegal (Main.barrierGo q))

theorem exec_marker_of_starts (h : PacketStarts s.main q pkt c x d p m2) (htype : pkType d = 9)
    (hlegal : markerLegal d = true) : exec (.marker q pkt) s = toMain s (m2.markerGo q c p) :=
  exec_eq_toMain (f := Main.markerPacket q pkt) rfl (Main.startPacket_of_starts h htype hlegal (Main.markerGo q))

theorem exec_hint_of_starts (h : PacketStarts s.main q pkt c x d p m2) (htype : pkType d = 8)
    (hlegal : hintLegal d = true) : exec (.hint q pkt) s = toMain s (m2.hintGo q c p) :=
  exec_eq_toMain (f := Main.hintPacket q pkt) rfl (Main.startPacket_of_starts h htype hlegal (Main.hintGo q))

end

/-- Settles O18: each packet starts, and its own start comes to what the statement says. -/
theorem syncPackets : Obligations.SyncPackets := by
  unfold Obligations.SyncPackets
  refine ⟨fun s q pkt c x d p m2 h => ⟨exec_reservedPacket_of_starts h, fun htype hlegal => ?_, fun f htype hlegal hf hmay => ?_,
      fun k htype hlegal hk hown => ?_⟩,
    fun s q pkt c x d p m2 h => ⟨exec_barrier_of_starts h, exec_marker_of_starts h, fun htype hlegal => ?_⟩⟩
  all_goals obtain rfl : p.bytes = d := bytes_of_packetStarts h
  · intro scope handle target v
    rw [exec_fenceSignalPacket_of_starts h htype hlegal]
    exact ⟨fun f hhere hf hmay hlive => congrArg (toMain s) (Main.signalGo_of_here hhere hf hmay hlive),
      fun hfar hscope hrouted => congrArg (toMain s) (Main.signalGo_of_far hfar hscope hrouted)⟩
  · rw [exec_fenceWaitPacket_of_starts h htype hlegal]
    exact ⟨fun hlive => congrArg (toMain s) (Main.fenceWaitGo_of_live hf hmay hlive),
      fun hdead => congrArg (toMain s) (Main.fenceWaitGo_of_dead hf hmay hdead)⟩
  · rw [exec_counterWait_of_starts h htype hlegal, Main.counterWaitGo_of_own hk hown]
  · rw [exec_hint_of_starts h htype hlegal]
    simp only [Main.hintGo, Nat.max_comm 20]

/-- Settles O60: the reset state is read off. -/
theorem resetState : Obligations.ResetState := by
  unfold Obligations.ResetState
  refine ⟨?_, rfl, rfl, rfl, rfl, rfl, ?_, rfl, rfl, rfl, rfl, rfl, rfl, rfl, ?_, rfl⟩
  · decide
  · decide
  · decide

end Sys2Proof.Machine
end

section
/-! Management and SPDM messages, and queries answered from a snapshot (R407, R408, R417, R433, R487, R507-R509, R525, R532). -/

namespace Sys2Proof.Machine

section
variable {s : State} {f : MctpFrom}

/-! ### MCTP control and PLDM (R407, R408, R532) -/

theorem exec_mctpControl_of_here (hup : s.main.core3Up = true) (hhere : mctpHere f = true) (req : MctpReq) :
    exec (.mctpControl ⟨f, req⟩) s = toMain s (s.main.mctp f req) := by
  change execMctpControl _ s = _
  simp only [execMctpControl, hhere, hup, Bool.not_true, Bool.false_eq_true, if_false, if_true, toMain]

theorem exec_mctpControl_of_elsewhere (h : mctpHere f = false) (req : MctpReq) : exec (.mctpControl ⟨f, req⟩) s = .next s :=
  if_pos (by simp [h])

/-- A new endpoint address is taken, and answered. -/
theorem Main.mctp_setEid (m : Main) (f : MctpFrom) (eid : Nat) :
    ∃ out, m.mctp f (.setEid eid) = { m with bmcEid := eid, bmcOut := m.bmcOut ++ out } := ⟨_, rfl⟩

/-- PLDM is served while Elbor core 3 has no command of another module's to serve first. -/
theorem State.pldm_of_here (hhere : mctpHere f = true) (hup : s.main.core3Up = true) (hpaused : s.main.elbor.paused = none)
    (hidle : ∀ b ∈ s.main.elbor.boxes, s.main.served b.mb = true → ∀ c ∈ b.waiting, c.onCores = true ∨ c.cls = none)
    (go : State → State) : State.pldm f go s = .next (go s) := by
  have hwaits : ((s.main.elbor.boxes.filter (fun b => s.main.served b.mb)).any
      (fun b => b.waiting.any (fun c => !c.onCores && c.cls.isSome))) = false := by
    simp only [List.any_eq_false, List.mem_filter, List.any_eq_true, not_exists, not_and]
    intro b ⟨hb, hserved⟩ c hc
    rcases hidle b hb hserved c hc with hcores | hnone
    · simp [hcores]
    · simp [hnone]
  simp only [State.pldm, hhere, hup, hpaused, hwaits, Bool.not_true, Option.isSome_none, Bool.or_self, Bool.false_eq_true, if_false]

theorem State.pldm_of_elsewhere (h : mctpHere f = false) (go : State → State) : State.pldm f go s = .next s := if_pos (by simp [h])

/-- An image that is good for its component, and of the version asked for, is staged. -/
theorem State.pldmUpdate_stage {comp : Nat} {v : Word} {img : List Byte} (hcomp : comp < 6) (hswitch : s.main.switches comp = false)
    (hok : s.main.imageOk comp img = true) (hv : Config.imageVersion img % 2 ^ 32 = v.toNat) :
    s.pldmUpdate f (.stage comp v) img =
      ({ s with main := s.main.modFw comp (fun f => f.stage img) } : State).pldmSay f 5 0x18 [0] := by
  simp only [State.pldmUpdate]
  rw [if_neg (by simp [hcomp, hswitch]), if_neg (by simp only [hok, hv, Bool.not_true, bne_self_eq_false, Bool.or_self, Bool.false_eq_true, not_false_eq_true])]

/-- An activation that begins, now or at the next start, is answered as it begins. -/
theorem State.pldmUpdate_activate {comp : Nat} {s1 : State} (hcomp : comp < 6)
    (h : s.activate comp = .begun s1 ∨ s.activate comp = .deferred s1) (img : List Byte) :
    s.pldmUpdate f (.activate comp) img = s1.pldmSay f 5 0x1A [0, 0, 0] := by
  simp only [State.pldmUpdate]
  rw [if_neg (by omega)]
  rcases h with h | h <;> rw [h]

/-! ### Snapshots (R417) -/

/-- A query that met saturation is answered from the snapshot that is held then. -/
theorem exec_staleSnapshot_of_due {mb : Mbx} {seq : BitVec 32} {outOk : Bool} {b : Mailbox} {c : MbCmd} {r : Reply}
    (hb : s.main.boxOf mb = some b)
    (hc : b.waiting.find? (fun c => c.seq == seq.toNat && c.cls == some .query) = some c) (hstale : c.stale = true)
    (hnow : c.noStale = false) (hserved : s.main.served mb = true) (hup : s.main.coresUp c = true)
    (hq : queryAns { mb := mb, cmd := c, input := some [] } { s with snap := some s.snapNow } = some r)
    (hbanked : s.main.banked = false) (hmay : maySend (callerOf mb) c.op = true)
    (hheader : ({ mb := mb, cmd := c, input := some [] } : EcsIn).header = none) :
    exec (.staleSnapshot mb seq outOk) s =
      .next (({ s with snap := some s.snapNow } : State).answer { mb := mb, cmd := c, input := some [] } outOk
        (({ s with snap := some s.snapNow } : State).staleReply ({ s with snap := some s.snapNow } : State).snapNow
          { mb := mb, cmd := c, input := some [] } r) { s with snap := some s.snapNow }) := by
  have hcls : c.cls = some .query := by
    have hfound := List.find?_some hc
    simp only [Bool.and_eq_true, beq_iff_eq] at hfound
    exact hfound.2
  have hdue : s.main.snapshotDue c = true := by simp [Main.snapshotDue, hcls, hstale, hnow]
  change State.staleSnapshot mb seq outOk s = _
  simp only [State.staleSnapshot, hb, hc, Option.bind_some, hstale, if_true, hdue, hserved, hup, Bool.not_true, Bool.or_self,
    Bool.false_eq_true, if_false, State.begin_, hbanked, Bool.false_and, hmay, hheader, Option.isNone_some, Bool.and_false, hq]

/-- What the snapshot holds is answered with its age. -/
theorem State.staleReply_of_held {x : Snapshot} {i : EcsIn} {now old : Reply} (hnow : now.status = .ok)
    (hq : queryAns i { s with main := x.main, power := x.power } = some old) (hold : old.status = .ok) :
    s.staleReply x i now = { old with status := .stale, aux := (s.main.time - x.main.time) / 1000000 } := by
  simp only [State.staleReply, hnow, hq, hold, ne_eq, not_true_eq_false, if_false, if_true]

/-! ### SPDM (R507) -/

/-- Whether the path of a requester reaches the Seal processor: the port's function, or the module's own address while it has power. -/
def State.SpdmPath (s : State) (p : SpdmPort) : Prop :=
  match p with
  | .doe port => s.main.fnReach ⟨port, 0⟩ = true
  | .mctp f => mctpHere f = true ∧ s.main.standby = true

variable {p : SpdmPort} {turn : SpdmSt → Bool}

/-- A request in its turn is served, and one out of it answered with UnexpectedRequest. -/
theorem Main.spdm_of_path (hpath : s.SpdmPath p) (hseal : s.main.procUp 5 = true) (go : Main → Main) :
    Main.spdm p turn go s.main =
      .next (if turn (s.main.spdmAt p) then go s.main else s.main.spdmSend p [0x13, 0x7F, 4, 0]) := by
  cases p with
  | doe port =>
    simp only [State.SpdmPath] at hpath
    cases hturn : turn (s.main.spdmAt (.doe port)) <;>
      simp [Main.spdm, spdmHere, hpath, hseal, hturn, spdmError, toBytes]
  | mctp f =>
    obtain ⟨hhere, hstandby⟩ := hpath
    cases hturn : turn (s.main.spdmAt (.mctp f)) <;>
      simp [Main.spdm, spdmHere, hhere, hstandby, hseal, hturn, spdmError, toBytes]

/-- A request whose turn is one state of the negotiation is served in that state. -/
theorem onMain_spdm_of_turn {x : SpdmSt} (hpath : s.SpdmPath p) (hseal : s.main.procUp 5 = true) (hturn : s.main.spdmAt p = x)
    (go : Main → Main) : onMain (Main.spdm p (· == x) go) s = toMain s (go s.main) :=
  onMain_of_next ((Main.spdm_of_path hpath hseal go).trans (congrArg Host.Outcome.next (if_pos (beq_iff_eq.2 hturn))))

theorem onMain_spdm_of_early {x : SpdmSt} (hpath : s.SpdmPath p) (hseal : s.main.procUp 5 = true) (hturn : s.main.spdmAt p ≠ x)
    (go : Main → Main) : onMain (Main.spdm p (· == x) go) s = toMain s (s.main.spdmSend p [0x13, 0x7F, 4, 0]) :=
  onMain_of_next ((Main.spdm_of_path hpath hseal go).trans (congrArg Host.Outcome.next (if_neg (by simpa using hturn))))

theorem exec_spdmGetVersion_of_elsewhere (h : mctpHere f = false) : exec (.spdmGetVersion (.mctp f)) s = .next s := by
  change onMain (Main.spdm (.mctp f) (fun _ => true) (Main.spdmVersion (.mctp f))) s = _
  simp [onMain, Main.spdm, spdmHere, h]

end

/-- Settles O40: each message is served once its path is there and it is its turn. -/
theorem managementMessages : Obligations.ManagementMessages := by
  unfold Obligations.ManagementMessages
  refine ⟨fun s hup => ⟨fun f hhere => ⟨exec_mctpControl_of_here hup hhere, s.main.mctp_setEid f, fun hpaused hidle => ?pldm⟩,
      fun mb b seq c outOk hb hc hstale hnow hserved hcores => ?snapshot, fun x i now old => State.staleReply_of_held⟩,
    fun s f h => ⟨exec_mctpControl_of_elsewhere h, fun req => State.pldm_of_elsewhere h _, fun req => State.pldm_of_elsewhere h _,
      fun req img => State.pldm_of_elsewhere h _, exec_spdmGetVersion_of_elsewhere h⟩,
    fun s p hseal hpath => ?spdm⟩
  case pldm =>
    have hserves := State.pldm_of_here hhere hup hpaused hidle
    exact ⟨fun req => hserves _, fun req => hserves _, fun req img => hserves _, fun comp v img => State.pldmUpdate_stage,
      fun comp img s1 hcomp h => State.pldmUpdate_activate hcomp h img⟩
  case snapshot =>
    intro i s1 r hq hbanked hmay hheader
    exact exec_staleSnapshot_of_due hb hc hstale hnow hserved hcores hq hbanked hmay hheader
  case spdm =>
    have hversion : onMain (Main.spdm p (fun _ => true) (Main.spdmVersion p)) s = toMain s (s.main.spdmVersion p) :=
      onMain_of_next ((Main.spdm_of_path hpath hseal _).trans (congrArg Host.Outcome.next (if_pos rfl)))
    have hserved (x : SpdmSt) (h : s.main.spdmAt p = x) (go : Main → Main) := onMain_spdm_of_turn hpath hseal h go
    have hearly (x : SpdmSt) (h : s.main.spdmAt p ≠ x) (go : Main → Main) := onMain_spdm_of_early hpath hseal h go
    exact ⟨hversion, fun h => hserved .version h _, fun h a => hserved .caps h _,
      fun h => ⟨hserved .algs h _, fun slot off len => hserved .algs h _, fun slot nonce => hserved .algs h _,
        fun index raw sign nonce => hserved .algs h _⟩,
      fun a slot off len nonce index raw sign => ⟨fun h => hearly .version h _, fun h => hearly .caps h _,
        fun h => ⟨hearly .algs h _, hearly .algs h _, hearly .algs h _, hearly .algs h _⟩⟩⟩

end Sys2Proof.Machine
end

section
/-! What happens to an armed transition, and what that needs (R319, R321, R325, R327-R331). -/

namespace Sys2Proof.Machine

/-! ### What a handover leaves of the records (R327, R330) -/

section
variable (m : Main)

@[simp] theorem Main.applyInv_bystanders (agent line : Nat) : (m.applyInv agent line).bystanders = m.bystanders := by
  unfold Main.applyInv
  dsimp only
  split
  · split
    · exact Main.evict_bystanders _ _ _
    · rfl
  · rfl

@[simp] theorem Main.drain_bystanders (agent : Nat) : (m.drain agent).bystanders = m.bystanders :=
  Main.foldl_bystanders (fun x (q : Nat × Nat) => x.applyInv_bystanders q.1 q.2) _ m

@[simp] theorem Main.flushAgent_bystanders (agent : Nat) : (m.flushAgent agent).bystanders = m.bystanders :=
  (Main.foldl_bystanders (fun x line => x.evict_bystanders agent line) _ _).trans (m.drain_bystanders agent)

/-- What a cluster's caches and partitions lose stands in no record. -/
@[simp] theorem Main.emptyCluster_comp (k : Nat) : (m.emptyCluster k).comp = m.comp := by
  have hflush : ((rangeFrom (k * 10) 10).foldl Main.flushAgent m).comp = m.comp :=
    Main.comp_of_bystanders (Main.foldl_bystanders (fun x agent => x.flushAgent_bystanders agent) _ m)
  unfold Main.emptyCluster Main.resetCluster
  generalize (rangeFrom (k * 10) 10).foldl Main.flushAgent m = flushed at hflush ⊢
  exact hflush

@[simp] theorem Main.clearCluster_comp (k : Nat) : (m.clearCluster k).comp = m.comp := rfl
@[simp] theorem Main.leaveStore_comp (k : Nat) : (m.leaveStore k).comp = m.comp := rfl

@[simp] theorem Main.setOwner_recs (g : Grain) (o : Owner) : (m.setOwner g o).comp.recs = m.comp.recs := by
  rcases g with ⟨kind, num⟩
  cases kind <;> rfl

/-- The record of a span after those of a span have changed, when the change keeps which span it is of. -/
theorem Main.recOf_modRec {f : SpanRec → SpanRec} (hf : ∀ r, (f r).id = r.id) (changed span : Nat) :
    (m.modRec changed f).recOf span = (m.recOf span).map (fun r => if r.id = changed then f r else r) := by
  have h := find?_modWhere_of_kept (p := fun r : SpanRec => r.id == changed) (q := fun r => r.id == span) (f := f)
    (fun r _ => by rw [hf r]) m.comp.recs
  simp only [beq_iff_eq] at h
  exact h

end

/-- A record with the handovers of a grain one way complete. -/
def SpanRec.handedOver (g : Grain) (leave : Bool) (r : SpanRec) : SpanRec :=
  { r with handovers :=
      modWhere r.handovers (fun h => h.kind == g.1 && h.num == g.2 && h.leave == leave) (fun h => { h with complete := true }) }

theorem Main.handed_eq (m : Main) (span : Nat) (g : Grain) (leave : Bool) :
    m.handed span g leave = m.modRec span (SpanRec.handedOver g leave) := rfl

/-- A span's record is in the phase and has the SHADOW of another, and every handover in it is complete. -/
def Main.Closable (m : Main) (span : Nat) (r : SpanRec) : Prop :=
  ∃ r1, m.recOf span = some r1 ∧ r1.phase = r.phase ∧ r1.shadow = r.shadow ∧ ∀ h ∈ r1.handovers, h.complete = true

section
variable {m m1 : Main} {span : Nat} {r : SpanRec}

/-- It turns on the records alone. -/
theorem Main.Closable.of_recs (h : m.Closable span r) (hrecs : m1.comp.recs = m.comp.recs) : m1.Closable span r := by
  unfold Main.Closable Main.recOf at *
  rwa [hrecs]

/-- A handover that completes undoes no other. -/
theorem Main.Closable.handed (h : m.Closable span r) (x : Nat) (g : Grain) (leave : Bool) : (m.handed x g leave).Closable span r := by
  obtain ⟨r1, hr, hphase, hshadow, hover⟩ := h
  rw [Main.handed_eq]
  refine ⟨_, by rw [Main.recOf_modRec (f := SpanRec.handedOver g leave) _ (fun _ => rfl), hr, Option.map_some], ?_⟩
  split
  · refine ⟨hphase, hshadow, fun y hy => ?_⟩
    obtain ⟨z, hz, rfl⟩ := List.mem_map.1 hy
    split
    · rfl
    · exact hover z hz
  · exact ⟨hphase, hshadow, hover⟩

/-- A core grain that passes only completes handovers. -/
theorem Main.Closable.passCore (h : m.Closable span r) (x k : Nat) : (m.passGrain x (.core, k)).Closable span r := by
  unfold Main.passGrain
  split
  · exact ((h.of_recs (Main.setOwner_recs _ _ _)).handed _ _ _).handed _ _ _
  · refine (h.of_recs ?_).handed _ _ _
    unfold Main.releaseGrain
    simp only [Main.setOwner_recs, Main.clearCluster_comp, Main.emptyCluster_comp]

theorem Main.Closable.handCore (h : m.Closable span r) (y : SpanRec) (k : Nat) : (m.handCore y k).Closable span r := by
  have hleft : ((m.emptyCluster k).leaveStore k).Closable span r := 
    h.of_recs (by simp only [Main.leaveStore_comp, Main.emptyCluster_comp])
  unfold Main.handCore
  dsimp only
  generalize (m.emptyCluster k).leaveStore k = left at hleft ⊢
  have hcleared (same : Bool) : (if same then left else left.clearCluster k).Closable span r := by
    cases same
    · exact hleft.of_recs (congrArg Comp.recs (Main.clearCluster_comp _ _))
    · exact hleft
  exact (hcleared _).passCore _ _

/-- A transition that may close still may once the core handovers that have nothing to wait for have completed. -/
theorem Main.Closable.settleHandovers (h : m.Closable span r) : m.settleHandovers.Closable span r := by
  unfold Main.settleHandovers
  refine List.foldlRecOn (motive := fun x : Main => x.Closable span r) _ _ h fun x hx a _ => ?_
  split
  · exact hx
  · exact hx.handCore _ _

end

/-! ### SWITCH, handovers and CLOSE as commands -/

section
variable {s : State} {span : Nat} {r : SpanRec} (hr : s.main.recOf span = some r)

include hr in
theorem exec_switch_of_armed (hphase : r.phase = .prepare) (hcommit : r.committed = true) :
    exec (.switch span) s = toMain s (((s.main.until r.switchT).switchSpan r).after) := by
  refine exec_eq_toMain (f := Main.switchTime span) rfl ?_
  simp only [Main.switchTime, hr]
  exact if_neg (by simp [hphase, hcommit])

include hr in
theorem exec_memoryGrainHandover_of_leaving {c : Nat}
    (hleaves : ∃ h ∈ r.handovers, h.kind = .memory ∧ h.num = c ∧ h.leave = true ∧ h.complete = false)
    (hheld : s.main.handoverHeld span = false) (hzero : s.main.zeroingOn span c = false) :
    exec (.memoryGrainHandover span c) s = toMain s (((s.main.handMemory span c).settleHandovers).settleRetire.after) := by
  obtain ⟨h, hmem, hkind, hnum, hleave, hopen⟩ := hleaves
  have hany : r.handovers.any (fun h => h.kind == .memory && h.num == c && h.leave && !h.complete) = true :=
    List.any_eq_true.2 ⟨h, hmem, by simp [hkind, hnum, hleave, hopen]⟩
  refine exec_eq_toMain (f := Main.memoryHandover span c) rfl ?_
  simp only [Main.memoryHandover, hr, hany, hheld, hzero, Bool.not_true, Bool.false_eq_true, if_false]

theorem exec_close_of_drained {r1 : SpanRec} (hr : s.main.settleHandovers.recOf span = some r1) (hphase : r1.phase = .drain)
    (hover : ∀ h ∈ r1.handovers, h.complete = true) :
    exec (.close span) s = toMain s ((if r1.shadow.valid then
      ((s.main.settleHandovers.until r1.closeT).closeSpan r1).settleRetire
      else (s.main.settleHandovers.until r1.closeT).closeLeaving r1).after) := by
  refine exec_eq_toMain (f := Main.closeAt span false) rfl ?_
  simp only [Main.closeAt, hr, hphase, List.all_eq_true.2 hover, ne_eq, not_true_eq_false, Bool.false_eq_true, false_and, or_self,
    Bool.not_true, if_false]

theorem exec_leavingRecordFree_of_drained {r1 : SpanRec} (hr : s.main.settleHandovers.recOf span = some r1)
    (hphase : r1.phase = .drain) (hover : ∀ h ∈ r1.handovers, h.complete = true) (hleaves : r1.shadow.valid = false) :
    exec (.leavingRecordFree span) s =
      toMain s (((s.main.settleHandovers.until (r1.closeT + 10000)).closeSpan r1).settleRetire.after) := by
  refine exec_eq_toMain (f := Main.closeAt span true) rfl ?_
  simp only [Main.closeAt, hr, hphase, hleaves, List.all_eq_true.2 hover, ne_eq, not_true_eq_false, Bool.false_eq_true, and_false,
    or_self, Bool.not_true, if_false, if_true]

include hr in
theorem exec_handoverEscalation_of_running (hphase : r.phase = .drain) (hruns : ∃ h ∈ r.handovers, h.leave = true ∧ h.complete = false) :
    exec (.handoverEscalation span) s =
      toMain s ((s.main.until (r.closeT + 50000000)).saggerError span 0x33 ⟨4, 2⟩ none 0 false none) := by
  obtain ⟨h, hmem, hleave, hopen⟩ := hruns
  have hany : r.handovers.any (fun h => h.leave && !h.complete) = true :=
    List.any_eq_true.2 ⟨h, hmem, by simp [hleave, hopen]⟩
  refine exec_eq_toMain (f := Main.handoverLate span) rfl ?_
  simp only [Main.handoverLate, hr]
  exact if_neg (by simp only [hphase, hany, ne_eq, not_true_eq_false, Bool.not_true, Bool.false_eq_true, or_self, not_false_eq_true])

end

/-- No extent that goes with a channel is zeroed where none of the span's is. -/
theorem Main.zeroingOn_of_zeroed {m : Main} {span : Nat} (h : ∀ e ∈ m.mem.extents, e.span = span → e.state ≠ .zeroing) (c : Nat) :
    m.zeroingOn span c = false := by
  refine List.any_eq_false.2 fun e he hbusy => ?_
  simp only [Bool.and_eq_true, beq_iff_eq] at hbusy
  obtain ⟨⟨hspan, -⟩, hzero⟩ := hbusy
  exact h e he hspan hzero

/-- Settles O54, from what each event of a transition comes to. -/
theorem compositionEvents : Obligations.CompositionEvents := by
  unfold Obligations.CompositionEvents
  refine fun s span r hr => ⟨exec_switch_of_armed hr, fun c => exec_memoryGrainHandover_of_leaving hr,
    fun r1 hr1 hphase hover => ?_, exec_handoverEscalation_of_running hr⟩
  have hclose := exec_close_of_drained hr1 hphase hover
  exact ⟨fun hstays => by rw [hclose, if_pos hstays], fun hleaves => ⟨by rw [hclose, if_neg (by simp [hleaves])],
    exec_leavingRecordFree_of_drained hr1 hphase hover hleaves⟩⟩

/-- Settles O55: the core handovers that complete first leave a transition that may close as it is. -/
theorem compositionCompletes : Obligations.CompositionCompletes := by
  unfold Obligations.CompositionCompletes
  refine fun s span r hr => ⟨fun hphase hcommit => ⟨_, exec_switch_of_armed hr hphase hcommit⟩, ?memory, fun hphase hover => ?close,
    fun h hmem hphase hleave hopen => ⟨_, exec_handoverEscalation_of_running hr hphase ⟨h, hmem, hleave, hopen⟩⟩⟩
  case memory =>
    intro h hmem hkind hleave hopen hfence hreclaim hzeroed
    have hheld : s.main.handoverHeld span = false := by simp [Main.handoverHeld, hfence, hreclaim]
    exact ⟨_, exec_memoryGrainHandover_of_leaving hr ⟨h, hmem, hkind, rfl, hleave, hopen⟩ hheld (Main.zeroingOn_of_zeroed hzeroed _)⟩
  case close =>
    have hclosable : s.main.Closable span r := ⟨r, hr, rfl, rfl, hover⟩
    obtain ⟨r1, hr1, hphase1, hshadow1, hover1⟩ := hclosable.settleHandovers
    exact ⟨⟨_, exec_close_of_drained hr1 (hphase1.trans hphase) hover1⟩, fun hleaves =>
      ⟨_, exec_leavingRecordFree_of_drained hr1 (hphase1.trans hphase) hover1 (by rw [hshadow1, hleaves])⟩⟩

end Sys2Proof.Machine
end

section
/-! What events, answers and retirements leave alone of the block, and how a start begins, goes on and ends (R440, R462-R466, R533, R534). -/

namespace Sys2Proof.Machine

/-! ### What events and answers leave alone (R405, R429-R435) -/

/-- The block without what events and answers may change: free values, what goes to the host but for the runs of its movers, what goes to
the BMC, the mailboxes, and which security events have been posted. -/
def Main.unheard (m : Main) : Main :=
  { m with
    free := 0, bmcOut := [], elbor := Elbor.reset
    host := { HostSt.reset with dmas := m.host.dmas }
    sec := { m.sec with posted := [] } }

/-- Blocks that differ in events and answers alone agree on recovery. -/
theorem Main.rcv_of_unheard {m m1 : Main} (h : m1.unheard = m.unheard) : m1.rcv = m.rcv := (congrArg (fun x : Main => x.rcv) h :)

section
variable (m : Main)

@[simp] theorem Main.modEq_unheard (fn : Fn) (i : Nat) (f : EvQ → EvQ) : (m.modEq fn i f).unheard = m.unheard := rfl
@[simp] theorem Main.modBox_unheard (mb : Mbx) (f : Mailbox → Mailbox) : (m.modBox mb f).unheard = m.unheard := rfl
@[simp] theorem Main.writeLate_unheard (fn : Fn) (a : Nat) (d : List Byte) : (m.writeLate fn a d).unheard = m.unheard := rfl
@[simp] theorem Main.hostWrite_unheard (fn : Fn) (pasid a : Nat) (d : List Byte) (ro : Bool) :
    (m.hostWrite fn pasid a d ro).unheard = m.unheard := rfl

@[simp] theorem Main.sendMsix_unheard (fn : Fn) (v : Nat) : (m.sendMsix fn v).unheard = m.unheard := by
  unfold Main.sendMsix
  cases m.fnOf fn with
  | none => rfl
  | some r => dsimp only; split <;> rfl

@[simp] theorem Main.eqNotify_unheard (fn : Fn) (i : Nat) : (m.eqNotify fn i).unheard = m.unheard := by
  unfold Main.eqNotify
  cases m.eqOf fn i with
  | none => rfl
  | some q =>
    dsimp only
    split
    · split
      · exact Main.sendMsix_unheard _ _ _
      · rfl
    · rfl

@[simp] theorem Main.eqWrite_unheard (fn : Fn) (i : Nat) (q : EvQ) (e : Event) : (m.eqWrite fn i q e).unheard = m.unheard := by
  rw [Main.eqWrite, Main.eqNotify_unheard, Main.modEq_unheard, Main.writeLate_unheard]

theorem Main.pageOf_unheard {m m1 : Main} {fn : Fn} {pasid a : Nat} {write : Bool} (h : m.pageOf fn pasid a write = some m1) :
    m1.unheard = m.unheard := by
  unfold Main.pageOf at h
  cases hr : m.fnOf fn with
  | none => simp [hr] at h
  | some r =>
    simp only [hr] at h
    split at h
    · cases h; rfl
    · obtain ⟨e, -, rfl⟩ := Option.map_eq_some_iff.1 h
      rfl

@[simp] theorem Main.eqPost_unheard (fn : Fn) (i : Nat) (e : Event) : (m.eqPost fn i e).unheard = m.unheard := by
  have hput (q : EvQ) : (m.eqPut fn i q e).unheard = m.unheard := by
    unfold Main.eqPut
    dsimp only
    split
    · rfl
    · split
      case h_1 m1 hpage =>
        split at hpage
        · exact (Main.eqWrite_unheard _ _ _ _ _).trans (Main.pageOf_unheard hpage)
        · cases hpage
      case h_2 => rfl
  unfold Main.eqPost
  cases m.eqOf fn i with
  | none => rfl
  | some q =>
    dsimp only
    split
    · split
      · rfl
      · split
        · rfl
        · exact hput q
    · rfl

@[simp] theorem Main.postFn_unheard (fn : Fn) (e : Event) : (m.postFn fn e).unheard = m.unheard := by
  unfold Main.postFn
  cases m.fnOf fn with
  | none => rfl
  | some r =>
    refine foldl_view_eq (view := Main.unheard) (fun x i => ?_) _ m
    split
    · exact x.eqPost_unheard fn i e
    · rfl

/-- An event goes to queues of the functions and to the BMC. -/
@[simp] theorem Main.post_unheard (type cls subject : Nat) (st : Status) (detail : Nat) :
    (m.post type cls subject st detail).unheard = m.unheard := by
  have hfns (e : Event) : ((m.postFn ⟨0, 0⟩ e).postFn ⟨1, 0⟩ e).unheard = m.unheard := by
    rw [Main.postFn_unheard, Main.postFn_unheard]
  unfold Main.post
  dsimp only
  split <;> exact hfns _

@[simp] theorem Main.reply_unheard (mb : Mbx) (c : MbCmd) (r : Reply) : (m.reply mb c r).unheard = m.unheard := by
  unfold Main.reply
  dsimp only
  split <;> rfl

@[simp] theorem Main.answerHeld_unheard (why : HeldFor) (r : Reply) : (m.answerHeld why r).unheard = m.unheard :=
  foldl_view_eq (view := Main.unheard) (fun x (c : Mbx × MbCmd) => x.reply_unheard c.1 c.2 r) _ m

/-! ### Recovery, as retirements leave it (R198-R202) -/

@[simp] theorem Main.postMemory_rcv (c cause lpa : Nat) : (m.postMemory c cause lpa).rcv = m.rcv :=
  Main.rcv_of_unheard (m.post_unheard _ _ _ _ _)

@[simp] theorem Main.swapMap_rcv (c p : Nat) (st : ChState) : (m.swapMap c p st).rcv = m.rcv := by
  unfold Main.swapMap
  exact Main.postMemory_rcv _ _ _ _

@[simp] theorem Main.tryRetire_rcv (c : Nat) : (m.tryRetire c).rcv = m.rcv := by
  unfold Main.tryRetire
  dsimp only
  split
  · rfl
  · split
    · split
      · rfl
      · exact Main.postMemory_rcv _ _ _ _
    · split
      · exact (Main.swapMap_rcv _ _ _ _).trans (Main.postMemory_rcv _ _ _ _)
      · split
        · rfl
        · exact Main.postMemory_rcv _ _ _ _

@[simp] theorem Main.settleRetire_rcv : m.settleRetire.rcv = m.rcv := by
  refine foldl_view_eq (view := Main.rcv) (fun x c => ?_) _ m
  dsimp only
  split
  · exact x.tryRetire_rcv c
  · exact (Main.rcv_of_unheard (Main.answerHeld_unheard _ _ _)).trans (x.tryRetire_rcv c)

@[simp] theorem Main.egSetMode_rcv (static : Bool) : (m.egSetMode static).rcv = m.rcv := by
  unfold Main.egSetMode
  exact Main.egSettle_rcv _

/-- Recovery once a start is complete. -/
def Rcv.started (r : Rcv) (now : Nat) (cold : Bool) : Rcv :=
  { r with
    phase := .running, stepAt := now, joining := true, preserve := none, warmFail := 0, coldFail := if cold then 0 else r.coldFail }

theorem Main.complete_eq (cold : Bool) : m.complete cold =
    (({ m with rcv := m.rcv.started m.time cold } : Main).egSetMode m.rcv.dev.isSome).settleRetire := rfl

/-- A start that is complete leaves a module that runs, joins the fabric, and has no failed warm start to its name (R462, R464, R466). -/
theorem Main.complete_rcv (cold : Bool) : (m.complete cold).rcv = m.rcv.started m.time cold := by
  rw [Main.complete_eq, Main.settleRetire_rcv, Main.egSetMode_rcv]

theorem Main.nextStep_of_last (h : m.rcv.phase = .cold 8 ∨ m.rcv.phase = .warm 6) : ∃ cold, m.nextStep = m.complete cold := by
  unfold Main.nextStep
  rcases h with h | h <;> rw [h]
  · exact ⟨true, rfl⟩
  · exact ⟨false, rfl⟩

end

/-! ### What begins a start, holds it or takes power away (R462, R464, R533, R534) -/

section
variable {s : State}

theorem exec_standbyPowerApplied_of_off (hoff : s.main.standby = false) (hfew : s.main.rcv.coldFail < 3) :
    exec .standbyPowerApplied s = .next s.beginCold := by
  change execStandbyPowerApplied s = _
  unfold execStandbyPowerApplied
  rw [if_neg (by simp [hoff]), if_neg (by omega)]

theorem exec_standbyPowerApplied_of_failed (hoff : s.main.standby = false) (hmany : 3 ≤ s.main.rcv.coldFail) :
    exec .standbyPowerApplied s = .next ({ s with main := s.main.bankEnter 0x53 ⟨8, 0⟩ none } : State).bankFinish.standbyUp := by
  change execStandbyPowerApplied s = _
  unfold execStandbyPowerApplied
  rw [if_neg (by simp [hoff]), if_pos hmany]

/-- The module held in reset: of work, spans and memory nothing is left, and its records are. -/
theorem exec_modReset_of_standby (hs : s.main.standby = true) (hheld : s.main.rcv.phase = .held → s.main.rcv.tripHold = true) :
    ∃ t, exec .modReset s = .next t ∧ t.main.rcv.phase = .held ∧ t.main.rcv.tripHold = false ∧ t.main.rcv.mainRails = false ∧
      t.main.comp.recs = [] ∧ t.main.mem.cells = [] ∧ t.main.eg = Gatherer.reset ∧ t.power = s.power ∧
      t.main.rcv.errs = s.main.rcv.errs := by
  have hmay : ¬(s.main.standby = false ∨ (s.main.rcv.phase = .held ∧ s.main.rcv.tripHold = false)) := by
    rintro (hoff | ⟨hphase, htrip⟩)
    · simp [hs] at hoff
    · simp [hheld hphase] at htrip
  have herrs : s.main.endSwaps.rcv.errs = s.main.rcv.errs := by rw [Main.endSwaps_rcv]
  change ∃ t, execModReset s = .next t ∧ _
  unfold execModReset
  rw [if_neg hmay]
  generalize s.main.endSwaps = ended at herrs ⊢
  exact ⟨_, rfl, rfl, rfl, rfl, Main.keepOnly_nil_recs _, Main.keepOnly_nil_cells _, rfl, rfl, herrs⟩

theorem exec_modResetRelease_of_held (hphase : s.main.rcv.phase = .held) (htrip : s.main.rcv.tripHold = false) :
    exec .modResetRelease s = .next s.beginCold := by
  change execModResetRelease s = _
  unfold execModResetRelease
  rw [if_pos ⟨hphase, htrip⟩]

theorem exec_thermtripHoldEnd_of_held (h : s.main.rcv.tripHold = true) : exec .thermtripHoldEnd s =
    .next (({ s with power := { s.power with hottest := min s.power.hottest 950 } } : State).restart true) := by
  change execThermtripHoldEnd s = _
  unfold execThermtripHoldEnd
  rw [if_pos h]

theorem State.beginCold_of_cool (h : s.power.hottest ≤ 950) : s.beginCold = s.restart true := by
  unfold State.beginCold
  rw [if_neg (by omega)]

/-- A start that waits for a hot sensor is held, with THERMTRIP# low. -/
theorem State.beginCold_of_hot (h : 950 < s.power.hottest) : s.beginCold.main.rcv.phase = .held ∧
    s.beginCold.main.rcv.tripHold = true ∧ s.beginCold.main.rcv.thermtrip = true ∧ s.beginCold.main.rcv.stbyOk = true := by
  unfold State.beginCold
  rw [if_pos h]
  exact ⟨rfl, rfl, rfl, rfl⟩

/-- A device reset whose fences are complete leads to its start. -/
theorem State.deviceStart_of_fenced {d : DevReset} {cold : Bool} (hdev : s.main.rcv.dev = some d) (hcold : d.cold = cold)
    (hbanking : s.main.rcv.banking = none) (hfenced : s.main.allFenced = true) :
    State.deviceStart cold s = .next (s.restart cold) := by
  unfold State.deviceStart
  rw [hdev]
  simp only [hcold, hbanking, hfenced, ne_eq, not_true_eq_false, if_false, Option.isSome_none, Bool.not_true, Bool.or_self,
    Bool.false_eq_true]

/-! ### The steps of a start (R462-R466) -/

variable {n : Nat} {rep : StepReport} (hstep : stepOf s.main.rcv.phase = some n) (hbanking : s.main.rcv.banking = none)

/-- A step that needs 44 V at the input does not wait where they are there. -/
theorem lowInput_of_input (h : s.main.rcv.phase = .cold 3 ∨ s.main.rcv.phase = .warm 1 → 44000 ≤ s.power.inputMv) :
    ((s.main.rcv.phase == .cold 3 || s.main.rcv.phase == .warm 1) && decide (s.power.inputMv < 44000)) = false := by
  rw [Bool.and_eq_false_iff, decide_eq_false_iff_not, Nat.not_lt]
  by_cases hneed : s.main.rcv.phase = .cold 3 ∨ s.main.rcv.phase = .warm 1
  · exact .inr (h hneed)
  · exact .inl (by simpa using hneed)

section
variable (hinput : s.main.rcv.phase = .cold 3 ∨ s.main.rcv.phase = .warm 1 → 44000 ≤ s.power.inputMv)
include hstep hbanking hinput

theorem exec_startStepDone_of_ends {m : Main} (hend : s.main.endStep rep = some m) : exec (.startStepDone rep) s =
    if s.main.rcv.phase = .warm 6 ∧ s.tap.needCold = true then .next (({ s with main := m } : State).restart true)
    else toMain s m.nextStep := by
  change execStartStepDone rep s = _
  unfold execStartStepDone
  rw [hstep]
  dsimp only
  rw [if_neg (by simp [hbanking]), if_neg (ne_true_of_eq_false (lowInput_of_input hinput)), hend]

theorem exec_startStepDone_of_fails (hend : s.main.endStep rep = none) : exec (.startStepDone rep) s = .next (s.failStart n) := by
  change execStartStepDone rep s = _
  unfold execStartStepDone
  rw [hstep]
  dsimp only
  rw [if_neg (by simp [hbanking]), if_neg (ne_true_of_eq_false (lowInput_of_input hinput)), hend]

end

include hstep hbanking in
theorem exec_startStepTimeout_of_limit {lim : Nat} (hlim : stepLimit s.main.rcv.phase s.main.rcv.savedValid = some lim) :
    exec .startStepTimeout s = .next (({ s with main := s.main.until (s.main.rcv.stepAt + lim) } : State).failStart n) := by
  change execStartStepTimeout s = _
  unfold execStartStepTimeout
  rw [hstep, hlim]
  dsimp only
  rw [if_neg (by simp [hbanking])]

end

/-- Settles O45: each row once its conditions hold, and the last step from what completes a start. -/
theorem startProgress : Obligations.StartProgress := by
  unfold Obligations.StartProgress
  refine ⟨fun s => ⟨fun hoff => ⟨exec_standbyPowerApplied_of_off hoff, exec_standbyPowerApplied_of_failed hoff⟩,
      exec_modReset_of_standby, exec_modResetRelease_of_held, exec_thermtripHoldEnd_of_held, State.beginCold_of_cool,
      State.beginCold_of_hot, fun d hdev hbanking hfenced => ⟨fun hcold => State.deviceStart_of_fenced hdev hcold hbanking hfenced,
        fun hwarm => State.deviceStart_of_fenced hdev hwarm hbanking hfenced⟩⟩,
    fun s n hstep hbanking => ⟨fun rep hinput => ⟨fun m hend => ⟨fun hserve => ?_, fun hlast hcold => ?_⟩,
      exec_startStepDone_of_fails hstep hbanking hinput⟩, fun lim => exec_startStepTimeout_of_limit hstep hbanking, fun m hlast => ?_⟩⟩
  · rw [exec_startStepDone_of_ends hstep hbanking hinput hend, if_neg]
    rintro ⟨hlast, hcold⟩
    exact hserve.elim (fun h => h hlast) (fun h => by simp [h] at hcold)
  · rw [exec_startStepDone_of_ends hstep hbanking hinput hend, if_pos ⟨hlast, hcold⟩]
  · obtain ⟨cold, hcomplete⟩ := m.nextStep_of_last hlast
    rw [hcomplete, Main.complete_rcv]
    exact ⟨rfl, rfl, rfl⟩

end Sys2Proof.Machine
end

section
/-! Stalled cones, engine resets and the handling of saggers (R468-R470, R474, R475, R480, R481, R505). -/

namespace Sys2Proof.Machine

section
variable {s : State} {e : EngineId}

/-! ### Stalled cones (R276, R475) -/

/-- A cone with work behind it that does not move is told of; an engine but a lane is reset. -/
theorem Main.coneStall_of_works {m : Main} (hvalid : engValid e = true) (hworks : m.engWorks e = true) :
    m.coneStall e = .next (if e.kind = 2 then m.post 0x31 6 ((if e.kind = 4 then 3 else e.kind) * 4096 + e.num) .ok (coneCause e).2
      else (m.post 0x31 6 ((if e.kind = 4 then 3 else e.kind) * 4096 + e.num) .ok (coneCause e).2).beginReset e (coneCause e).1 0) := by
  simp only [Main.coneStall, hvalid, hworks, Bool.not_true, Bool.false_eq_true, if_false]

/-- A lane's cone that stalls fails the lane, once its window has passed. -/
theorem Main.stall_of_lane {m : Main} {l : Lane} (hvalid : engValid e = true) (hworks : m.engWorks e = true) (hkind : e.kind = 2)
    (hl : m.fab.lanes[e.num]? = some l) : m.stall e =
      .next ((((m.until (l.coneAt + (coneCause e).2 * 1000)).post 0x31 6 (8192 + e.num) .ok (coneCause e).2).failLane e.num).flush) := by
  have hactive : m.laneActive e.num = true := by simpa [Main.engWorks, hkind] using hworks
  have hlate : (m.until (l.coneAt + (coneCause e).2 * 1000)).engWorks e = true := by
    simp only [Main.engWorks, hkind]
    exact hactive
  have hcone := Main.coneStall_of_works hvalid hlate
  rw [if_pos hkind, if_neg (by omega), hkind] at hcone
  simp only [Main.stall, hl, hkind, hactive, and_self, if_true, hcone]

theorem Main.stall_of_engine {m : Main} (hvalid : engValid e = true) (hworks : m.engWorks e = true) (hkind : e.kind ≠ 2) :
    m.stall e = .next ((m.post 0x31 6 ((if e.kind = 4 then 3 else e.kind) * 4096 + e.num) .ok (coneCause e).2).beginReset e
      (coneCause e).1 0) := by
  have hcone := Main.coneStall_of_works hvalid hworks
  rw [if_neg hkind] at hcone
  simp only [Main.stall, hkind, false_and, if_false, hcone]

theorem exec_coneStall_of_stall {m : Main} (he : e ≠ ⟨4, 4⟩) (h : s.main.stall e = .next m) : exec (.coneStall e) s = toMain s m := by
  change execConeStall e s = _
  unfold execConeStall
  rw [onMain_of_next h]
  dsimp only [toMain]
  rw [if_neg he]

/-- The Kiln's own cone that stalls also brings L down to 56. -/
theorem exec_coneStall_of_kiln (hworks : s.main.engWorks ⟨4, 4⟩ = true) :
    ∃ t, exec (.coneStall ⟨4, 4⟩) s = .next t ∧ t.power.loc = min s.power.loc 56 := by
  have hstall := Main.stall_of_engine (m := s.main) rfl hworks (by decide)
  change ∃ t, execConeStall ⟨4, 4⟩ s = .next t ∧ _
  unfold execConeStall
  rw [onMain_of_next hstall]
  exact ⟨_, rfl, rfl⟩

/-! ### Engine resets (R480, R481) -/

theorem exec_engineResetDone_of_reset {r : EngReset} (hr : s.main.rcv.resets.find? (fun r => r.eng == e) = some r)
    (hmark : e = ⟨4, 3⟩ → s.main.rcv.stallMark = none) (flushed ok : Bool) :
    exec (.engineResetDone e flushed ok) s = toMain s
      (((((({ s.main with rcv := { s.main.rcv with resets := s.main.rcv.resets.erase r } } : Main).resetEffect e flushed ok).closeErr
        r.recId .done .ok).dmaPump).after).egSettle) := by
  have hnot : ¬(e = ⟨4, 3⟩ ∧ s.main.rcv.stallMark.isSome = true) := by
    rintro ⟨he, hsome⟩
    simp [hmark he] at hsome
  refine exec_eq_toMain (f := Main.resetDone e flushed ok) rfl ?_
  unfold Main.resetDone
  rw [if_neg hnot, hr]

/-- Elbor core 3 runs again. -/
theorem exec_engineResetDone_of_stalled (h : s.main.rcv.stallMark.isSome = true) (flushed ok : Bool) :
    exec (.engineResetDone ⟨4, 3⟩ flushed ok) s = toMain s s.main.core3Back := by
  refine exec_eq_toMain (f := Main.resetDone ⟨4, 3⟩ flushed ok) rfl ?_
  unfold Main.resetDone
  rw [if_pos ⟨rfl, h⟩]

theorem exec_engineResetEscalation_of_reset {r : EngReset} (hr : s.main.rcv.resets.find? (fun r => r.eng == e) = some r) :
    exec (.engineResetEscalation e) s = toMain s
      ((({ (s.main.until (r.since + 1000000)) with
        rcv := { s.main.rcv with resets := s.main.rcv.resets.erase r } } : Main).closeErr r.recId .escalated .ok).saggerError
        (s.main.engSagger e) 0x40 e (some r.recId) 0 false none) := by
  refine exec_eq_toMain (f := Main.resetLate e) rfl ?_
  unfold Main.resetLate
  rw [hr]
  rfl

/-! ### The steps of a sagger's handling (R468-R470, R474, R481) -/

variable {span : Nat} {h : Handling} (hh : s.main.rcv.handlings.find? (fun h => h.sagger == span) = some h)
include hh

theorem exec_saggerFenceComplete_of_fence (hspan : span ≠ 0) (hstep : h.step = .fence)
    (hfenced : s.main.fenceComplete span = true) (dead : List Nat) : exec (.saggerFenceComplete span dead) s =
      toMain s ((((s.main.spanClusters span).foldl Main.resetCluster (s.main.killAgents span dead)).modHandling span
        (fun h => { h with step := .reset })).payReceipts span) := by
  refine exec_eq_toMain (f := Main.fenceDone span dead) rfl ?_
  unfold Main.fenceDone
  rw [hh]
  dsimp only
  rw [if_neg (by simp [hspan, hstep]), if_neg (by simp [hfenced])]

theorem exec_saggerReopen_of_reset (hspan : span ≠ 0) (hstep : h.step = .reset) (bad : List Nat) :
    exec (.saggerReopen span bad) s = toMain s
      ((if h.scrub then (s.main.retireCores span bad).scrubSpan span else s.main.retireCores span bad).reopen h .spanAborted) := by
  refine exec_eq_toMain (f := Main.saggerReopen span bad) rfl ?_
  unfold Main.saggerReopen
  rw [hh]
  dsimp only
  rw [if_neg (by simp [hspan, hstep])]

theorem exec_saggerEscalation_of_begun (hstep : h.step ≠ .waiting) : exec (.saggerEscalation span) s =
    toMain s (((s.main.until (h.since + 50000000)).closeErr h.recId .escalated .ok).deviceError 0x41 ⟨4, 3⟩ (some h.recId) span
      false) := by
  refine exec_eq_toMain (f := Main.saggerLate span) rfl ?_
  unfold Main.saggerLate
  rw [hh]
  dsimp only
  rw [if_neg hstep]

end

section
variable {s : State} {h : Handling} (hh : s.main.rcv.handlings.find? (fun h => h.sagger == 0) = some h)
include hh

theorem exec_moduleQuiesce_of_waiting (hstep : h.step = .waiting) (hmay : s.main.mayHandle 0 = true) :
    exec .moduleQuiesce s = toMain s (s.main.startHandling h none) := by
  refine exec_eq_toMain (f := Main.moduleQuiesce) rfl ?_
  unfold Main.moduleQuiesce
  rw [hh]
  dsimp only
  rw [if_pos hstep, if_pos hmay]

/-- The module's sagger reopens once the module has come to rest. -/
theorem exec_moduleQuiesce_of_rest (hstep : h.step ≠ .waiting) (hrest : s.main.atRest = true) :
    let m1 := s.main.recallAll
    let m2 : Main := { m1 with
      fab := { m1.fab with banks := replaceBanks m1.fab.banks }
      rcv := m1.rcv.remap }
    exec .moduleQuiesce s = toMain s
      (((([6, 7, 8, 9, 10, 11].foldl Main.egResetProc m2).reopen h .ok).dmaPump.fabricBack).egSettle) := by
  refine exec_eq_toMain (f := Main.moduleQuiesce) rfl ?_
  unfold Main.moduleQuiesce
  rw [hh]
  dsimp only
  rw [if_neg hstep, if_neg (by simp [hrest])]

end

/-- Settles O47: each row once its engine or its sagger is where the row finds it. -/
theorem resetsAndSaggers : Obligations.ResetsAndSaggers := by
  unfold Obligations.ResetsAndSaggers
  refine ⟨fun s e => ⟨fun hvalid hworks he => ?stall, exec_coneStall_of_kiln, fun r hr => ⟨fun flushed ok hmark =>
      exec_engineResetDone_of_reset hr hmark flushed ok, exec_engineResetEscalation_of_reset hr⟩,
      fun flushed ok h => exec_engineResetDone_of_stalled h flushed ok⟩,
    fun s span h hh => ⟨fun dead hspan hstep hfenced => exec_saggerFenceComplete_of_fence hh hspan hstep hfenced dead,
      fun bad hspan hstep => exec_saggerReopen_of_reset hh hspan hstep bad, exec_saggerEscalation_of_begun hh, ?module⟩⟩
  case stall =>
    exact ⟨fun l hkind hl hactive => exec_coneStall_of_stall he (Main.stall_of_lane hvalid hworks hkind hl),
      fun hkind => exec_coneStall_of_stall he (Main.stall_of_engine hvalid hworks hkind)⟩
  case module =>
    rintro rfl
    exact ⟨exec_moduleQuiesce_of_waiting hh, exec_moduleQuiesce_of_rest hh⟩

end Sys2Proof.Machine
end

section
/-! Receipts, firmware switches and the test port (R461, R487, R505, R512, R526, R527). -/

namespace Sys2Proof.Machine

section
variable {s : State}

/-! ### Receipts (R505, R512) -/

/-- A row of the Seal processor that changes the block goes on with what waits for receipts. -/
theorem onSeal_of_next {f : Main → Out} {m : Main} (h : f s.main = .next m) :
    onSeal f s = .next ({ s with main := m } : State).settleSeal := by
  unfold onSeal
  rw [onMain_of_next h]

theorem exec_pierReceipt_eq (module slot : Nat) :
    exec (.pierReceipt module slot) s = .next (({ s with main := { s.main with sec := { s.main.sec with
      revokes := s.main.sec.revokes.map (fun r =>
        if r.slot = slot then { r with piers := r.piers.filter (· != module) } else r) } } } : State).settleSeal) :=
  onSeal_of_next (f := Main.pierReceipt module slot) rfl

theorem exec_pierReceiptTimeout_of_waiting {slot : Nat} {r : Revoke}
    (hr : s.main.sec.revokes.find? (fun r => r.slot == slot && !r.piers.isEmpty) = some r) :
    exec (.pierReceiptTimeout slot) s = .next (({ s with
      main := { (s.main.until (r.since + 50000000)) with sec := { (s.main.until (r.since + 50000000)).sec with
        revokes := (s.main.until (r.since + 50000000)).sec.revokes.map (fun x =>
          if x = r then { x with silent := x.piers, piers := [] } else x) } } } : State).settleSeal) :=
  onSeal_of_next (f := Main.piersLate slot) (by rw [Main.piersLate, hr])

/-- A mover whose receipt is missing 10 ms after it was asked for is reset. -/
theorem exec_engineReceiptTimeout_of_missing {e t0 : Nat}
    (h : (s.main.takeReceipts.sec.revokes.find? (fun r => r.engines.contains e)).map (·.since) = some t0 ∨
      ((s.main.takeReceipts.sec.revokes.find? (fun r => r.engines.contains e)) = none ∧
        ∃ l, s.main.takeReceipts.sec.unlocking = some (t0, l) ∧ l.contains e = true)) :
    exec (.engineReceiptTimeout e) s = .next (({ s with
      main := (s.main.takeReceipts.until (t0 + 10000000)).beginReset ⟨1, e⟩ 0x11 0 } : State).settleSeal) := by
  refine onSeal_of_next (f := Main.moverLate e) ?_
  unfold Main.moverLate
  rcases h with hrevoke | ⟨hnone, l, hunlock, hasked⟩
  · simp only [hrevoke]
  · simp only [hnone, Option.map_none, hunlock, hasked, if_true]

/-! ### Firmware switches (R461, R487) -/

section
variable {comp k : Nat} (hswitch : s.main.sec.switching = some (comp, k))
include hswitch

/-- One processor of a component has been switched: the next one's turn comes, or the activation ends. -/
theorem State.switched_of_switching : State.switched s comp =
    if k + 1 < switchSteps comp then .next (s.switchOne comp (k + 1)).settleFabric else .next (s.endSwitch comp true) := by
  unfold State.switched
  rw [hswitch]
  dsimp only
  rw [if_neg (by simp)]

theorem exec_firmwareActivationDone_of_more (hmore : k + 1 < switchSteps comp) (hcomp : comp ≠ 0) :
    exec (.firmwareActivationDone comp) s = .next (s.switchOne comp (k + 1)).settleFabric := by
  change execFirmwareActivationDone comp s = _
  unfold execFirmwareActivationDone
  rw [if_neg hcomp, State.switched_of_switching hswitch, if_pos hmore]

theorem exec_firmwareActivationDone_of_last (hlast : switchSteps comp ≤ k + 1) (hcomp : comp ≠ 0) :
    exec (.firmwareActivationDone comp) s = .next (s.endSwitch comp true) := by
  change execFirmwareActivationDone comp s = _
  unfold execFirmwareActivationDone
  rw [if_neg hcomp, State.switched_of_switching hswitch, if_neg (by omega)]

theorem exec_elborServicePauseEnd_of_last (hlast : switchSteps comp ≤ k + 1) (hcomp : comp = 0) :
    exec .elborServicePauseEnd s = .next (s.endSwitch 0 true) := by
  subst hcomp
  change State.switched s 0 = _
  rw [State.switched_of_switching hswitch, if_neg (by omega)]

theorem exec_firmwareHeartbeatFail_of_switching : exec (.firmwareHeartbeatFail comp) s = .next (s.endSwitch comp false) := by
  change execFirmwareHeartbeatFail comp s = _
  unfold execFirmwareHeartbeatFail
  rw [if_pos (by simp [Main.switches, hswitch])]

end

/-! ### The test port (R526, R527) -/

/-- A row of the test port acts on it alone. -/
theorem State.onTap_of_standby (hs : s.main.standby = true) (f : Tap → Tap) : s.onTap f = .next { s with tap := f s.tap } := if_pos hs

/-- An instruction that takes the pins does so once the port has been opened. -/
theorem Tap.takePins_of_opened {t : Tap} (h : t.opened = true) (code : Nat) :
    t.takePins code = { t with ir := code, pins := true, needCold := true } := if_pos h

theorem Tap.takePins_of_locked {t : Tap} (h : t.opened = false) (code : Nat) : t.takePins code = t.bypass := if_neg (by simp [h])

end

/-- Settles O48: receipts and switches from what they find, and the port from whether it is open. -/
theorem sealAndTestPortEvents : Obligations.SealAndTestPortEvents := by
  unfold Obligations.SealAndTestPortEvents
  refine ⟨fun s => ⟨exec_pierReceipt_eq, fun slot r => exec_pierReceiptTimeout_of_waiting,
      fun e t0 => exec_engineReceiptTimeout_of_missing, fun comp k hswitch => ⟨exec_firmwareActivationDone_of_more hswitch,
        fun hlast => ⟨exec_firmwareActivationDone_of_last hswitch hlast, exec_elborServicePauseEnd_of_last hswitch hlast⟩,
        exec_firmwareHeartbeatFail_of_switching hswitch⟩⟩, fun s hs => ?port⟩
  case port =>
    have hport (f : Tap → Tap) : s.onTap f = .next { s with tap := f s.tap } := State.onTap_of_standby hs f
    have hpins {x : Instr × Nat} (hrow : exec x.1 s = s.onTap (fun t => t.takePins x.2)) :
        (s.tap.opened = false → exec x.1 s = exec .tapBypass s) ∧
          (s.tap.opened = true → exec x.1 s = .next { s with tap := { s.tap with ir := x.2, pins := true, needCold := true } }) := by
      rw [hrow, hport]
      refine ⟨fun hlocked => ?_, fun hopen => ?_⟩
      · rw [Tap.takePins_of_locked hlocked]
        exact (hport Tap.bypass).symm
      · rw [Tap.takePins_of_opened hopen]
    have hsample := State.onTap_of_standby (s := { s with main := s.main.draw.2 }) hs
      (fun t => { t with ir := 0x02, dr := BitVec.ofNat 32 s.main.draw.1, pins := false })
    refine ⟨hport Tap.bypass, hport (fun t => { t with ir := 0x01, dr := 0x10C90A9D, pins := false }),
      ⟨_, hsample, rfl, rfl, rfl⟩, hport (fun t => { t with ir := 0x01, dr := 0x10C90A9D, opened := false, pins := false }),
      fun x hx => ?_⟩
    simp only [List.mem_cons, List.not_mem_nil, or_false] at hx
    obtain rfl | rfl | rfl := hx <;> exact hpins rfl

end Sys2Proof.Machine
end

section
/-! ECS commands of composition (R306-R318). -/

namespace Sys2Proof.Machine

section
variable {s : State} {i : EcsIn}

/-! ### SPAN_CREATE (R314) -/

/-- The record of a span that SPAN_CREATE makes. -/
def EcsIn.newSpan (i : EcsIn) : SpanRec :=
  { id := i.arg 0x20 4, tenant := BitVec.ofNat 32 (i.arg 0x24 4), phase := .stable, switchT := 0, closeT := 0, drainUs := i.arg 0x30 4
    late := false, drill := bit (i.arg 0x2E 1) 0, committed := false, current := i.grains true, shadow := GrainSet.none
    piers := i.words (i.arg 0x2C 2 + 1), nextPiers := [], reloc := [], handovers := [], gone := [], waiting := [] }

/-- A span is created on grains that are idle and that no other has reserved. -/
theorem spanCreate_of_free (hnew : s.main.recOf (i.arg 0x20 4) = none) (hreserved : i.reserved spanFields = none)
    (hflags : i.high 0x2E 1 1 = none) (hchecks : ∀ o ∈ s.main.spanChecks i 0 false, o = none)
    (hfree : ∀ g ∈ (i.grains true).only GrainSet.none, s.main.grainFree (i.arg 0x20 4) g = true)
    (htable : s.main.badTable false (i.words (i.arg 0x2C 2 + 1)) = none) (hroom : s.main.comp.recs.length < 40) :
    spanCreate i s = .main s (.good []) (((i.grains true).only GrainSet.none).foldl (fun m g => m.bindGrain (i.arg 0x20 4) g)
      (s.main.addRec i.newSpan)) := by
  have hlow : EcsIn.lowest ([i.reserved spanFields, i.high 0x2E 1 1] ++ s.main.spanChecks i 0 false ++
      ((i.grains true).only GrainSet.none).map (fun g => EcsIn.fails (!s.main.grainFree (i.arg 0x20 4) g) (grainOff g))) = none := by
    refine EcsIn.lowest_none fun o ho => ?_
    simp only [List.mem_append, List.mem_cons, List.not_mem_nil, or_false, List.mem_map] at ho
    rcases ho with ((rfl | rfl) | ho) | ⟨g, hg, rfl⟩
    · exact hreserved
    · exact hflags
    · exact hchecks o ho
    · simp [hfree g hg]
  simp only [spanCreate, hnew, hlow, htable]
  exact if_neg (Nat.not_le.2 hroom)

/-! ### SPAN_DESTROY (R314) -/

/-- What SPAN_DESTROY leaves of the block: other modules' work goes back, the extents and grains go to no span, the record is freed. -/
def Main.spanGone (m : Main) (span : Nat) : Main :=
  let m1 := ((m.handBackAll span).endWork span).dropExtents span
  ((m1.grainsOf span).foldl Main.releaseGrain m1).freeRec span

theorem spanDestroy_of_unused {r : SpanRec} (hreserved : i.reserved [(0x20, 4)] = none) (hhigh : i.high 0x20 4 20 = none)
    (hr : s.main.recOf (i.arg 0x20 4) = some r) (hstable : r.phase = .stable) (hctxs : ∀ x ∈ s.main.objs.ctxs, x.span ≠ r.id)
    (hreclaim : s.main.coh.reclaim = [])
    (hstays : ∀ k, k < 192 → s.main.ownerOf (.memory, k) = .span r.id → (s.main.chan k).state ≠ .evacuating) :
    spanDestroy i s = .main s (.good []) (s.main.spanGone r.id) := by
  have hany : s.main.objs.ctxs.any (fun c => c.span == r.id) = false := by simpa using hctxs
  have hevac : (List.range 192).any (fun c => s.main.ownerOf (.memory, c) == .span r.id && (s.main.chan c).state == .evacuating) =
      false := by
    simp only [List.any_eq_false, List.mem_range, Bool.and_eq_true, beq_iff_eq, not_and]
    exact hstays
  simp only [spanDestroy, hreserved, hhigh, hr, Option.isNone_some, EcsIn.fails_false, EcsIn.lowest_none_cons, EcsIn.lowest_nil,
    hstable, ne_eq, not_true_eq_false, if_false, hany, Bool.false_eq_true, hreclaim, hevac]
  rfl

/-! ### COMPOSE_PREPARE (R315, R318) -/

/-- Whether a transition's record passes at this pier: its SHADOW, its tables and its grains are good (R315). -/
structure Prepares (m : Main) (i : EcsIn) (r : SpanRec) (leave : Bool) (nreloc : Nat) (shadow : GrainSet) : Prop where
  reserved : i.reserved ((0x34, 1) :: (0x35, 1) :: spanFields) = none
  flags : i.high 0x2E 1 2 = none
  tenant : i.arg 0x24 4 = r.tenant.toNat
  epoch : i.arg 0x28 2 = (r.current.epoch + 1) % 65536
  fewRelocs : nreloc ≤ 64
  leastMin : 1 ≤ i.arg 0x35 1
  leastMax : i.arg 0x35 1 ≤ 8
  cores : ∀ g ∈ shadow.only r.current, g.1 = .core → i.arg 0x35 1 ≤ m.activeCores g.2
  checks : ∀ o ∈ m.spanChecks i nreloc leave, o = none
  leaves : leave = true → i.high 0x2A 2 0 = none ∧ i.high 0x40 4 0 = none ∧ i.high 0x48 24 0 = none ∧ i.high 0x60 16 0 = none
  takes : ∀ g ∈ shadow.only r.current, m.mayTake r.id r.tenant g = true
  lanes : ∀ g ∈ allGrains, shadow.has g = true → m.laneLooped g = false
  extents : m.extentsFit r.id r.current shadow = true
  takers : m.takersFit r.id (r.current.mem &&& ~~~shadow.mem) = true

/-- The checks of COMPOSE_PREPARE's arguments name no offset. -/
theorem Prepares.lowest_none {m : Main} {r : SpanRec} {leave : Bool} {nreloc : Nat} {shadow : GrainSet}
    (h : Prepares m i r leave nreloc shadow) :
    EcsIn.lowest ([i.reserved ((0x34, 1) :: (0x35, 1) :: spanFields), i.high 0x2E 1 2,
      EcsIn.fails (i.arg 0x24 4 != r.tenant.toNat) 0x24, EcsIn.fails (i.arg 0x28 2 != (r.current.epoch + 1) % 65536) 0x28,
      EcsIn.fails (decide (64 < nreloc)) 0x34, EcsIn.fails (i.arg 0x35 1 == 0 || decide (8 < i.arg 0x35 1)) 0x35,
      EcsIn.fails ((shadow.only r.current).any (fun g => g.1 == .core && decide (m.activeCores g.2 < i.arg 0x35 1))) 0x35] ++
      m.spanChecks i nreloc leave ++
      (if leave then [i.high 0x2A 2 0, i.high 0x40 4 0, i.high 0x48 24 0, i.high 0x60 16 0] else []) ++
      (shadow.only r.current).map (fun g => EcsIn.fails (!m.mayTake r.id r.tenant g) (grainOff g)) ++
      (allGrains.filter shadow.has).map (fun g => EcsIn.fails (m.laneLooped g) (grainOff g)) ++
      [EcsIn.fails (!m.extentsFit r.id r.current shadow || !m.takersFit r.id (r.current.mem &&& ~~~shadow.mem)) 0x48]) = none := by
  have hcores : (shadow.only r.current).any (fun g => g.1 == .core && decide (m.activeCores g.2 < i.arg 0x35 1)) = false := by
    simpa using h.cores
  have hmin := h.leastMin
  have hleast : (i.arg 0x35 1 == 0 || decide (8 < i.arg 0x35 1)) = false := by
    simp only [Bool.or_eq_false_iff, beq_eq_false_iff_ne, decide_eq_false_iff_not]
    exact ⟨by omega, Nat.not_lt.2 h.leastMax⟩
  refine EcsIn.lowest_none fun o ho => ?_
  simp only [List.mem_append, List.mem_cons, List.not_mem_nil, or_false, List.mem_map, List.mem_filter] at ho
  rcases ho with ((((ho | ho) | ho) | ⟨g, hg, rfl⟩) | ⟨g, ⟨hg, hhas⟩, rfl⟩) | rfl
  · rcases ho with rfl | rfl | rfl | rfl | rfl | rfl | rfl
    · exact h.reserved
    · exact h.flags
    · simp [h.tenant]
    · simp [h.epoch]
    · simpa using h.fewRelocs
    · simp only [hleast, EcsIn.fails_false]
    · simp only [hcores, EcsIn.fails_false]
  · exact h.checks o ho
  · cases hleave : leave with
    | false => simp [hleave] at ho
    | true =>
      obtain ⟨hrank, hcore, hmem, hlink⟩ := h.leaves hleave
      simp only [hleave, if_true, List.mem_cons, List.not_mem_nil, or_false] at ho
      rcases ho with rfl | rfl | rfl | rfl
      · exact hrank
      · exact hcore
      · exact hmem
      · exact hlink
  · simp [h.takes g hg]
  · simp [h.lanes g hg hhas]
  · simp [h.extents, h.takers]

/-- The record of a span once its transition has been prepared. -/
def SpanRec.prepared (r : SpanRec) (drainUs : Nat) (table reloc : List Nat) (shadow : GrainSet) : SpanRec :=
  { r with
    phase := .prepare, shadow := shadow, nextPiers := table, reloc := reloc, drainUs := drainUs, switchT := 0, closeT := 0
    late := false, committed := false, handovers := [], gone := [] }

/-- Whether COMPOSE_PREPARE asks the pier to leave the span. -/
def EcsIn.leaves (i : EcsIn) : Bool := bit (i.arg 0x2E 1) 1
/-- The pier table of the next epoch. -/
def EcsIn.nextTable (i : EcsIn) : List Nat := i.words (i.arg 0x2C 2 + 1)
/-- The ranks that move. -/
def EcsIn.relocs (i : EcsIn) : List Nat := (i.words (i.arg 0x2C 2 + 1 + i.arg 0x34 1)).drop (i.arg 0x2C 2 + 1)

/-- The block with a span's record prepared; a joining pier's is added. -/
def Main.preparedWith (m : Main) (r r1 : SpanRec) : Main :=
  (if (m.recOf r.id).isNone then m.addRec r1 else m.modRec r.id (fun _ => r1)).markMoving

/-- A transition whose arguments pass, whose memory grains are at rest and whose extents are, is prepared. -/
theorem composePrepare_of_prepares (hstable : (s.main.joinRec i).phase = .stable)
    (hargs : Prepares s.main i (s.main.joinRec i) i.leaves (i.arg 0x34 1) (i.grains (!i.leaves)))
    (htable : s.main.badTable i.leaves i.nextTable = none) (hreloc : badReloc (s.main.joinRec i) i.nextTable i.relocs = none)
    (hchans : ∀ g ∈ (i.grains (!i.leaves)).only (s.main.joinRec i).current ++ (s.main.joinRec i).current.only (i.grains (!i.leaves)),
      g.1 = .memory → (s.main.chan g.2).state ≠ .evacuating)
    (hextents : ∀ e ∈ s.main.mem.extents, e.span = (s.main.joinRec i).id →
      (∃ g ∈ (s.main.joinRec i).current.only (i.grains (!i.leaves)), g.1 = .memory ∧ e.mask.getLsbD g.2 = true) →
      e.state ≠ .zeroing ∧ s.main.inPools e = false)
    (hjoins : s.main.recOf (s.main.joinRec i).id = none → i.leaves = false ∧ s.main.comp.recs.length < 40) :
    composePrepare i s = .main s (.good []) (s.main.preparedWith (s.main.joinRec i)
      ((s.main.joinRec i).prepared (i.arg 0x30 4) i.nextTable i.relocs (i.grains (!i.leaves)))) := by
  have hlow := hargs.lowest_none
  unfold EcsIn.leaves EcsIn.nextTable EcsIn.relocs at *
  unfold composePrepare
  dsimp only
  generalize s.main.joinRec i = r at *
  generalize i.grains (!bit (i.arg 0x2E 1) 1) = shadow at *
  have hevac : (shadow.only r.current ++ r.current.only shadow).any
      (fun g => g.1 == .memory && (s.main.chan g.2).state == .evacuating) = false :=
    List.any_eq_false.2 fun g hg => by simpa using hchans g hg
  have hleaving : ∀ e ∈ s.main.mem.extents.filter (fun e => e.span == r.id &&
      (r.current.only shadow).any (fun g => g.1 == .memory && e.mask.getLsbD g.2)), e.state ≠ .zeroing ∧ s.main.inPools e = false := by
    intro e he
    simp only [List.mem_filter, Bool.and_eq_true, beq_iff_eq, List.any_eq_true] at he
    exact hextents e he.1 he.2.1 he.2.2
  have hzero : (s.main.mem.extents.filter (fun e => e.span == r.id &&
      (r.current.only shadow).any (fun g => g.1 == .memory && e.mask.getLsbD g.2))).any (fun e => e.state == .zeroing) = false :=
    List.any_eq_false.2 fun e he => by simpa using (hleaving e he).1
  have hpools : (s.main.mem.extents.filter (fun e => e.span == r.id &&
      (r.current.only shadow).any (fun g => g.1 == .memory && e.mask.getLsbD g.2))).any s.main.inPools = false :=
    List.any_eq_false.2 fun e he => by simp [(hleaving e he).2]
  have hmayJoin : ((s.main.recOf r.id).isNone && (bit (i.arg 0x2E 1) 1 || decide (40 ≤ s.main.comp.recs.length))) = false := by
    cases hrec : s.main.recOf r.id with
    | some x => rfl
    | none =>
      obtain ⟨hstays, hroom⟩ := hjoins hrec
      simp [hstays, hroom]
  rw [if_neg (by simp [hstable]), hlow, htable, hreloc]
  dsimp only
  rw [hevac, hzero, hpools, hmayJoin]
  rfl

/-! ### COMPOSE_COMMIT and COMPOSE_ABORT (R316, R317) -/

/-- A COMMIT or an ABORT that names the open transition comes to its own meaning (R313). -/
theorem openCommand_of_open {r : SpanRec} {named : List (Nat × Nat)} (go : SpanRec → Ans) (hr : s.main.recOf (i.arg 0x20 4) = some r)
    (hphase : r.phase = .prepare) (hcommit : r.committed = false) (hepoch : i.arg 0x28 2 = r.shadow.epoch)
    (hreserved : i.reserved ((0x20, 4) :: (0x28, 2) :: named) = none) (hhigh : i.high 0x20 4 20 = none) :
    openCommand i s named go = go r := by
  simp only [openCommand, hr, hreserved, hhigh, EcsIn.lowest_none_cons, EcsIn.lowest_nil]
  rw [if_neg (by simp [hphase]), if_neg (by simp [hepoch]), if_neg (by simp [hphase, hcommit])]

/-- The block with a transition committed; one that is late switches at once. -/
def Main.committed (m : Main) (r : SpanRec) (t : Nat) : Main :=
  let close := t + r.drainUs * 1000
  let late := decide (t ≤ m.time + 10000)
  let m1 := m.modRec r.id (fun r => { r with committed := true, switchT := t, closeT := close, late := late })
  if late then m1.switchSpan r else m1

theorem composeCommit_of_ready {r : SpanRec} (hr : s.main.recOf (i.arg 0x20 4) = some r) (hphase : r.phase = .prepare)
    (hcommit : r.committed = false) (hepoch : i.arg 0x28 2 = r.shadow.epoch)
    (hreserved : i.reserved [(0x20, 4), (0x28, 2), (0x30, 8)] = none) (hhigh : i.high 0x20 4 20 = none)
    (hready : s.main.giversReady r (i.arg 0x30 8 + r.drainUs * 1000) = true) :
    composeCommit i s = .main s (.good (fields [(0x20, toBytes 1 (b2n (decide (i.arg 0x30 8 ≤ s.main.time + 10000)))),
      (0x28, toBytes 8 (i.arg 0x30 8 + r.drainUs * 1000))])) (s.main.committed r (i.arg 0x30 8)) := by
  refine (openCommand_of_open _ hr hphase hcommit hepoch hreserved hhigh).trans ?_
  dsimp only
  rw [if_neg (by simp [hready])]
  unfold Main.committed
  dsimp only

/-- The grains that have come to a span's transition already. -/
def Main.strays (m : Main) (r : SpanRec) : List Grain := (m.grainsOf r.id).filter (fun g => !r.current.has g)

/-- A record whose transition has been given up. -/
def SpanRec.abandoned (r : SpanRec) : SpanRec :=
  { r with phase := .stable, shadow := GrainSet.none, nextPiers := [], reloc := [], handovers := [], waiting := [] }

/-- The block with the extents and grains that have come gone again. -/
def Main.withoutStrays (m : Main) (r : SpanRec) : Main :=
  let lost := m.mem.extents.filter (fun e => e.span == r.id && (e.mask &&& r.current.mem) == 0)
  (m.strays r).foldl Main.releaseGrain (lost.foldl Main.dropExtent (m.refuseExtents (lost.filter (·.state == .zeroing))))

/-- The block with a transition given up: the record stays, or that of a joining pier goes. -/
def Main.abandoned (m : Main) (r : SpanRec) : Main :=
  (if r.current.valid then (m.withoutStrays r).modRec r.id SpanRec.abandoned else (m.withoutStrays r).freeRec r.id).markMoving

/-- Whether the memory grains that have come to a transition may go again: none is being evacuated, and no extent of the span lies both on
one and on the grains that stay (R183, R202, R317). -/
def Main.StraysGo (m : Main) (r : SpanRec) : Prop :=
  ∀ k, k < 192 → m.ownerOf (.memory, k) = .span r.id → r.current.mem.getLsbD k = false → (m.chan k).state ≠ .evacuating ∧
    ∀ e ∈ m.mem.extents, e.span = r.id → (e.mask &&& r.current.mem) ≠ 0 → e.mask.getLsbD k = false

/-- So it is for each that has come. -/
theorem Main.StraysGo.of_stray {m : Main} {r : SpanRec} (h : m.StraysGo r) {g : Grain} (hg : g ∈ m.strays r) (hkind : g.1 = .memory) :
    (m.chan g.2).state ≠ .evacuating ∧
      ∀ e ∈ m.mem.extents, e.span = r.id → (e.mask &&& r.current.mem) ≠ 0 → e.mask.getLsbD g.2 = false := by
  obtain ⟨kind, k⟩ := g
  obtain rfl : kind = .memory := hkind
  simp only [Main.strays, List.mem_filter, Main.grainsOf, beq_iff_eq, Bool.not_eq_true'] at hg
  obtain ⟨⟨hall, howner⟩, hhas⟩ := hg
  have hk : k < 192 := by simpa [allGrains] using hall
  exact h k hk howner hhas

/-- A transition that has not been committed, and whose takers have not, is given up. -/
theorem composeAbort_of_open {r : SpanRec} (hr : s.main.recOf (i.arg 0x20 4) = some r) (hphase : r.phase = .prepare)
    (hcommit : r.committed = false) (hepoch : i.arg 0x28 2 = r.shadow.epoch)
    (hreserved : i.reserved [(0x20, 4), (0x28, 2)] = none) (hhigh : i.high 0x20 4 20 = none)
    (htakers : ∀ g ∈ r.current.only r.shadow, ∀ t, s.main.taker r.id g = some t → t.committed = false)
    (hreclaim : s.main.coh.reclaim = []) (hgo : s.main.StraysGo r) :
    composeAbort i s = .main s (.good []) ((s.main.abandoned r).serveList r.id r.waiting) := by
  refine (openCommand_of_open _ hr hphase hcommit hepoch hreserved hhigh).trans ?_
  dsimp only
  refine (if_neg ?taken).trans ((if_neg (by simp [hreclaim])).trans ((if_neg ?torn).trans ((if_neg ?evacuating).trans rfl)))
  case taken =>
    rw [Bool.not_eq_true, List.any_eq_false]
    intro g hg
    cases ht : s.main.taker r.id g with
    | none => simp
    | some t => simp [htakers g hg t ht]
  case torn =>
    rw [Bool.not_eq_true, List.any_eq_false]
    intro e he hbad
    simp only [Bool.and_eq_true, beq_iff_eq, bne_iff_ne, List.any_eq_true] at hbad
    obtain ⟨⟨hspan, hkept⟩, g, hg, hkind, hbit⟩ := hbad
    simp [(hgo.of_stray hg hkind).2 e he hspan hkept] at hbit
  case evacuating =>
    rw [Bool.not_eq_true, List.any_eq_false]
    intro g hg hbad
    simp only [Bool.and_eq_true, beq_iff_eq] at hbad
    exact (hgo.of_stray hg hbad.1).1 hbad.2

/-- The record that stays has no transition. -/
theorem Main.recOf_abandoned {m : Main} {r y : SpanRec} (hvalid : r.current.valid = true) (hy : (m.abandoned r).recOf r.id = some y) :
    y.phase = .stable ∧ y.shadow = GrainSet.none := by
  unfold Main.abandoned at hy
  rw [if_pos hvalid] at hy
  generalize m.withoutStrays r = left at hy
  change (left.modRec r.id SpanRec.abandoned).recOf r.id = some y at hy
  rw [Main.recOf_modRec (f := SpanRec.abandoned) _ (fun _ => rfl)] at hy
  obtain ⟨x, hx, rfl⟩ := Option.map_eq_some_iff.1 hy
  have hid : x.id = r.id := by simpa using List.find?_some hx
  rw [if_pos hid]
  exact ⟨rfl, rfl⟩

/-- A record that has been freed is not found. -/
theorem Main.recOf_freeRec (m : Main) (span : Nat) : (m.freeRec span).recOf span = none := by
  change (m.comp.recs.filter (fun r => r.id != span)).find? (fun r => r.id == span) = none
  rw [List.find?_eq_none]
  intro x hx
  simpa using (List.mem_filter.1 hx).2

theorem Main.recOf_abandoned_of_joining {m : Main} {r : SpanRec} (hjoins : r.current.valid = false) :
    (m.abandoned r).recOf r.id = none := by
  unfold Main.abandoned
  rw [if_neg (by simp [hjoins])]
  generalize m.withoutStrays r = left
  exact left.recOf_freeRec r.id

end

/-- Settles O53, from what each command comes to when its checks pass. -/
theorem ecsCompositionCommands : Obligations.EcsCompositionCommands := by
  unfold Obligations.EcsCompositionCommands
  intro s mb c cmd i m span table set
  refine ⟨?create, fun r => ?destroy, ?prepare, fun r hr hphase hcommit hepoch hhigh => ⟨?commit, ?abort⟩⟩
  case create =>
    intro hbegin hnew hreserved hflags hchecks hfree htable hroom r
    exact exec_of_main rfl hbegin (spanCreate_of_free hnew hreserved hflags hchecks hfree htable hroom)
  case destroy =>
    intro hbegin hreserved hhigh hr hstable hctxs hreclaim hstays m1 t
    have hexec := exec_of_answer_settling (settle := fun m => m.settleRetire.after) (y := .spanDestroy mb c) rfl hbegin
      (spanDestroy_of_unused hreserved hhigh hr hstable hctxs hreclaim hstays)
    unfold Main.spanGone at hexec
    exact hexec
  case prepare =>
    intro r n leave nreloc reloc shadow takes gives hbegin hstable hreserved hflags htenant hepoch hfew hmin hmax hcores hchecks hleave
      htakes hlanes hextents htakers htable hreloc hchans hzero hjoins r1
    exact exec_of_main rfl hbegin (composePrepare_of_prepares hstable ⟨hreserved, hflags, htenant, hepoch, hfew, hmin, hmax, hcores,
      hchecks, hleave, htakes, hlanes, hextents, htakers⟩ htable hreloc hchans hzero hjoins)
  case commit =>
    intro t close late hbegin hreserved hready m1 u
    exact exec_of_answer_settling rfl hbegin (composeCommit_of_ready hr hphase hcommit hepoch hreserved hhigh hready)
  case abort =>
    intro hbegin hreserved htakers hreclaim hgo
    have hid : r.id = span := by simpa using List.find?_some hr
    refine ⟨m.abandoned r, ?_, fun hvalid y hy => ?_, fun hjoins => ?_⟩
    · exact exec_of_answer_settling (settle := fun m => m.settleRetire.after) rfl hbegin
        (composeAbort_of_open hr hphase hcommit hepoch hreserved hhigh htakers hreclaim hgo)
    · rw [← hid] at hy
      exact Main.recOf_abandoned hvalid hy
    · rw [← hid]
      exact Main.recOf_abandoned_of_joining hjoins

end Sys2Proof.Machine
end

section
/-! ECS commands of the Seal processor, on firmware, drills and loopbacks (R425, R487, R488, R494, R495, R505, R511-R523). -/

namespace Sys2Proof.Machine

/-! ### Commands after which what waits for receipts goes on (R505, R512) -/

section
variable {s t : State} {mb : Mbx} {c : Cmd} {cmd : MbCmd} {op : Nat} {body : EcsIn → State → Ans} {y : Instr}
  (hy : exec y s = sealing (State.ecsOp op body mb c s)) (hbegin : EcsBegins s mb c cmd op)
include hy hbegin

theorem exec_of_hold_sealing {why : HeldFor} (hbody : body (ecsIn mb c cmd) s = .hold why t) :
    exec y s = .next ({ t with main := (t.main.hold mb cmd why).saturate } : State).settleSeal := by
  rw [hy, State.ecsOp_begins hbegin, hbody]
  unfold sealing
  rfl

theorem exec_of_answer_sealing {r : Reply} (hbody : body (ecsIn mb c cmd) s = .done r t) :
    exec y s = .next (s.answer (ecsIn mb c cmd) c.outOk r t).settleSeal := by
  rw [hy, State.ecsOp_begins hbegin, hbody]
  unfold sealing
  rfl

end

/-- A command that begins and waits, whatever of the state it has changed. -/
theorem exec_of_hold_state {s t : State} {mb : Mbx} {c : Cmd} {cmd : MbCmd} {op : Nat} {body : EcsIn → State → Ans} {y : Instr}
    {why : HeldFor} (hy : exec y s = State.ecsOp op body mb c s) (hbegin : EcsBegins s mb c cmd op)
    (hbody : body (ecsIn mb c cmd) s = .hold why t) :
    exec y s = .next { t with main := (t.main.hold mb cmd why).saturate } := by
  rw [hy, State.ecsOp_begins hbegin, hbody]

section
variable {s : State} {i : EcsIn}

/-! ### Slots (R494, R495, R505) -/

/-- A slot that is free, the lowest one where none is named, is assigned. -/
theorem slotAssign_of_free {k : Nat} (hreserved : i.reserved [(0x20, 2), (0x24, 4)] = none) (hopen : s.main.sec.blocked = false)
    (hk : i.arg 0x20 2 = k ∧ k < 256 ∨ i.arg 0x20 2 = 0xFFFF ∧ s.main.sec.slots.findIdx? (fun x => x.st == .free) = some k)
    (hfree : (s.main.gslot k).st = .free) :
    slotAssign i s = .main s (.good (fields [(0x20, toBytes 2 k), (0x24, toBytes 4 (s.main.gslot k).gen)]))
      ((s.main.modGslot k (fun x => { x with st := .assigned, tenant := i.arg 0x24 4, ctr := 0 })).postSecurity 1 k .ok
        (i.arg 0x24 4 * 2 ^ 32 + (s.main.gslot k).gen)) := by
  have hbad : (i.arg 0x20 2 != 0xFFFF && decide (256 ≤ i.arg 0x20 2)) = false := by
    rcases hk with ⟨heq, hlt⟩ | ⟨hany, -⟩
    · simp [heq, Nat.not_le.2 hlt]
    · simp [hany]
  have hat : (if i.arg 0x20 2 = 0xFFFF then s.main.sec.slots.findIdx? (fun x => x.st == .free) else some (i.arg 0x20 2)) = some k := by
    rcases hk with ⟨heq, hlt⟩ | ⟨hany, hfirst⟩
    · rw [if_neg (by omega), heq]
    · rw [if_pos hany, hfirst]
  simp only [slotAssign, hreserved, hbad, EcsIn.fails_false, EcsIn.lowest_none_cons, EcsIn.lowest_nil, hat, hopen, hfree,
    bne_self_eq_false, Bool.or_self, Bool.false_eq_true, if_false]

/-- The arguments of SLOT_REVOKE name a slot. -/
structure NamesSlot (i : EcsIn) : Prop where
  reserved : i.reserved [(0x20, 2), (0x22, 1)] = none
  slot : i.arg 0x20 2 < 256
  flags : i.high 0x22 1 2 = none

/-- The spans that a revocation fences: those of the slot's tenant, where it asks for that. -/
def Main.revokedSpans (m : Main) (i : EcsIn) : List Nat :=
  if bit (i.arg 0x22 1) 0 then m.spansOf (m.gslot (i.arg 0x20 2)).tenant else []

/-- The block with a revocation begun: its slot drains, its spans are fenced, and receipts are waited for. -/
def Main.revoking (m : Main) (i : EcsIn) : Main :=
  let m2 := (m.revokedSpans i).foldl (fun m x => m.saggerError x 0x35 ⟨7, 0x602⟩ none 0 false none)
    (m.modGslot (i.arg 0x20 2) (fun x => { x with st := .draining }))
  let r : Revoke := { slot := i.arg 0x20 2, release := bit (i.arg 0x22 1) 1, engines := List.range 64
                      piers := ((m.revokedSpans i).flatMap m.otherPiers).eraseDups, silent := [], since := m.time }
  { m2 with sec := { m2.sec with revokes := m2.sec.revokes ++ [r] } }

theorem slotRevoke_of_assigned (hnames : NamesSlot i) (hst : (s.main.gslot (i.arg 0x20 2)).st = .assigned)
    (hregions : bit (i.arg 0x22 1) 0 = true ∨ ∀ r ∈ s.main.objs.regions, r.glaze ≠ some (i.arg 0x20 2)) :
    slotRevoke i s = .hold (.revoke (i.arg 0x20 2)) { s with main := s.main.revoking i } := by
  obtain ⟨hreserved, hslot, hflags⟩ := hnames
  have hused : (!bit (i.arg 0x22 1) 0 && s.main.objs.regions.any (fun r => r.glaze == some (i.arg 0x20 2))) = false := by
    rcases hregions with hfence | hnone
    · simp [hfence]
    · have hany : s.main.objs.regions.any (fun r => r.glaze == some (i.arg 0x20 2)) = false := by simpa using hnone
      simp [hany]
  simp only [slotRevoke, hreserved, hflags, Nat.not_le.2 hslot, decide_false, EcsIn.fails_false, EcsIn.lowest_none_cons,
    EcsIn.lowest_nil, hst, hused, Bool.false_eq_true, if_false]
  rfl

/-- A revocation in progress is waited for. -/
theorem slotRevoke_of_draining (hnames : NamesSlot i) (hst : (s.main.gslot (i.arg 0x20 2)).st = .draining) :
    slotRevoke i s = .hold (.revoke (i.arg 0x20 2)) s := by
  obtain ⟨hreserved, hslot, hflags⟩ := hnames
  simp only [slotRevoke, hreserved, hflags, Nat.not_le.2 hslot, decide_false, EcsIn.fails_false, EcsIn.lowest_none_cons,
    EcsIn.lowest_nil, hst]

/-! ### The debug unlock (R511, R512) -/

section
variable (hreserved : i.reserved [] = none) (hin : i.hasIn = true) (hlen : i.data.length = 160)
include hreserved hin hlen

/-- A good token begins an unlock; a challenge is drawn anew. -/
theorem debugUnlock_of_token (htoken : s.main.tokenOk i.data = true) (hidle : s.main.sec.unlocking = none) :
    debugUnlock i s = .hold .unlock { s with main := { s.main.newChallenge with sec := { s.main.newChallenge.sec with
      unlocking := some (s.main.newChallenge.time, List.range 64) } } } := by
  simp only [debugUnlock, hreserved, hin, hlen, Bool.not_true, bne_self_eq_false, Bool.or_self, EcsIn.fails_false,
    EcsIn.lowest_none_cons, EcsIn.lowest_nil, htoken, hidle, Option.isSome_none, Bool.false_eq_true, if_false]

theorem debugUnlock_of_bad_token (htoken : s.main.tokenOk i.data = false) :
    debugUnlock i s = .main s (.refuse 0xFFFF) (s.main.newChallenge.postSecurity 8 0 .ok 0) := by
  simp only [debugUnlock, hreserved, hin, hlen, Bool.not_true, bne_self_eq_false, Bool.or_self, EcsIn.fails_false,
    EcsIn.lowest_none_cons, EcsIn.lowest_nil, htoken, Bool.not_false, Bool.true_or, if_true]

end

/-! ### Firmware (R487) -/

/-- An image that is good for its component is staged. -/
theorem fwStage_of_image (hreserved : i.reserved [(0x20, 1), (0x24, 4)] = none) (hcomp : i.arg 0x20 1 < 6) (hin : i.hasIn = true)
    (hlen : i.arg 0x24 4 = i.data.length) (hswitch : s.main.switches (i.arg 0x20 1) = false)
    (hok : s.main.imageOk (i.arg 0x20 1) i.data = true) :
    fwStage i s = .main s (.good (fields [(0x20, toBytes 1 (b2n (!(s.main.fwOf (i.arg 0x20 1)).onB))),
      (0x24, toBytes 4 (Config.imageVersion i.data))])) (s.main.modFw (i.arg 0x20 1) (fun f => f.stage i.data)) := by
  simp only [fwStage, hreserved, Nat.not_le.2 hcomp, decide_false, hin, hlen, Bool.not_true, bne_self_eq_false, Bool.and_false,
    EcsIn.fails_false, EcsIn.lowest_none_cons, EcsIn.lowest_nil, hswitch, hok, Bool.false_eq_true, if_false]

/-- Nothing keeps a component from being activated: no handling, reset or activation is in progress, and an image is staged. -/
structure Activates (m : Main) (comp : Nat) : Prop where
  handlings : m.rcv.handlings = []
  reset : m.rcv.dev = none
  idle : m.sec.switching = none
  staged : (m.fwOf comp).staged = true

/-- The bootloader and the Seal processor take their image at the next start; the others begin to switch. -/
theorem State.activate_of_activates {comp : Nat} (h : Activates s.main comp) : s.activate comp =
    if comp = 2 ∨ comp = 5 then .deferred { s with main := s.main.modFw comp (fun f => { f with pending := true }) }
    else .begun (s.switchOne comp 0) := by
  obtain ⟨hhandlings, hreset, hidle, hstaged⟩ := h
  simp only [State.activate, hhandlings, hreset, hidle, hstaged, List.isEmpty_nil, Bool.not_true, Option.isSome_none, Bool.or_self,
    Bool.false_eq_true, if_false]

section
variable (hreserved : i.reserved [(0x20, 1)] = none) (hcomp : i.arg 0x20 1 < 6) (hact : Activates s.main (i.arg 0x20 1))
include hreserved hcomp hact

theorem fwActivate_of_deferred (hlate : i.arg 0x20 1 = 2 ∨ i.arg 0x20 1 = 5) :
    fwActivate i s = .main s (.good (fields [(0x20, toBytes 1 1)]))
      (s.main.modFw (i.arg 0x20 1) (fun f => { f with pending := true })) := by
  simp only [fwActivate, hreserved, Nat.not_le.2 hcomp, decide_false, EcsIn.fails_false, EcsIn.lowest_none_cons, EcsIn.lowest_nil,
    State.activate_of_activates hact, if_pos hlate]
  rfl

theorem fwActivate_of_begun (hnow : ¬(i.arg 0x20 1 = 2 ∨ i.arg 0x20 1 = 5)) :
    fwActivate i s = .hold (.activate (i.arg 0x20 1)) (s.switchOne (i.arg 0x20 1) 0) := by
  simp only [fwActivate, hreserved, Nat.not_le.2 hcomp, decide_false, EcsIn.fails_false, EcsIn.lowest_none_cons, EcsIn.lowest_nil,
    State.activate_of_activates hact, if_neg hnow]

end

/-! ### Drills (R516, R517, R520) -/

/-- The drill that DRILL_ARM describes. -/
def EcsIn.newDrill (i : EcsIn) : Drill :=
  { st := .armed, span := i.arg 0x20 4, action := i.arg 0x24 1, mode := i.arg 0x25 1, hold := i.arg 0x26 1, vcMask := i.arg 0x27 1
    destEn := bit (i.arg 0x28 2) 15, dest := i.arg 0x28 2 % 2 ^ 13, limit := i.arg 0x2C 4, thresh := i.arg 0x30 4
    start := i.arg 0x34 4, period := i.arg 0x38 4, seed := BitVec.ofNat 64 (i.arg 0x40 8), links := BitVec.ofNat 128 (i.arg 0x48 16)
    passed := 0, injected := 0 }

/-- The lanes that DRILL_ARM names. -/
def EcsIn.drillLanes (i : EcsIn) : List Nat := bitsSet 128 (BitVec.ofNat 128 (i.arg 0x48 16)).toNat

/-- The arguments of a drill on a span's record pass (R516). -/
structure ArmsDrill (m : Main) (i : EcsIn) (r : SpanRec) : Prop where
  reserved : i.reserved [(0x20, 4), (0x24, 4), (0x28, 2), (0x2C, 12), (0x38, 4), (0x40, 8), (0x48, 16)] = none
  high : i.high 0x20 4 20 = none
  span : m.recOf (i.arg 0x20 4) = some r
  drill : r.drill = true
  valid : r.current.valid = true
  action : i.arg 0x24 1 ≤ 3
  mode : i.arg 0x25 1 ≤ 2
  holds : i.arg 0x24 1 = 3 → 1 ≤ i.arg 0x26 1 ∧ i.arg 0x26 1 ≤ 64
  noHold : i.arg 0x24 1 ≠ 3 → i.arg 0x26 1 = 0
  channels : i.high 0x27 1 7 = none
  dest : bits (i.arg 0x28 2) 14 13 = 0
  random : i.arg 0x25 1 = 1 → i.arg 0x2C 4 ≠ 0 ∧ i.arg 0x34 4 ≠ 0 ∧ i.arg 0x38 4 ≠ 0
  lanes : ∀ l ∈ i.drillLanes, r.current.links.getLsbD l = true ∧ nth m.comp.linkOwner l .idle = .span (i.arg 0x20 4) ∧
    m.groupShared r.tenant l = false

/-- The block with a drill armed: what its lanes held for others goes back. -/
def Main.armed (m : Main) (i : EcsIn) (r : SpanRec) (id : Nat) : Main :=
  (i.drillLanes.foldl (fun (m : Main) l => m.giveBack l (fun g => !m.drillAllows g.span l))
    (((i.drillLanes.filterMap m.laneGroup).eraseDups).foldl (fun (m : Main) g => m.orderAside r.tenant g)
      { m with drills := m.drills.set id i.newDrill })).flush

theorem drillArm_of_arms {r : SpanRec} {id : Nat} (h : ArmsDrill s.main i r)
    (hfree : s.main.drills.findIdx? (fun d => d.st == .free) = some id) :
    drillArm i s = .main s (.good (fields [(0x20, toBytes 1 id)])) (s.main.armed i r id) := by
  obtain ⟨hreserved, hhigh, hr, hdrill, hvalid, haction, hmode, hholds, hnoHold, hchannels, hdest, hrandom, hlanes⟩ := h
  have hhold : (if i.arg 0x24 1 = 3 then i.arg 0x26 1 == 0 || decide (64 < i.arg 0x26 1) else i.arg 0x26 1 != 0) = false := by
    split
    case isTrue hstall =>
      obtain ⟨hmin, hmax⟩ := hholds hstall
      simp only [Bool.or_eq_false_iff, beq_eq_false_iff_ne, decide_eq_false_iff_not]
      omega
    case isFalse hother => simp [hnoHold hother]
  have hdraws (x : Nat) (hx : i.arg 0x25 1 = 1 → x ≠ 0) : (i.arg 0x25 1 == 1 && x == 0) = false := by
    simp only [Bool.and_eq_false_iff, beq_eq_false_iff_ne]
    exact Decidable.not_or_of_imp hx
  have hnamed : ∀ o ∈ i.drillLanes.map (fun l => EcsIn.fails (!(r.current.links.getLsbD l &&
      nth s.main.comp.linkOwner l .idle == .span (i.arg 0x20 4)) || s.main.groupShared r.tenant l) (linkOff l)), o = none := by
    intro o ho
    obtain ⟨l, hl, rfl⟩ := List.mem_map.1 ho
    obtain ⟨hlink, howner, hshared⟩ := hlanes l hl
    simp only [hlink, howner, hshared, beq_self_eq_true, Bool.and_self, Bool.not_true, Bool.or_self, EcsIn.fails_false]
  have hlow := EcsIn.lowest_none hnamed
  unfold EcsIn.drillLanes at hlow
  simp only [drillArm, hreserved, hhigh, hr, hdrill, hvalid, Nat.not_lt.2 haction, Nat.not_lt.2 hmode, hhold, hchannels, hdest,
    hdraws _ (fun h => (hrandom h).1), hdraws _ (fun h => (hrandom h).2.1), hdraws _ (fun h => (hrandom h).2.2), Bool.not_true,
    Bool.or_self, decide_false, bne_self_eq_false, EcsIn.fails_false, List.cons_append, List.nil_append, EcsIn.lowest_none_cons,
    hlow, hfree]
  rfl

/-- Every drill is given up, or the one that is named. -/
theorem drillDisarm_of_all (hreserved : i.reserved [(0x20, 1)] = none) (hall : i.arg 0x20 1 = 0xFF) :
    drillDisarm i s = .main s (.good []) (({ s.main with drills := List.replicate 16 Drill.reset } : Main).flush) := by
  simp [drillDisarm, hreserved, hall]

theorem drillDisarm_of_one (hreserved : i.reserved [(0x20, 1)] = none) (hid : i.arg 0x20 1 < 16) :
    drillDisarm i s = .main s (.good [])
      (({ s.main with drills := s.main.drills.set (i.arg 0x20 1) Drill.reset } : Main).flush) := by
  have hnot : i.arg 0x20 1 ≠ 0xFF := by omega
  simp [drillDisarm, hreserved, Nat.not_le.2 hid, hnot]

/-! ### Loopbacks (R425, R522, R523) -/

/-- The block with an engine's loopback begun or ended. -/
def Main.looping (m : Main) (i : EcsIn) : Main :=
  (if i.arg 0x21 1 = 0 then m.loopOff (i.arg 0x20 1) else m.loopOn (i.arg 0x20 1) (i.arg 0x21 1) (i.arg 0x22 1)).flush

/-- An engine whose lanes are idle and whose spare has not been used is looped. -/
theorem loopbackSet_of_idle (hreserved : i.reserved [(0x20, 3)] = none) (he : i.arg 0x20 1 < 16) (hmode : i.arg 0x21 1 ≤ 2)
    (hpattern : i.arg 0x22 1 ≤ 1) (hidle : i.arg 0x21 1 ≠ 0 → (s.main.optOf (i.arg 0x20 1)).spareUsed = none ∧
      ∀ l ∈ engineLanes (i.arg 0x20 1), nth s.main.comp.linkOwner l .held = .idle) :
    loopbackSet i s = .main s (.good []) ((s.main.looping i).egSetMode ((s.main.looping i).looped ||
      (s.main.looping i).rcv.dev.isSome)) := by
  have hmay : ¬(i.arg 0x21 1 ≠ 0 ∧ ((engineLanes (i.arg 0x20 1)).all (fun l => nth s.main.comp.linkOwner l .held == .idle) &&
      (s.main.optOf (i.arg 0x20 1)).spareUsed.isNone) = false) := by
    rintro ⟨hon, hbusy⟩
    obtain ⟨hspare, hlanes⟩ := hidle hon
    have hall : (engineLanes (i.arg 0x20 1)).all (fun l => nth s.main.comp.linkOwner l .held == .idle) = true := by
      simpa using hlanes
    simp [hspare, hall] at hbusy
  simp only [loopbackSet, hreserved, Nat.not_le.2 he, Nat.not_lt.2 hmode, Nat.not_lt.2 hpattern, decide_false, EcsIn.fails_false,
    EcsIn.lowest_none_cons, EcsIn.lowest_nil]
  rw [if_neg hmay]
  unfold Main.looping
  rfl

end

/-- Settles O56, from what each command comes to when its checks pass. -/
theorem ecsSealAndTestCommands : Obligations.EcsSealAndTestCommands := by
  unfold Obligations.EcsSealAndTestCommands
  intro s mb c cmd i m main held
  refine ⟨?assign, ?revoke, ?again, ?unlock, ?stage, ?activate, ?arm, ?disarm, ?loop⟩
  case assign =>
    intro k hbegin hreserved hopen hk hfree t g
    exact exec_of_main rfl hbegin (slotAssign_of_free hreserved hopen hk hfree)
  case revoke =>
    intro k fence hbegin hreserved hslot hflags hst hregions spans m2 r
    exact exec_of_hold_sealing rfl hbegin (slotRevoke_of_assigned ⟨hreserved, hslot, hflags⟩ hst hregions)
  case again =>
    intro hbegin hreserved hslot hflags hst
    exact exec_of_hold_sealing rfl hbegin (slotRevoke_of_draining ⟨hreserved, hslot, hflags⟩ hst)
  case unlock =>
    intro hbegin hreserved hin hlen m1
    exact ⟨fun htoken hidle => exec_of_hold_sealing rfl hbegin (debugUnlock_of_token hreserved hin hlen htoken hidle),
      fun htoken => exec_of_answer_sealing rfl hbegin (debugUnlock_of_bad_token hreserved hin hlen htoken)⟩
  case stage =>
    intro hbegin hreserved hcomp hin hlen hswitch hok
    exact exec_of_main rfl hbegin (fwStage_of_image hreserved hcomp hin hlen hswitch hok)
  case activate =>
    intro comp hbegin hreserved hcomp hhandlings hreset hidle hstaged
    have hact : Activates s.main comp := ⟨hhandlings, hreset, hidle, hstaged⟩
    exact ⟨fun hlate => exec_of_main rfl hbegin (fwActivate_of_deferred hreserved hcomp hact hlate), fun hnot2 hnot5 =>
      exec_of_hold_state rfl hbegin (fwActivate_of_begun hreserved hcomp hact (not_or.2 ⟨hnot2, hnot5⟩))⟩
  case arm =>
    intro id r hbegin hfree hreserved hhigh hr hdrill hvalid haction hmode hholds hnoHold hchannels hdest hrandom named hlanes d
    exact exec_of_main rfl hbegin (drillArm_of_arms ⟨hreserved, hhigh, hr, hdrill, hvalid, haction, hmode, hholds, hnoHold, hchannels,
      hdest, hrandom, hlanes⟩ hfree)
  case disarm =>
    intro hbegin hreserved
    exact ⟨fun hall => exec_of_main rfl hbegin (drillDisarm_of_all hreserved hall),
      fun hid => exec_of_main rfl hbegin (drillDisarm_of_one hreserved hid)⟩
  case loop =>
    intro e mode hbegin hreserved he hmode hpattern hidle m1
    exact exec_of_main rfl hbegin (loopbackSet_of_idle hreserved he hmode hpattern hidle)

end Sys2Proof.Machine
end

section
/-! How ECS commands are answered, and those that read (R309, R397, R405, R406, R409, R411-R414, R457, R459, R488, R510, R514, R520,
R524, R544). -/

namespace Sys2Proof.Machine

/-! ### How an answer is given (R405, R406) -/

/-- An answer given with no more to write: its response is ready, and the mailboxes count what waits. -/
def State.say (s : State) (i : EcsIn) (r : Reply) : State := { s with main := (s.main.reply i.mb i.cmd r).saturate }

section
variable {s t : State} {i : EcsIn} {r : Reply} {outOk : Bool}

theorem State.answer_of_no_output (h : r.out = []) : s.answer i outOk r t = t.say i r := if_pos (by simp [h])

/-- Output that has no place or not enough is refused at its length. -/
theorem State.answer_of_no_room (hout : r.out ≠ []) (h : i.hasOut = false ∨ i.outLen < r.out.length) :
    s.answer i outOk r t = s.say i (.refuse 0x14) := by
  have hbad : (!i.hasOut || decide (i.outLen < r.out.length)) = true := by simpa using h
  exact (if_neg (by simpa using hout)).trans (if_pos hbad)

section
variable (hout : r.out ≠ []) (hhas : i.hasOut = true) (hroom : r.out.length ≤ i.outLen)
include hout hhas hroom

/-- Output with enough room goes on as its page allows. -/
theorem State.answer_of_room : s.answer i outOk r t =
    if !outOk then s.say i { status := .faultUnresolved }
    else match s.main.needBuffer i (i.arg 0x18 8) r.out.length true with
      | .wait m => { s with main := m }
      | .lost m => ({ s with main := m } : State).say i { status := .faultUnresolved }
      | .have _ => match i.mb with
        | .bmc => t.say i r
        | .fn f => (if i.cmd.orphan then t else { t with main := t.main.hostWrite f 0 (i.arg 0x18 8) r.out false }).say i r :=
  (if_neg (by simpa using hout)).trans (if_neg (by simp [hhas, Nat.not_lt.2 hroom]))

theorem State.answer_of_lost (hlost : outOk = false) : s.answer i outOk r t = s.say i { status := .faultUnresolved } := by
  rw [State.answer_of_room hout hhas hroom]
  exact if_pos (by simp [hlost])

variable (hok : outOk = true)
include hok

theorem State.answer_of_bmc (hmb : i.mb = .bmc) : s.answer i outOk r t = t.say i r := by
  have hpage : s.main.needBuffer i (i.arg 0x18 8) r.out.length true = .have s.main := by simp [Main.needBuffer, hmb]
  rw [State.answer_of_room hout hhas hroom, if_neg (by simp [hok]), hpage, hmb]

variable {m : Main}

/-- Output to a function is written before its response. -/
theorem State.answer_of_page {f : Fn} (hmb : i.mb = .fn f) (hlive : i.cmd.orphan = false)
    (hpage : s.main.needBuffer i (i.arg 0x18 8) r.out.length true = .have m) :
    s.answer i outOk r t = ({ t with main := t.main.hostWrite f 0 (i.arg 0x18 8) r.out false } : State).say i r := by
  rw [State.answer_of_room hout hhas hroom, if_neg (by simp [hok]), hpage, hmb]
  simp only [hlive, Bool.false_eq_true, if_false]

theorem State.answer_of_page_wait (hpage : s.main.needBuffer i (i.arg 0x18 8) r.out.length true = .wait m) :
    s.answer i outOk r t = { s with main := m } := by
  rw [State.answer_of_room hout hhas hroom, if_neg (by simp [hok]), hpage]

theorem State.answer_of_page_lost (hpage : s.main.needBuffer i (i.arg 0x18 8) r.out.length true = .lost m) :
    s.answer i outOk r t = ({ s with main := m } : State).say i { status := .faultUnresolved } := by
  rw [State.answer_of_room hout hhas hroom, if_neg (by simp [hok]), hpage]

end

end

/-! ### Commands of no row, and commands that read (R409, R411, R412) -/

section
variable {s : State} {mb : Mbx} {c : Cmd} {cmd : MbCmd} {op : Nat}

/-- A command taken by a row of many opcodes is one of its own. -/
theorem State.ecs_of_own {ops : Nat → Bool} {body : EcsIn → State → Ans} (hbegin : EcsBegins s mb c cmd op) (hops : ops op = true) :
    State.ecs ops body mb c s = State.ecsOp op body mb c s := by
  obtain ⟨htake, hop, -⟩ := hbegin
  unfold State.ecsOp State.ecs
  rcases htake with htake | ⟨htake, -⟩ <;> rw [htake] <;> simp only [hop, hops, beq_self_eq_true]

theorem exec_reservedCommand_of_begins (hclass : classOf cmd.op = none) (hbegin : EcsBegins s mb c cmd cmd.op) :
    exec (.reservedCommand mb c) s =
      .next (s.answer (ecsIn mb c cmd) c.outOk (.refuse (if cmd.opcode < 4096 then 0 else 1)) s) := by
  have hbody : reservedOp (ecsIn mb c cmd) s = .done (.refuse (if cmd.opcode < 4096 then 0 else 1)) s := by
    unfold reservedOp
    split <;> rfl
  exact exec_of_answer (State.ecs_of_own (ops := fun op => (classOf op).isNone) hbegin (by simp [hclass])) hbegin hbody

/-- A command that only reads answers what it reads. -/
theorem exec_of_reads {y : Instr} {f : EcsIn → State → Reply} (hy : exec y s = State.ecsOp op (reads f) mb c s)
    (hbegin : EcsBegins s mb c cmd op) : exec y s = .next (s.answer (ecsIn mb c cmd) c.outOk (f (ecsIn mb c cmd) s) s) :=
  exec_of_answer hy hbegin rfl

end

section
variable {s : State} {i : EcsIn}

theorem identifyReply_ok (h : i.reserved [] = none) : (identifyReply i s).status = .ok := by
  unfold identifyReply
  rw [h]

theorem statusReply_ok (h : i.reserved [] = none) : (statusReply i s).status = .ok := by
  unfold statusReply
  rw [h]
  rfl

theorem spanListReply_ok (h : i.reserved [] = none) : (spanListReply i s).status = .ok := by
  unfold spanListReply
  rw [h]

theorem fwReply_ok (h : i.reserved [] = none) : (fwReply i s).status = .ok := by
  unfold fwReply
  rw [h]

/-- A parameter is read. -/
theorem getParamReply_of_range {r : Nat × Nat} (hreserved : i.reserved [(0x20, 2)] = none) (hr : paramRange (i.arg 0x20 2) = some r) :
    getParamReply i s = .good (fields [(0x20, toBytes 8 (s.main.param (i.arg 0x20 2)))]) := by
  simp only [getParamReply, hreserved, hr, Option.isNone_some, EcsIn.fails_false, EcsIn.lowest_none_cons, EcsIn.lowest_nil]

/-- What CTX_QUERY answers (R397; its places are assumption logs 40, 44 and 47's). -/
def State.ctxReply (s : State) (i : EcsIn) (x : Context) : Reply :=
  { status := .ok
    result := fields [(0x20, toBytes 1 x.state.code), (0x24, toBytes 4 (s.main.slotCount x.num)), (0x28, toBytes 8 x.jobs),
      (0x30, toBytes 8 (if i.vf.isSome then ctxEnergy x else roundEnergy ⟨0, 0⟩ x.energy)),
      (0x38, toBytes 8 (s.main.poolReserved x.num)), (0x40, toBytes 8 ((s.main.poolUsed x.num).length * 4096)),
      (0x48, toBytes 4 (s.main.objs.queues.filter (fun y => y.ctx == x.num)).length),
      (0x4C, toBytes 4 (s.main.objs.fences.filter (fun y => y.owner == x.num)).length),
      (0x50, toBytes 8 ((s.main.objs.regions.filter (fun y => y.ctx == x.num)).map (·.len)).sum)]
    out := if i.wantsOut then (s.main.spanClusters x.span).flatMap
      (fun k => toBytes 2 k ++ toBytes 2 0 ++ toBytes 4 (s.main.utilisation x.num k)) else [] }

theorem ctxQuery_of_context {x : Context} (hx : OnContext s i [] x) : ctxQuery i s = .done (s.ctxReply i x) s :=
  (onCtx_go hx (by simp [noBad]) (.inl rfl) (by simp)).trans rfl

theorem queueQuery_of_queue {x : Context} {q : Queue} (hx : OnContext s i [(0x24, 1)] x)
    (hq : s.main.queueOf ⟨x.num, i.arg 0x24 1⟩ = some q) :
    queueQuery i s = .done (.good (fields [(0x20, toBytes 1 (b2n q.halted)), (0x24, toBytes 4 q.avail.toNat),
      (0x28, toBytes 4 q.ridx.toNat), (0x2C, toBytes 4 q.done.toNat)])) s := by
  refine (onCtx_go hx ?_ (.inl rfl) (by simp)).trans ?_
  · simp [Main.queueNamed, hq]
  · simp only [Main.queueNamed, hq]

theorem fenceQuery_of_owner {x : Context} {f : Fence} (hx : OnContext s i [(0x24, 4)] x)
    (hname : s.main.mayFence i (i.arg 0x24 4) = true) (hf : s.main.fenceOf (i.arg 0x24 4) = some f) (howner : f.owner = x.num) :
    fenceQuery i s = .done (.good (fields [(0x20, toBytes 8 f.value.toNat), (0x28, toBytes 1 (b2n !f.live)),
      (0x29, toBytes 1 (if f.mirror = none then 0 else if f.mirrorOn = true then 1 else 2)), (0x2C, toBytes 4 f.regress)])) s := by
  refine (onFence_go hx hname hf (by simp [howner]) (by simp) (.inl rfl)).trans ?_
  simp only [Option.isNone_iff_eq_none]

end

/-- Settles O49: answers from what they have to write, reads from what their arguments name. -/
theorem ecsQueries : Obligations.EcsQueries := by
  unfold Obligations.EcsQueries
  refine ⟨fun s t mb c cmd r outOk => ?answers, fun s mb c cmd => ?queries⟩
  case answers =>
    intro i say
    refine ⟨State.answer_of_no_output, State.answer_of_no_room, State.answer_of_lost, fun hout hhas hroom hok =>
      ⟨State.answer_of_bmc hout hhas hroom hok, fun f hmb hlive => ⟨fun m => State.answer_of_page hout hhas hroom hok hmb hlive,
        fun m => State.answer_of_page_wait hout hhas hroom hok, fun m => State.answer_of_page_lost hout hhas hroom hok⟩⟩,
      exec_reservedCommand_of_begins⟩
  case queries =>
    intro i reports
    exact ⟨⟨exec_of_reads rfl, exec_of_reads rfl, exec_of_reads rfl, exec_of_reads rfl, exec_of_reads rfl, exec_of_reads rfl,
        exec_of_reads rfl, exec_of_reads rfl, exec_of_reads rfl, exec_of_reads rfl, exec_of_reads rfl, exec_of_reads rfl,
        exec_of_reads rfl⟩, fun hbegin => exec_of_answer rfl hbegin rfl,
      fun h => ⟨identifyReply_ok h, statusReply_ok h, spanListReply_ok h, fwReply_ok h⟩,
      fun r hreserved hr => getParamReply_of_range hreserved hr,
      fun x hx hbegin => exec_of_answer rfl hbegin (ctxQuery_of_context hx),
      fun x q hx hq hbegin => exec_of_answer rfl hbegin (queueQuery_of_queue hx hq),
      fun x f hx hname hf howner hbegin => exec_of_answer rfl hbegin (fenceQuery_of_owner hx hname hf howner)⟩

end Sys2Proof.Machine
end

section
/-! The ends of DMA and collective packets, and what the host answers for a packet or a record that waits (R290, R304, R352-R356,
R373, R378, R379). -/

namespace Sys2Proof.Machine

theorem outdated_nil (fn : Fn) (pasid page size : Nat) : outdated [] fn pasid page size = false := rfl

section
variable {s : State} {q : QRef} {pidx i : Nat} {d : DmaRun} {p : Packet} {c : Context}

/-! ### Ends of packets (R290, R304, R378, R379) -/

theorem DmaRun.status_of_ok (hfailed : d.failed = none) (htag : d.tagBad = 0) (hpoison : d.poisoned = false) : d.status = .ok := by
  simp [DmaRun.status, hfailed, htag, hpoison]

/-- A DMA packet without an error ends with its fence and its record alone. -/
theorem exec_dmaComplete_of_ok (hi : s.main.dmaIdx q pidx = some i) (hd : s.main.dmaAt i = some (d, p, c))
    (hover : d.isOver (dmLen p.bytes) = true) (hstatus : d.status = .ok) (htag : d.tagBad = 0) :
    exec (.dmaComplete q pidx) s = toMain s
      ((((({ s.main with host := { s.main.host with dmas := s.main.host.dmas.eraseIdx i } } : Main).packetSignal c (dmScope p.bytes)
        (dmFence p.bytes) (dmFval p.bytes)).completePacket q p .ok 0 (seenEnergy c.fn p.energy)).dmaPump).after) := by
  refine exec_eq_toMain (f := thenAfter (Main.dmaComplete q pidx)) rfl ?_
  unfold thenAfter Main.dmaComplete
  simp only [hi, hd, hover, hstatus, htag, Bool.not_true, Bool.false_eq_true, if_false, if_true, true_or, ne_eq, not_true]

section
variable {r : CollRun} {x : Queue} (hi : s.main.colls.findIdx? (fun r => r.q == q && r.pidx == pidx) = some i)
  (hr : s.main.colls[i]? = some r) (hc : s.main.ctxOf q.ctx = some c) (hx : s.main.queueOf q = some x)
  (hp : x.running.find? (fun p => p.pidx == pidx) = some p) (hover : r.isOver = true)
include hi hr hc hx hp hover

/-- A collective without an error advances its counter and signals its fence. -/
theorem exec_collectiveComplete_of_ok (hstatus : r.status = .ok) :
    let m1 := ({ s.main with colls := s.main.colls.eraseIdx i } : Main).collRelease r
    exec (.collectiveComplete q pidx) s = toMain s (((((m1.advanceCounter (coLc r.packet) 1
      (m1.modPos (coScope r.packet))).packetSignal c (coScope r.packet) (coFence r.packet) (coFval r.packet)).completePacket q p .ok
      r.flags (seenEnergy c.fn p.energy))).after) := by
  refine exec_eq_toMain (f := thenAfter (Main.collComplete q pidx)) rfl ?_
  unfold thenAfter Main.collComplete
  simp only [hi, hr, hc, hx, Option.bind_some, hp, hover, hstatus, Bool.not_true, Bool.false_eq_true, if_false, if_true]
  rfl

/-- A collective that was not permitted leaves its counter and its fence alone (assumption log 11). -/
theorem exec_collectiveComplete_of_notPermitted (hended : r.ended = some .notPermitted) :
    exec (.collectiveComplete q pidx) s = toMain s
      (((({ s.main with colls := s.main.colls.eraseIdx i } : Main).collRelease r).completePacket q p .notPermitted r.flags
        (seenEnergy c.fn p.energy)).after) := by
  have hstatus : r.status = .notPermitted := by simp [CollRun.status, hended]
  have hcounts : countsOn .notPermitted = false := rfl
  refine exec_eq_toMain (f := thenAfter (Main.collComplete q pidx)) rfl ?_
  unfold thenAfter Main.collComplete
  simp only [hi, hr, hc, hx, Option.bind_some, hp, hover, hstatus, hcounts, Bool.not_true, Bool.false_eq_true, if_false,
    reduceCtorEq]

end

theorem exec_collectiveTimerExpiry_of_waits {span id : Nat} {r : CollRun} (hi : s.main.collIdx span id = some i)
    (hr : s.main.colls[i]? = some r) (hover : r.isOver = false) (hwaits : s.main.collWaits i = false) :
    exec (.collectiveTimerExpiry span id) s = toMain s ((s.main.until r.due).failColl i .trackerLost) := by
  refine exec_eq_toMain (f := Main.collTimer span id) rfl ?_
  unfold Main.collTimer
  simp only [hi, hr, hover, hwaits, Bool.false_eq_true, if_false]

/-! ### What the host answers for a packet (R352-R356) -/

section
variable (hi : s.main.dmaIdx q pidx = some i) (hd : s.main.dmaAt i = some (d, p, c))
include hi hd

section
variable {off : Nat} {x : ReadOut} {r : Region} (hx : d.readAt off = some x) (hr : s.main.regionOf (dmRegion p.bytes) = some r)
include hx hr

/-- Good data of a region without GLAZE are written to the span. -/
theorem exec_hostReadCompletion_of_data {bytes : List Byte} {tag : BitVec 128} (hglaze : r.glaze = none) (hdrop : x.drop = false)
    (hlen : bytes.length = x.len) (hfree : s.main.spanBlocked c.span (dmSaddr p.bytes + off) x.len = false) :
    exec (.hostReadCompletion q pidx off (.data bytes tag false)) s =
      toMain s ((((s.main.bump 4 0 d.engine x.len).spanWrite c.span (dmSaddr p.bytes + off) bytes false).modDma i
        (fun d => { d with poisoned := d.poisoned || false })).readOver i off) := by
  refine exec_eq_toMain (f := Main.hostRead q pidx off (.data bytes tag false)) rfl ?_
  unfold Main.hostRead
  simp only [hi, hd, hx, hr, hglaze, hdrop, hlen, hfree, ne_eq, not_true, Bool.false_eq_true, if_false]

/-- Data of a read that is of no use any more change nothing. -/
theorem exec_hostReadCompletion_of_drop {bytes : List Byte} {tag : BitVec 128} {ep : Bool} (hdrop : x.drop = true)
    (hlen : bytes.length = x.len) :
    exec (.hostReadCompletion q pidx off (.data bytes tag ep)) s = toMain s (s.main.readOver i off) := by
  refine exec_eq_toMain (f := Main.hostRead q pidx off (.data bytes tag ep)) rfl ?_
  unfold Main.hostRead
  simp only [hi, hd, hx, hr, hdrop, hlen, ne_eq, not_true, if_false, if_true]

/-- A read whose data do not come fails its packet; code 0 of the Completion Timeout is 50 ms. -/
theorem exec_completionTimeout_of_read {f : FnRec} (hf : s.main.fnOf c.fn = some f) (hcode : f.timeout = 0) :
    exec (.completionTimeout (.packet q pidx) true off) s =
      toMain s ((((s.main.until (x.since + 50000000)).aerLog .timeout c.fn (r.iova + dmHoff p.bytes + off)).modDma i (fun d =>
        { d with failed := d.failed.orElse (fun _ => some .faultUnresolved) })).readOver i off) := by
  have htime : timeoutOf 0 = 50000000 := rfl
  refine exec_eq_toMain (f := Main.readTimeout q pidx (some off)) rfl ?_
  unfold Main.readTimeout
  simp only [hi, hd, hx, hr, hf, hcode, htime]

end

section
variable {f : FnRec} {t y : Nat} (hst : d.st = .translating t y)
include hst

theorem exec_completionTimeout_of_translating (off : Nat) :
    exec (.completionTimeout (.packet q pidx) false off) s = toMain s ((((s.main.until t).aerLog .timeout c.fn y).modDma i (fun d =>
      { d with failed := d.failed.orElse (fun _ => some .faultUnresolved), st := .ready, late := [] })).dmaPump) := by
  refine exec_eq_toMain (f := Main.readTimeout q pidx none) rfl ?_
  unfold Main.readTimeout
  simp only [hi, hd, hst]

variable (hf : s.main.fnOf c.fn = some f)
include hf

/-- A translation that an invalidation overtook is asked for again. -/
theorem exec_translationCompletion_of_outdated {size : Nat} {rd wr : Bool} (hsize : 4096 ≤ size)
    (hold : outdated d.late c.fn c.pasid (y / size * size) size = true) :
    exec (.translationCompletion (.packet q pidx) (.page size rd wr)) s =
      toMain s (s.main.modDma i (fun d => { d with late := [], st := s.main.asks c.fn y })) := by
  refine exec_eq_toMain (f := Main.translated q pidx (.page size rd wr)) rfl ?_
  unfold Main.translated
  simp only [hi, hd, hst, hf, transPage, Nat.not_lt.mpr hsize, hold, if_false, if_true]

theorem exec_translationCompletion_of_rejected (hlate : d.late = []) :
    exec (.translationCompletion (.packet q pidx) .rejected) s = toMain s ((s.main.modDma i (fun d =>
      { d with failed := d.failed.orElse (fun _ => some .faultUnresolved), st := .ready, late := [] })).dmaPump) := by
  refine exec_eq_toMain (f := Main.translated q pidx .rejected) rfl ?_
  unfold Main.translated
  simp only [hi, hd, hst, hf, transPage, hlate, outdated_nil, Nat.lt_irrefl, Bool.false_eq_true, if_false, if_true]

/-- A translation with the permission that the packet needs goes to both caches, and the packet goes on. -/
theorem exec_translationCompletion_of_page (hlate : d.late = []) {size : Nat} {rd wr : Bool} (hsize : 4096 ≤ size)
    (hgrants : (if (dmDir p.bytes == 1) = true then wr else rd) = true) :
    let e : AtcEntry := { fn := c.fn, pasid := c.pasid, page := y / size * size, size := size, rd := rd, wr := wr }
    exec (.translationCompletion (.packet q pidx) (.page size rd wr)) s =
      toMain s (((((s.main.modDma i (fun d => { d with late := [] })).atcPut c.fn.port e).microPut d.engine e).modDma i
        (fun d => { d with st := .ready, retried := false })).dmaPump) := by
  have hgrants : (if dmDir p.bytes = 1 then wr else rd) = true := by simpa only [beq_iff_eq] using hgrants
  have hany : (rd || wr) = true := by
    split at hgrants
    · simp [hgrants]
    · simp [hgrants]
  refine exec_eq_toMain (f := Main.translated q pidx (.page size rd wr)) rfl ?_
  unfold Main.translated
  simp only [hi, hd, hst, hf, transPage, hlate, outdated_nil, Nat.not_lt.mpr hsize, hany, hgrants, reduceCtorEq,
    Bool.false_eq_true, if_false, if_true]

end

section
variable {t : Nat} (hst : d.st = .faulted t true)
include hst

/-- After Response Success the packet asks for its translation again. -/
theorem exec_prgResponse_success_of_faulted {r : Region} (hr : s.main.regionOf (dmRegion p.bytes) = some r) :
    let a := r.iova + dmHoff p.bytes + d.next
    let x := (s.main.lookupAll d.engine c.fn c.pasid (dmDir p.bytes == 1) (r.needs a)).1.getD a
    exec (.prgResponse (.packet q pidx) .success) s = toMain s ((s.main.pageEnd d.fn).modDma i (fun d =>
      { d with st := s.main.asks d.fn x, retried := true })) := by
  refine exec_eq_toMain (f := Main.prgResponse q pidx .success) rfl ?_
  unfold Main.prgResponse Main.prgEnd
  simp only [hi, hd, hst, hr, reduceCtorEq, if_true, if_false]

theorem exec_prgResponse_of_not_success {r : Region} (hr : s.main.regionOf (dmRegion p.bytes) = some r) {code : PrgCode}
    (hcode : code ≠ .success) : exec (.prgResponse (.packet q pidx) code) s =
      toMain s (((s.main.prgEnd d.fn code).dmaFault i).dmaPump) := by
  refine exec_eq_toMain (f := Main.prgResponse q pidx code) rfl ?_
  unfold Main.prgResponse
  simp only [hi, hd, hst, hr, hcode, if_false]

end
end

/-- The fault timeout ends the wait of a packet whose page request was sent. -/
theorem exec_faultTimeout_of_packet {t : Nat} (hi : s.main.dmaIdx q pidx = some i) (hat : s.main.host.dmas[i]? = some d)
    (hst : d.st = .faulted t true) :
    exec (.faultTimeout (.packet q pidx)) s = toMain s (((((s.main.until t).pageEnd d.fn).dmaFault i)).dmaPump) := by
  refine exec_eq_toMain (f := Main.faultTimeout q pidx) rfl ?_
  unfold Main.faultTimeout
  simp only [hi, hat, hst, if_true]

end

/-! ### What the host answers for a record that waits (R353, R373) -/

section
variable {s : State} {n : Nat} {p : HostPut} (hp : s.main.putAt n = some p)
include hp

section
variable {f : FnRec} {t x : Nat} (hst : p.st = .translating t x)
include hst

theorem exec_completionTimeout_of_put (read : Bool) (off : Nat) :
    exec (.completionTimeout (.put n) read off) s = toMain s (((s.main.until t).aerLog .timeout p.fn x).putFails p) := by
  refine exec_eq_toMain (f := Main.putExpires n) rfl ?_
  unfold Main.putExpires
  simp only [hp, hst]

variable (hf : s.main.fnOf p.fn = some f) (hlate : p.late = [])
include hf hlate

theorem exec_translationCompletion_of_put_rejected :
    exec (.translationCompletion (.put n) .rejected) s = toMain s (s.main.putFails p) := by
  refine exec_eq_toMain (f := Main.putTranslated n .rejected) rfl ?_
  unfold Main.putTranslated
  simp only [hp, hst, hf, transPage, hlate, outdated_nil, Nat.lt_irrefl, Bool.false_eq_true, if_false, if_true]

/-- A record with the permission to write goes to its port's cache alone, and is written (assumption log 8). -/
theorem exec_translationCompletion_of_put_page {size : Nat} {rd : Bool} (hsize : 4096 ≤ size) (hwrites : p.owner.writes = true) :
    let e : AtcEntry := { fn := p.fn, pasid := p.pasid, page := x / size * size, size := size, rd := rd, wr := true }
    exec (.translationCompletion (.put n) (.page size rd true)) s =
      toMain s ((((s.main.modPut n (fun p => { p with late := [] })).atcPut p.fn.port e).modPut n
        (fun p => { p with st := .ready })).putsGo) := by
  refine exec_eq_toMain (f := Main.putTranslated n (.page size rd true)) rfl ?_
  unfold Main.putTranslated
  simp only [hp, hst, hf, transPage, hlate, outdated_nil, Nat.not_lt.mpr hsize, hwrites, Bool.or_true, reduceCtorEq,
    Bool.false_eq_true, if_false, if_true]

end

section
variable {t : Nat} (hst : p.st = .faulted t true)
include hst

theorem exec_prgResponse_invalid_of_put : exec (.prgResponse (.put n) .invalid) s = toMain s ((s.main.pageEnd p.fn).putFails p) := by
  have hasked : p.st.asked = true := by rw [hst]; rfl
  refine exec_eq_toMain (f := Main.putPrg n .invalid) rfl ?_
  unfold Main.putPrg Main.prgEnd
  simp only [hp, hasked, Bool.not_true, Bool.false_eq_true, reduceCtorEq, if_false]

theorem exec_faultTimeout_of_put : exec (.faultTimeout (.put n)) s = toMain s (((s.main.until t).pageEnd p.fn).putFails p) := by
  refine exec_eq_toMain (f := Main.putTimeout n) rfl ?_
  unfold Main.putTimeout
  simp only [hp, hst, if_true]

end
end

/-- Settles O21: each clause is the one path through its function that the premises pick out. -/
theorem packetEnds : Obligations.PacketEnds := by
  unfold Obligations.PacketEnds
  refine ⟨fun s q pidx => ⟨?_, ?_, ?_⟩, ?_, ?_⟩
  · intro i d p c hi hd hover hfailed htag hpoison m1
    exact exec_dmaComplete_of_ok hi hd hover (DmaRun.status_of_ok hfailed htag hpoison) htag
  · intro i r c x p hi hr hc hx hp hover m1
    refine ⟨fun hended hpoison => ?_, exec_collectiveComplete_of_notPermitted hi hr hc hx hp hover⟩
    exact exec_collectiveComplete_of_ok hi hr hc hx hp hover (by simp [CollRun.status, hended, hpoison])
  · intro span id i r hi hr hover hwaits
    exact exec_collectiveTimerExpiry_of_waits hi hr hover hwaits
  · intro s q pidx i d p c hi hd hat
    refine ⟨?_, ?_, ?_⟩
    · intro off x r hx hr
      refine ⟨fun bytes tag => ?_, fun bytes tag ep => ?_, fun f hf hcode => ?_⟩
      · exact exec_hostReadCompletion_of_data hi hd hx hr
      · exact exec_hostReadCompletion_of_drop hi hd hx hr
      · exact exec_completionTimeout_of_read hi hd hx hr hf hcode
    · intro f t y hst hf write
      refine ⟨exec_completionTimeout_of_translating hi hd hst, fun size rd wr => ?_, fun hlate => ⟨?_, ?_⟩⟩
      · exact exec_translationCompletion_of_outdated hi hd hst hf
      · exact exec_translationCompletion_of_rejected hi hd hst hf hlate
      · intro size rd wr hsize hgrants
        exact exec_translationCompletion_of_page hi hd hst hf hlate hsize hgrants
    · intro t hst
      refine ⟨fun r hr => ⟨?_, ?_, ?_⟩, exec_faultTimeout_of_packet hi hat hst⟩
      · exact exec_prgResponse_success_of_faulted hi hd hst hr
      · exact exec_prgResponse_of_not_success hi hd hst hr (by decide)
      · exact exec_prgResponse_of_not_success hi hd hst hr (by decide)
  · intro s n p hp
    refine ⟨?_, fun t hst => ⟨exec_prgResponse_invalid_of_put hp hst, exec_faultTimeout_of_put hp hst⟩⟩
    intro f t x size rd hst hf hlate hsize hwrites e
    exact ⟨exec_translationCompletion_of_put_page hp hst hf hlate hsize hwrites,
      exec_translationCompletion_of_put_rejected hp hst hf hlate, exec_completionTimeout_of_put hp hst⟩

end Sys2Proof.Machine
end

section
/-! Requests at their target and answers at their issuer (R208, R219, R253, R265-R268, R282-R291, R321-R323, R472, R484). -/

namespace Sys2Proof.Machine

/-! ### Requests (R284, R287, R289-R291) -/

section
variable {m m0 : Main} {g : Msg} {ok : Nat → Bool}

/-- A request whose lines wait, and that has no place at all of them, takes its places. -/
theorem Main.request_of_held (hok : ok g.op = true) (hlegal : msgReserved g = false) (horder : m.inOrder g = true)
    (htake : m.takeMsg g = some m0) (hheld : m.spanHeld (some (.message g)) g.span (rqAddr g) (rqBytes g) = true)
    (hturns : m.hasTurns g = false) :
    Main.request ok g m = .next (m.takeTurns (.message g) (m.spanLines g.span (rqAddr g) (rqBytes g))) := by
  unfold Main.request
  simp only [hok, hlegal, horder, htake, hheld, hturns, Bool.not_true, Bool.or_self, Bool.false_eq_true, if_false, if_true]

/-- A request of which no line waits is performed. -/
theorem Main.request_of_free (hok : ok g.op = true) (hlegal : msgReserved g = false) (horder : m.inOrder g = true)
    (htake : m.takeMsg g = some m0) (hheld : m.spanHeld (some (.message g)) g.span (rqAddr g) (rqBytes g) = false) :
    Main.request ok g m = .next (((m0.leaveTurns (.message g) (fun _ => true)).perform g).after) := by
  unfold Main.request
  simp only [hok, hlegal, horder, htake, hheld, Bool.not_true, Bool.or_self, Bool.false_eq_true, if_false]

/-- A command of the five requests is the shared request, open to its own operations. -/
theorem exec_eq_request {x : (Msg → Instr) × Nat} (hx : x ∈ ([(.rd, 0x01), (.bulkrd, 0x03), (.wr, 0x30), (.bulkwr, 0x31),
    (.atom, 0x18)] : List ((Msg → Instr) × Nat))) :
    ∃ ok : Nat → Bool, ok x.2 = true ∧ ∀ (g : Msg) (s : State), exec (x.1 g) s = onMain (Main.request ok g) s := by
  simp only [List.mem_cons, List.not_mem_nil, or_false] at hx
  obtain rfl | rfl | rfl | rfl | rfl := hx
  · exact ⟨(· == 0x01), rfl, fun _ _ => rfl⟩
  · exact ⟨(· == 0x03), rfl, fun _ _ => rfl⟩
  · exact ⟨(· == 0x30), rfl, fun _ _ => rfl⟩
  · exact ⟨(· == 0x31), rfl, fun _ _ => rfl⟩
  · exact ⟨fun o => decide (0x10 ≤ o) && decide (o ≤ 0x1A), rfl, fun _ _ => rfl⟩

end

/-! ### What a target does with a request (R284, R321) -/

section
variable {m : Main} {g : Msg} {legal : Bool} {go : Main → Main}

theorem Main.serve_of_go (hlegal : legal = true) (h : m.serveCheck g (rqBytes g) = .go) : m.serve g legal go = (go m).ownSees g := by
  unfold Main.serve
  simp only [hlegal, h, Bool.not_true, Bool.false_eq_true, if_false]

theorem Main.serve_of_stale (hlegal : legal = true) (h : m.serveCheck g (rqBytes g) = .err .epochStale) :
    m.serve g legal go = (m.logStale g).respondErr g .epochStale 0 := by
  unfold Main.serve
  simp only [hlegal, h, Bool.not_true, Bool.false_eq_true, if_false]

theorem Main.serve_of_closed (hlegal : legal = true) (h : m.serveCheck g (rqBytes g) = .err .saggerClosed) :
    m.serve g legal go = m.respondErr g .saggerClosed (if m.quiesced then 0 else m.abortNum g.span) := by
  unfold Main.serve
  simp only [hlegal, h, Bool.not_true, Bool.false_eq_true, if_false]

theorem Main.serveWrite_of_lands (h : m.lcLands g.span (rqLc g) = true) : m.serveWrite g =
    (((m.landWrite g ((g.data.drop 16).take (rqBytes g))).advanceCounter (rqLc g) (rqBytes g)
      (m.landWrite g ((g.data.drop 16).take (rqBytes g))).landing).respond g 0x22 [] false) := by
  simp only [Main.serveWrite, h, Bool.not_true, Bool.false_eq_true, if_false]

theorem Main.serveWrite_of_not_lands (h : m.lcLands g.span (rqLc g) = false) : m.serveWrite g = m.respondErr g .notPermitted 0 := by
  simp only [Main.serveWrite, h, Bool.not_false, if_true]

/-- The shape of a request of up to 16 bytes with its own number of data bytes. -/
theorem small_legal {lands : Bool} {n : Nat} (h : rqFields g lands = true ∧ rqSmall g = true) (hlen : g.data.length = n) :
    (rqFields g lands && rqSmall g && g.data.length == n) = true := by
  simp [h, hlen]

/-- What performing a request comes to, by its operation. -/
theorem Main.perform_rd (hop : g.op = 0x01) : m.perform g =
    m.serve g (rqFields g false && rqSmall g && g.data.length == 16) (fun m => m.serveRead g 0x20) := by
  unfold Main.perform
  exact if_pos hop

theorem Main.perform_bulkrd (hop : g.op = 0x03) : m.perform g =
    m.serve g (rqFields g false && rqBulk g && g.data.length == 16) (fun m => m.serveRead g 0x40) := by
  unfold Main.perform
  simp only [hop, Nat.reduceEqDiff, if_false, if_true]

theorem Main.perform_wr (hop : g.op = 0x30) : m.perform g =
    m.serve g (rqFields g true && rqSmall g && g.data.length == 32) (fun m => m.serveWrite g) := by
  unfold Main.perform
  simp only [hop, Nat.reduceEqDiff, if_false, if_true]

theorem Main.perform_bulkwr (hop : g.op = 0x31) : m.perform g =
    m.serve g (rqFields g true && rqBulk g && decide (rqBytes g ≤ 4080) && g.data.length == 16 + rqBytes g)
      (fun m => m.serveWrite g) := by
  unfold Main.perform
  simp only [hop, Nat.reduceEqDiff, if_false, if_true]

theorem Main.perform_atom (hlow : 0x10 ≤ g.op) (hhigh : g.op ≤ 0x1A) : m.perform g =
    m.serve g (rqFields g false && rqSmall g && atomSizeOk g.op (rqBytes g) && g.data.length == 32) (fun m => m.serveAtom g) := by
  unfold Main.perform
  rw [if_neg (by omega), if_neg (by omega), if_neg (by omega), if_neg (by omega)]

/-- A write that is well formed and may be served, by either of its operations. -/
theorem Main.perform_write_of_go {op : Nat} (hop : g.op = op) (hwrite : op = 0x30 ∨ op = 0x31)
    (hshape : if op = 0x30 then (rqFields g true = true ∧ rqSmall g = true) ∧ g.data.length = 32
      else (rqFields g true = true ∧ rqBulk g = true) ∧ rqBytes g ≤ 4080 ∧ g.data.length = 16 + rqBytes g)
    (hgo : m.serveCheck g (rqBytes g) = .go) : m.perform g = (m.serveWrite g).ownSees g := by
  obtain rfl | rfl := hwrite
  · rw [if_pos rfl] at hshape
    rw [Main.perform_wr hop, Main.serve_of_go (small_legal hshape.1 hshape.2) hgo]
  · rw [if_neg (by decide)] at hshape
    obtain ⟨⟨hfields, hbulk⟩, hmost, hlen⟩ := hshape
    rw [Main.perform_bulkwr hop, Main.serve_of_go (by simp [hfields, hbulk, hmost, hlen]) hgo]

/-- An atomic that is well formed and may be served. -/
theorem Main.perform_atom_of_go {op : AtomOp} {lpa : Nat} (hlow : 0x10 ≤ g.op) (hhigh : g.op ≤ 0x1A)
    (hsmall : rqFields g false = true ∧ rqSmall g = true) (hsize : rqBytes g = 4 ∨ (rqBytes g = 8 ∧ g.op ≠ 0x1A))
    (hlen : g.data.length = 32) (hgo : m.serveCheck g (rqBytes g) = .go) (hatom : atomOpOf g.op = some op)
    (hline : m.mem.translate g.span (rqAddr g) = some lpa) :
    let n := rqBytes g
    let r := m.homeAT lpa op n ((g.data.drop 16).take n) ((g.data.drop (16 + n)).take n) g.rr
    m.perform g = (if r.1.poison then r.2.respondErr g .poisoned 0 else r.2.respond g 0x21 (padSlots r.1.old) false).ownSees g := by
  have hatomSize : atomSizeOk g.op (rqBytes g) = true := by
    obtain h | ⟨h, hne⟩ := hsize
    · simp [atomSizeOk, h]
    · simp [atomSizeOk, h, hne]
  intro n r
  rw [Main.perform_atom hlow hhigh, Main.serve_of_go (by simp [hsmall, hatomSize, hlen]) hgo]
  unfold Main.serveAtom
  simp only [hatom, hline]
  rfl

end

/-! ### The checks of a request (R284, R312) -/

section
variable {m : Main} {g : Msg} (len : Nat)

theorem Main.serveCheck_of_no_rec (h : m.recOf g.span = none) : m.serveCheck g len = .err .notPermitted := by
  simp only [Main.serveCheck, h]

variable {r : SpanRec} (hr : m.recOf g.span = some r)
include hr

theorem Main.serveCheck_of_fenced (h : m.fenced g.span = true) : m.serveCheck g len = .err .saggerClosed := by
  simp only [Main.serveCheck, hr, h, if_true]

variable (hopen : m.fenced g.span = false) (hphase : r.phase = .stable)
include hopen hphase

theorem Main.serveCheck_of_stale (h : g.epoch ≠ r.current.epoch) : m.serveCheck g len = .err .epochStale := by
  simp only [Main.serveCheck, Main.epochServe, hr, hopen, hphase, h, ne_eq, not_true, false_and, Bool.false_eq_true, if_false]

theorem Main.serveCheck_of_current (h : g.epoch = r.current.epoch) (hvalid : r.current.valid = true) :
    m.serveCheck g len = (if m.mem.holdsRange g.span (rqAddr g) len then .go else .err .notPermitted) := by
  simp only [Main.serveCheck, Main.epochServe, hr, hopen, hphase, h, hvalid, Bool.not_true, Bool.false_eq_true, reduceCtorEq,
    if_false, if_true]

end

/-! ### Answers (R268, R285, R322, R323, R472, R484) -/

section
variable {s : State} {g : Msg} {m1 : Main} {op : Nat} {f : Main → TrackEntry → Main}

theorem Main.response_of_orphan {m : Main} (hop : g.op = op) (hlegal : msgReserved g = false) (htake : m.takeMsg g = some m1)
    (hmatch : m1.matchTrack g = none) : Main.response op f g m = .next (m1.bump 6 0 g.op 1) := by
  simp only [Main.response, Main.orphan, hop, hlegal, htake, hmatch, ne_eq, not_true, Bool.false_eq_true, or_self, if_false]

theorem Main.response_of_match {m : Main} {e : TrackEntry} (hop : g.op = op) (hlegal : msgReserved g = false)
    (htake : m.takeMsg g = some m1) (hmatch : m1.matchTrack g = some e) : Main.response op f g m = .next ((f m1 e).after) := by
  simp only [Main.response, hop, hlegal, htake, hmatch, ne_eq, not_true, Bool.false_eq_true, or_self, if_false]

/-- A command of the six answers is the shared answer to its own operation. -/
theorem exec_eq_response {x : (Msg → Instr) × Nat} (hx : x ∈ ([(.rdata, 0x20), (.adata, 0x21), (.wack, 0x22), (.moveMsg, 0x23),
    (.errMsg, 0x24), (.bdata, 0x40)] : List ((Msg → Instr) × Nat))) (g : Msg) :
    ∃ f : Main → TrackEntry → Main, ∀ s : State, exec (x.1 g) s = onMain (Main.response x.2 f g) s := by
  simp only [List.mem_cons, List.not_mem_nil, or_false] at hx
  obtain rfl | rfl | rfl | rfl | rfl | rfl := hx
  · exact ⟨fun m e => m.finishTrack e (.data g.data g.poison), fun _ => rfl⟩
  · exact ⟨fun m e => m.finishTrack e (.data g.data g.poison), fun _ => rfl⟩
  · exact ⟨fun m e => m.finishTrack e .ack, fun _ => rfl⟩
  · exact ⟨Main.moved g, fun _ => rfl⟩
  · exact ⟨Main.failed g, fun _ => rfl⟩
  · exact ⟨fun m e => m.finishTrack e (.data (g.data.take e.len) g.poison), fun _ => rfl⟩

theorem Main.failed_of_status {m : Main} {e : TrackEntry} {st : Status} (hst : Status.ofCode (fieldAt g.data 0 2) = some st)
    (hopen : st ≠ .saggerClosed) : Main.failed g m e = m.finishTrack e (.fail st) := by
  simp only [Main.failed, hst, Option.getD_some, hopen, if_false]

/-- An answer of a closed sagger tells of the abort too (R472). -/
theorem Main.failed_of_closed {m : Main} {e : TrackEntry} (hst : Status.ofCode (fieldAt g.data 0 2) = some .saggerClosed) :
    Main.failed g m e = (m.finishTrack e (.fail .saggerClosed)).takeAbort e.span (fieldAt g.data 2 2) ⟨4, 3⟩ false := by
  simp only [Main.failed, hst, Option.getD_some, if_true]

/-! ### Move notices (R253, R322, R323) -/

theorem bits_low (v hi : Nat) : bits v hi 0 = v % 2 ^ (hi + 1) := by rw [bits, pow_zero, Nat.div_one, Nat.sub_zero]

section
variable {m : Main} {e : TrackEntry}

theorem Main.moved_of_reserved (h : ofBytes g.data / 2 ^ 56 % 2 ^ 72 ≠ 0 ∨ ofBytes g.data % 2 ^ 13 ≠ 0) :
    Main.moved g m e = m.bump 5 1 0 1 := by
  unfold Main.moved
  exact if_pos (by rwa [bits_low, bits])

variable (hhigh : ofBytes g.data / 2 ^ 56 % 2 ^ 72 = 0) (hlow : ofBytes g.data % 2 ^ 13 = 0)
include hhigh hlow

theorem Main.moved_of_legal : Main.moved g m e =
    (if !bit (ofBytes g.data) 39 || e.retry == 3 then m.finishTrack e (.fail .epochStale)
      else m.reissue e (bits (ofBytes g.data) 55 40) (bits (ofBytes g.data) 38 26)) := by
  have hnone : ¬(bits (ofBytes g.data) 127 56 ≠ 0 ∨ bits (ofBytes g.data) 12 0 ≠ 0) := by
    rw [bits_low, bits]
    exact fun h => h.elim (fun h => h hhigh) (fun h => h hlow)
  unfold Main.moved
  exact if_neg hnone

/-- A notice without a place, or to a request that has moved three times, ends it. -/
theorem Main.moved_of_end (h : ofBytes g.data / 2 ^ 39 % 2 = 0 ∨ e.retry = 3) :
    Main.moved g m e = m.finishTrack e (.fail .epochStale) := by
  rw [Main.moved_of_legal hhigh hlow]
  refine if_pos ?_
  obtain h | h := h
  · simp only [bit, h, Nat.reduceBEq, Bool.not_false, Bool.true_or]
  · simp [h]

/-- A notice with a place sends the request on. -/
theorem Main.moved_of_place (hplace : ofBytes g.data / 2 ^ 39 % 2 = 1) (hretry : e.retry ≠ 3) :
    Main.moved g m e = m.reissue e (ofBytes g.data / 2 ^ 40 % 2 ^ 16) (ofBytes g.data / 2 ^ 26 % 2 ^ 13) := by
  rw [Main.moved_of_legal hhigh hlow]
  refine if_neg ?_
  simp only [bit, hplace, beq_self_eq_true, Bool.not_true, Bool.false_or, beq_iff_eq, hretry, not_false_eq_true]

end

/-- The tracker entry of a request that is sent on (R323). -/
def TrackEntry.movedTo (e : TrackEntry) (epoch dest due : Nat) : TrackEntry :=
  { e with reissued := true, retry := e.retry + 1, epoch := epoch, dest := dest, deadline := due }

/-- The tracker with the entry of a request that is sent on (R323). -/
def Main.withMoved (m : Main) (e : TrackEntry) (epoch dest : Nat) : Main :=
  let e1 := e.movedTo epoch dest (m.time + m.param 4 * 1000)
  let entries := modWhere m.fab.entries (fun x => x.bank == e.bank && x.entry == e.entry) (fun _ => e1)
  { m with fab := { m.fab with entries := entries } }

section
variable {m : Main} {e : TrackEntry} {epoch dest : Nat}

/-- A request sent on leaves over a link grain that leads there, or stays on this module (R266). -/
theorem Main.reissue_of_way (hway : dest = m.fab.module ∨
    (m.withMoved e epoch dest).candidates ((e.movedTo epoch dest (m.time + m.param 4 * 1000)).msg m.fab.module) ≠ []) :
    m.reissue e epoch dest =
      (m.withMoved e epoch dest).send ((e.movedTo epoch dest (m.time + m.param 4 * 1000)).msg m.fab.module) := by
  refine if_neg ?_
  rintro ⟨hfar, hstuck⟩
  obtain hhere | hway := hway
  · exact hfar hhere
  · exact hway (List.isEmpty_iff.mp hstuck)

theorem Main.reissue_of_no_way (hfar : dest ≠ m.fab.module)
    (hstuck : (m.withMoved e epoch dest).candidates ((e.movedTo epoch dest (m.time + m.param 4 * 1000)).msg m.fab.module) = []) :
    m.reissue e epoch dest = (m.withMoved e epoch dest).finishTrack (e.movedTo epoch dest (m.time + m.param 4 * 1000))
      (.fail .notPermitted) :=
  if_pos ⟨hfar, List.isEmpty_iff.mpr hstuck⟩

end
end

section
variable {s : State} {g : Msg} {m0 m1 : Main}

/-- A request that was performed. -/
theorem exec_of_performed {c : Msg → Instr} {ok : Nat → Bool} (hc : exec (c g) s = onMain (Main.request ok g) s) (hok : ok g.op = true)
    (hlegal : msgReserved g = false) (horder : s.main.inOrder g = true) (htake : s.main.takeMsg g = some m0)
    (hheld : s.main.spanHeld (some (.message g)) g.span (rqAddr g) (rqBytes g) = false)
    (hperform : (m0.leaveTurns (.message g) (fun _ => true)).perform g = m1) : exec (c g) s = toMain s m1.after :=
  hperform ▸ exec_eq_toMain hc (Main.request_of_free hok hlegal horder htake hheld)

/-- An answer that was matched. -/
theorem exec_of_matched {c : Instr} {op : Nat} {f : Main → TrackEntry → Main} {e : TrackEntry} {m2 : Main}
    (hc : exec c s = onMain (Main.response op f g) s) (hlegal : msgReserved g = false) (htake : s.main.takeMsg g = some m1)
    (hmatch : m1.matchTrack g = some e) (hop : g.op = op) (hf : f m1 e = m2) : exec c s = toMain s m2.after :=
  hf ▸ exec_eq_toMain hc (Main.response_of_match hop hlegal htake hmatch)

end

/-- Settles O23: a request waits or is performed, by its operation; the checks go by the span's record; an answer goes by its
tracker entry. -/
theorem requestResults : Obligations.RequestResults := by
  unfold Obligations.RequestResults
  refine ⟨?_, ?_, ?_⟩
  · intro s g m0 htake horder hlegal
    refine ⟨?_, ?_⟩
    · intro hheld hturns x hx hop
      obtain ⟨ok, hok, hexec⟩ := exec_eq_request hx
      exact exec_eq_toMain (hexec g s) (Main.request_of_held (hop ▸ hok) hlegal horder htake hheld hturns)
    · intro hheld m1 fails done held small bulk rd
      refine ⟨?_, ?_, ?_, ?_⟩
      · intro hop hsmall hlen
        refine ⟨fun hgo => ?_, fun hstale => ?_, fun hclosed => ?_⟩
        · exact exec_of_performed (c := .rd) (ok := (· == 0x01)) rfl (by simp [hop]) hlegal horder htake hheld
            ((Main.perform_rd hop).trans (Main.serve_of_go (small_legal hsmall hlen) hgo))
        · exact exec_of_performed (c := .rd) (ok := (· == 0x01)) rfl (by simp [hop]) hlegal horder htake hheld
            ((Main.perform_rd hop).trans (Main.serve_of_stale (small_legal hsmall hlen) hstale))
        · exact exec_of_performed (c := .rd) (ok := (· == 0x01)) rfl (by simp [hop]) hlegal horder htake hheld
            ((Main.perform_rd hop).trans (Main.serve_of_closed (small_legal hsmall hlen) hclosed))
      · intro hop hbulk hlen hgo
        exact exec_of_performed (c := .bulkrd) (ok := (· == 0x03)) rfl (by simp [hop]) hlegal horder htake hheld
          ((Main.perform_bulkrd hop).trans (Main.serve_of_go (by simp [hbulk.1, hbulk.2, hlen]) hgo))
      · intro x hx hop hshape hgo
        have hwrite : x.2 = 0x30 ∨ x.2 = 0x31 := by
          simp only [List.mem_cons, List.not_mem_nil, or_false] at hx
          exact hx.imp (congrArg Prod.snd) (congrArg Prod.snd)
        obtain ⟨ok, hok, hexec⟩ := exec_eq_request
          (List.mem_cons_of_mem _ (List.mem_cons_of_mem _ (List.mem_append_left [(.atom, 0x18)] hx)))
        have hperform := Main.perform_write_of_go hop hwrite hshape hgo
        refine ⟨fun hlands => ?_, fun hnot => ?_⟩
        · exact exec_of_performed (hexec g s) (hop ▸ hok) hlegal horder htake hheld
            (hperform.trans (congrArg (·.ownSees g) (Main.serveWrite_of_lands hlands)))
        · exact exec_of_performed (hexec g s) (hop ▸ hok) hlegal horder htake hheld
            (hperform.trans (congrArg (·.ownSees g) (Main.serveWrite_of_not_lands hnot)))
      · intro op lpa hlow hhigh hsmall hsize hlen hgo hatom hline n r
        exact exec_of_performed (c := .atom) (ok := fun o => decide (0x10 ≤ o) && decide (o ≤ 0x1A)) rfl (by simp [hlow, hhigh]) hlegal
          horder htake hheld (Main.perform_atom_of_go hlow hhigh hsmall hsize hlen hgo hatom hline)
  · intro m g len
    refine ⟨Main.serveCheck_of_no_rec len, fun r hr => ⟨Main.serveCheck_of_fenced len hr, Main.serveCheck_of_stale len hr,
      Main.serveCheck_of_current len hr⟩⟩
  · intro s g m1 htake hlegal
    refine ⟨?_, ?_⟩
    · intro x hx hop hmatch
      obtain ⟨f, hexec⟩ := exec_eq_response hx g
      exact exec_eq_toMain (hexec s) (Main.response_of_orphan hop hlegal htake hmatch)
    · intro e hmatch
      refine ⟨fun hop => exec_of_matched rfl hlegal htake hmatch hop rfl, fun hop => exec_of_matched rfl hlegal htake hmatch hop rfl,
        fun hop => exec_of_matched rfl hlegal htake hmatch hop rfl, fun hop => exec_of_matched rfl hlegal htake hmatch hop rfl,
        fun st hop hst hopen => ?_, fun hop hst => ?_, fun hop => ⟨fun hbad => ?_, fun hhigh hlow => ⟨fun hend => ?_, ?_⟩⟩⟩
      · exact exec_of_matched (f := Main.failed g) rfl hlegal htake hmatch hop (Main.failed_of_status hst hopen)
      · exact exec_of_matched (f := Main.failed g) rfl hlegal htake hmatch hop (Main.failed_of_closed hst)
      · exact exec_of_matched (f := Main.moved g) rfl hlegal htake hmatch hop (Main.moved_of_reserved hbad)
      · exact exec_of_matched (f := Main.moved g) rfl hlegal htake hmatch hop (Main.moved_of_end hhigh hlow hend)
      · intro hplace hretry
        have hmoved := Main.moved_of_place (m := m1) (e := e) hhigh hlow hplace hretry
        exact ⟨fun hway => exec_of_matched (f := Main.moved g) rfl hlegal htake hmatch hop (hmoved.trans (Main.reissue_of_way hway)),
          fun hfar hstuck => exec_of_matched (f := Main.moved g) rfl hlegal htake hmatch hop
            (hmoved.trans (Main.reissue_of_no_way hfar hstuck))⟩

end Sys2Proof.Machine
end

section
/-! What no error, fence or recall changes: the module parameters and what a debug unlock has blocked (R414, R478, R481, R512). -/

namespace Sys2Proof.Machine

/-- What only a command sets and a cold start clears: the module parameters, and whether glaze is blocked. -/
def Main.lasting (m : Main) : List Nat × Bool := (m.params, m.sec.blocked)

section
variable {m m1 : Main}

theorem Main.lasting_of_bystanders (h : m1.bystanders = m.bystanders) : m1.lasting = m.lasting := (congrArg Main.lasting h :)

theorem Main.lasting_of_offTheRoad (h : m1.offTheRoad = m.offTheRoad) : m1.lasting = m.lasting := (congrArg Main.lasting h :)

theorem Main.lasting_of_unheard (h : m1.unheard = m.unheard) : m1.lasting = m.lasting := (congrArg Main.lasting h :)

theorem foldl_lasting {α : Type} {g : Main → α → Main} (hg : ∀ m a, (g m a).lasting = m.lasting) (l : List α) (m : Main) :
    (l.foldl g m).lasting = m.lasting := foldl_view_eq (view := Main.lasting) hg l m

end

section
variable (m : Main)

/-! ### Memory and its homes (R199, R207-R212, R219) -/

@[simp] theorem Main.memWrite_lasting (line : Nat) (data : List Byte) (poison : Bool) :
    (m.memWrite line data poison).lasting = m.lasting := rfl

@[simp] theorem Main.invalidateSharers_lasting (line : Nat) (except : Option Nat) :
    (m.invalidateSharers line except).lasting = m.lasting := by
  unfold Main.invalidateSharers
  split <;> rfl

@[simp] theorem Main.discardLine_lasting (line : Nat) : (m.discardLine line).lasting = m.lasting := by
  unfold Main.discardLine
  cases m.coh.entryOf line with
  | none => rfl
  | some e =>
    dsimp only
    cases e.st with
    | shared => exact m.invalidateSharers_lasting line none
    | home => rfl
    | ownedClean => rfl
    | ownedDirty => rfl

@[simp] theorem Main.homeWrite_lasting (line off : Nat) (data : List Byte) (poison : Bool) :
    (m.homeWrite line off data poison).lasting = m.lasting := by
  unfold Main.homeWrite
  dsimp only
  split
  · exact Main.discardLine_lasting _ _
  · exact Main.lasting_of_bystanders (Main.recallLine_bystanders _ _)

@[simp] theorem Main.writePiece_lasting (lpa : Nat) (data : List Byte) (poison : Bool) :
    (m.writePiece lpa data poison).lasting = m.lasting := by
  unfold Main.writePiece
  split
  · rfl
  · exact m.homeWrite_lasting _ _ _ _

@[simp] theorem Main.spanWrite_lasting (span sa : Nat) (data : List Byte) (poison : Bool) :
    (m.spanWrite span sa data poison).lasting = m.lasting := by
  refine foldl_lasting (fun x p => ?_) _ m
  split
  · exact x.writePiece_lasting _ _ _
  · rfl

@[simp] theorem Main.storeParts_lasting (line : Nat) (parts : List (Nat × List Byte)) :
    (m.storeParts line parts).lasting = m.lasting := by
  unfold Main.storeParts
  split
  · exact m.writePiece_lasting _ _ _
  · exact foldl_lasting (fun x p => x.writePiece_lasting _ _ _) _ m

@[simp] theorem Main.applyFor_lasting (agent line : Nat) : (m.applyFor agent line).lasting = m.lasting := by
  unfold Main.applyFor
  split
  · exact Main.lasting_of_bystanders (Main.applyInv_bystanders _ _ _)
  · rfl

@[simp] theorem Main.applyOwn_lasting (core line : Nat) : (m.applyOwn core line).lasting = m.lasting := by
  rw [Main.applyOwn, Main.applyFor_lasting, Main.applyFor_lasting]

@[simp] theorem Main.countServe_lasting (line : Nat) : (m.countServe line).lasting = m.lasting := by
  unfold Main.countServe
  dsimp only
  split <;> rfl

@[simp] theorem Main.homeUR_lasting (line : Nat) : (m.homeUR line).2.lasting = m.lasting := by
  refine Eq.trans ?_ (m.countServe_lasting line)
  unfold Main.homeUR
  dsimp only
  cases (m.countServe line).coh.entryOf line with
  | none => rfl
  | some e =>
    dsimp only
    split
    · exact Main.lasting_of_bystanders (Main.writeBackCopy_bystanders _ _ _)
    · rfl

@[simp] theorem Main.spanRead_lasting (span sa n : Nat) : (m.spanRead span sa n).2.2.lasting = m.lasting := by
  refine foldl_view_eq (view := fun x : List Byte × Bool × Main => x.2.2.lasting) (fun x p => ?_) _ ([], false, m)
  dsimp only
  split
  · exact x.2.2.homeUR_lasting _
  · rfl

@[simp] theorem Main.spanPieces_lasting (span sa n : Nat) : (m.spanPieces span sa n).2.lasting = m.lasting :=
  foldl_view_eq (view := fun x : List (Nat × List Byte × Bool) × Main => x.2.lasting)
    (fun x p => x.2.spanRead_lasting span p.1 p.2.length) _ ([], m)

/-! ### Transfers of a work group, and its end (R65, R75, R117, R136) -/

@[simp] theorem Main.performStore_lasting (core span : Nat) (x : Xfer) : (m.performStore core span x).lasting = m.lasting := by
  unfold Main.performStore
  refine foldl_lasting (fun y line => ?_) _ m
  rw [Main.applyOwn_lasting, Main.storeParts_lasting]

@[simp] theorem Main.loadLine_lasting (core span : Nat) (l : XferLine) : (m.loadLine core span l).2.2.lasting = m.lasting := by
  unfold Main.loadLine
  refine (foldl_lasting (fun x line => x.applyOwn_lasting core line) _ _).trans ?_
  exact m.spanPieces_lasting _ _ _

@[simp] theorem Main.csWrite_lasting (core : Nat) (parts : List (Nat × List Byte)) : (m.csWrite core parts).lasting = m.lasting := rfl

@[simp] theorem Main.csPoison_lasting (core off n : Nat) : (m.csPoison core off n).lasting = m.lasting := by
  unfold Main.csPoison
  split <;> rfl

@[simp] theorem Main.performLoad_lasting (core span : Nat) (x : Xfer) : (m.performLoad core span x).lasting = m.lasting := by
  unfold Main.performLoad
  refine (foldl_lasting (fun y (p : Nat × Nat) => y.csPoison_lasting core p.1 p.2) _ _).trans ((Main.csWrite_lasting _ _ _).trans ?_)
  refine foldl_view_eq (view := fun y : List (Nat × List Byte) × List (Nat × Nat) × Main => y.2.2.lasting) (fun y l => ?_) _
    ([], [], m)
  exact y.2.2.loadLine_lasting core span l

@[simp] theorem Main.performXfer_lasting (core span : Nat) (x : Xfer) : (m.performXfer core span x).lasting = m.lasting := by
  unfold Main.performXfer
  split
  · exact m.performStore_lasting _ _ _
  · exact m.performLoad_lasting _ _ _

@[simp] theorem Main.performAll_lasting (w : WorkGroup) (span : Nat) : (m.performAll w span).lasting = m.lasting := by
  refine (foldl_lasting (fun y x => ?_) w.xfers m :)
  split
  · rfl
  · exact y.performXfer_lasting _ _ _

@[simp] theorem Main.stopAway_lasting (launch : Nat) : (m.stopAway launch).lasting = m.lasting := by
  unfold Main.stopAway
  split
  · rfl
  · exact foldl_lasting (fun y a => Main.lasting_of_offTheRoad (Main.sendCtrl_offTheRoad _ _)) _ m

@[simp] theorem Main.discardWork_lasting (launch : Nat) : (m.discardWork launch).lasting = m.lasting := by
  unfold Main.discardWork
  rw [Main.stopAway_lasting]
  exact foldl_lasting (fun y w => y.performAll_lasting w _) _ m

@[simp] theorem Main.fenceLaunches_lasting (span : Nat) : (m.fenceLaunches span).lasting = m.lasting := by
  unfold Main.fenceLaunches
  refine foldl_lasting (fun y l => ?_) _ m
  exact y.discardWork_lasting l

/-! ### Packets that end (R366, R368, R372-R374, R390) -/

@[simp] theorem Main.askWaiting_lasting (fn : Fn) : (m.askWaiting fn).lasting = m.lasting := by
  unfold Main.askWaiting
  split
  · split
    · dsimp only
      split <;> rfl
    · rfl
  · rfl

@[simp] theorem Main.pageEnd_lasting (fn : Fn) : (m.pageEnd fn).lasting = m.lasting := Main.askWaiting_lasting _ _

@[simp] theorem Main.putHost_lasting (fn : Fn) (pasid addr : Nat) (data : List Byte) (o : PutOwner) :
    (m.putHost fn pasid addr data o).lasting = m.lasting := by
  unfold Main.putHost
  split
  case h_1 m1 hpage =>
    split at hpage
    · exact (Main.lasting_of_unheard (Main.pageOf_unheard hpage) : m1.lasting = m.lasting)
    · cases hpage
  case h_2 => rfl

@[simp] theorem Main.locWrite_lasting (c : Context) (l : Loc) (off : Nat) (data : List Byte) (o : PutOwner) :
    (m.locWrite c l off data o).2.lasting = m.lasting := by
  unfold Main.locWrite
  cases l with
  | region h a =>
    dsimp only
    split
    · split
      · exact m.putHost_lasting _ _ _ _ _
      · rfl
    · rfl
  | span a =>
    dsimp only
    split
    · exact m.spanWrite_lasting _ _ _ _
    · rfl

@[simp] theorem Main.postCtx_lasting (ctx type : Nat) (st : Status) (detail : Nat) :
    (m.postCtx ctx type st detail).lasting = m.lasting := by
  unfold Main.postCtx
  split
  · rfl
  · exact Main.lasting_of_unheard (Main.eqPost_unheard _ _ _ _)

@[simp] theorem Main.haltQueue_lasting (q : QRef) (st : Status) : (m.haltQueue q st).lasting = m.lasting := by
  unfold Main.haltQueue
  split
  · rfl
  · split
    · rfl
    · exact Main.postCtx_lasting _ _ _ _ _

@[simp] theorem Main.writeQStatus_lasting (q : QRef) : (m.writeQStatus q).lasting = m.lasting := by
  unfold Main.writeQStatus
  split
  · dsimp only
    split
    · exact m.locWrite_lasting _ _ _ _ _
    · rw [Main.haltQueue_lasting, Main.locWrite_lasting]
  · rfl

@[simp] theorem Main.retire_lasting (q : QRef) (p : Packet) : (m.retire q p).lasting = m.lasting := Main.writeQStatus_lasting _ _

@[simp] theorem Main.completeOne_lasting (q : QRef) (p : Packet) (st : Status) (flags : Byte) (detail : Nat) :
    (m.completeOne q p st flags detail).lasting = m.lasting := by
  unfold Main.completeOne
  split
  · dsimp only
    rw [Main.retire_lasting]
    split
    · rw [Main.postCtx_lasting]
      split
      · split
        · exact m.locWrite_lasting _ _ _ _ _
        · rw [Main.haltQueue_lasting, Main.locWrite_lasting]
      · rfl
    · split
      · split
        · exact m.locWrite_lasting _ _ _ _ _
        · rw [Main.haltQueue_lasting, Main.locWrite_lasting]
      · rfl
  · rfl

theorem Main.settleWaits_lasting (n ctx : Nat) : (Main.settleWaits n ctx m).lasting = m.lasting := by
  induction n generalizing m with
  | zero => rfl
  | succ n ih =>
    unfold Main.settleWaits
    split
    · rfl
    · rw [ih, Main.completeOne_lasting]

@[simp] theorem Main.dropQueue_lasting (q : QRef) : (m.dropQueue q).lasting = m.lasting := by
  unfold Main.dropQueue
  split
  · split
    · exact (Main.lasting_of_unheard (Main.answerHeld_unheard _ _ _)).trans rfl
    · rfl
  · rfl

@[simp] theorem Main.dropQueues_lasting (ctx : Nat) : (m.dropQueues ctx).lasting = m.lasting :=
  foldl_lasting (fun x q => x.dropQueue_lasting q) _ m

@[simp] theorem Main.completePacket_lasting (q : QRef) (p : Packet) (st : Status) (flags : Byte) (detail : Nat) :
    (m.completePacket q p st flags detail).lasting = m.lasting := by
  unfold Main.completePacket
  rw [Main.dropQueues_lasting, Main.settleWaits_lasting, Main.completeOne_lasting]

/-! ### Collectives that end (R298, R304, R390) -/

@[simp] theorem Main.send_lasting (g : Msg) : (m.send g).lasting = m.lasting := by
  unfold Main.send
  split
  · exact Main.lasting_of_offTheRoad (Main.sendOn_offTheRoad _ _ _ _)
  · rfl

@[simp] theorem Main.sendCfail_lasting (r : CollRun) (st : Status) : (m.sendCfail r st).lasting = m.lasting := by
  unfold Main.sendCfail
  refine foldl_lasting (fun x j => ?_) _ m
  exact x.send_lasting _

@[simp] theorem Main.collWrite_lasting (r : CollRun) (first : Nat) (data : List Byte) (bad : Bool) :
    (m.collWrite r first data bad).lasting = m.lasting := by
  unfold Main.collWrite
  split
  · split
    · rfl
    · exact m.spanWrite_lasting _ _ _ _
  · rfl

@[simp] theorem Main.collUndefine_lasting (r : CollRun) : (m.collUndefine r).lasting = m.lasting := by
  unfold Main.collUndefine
  refine foldl_lasting (fun x p => ?_) _ m
  exact Main.collWrite_lasting _ _ _ _ _

@[simp] theorem Main.endColl_lasting (i : Nat) (st : Status) : (m.endColl i st).lasting = m.lasting := by
  unfold Main.endColl
  split
  · split
    · rfl
    · exact m.collUndefine_lasting _
  · rfl

@[simp] theorem Main.failColl_lasting (i : Nat) (st : Status) : (m.failColl i st).lasting = m.lasting := by
  unfold Main.failColl
  split
  · split
    · rfl
    · rw [Main.endColl_lasting, Main.sendCfail_lasting]
  · rfl

/-! ### A span's sagger fenced (R470, R474) -/

@[simp] theorem Main.fenceDma_lasting (span : Nat) : (m.fenceDma span).lasting = m.lasting := by
  unfold Main.fenceDma
  refine (foldl_lasting (fun x d => ?_) _ _).trans rfl
  exact x.pageEnd_lasting d.fn

@[simp] theorem Main.fenceWaits_lasting (span : Nat) : (m.fenceWaits span).lasting = m.lasting := by
  unfold Main.fenceWaits
  refine foldl_lasting (fun x w => ?_) _ m
  exact x.completePacket_lasting _ _ _ _ _

@[simp] theorem Main.fenceColls_lasting (span : Nat) (wave : Bool) : (m.fenceColls span wave).lasting = m.lasting := by
  unfold Main.fenceColls
  refine (foldl_lasting (fun x i => ?_) _ _).trans rfl
  split
  · split
    · split
      · exact x.endColl_lasting _ _
      · exact x.failColl_lasting _ _
    · rfl
  · rfl

@[simp] theorem Main.fenceSpan_lasting (span : Nat) (wave : Bool) : (m.fenceSpan span wave).lasting = m.lasting := by
  have hengines (x : Main) : (x.fenceEngines span).lasting = x.lasting := rfl
  rw [Main.fenceSpan, Main.fenceColls_lasting, Main.fenceWaits_lasting, Main.fenceDma_lasting, hengines,
    Main.fenceLaunches_lasting]

/-! ### Errors (R422, R425, R476, R478, R481, R487) -/

@[simp] theorem Main.egDeliver_lasting (bank bit : Nat) : (m.egDeliver bank bit).lasting = m.lasting := by
  unfold Main.egDeliver
  split
  · rfl
  · dsimp only
    split <;> rfl

@[simp] theorem Main.egSettle_lasting : m.egSettle.lasting = m.lasting :=
  foldl_lasting (fun x bank => foldl_lasting (fun y bit => y.egDeliver_lasting bank bit) _ x) _ m

@[simp] theorem Main.egSetMode_lasting (static : Bool) : (m.egSetMode static).lasting = m.lasting := Main.egSettle_lasting _

@[simp] theorem Main.endSwaps_lasting : m.endSwaps.lasting = m.lasting := by
  unfold Main.endSwaps
  refine (foldl_lasting (fun x swap => ?_) _ _).trans rfl
  rfl

theorem Main.openErr_lasting (e : ErrNew) (st : ErrSt) : (m.openErr e st).2.lasting = m.lasting :=
  Main.lasting_of_bystanders (Main.openErr_bystanders _ _ _)

/-- A device reset fences every span. -/
@[simp] theorem Main.deviceNow_lasting (e : ErrNew) (cold : Bool) : (m.deviceNow e cold).lasting = m.lasting := by
  unfold Main.deviceNow
  split
  · exact m.openErr_lasting _ _
  · split
    · exact m.openErr_lasting _ _
    · refine (foldl_lasting (fun x span => x.fenceSpan_lasting span false) _ _).trans ((Main.egSetMode_lasting _ _).trans ?_)
      refine (Main.openErr_lasting _ e .handling).trans ?_
      rw [Main.lasting_of_bystanders (Main.joinOthers_bystanders _ _ _), Main.endSwaps_lasting]

@[simp] theorem Main.newErr_lasting (e : ErrNew) (st : ErrSt) : (m.newErr e st).2.lasting = m.lasting := by
  unfold Main.newErr
  split
  · exact Main.deviceNow_lasting _ _ _
  · exact m.openErr_lasting _ _

@[simp] theorem Main.noteNow_lasting (e : ErrNew) : (m.noteNow e).lasting = m.lasting := by
  unfold Main.noteNow
  dsimp only
  split
  · exact m.newErr_lasting _ _
  · exact (Main.lasting_of_bystanders (Main.closeErr_bystanders _ _ _ _)).trans (m.newErr_lasting _ _)

@[simp] theorem Main.recordRaised_lasting : m.recordRaised.lasting = m.lasting := by
  unfold Main.recordRaised
  refine (foldl_lasting (fun x r => ?_) _ _).trans rfl
  exact x.noteNow_lasting r.err

end

end Sys2Proof.Machine
end

section
/-! What a start leaves as its first step begins (R458, R462, R464, R465, R487, R506, R511, R523). -/

namespace Sys2Proof.Machine

/-! ### Revocations that end at once (R505, R506) -/

/-- The block without what the end of a revocation changes: events and answers, counters, and the Seal processor but for what a debug
unlock has blocked. -/
def Main.unrevoked (m : Main) : Main := { m.unheard with tele := [], sec := { Sec.reset with blocked := m.sec.blocked } }

theorem Main.unrevoked_of_unheard {m m1 : Main} (h : m1.unheard = m.unheard) : m1.unrevoked = m.unrevoked :=
  (congrArg Main.unrevoked h :)

section
variable (m : Main)

@[simp] theorem Main.answerOut_unheard (x : Mbx × MbCmd) (r : Reply) : (m.answerOut x r).unheard = m.unheard := by
  unfold Main.answerOut
  dsimp only
  split
  · exact m.reply_unheard _ _ _
  · split
    · exact m.reply_unheard _ _ _
    · split
      · exact m.reply_unheard _ _ _
      · rw [Main.reply_unheard]
        split
        · exact m.hostWrite_unheard _ _ _ _ _
        · rfl

/-- A security event is posted, or counted. -/
theorem Main.postSecurity_cases (cause slot : Nat) (st : Status) (detail : Nat) :
    (m.postSecurity cause slot st detail).unheard = m.unheard ∨ m.postSecurity cause slot st detail = m.bump 5 4 0 1 := by
  unfold Main.postSecurity
  split
  · exact .inr rfl
  · exact .inl ((Main.post_unheard _ _ _ _ _ _).trans rfl)

theorem Main.postSecurity_unrevoked (cause slot : Nat) (st : Status) (detail : Nat) :
    (m.postSecurity cause slot st detail).unrevoked = m.unrevoked := by
  obtain h | h := m.postSecurity_cases cause slot st detail
  · exact Main.unrevoked_of_unheard h
  · rw [h]; rfl

theorem Main.revokes_of_unheard {m m1 : Main} (h : m1.unheard = m.unheard) : m1.sec.revokes = m.sec.revokes :=
  (congrArg (fun x : Main => x.sec.revokes) h :)

theorem Main.postSecurity_revokes (cause slot : Nat) (st : Status) (detail : Nat) :
    (m.postSecurity cause slot st detail).sec.revokes = m.sec.revokes := by
  obtain h | h := m.postSecurity_cases cause slot st detail
  · exact Main.revokes_of_unheard h
  · rw [h]; rfl

/-- The answers of commands that waited for a revocation. -/
theorem Main.endRevoke_unheard (r : Revoke) : ∃ cause detail, (m.endRevoke r).unheard =
    ((({ m with sec := { m.sec with revokes := m.sec.revokes.erase r } } : Main).modGslot r.slot
      (fun s => s.raise r.release)).postSecurity cause r.slot .ok detail).unheard := by
  unfold Main.endRevoke
  dsimp only
  split
  · exact ⟨3, 0, foldl_view_eq (view := Main.unheard) (fun x c => x.answerOut_unheard c _) _ _⟩
  · exact ⟨2, _, foldl_view_eq (view := Main.unheard) (fun x c => x.answerOut_unheard c _) _ _⟩

@[simp] theorem Main.endRevoke_unrevoked (r : Revoke) : (m.endRevoke r).unrevoked = m.unrevoked := by
  obtain ⟨cause, detail, h⟩ := m.endRevoke_unheard r
  exact (Main.unrevoked_of_unheard h).trans (Main.postSecurity_unrevoked _ _ _ _ _)

theorem Main.endRevoke_revokes (r : Revoke) : (m.endRevoke r).sec.revokes = m.sec.revokes.erase r := by
  obtain ⟨cause, detail, h⟩ := m.endRevoke_unheard r
  exact (Main.revokes_of_unheard h).trans (Main.postSecurity_revokes _ _ _ _ _)

theorem Main.finishRevokes_unrevoked : m.finishRevokes.unrevoked = m.unrevoked := by
  unfold Main.finishRevokes
  exact foldl_view_eq (view := Main.unrevoked) (fun x r => x.endRevoke_unrevoked r) _ m

/-- Revocations that end one after the other, from the first, leave none. -/
theorem Main.foldl_endRevoke_revokes (l : List Revoke) (h : m.sec.revokes = l) : (l.foldl Main.endRevoke m).sec.revokes = [] := by
  induction l generalizing m with
  | nil => exact h
  | cons r l ih => exact ih _ ((m.endRevoke_revokes r).trans (by rw [h, List.erase_cons_head]))

theorem Main.finishRevokes_revokes : m.finishRevokes.sec.revokes = [] := m.foldl_endRevoke_revokes _ rfl

end

/-! ### The loss of the main rails at a start (R464, R465, R533) -/

/-- What a start has taken from a block before its revocations end. -/
def Main.startLoss (m : Main) (cold : Bool) (keep : List Nat) : Main :=
  ((m.endSwaps.newChallenge.lose cold).keepOnly keep).linksDown

/-- The spans that a start keeps (R465). -/
def State.startKeeps (s : State) (cold : Bool) : List Nat :=
  if cold then [] else (match s.main.rcv.preserve with | some p => p.spans | none => [])

/-- A span that a warm start keeps is one that PRESERVE named. -/
theorem State.mem_startKeeps_warm {s : State} {id : Nat} (h : id ∈ s.startKeeps false) :
    ∃ p, s.main.rcv.preserve = some p ∧ id ∈ p.spans := by
  unfold State.startKeeps at h
  cases hp : s.main.rcv.preserve with
  | none => simp [hp] at h
  | some p => exact ⟨p, rfl, by simpa [hp] using h⟩

/-- The block whose errors that wait are recorded, unless a warm start follows a stall of Elbor core 3. -/
def State.startNotes (s : State) (cold : Bool) : Main :=
  if s.main.rcv.stallMark.isSome && !cold then s.main else s.main.recordRaised

theorem State.restart_main (s : State) (cold : Bool) :
    let m := ((s.startNotes cold).startLoss cold (s.startKeeps cold)).finishRevokes
    (s.restart cold).main = { m with
      params := if cold then paramDefaults else m.params
      rcv := m.rcv.atStart m.time cold, sec := m.sec.atStart cold, tele := [], eg := Gatherer.reset } := rfl

section
variable (m : Main) (cold : Bool) (keep : List Nat)

theorem Main.startLoss_errs : (m.startLoss cold keep).rcv.errs = m.rcv.errs := (congrArg Rcv.errs m.endSwaps_rcv :)

theorem Main.startLoss_lasting : (m.startLoss cold keep).lasting = m.lasting := m.endSwaps_lasting

/-- Every lane is out of service. -/
theorem Main.startLoss_lanes : ∀ l ∈ (m.startLoss cold keep).fab.lanes, l.st = .off := by
  intro l hl
  obtain ⟨x, -, rfl⟩ := List.mem_map.1 (show l ∈ (m.endSwaps.newChallenge.fab.lanes.zipIdx.map (fun x => x.1.dark x.2 cold)) from hl)
  rfl

/-- The composition is that of the kept spans. -/
theorem Main.startLoss_recs : ∀ r ∈ (m.startLoss cold keep).comp.recs, r.id ∈ keep := by
  intro r hr
  obtain ⟨x, hx, rfl⟩ := List.mem_map.1 (show r ∈ ((m.endSwaps.newChallenge.lose cold).comp.recs.filter
    (fun r => keep.contains r.id)).map (fun r => { r with waiting := [] }) from hr)
  exact List.contains_iff_mem.1 (List.mem_filter.1 hx).2

end

theorem Main.startLoss_nil_extents (m : Main) (cold : Bool) : (m.startLoss cold []).mem.extents = [] := by
  refine List.filter_eq_nil_iff.2 fun x _ => ?_
  simp

theorem Main.startLoss_nil (m : Main) (cold : Bool) : (m.startLoss cold []).comp.recs = [] ∧ (m.startLoss cold []).mem.cells = [] :=
  ⟨Main.keepOnly_nil_recs _, Main.keepOnly_nil_cells _⟩

/-- The parameters, and what a debug unlock has blocked, go through a warm start. -/
theorem State.startNotes_lasting (s : State) (cold : Bool) : (s.startNotes cold).lasting = s.main.lasting := by
  unfold State.startNotes
  split
  · rfl
  · exact s.main.recordRaised_lasting

/-- Without errors that wait nothing is recorded. -/
theorem State.startNotes_errs {s : State} (h : s.main.rcv.raised = []) (cold : Bool) :
    (s.startNotes cold).rcv.errs = s.main.rcv.errs := by
  unfold State.startNotes
  split
  · rfl
  · unfold Main.recordRaised
    rw [h]
    rfl

/-- The end of the revocations leaves work, objects, spans, memory, the fabric and recovery as they are. -/
theorem Main.finishRevokes_keeps (m : Main) : m.finishRevokes.cores = m.cores ∧ m.finishRevokes.objs = m.objs ∧
    m.finishRevokes.coh = m.coh ∧ m.finishRevokes.fab = m.fab ∧ m.finishRevokes.host.dmas = m.host.dmas ∧
    m.finishRevokes.colls = m.colls ∧ m.finishRevokes.drills = m.drills ∧ m.finishRevokes.rcv = m.rcv ∧
    m.finishRevokes.comp = m.comp ∧ m.finishRevokes.mem = m.mem ∧ m.finishRevokes.lasting = m.lasting := by
  have h := m.finishRevokes_unrevoked
  exact ⟨(congrArg (fun x : Main => x.cores) h :), (congrArg (fun x : Main => x.objs) h :), (congrArg (fun x : Main => x.coh) h :),
    (congrArg (fun x : Main => x.fab) h :), (congrArg (fun x : Main => x.host.dmas) h :), (congrArg (fun x : Main => x.colls) h :),
    (congrArg (fun x : Main => x.drills) h :), (congrArg (fun x : Main => x.rcv) h :), (congrArg (fun x : Main => x.comp) h :),
    (congrArg (fun x : Main => x.mem) h :), (congrArg Main.lasting h :)⟩

/-- Settles O44: what the loss of the rails takes, the end of the revocations leaves alone; the errors that wait are recorded before. -/
theorem startLeaves : Obligations.StartLeaves := by
  unfold Obligations.StartLeaves
  intro s cold t
  have hmain : t.main = _ := s.restart_main cold
  obtain ⟨hcores, hobjs, hcoh, hfab, hdmas, hcolls, hdrills, hrcv, hcomp, hmem, hlasting⟩ :=
    ((s.startNotes cold).startLoss cold (s.startKeeps cold)).finishRevokes_keeps
  have hrevokes := ((s.startNotes cold).startLoss cold (s.startKeeps cold)).finishRevokes_revokes
  generalize hends : ((s.startNotes cold).startLoss cold (s.startKeeps cold)).finishRevokes = m at *
  rw [hmain]
  refine ⟨rfl, rfl, rfl, rfl, congrArg Cores.wgs hcores, congrArg Cores.launches hcores, hobjs, hcoh, congrArg Fab.entries hfab,
    congrArg Fab.timeState hfab, hdmas, hcolls, hdrills, rfl, rfl, rfl, hrevokes, ?_, ?_, ?_, ?_, ?_⟩
  · exact s.tap.locked_opened
  · exact fun l hl => (s.startNotes cold).startLoss_lanes cold (s.startKeeps cold) l (hfab ▸ hl)
  · intro hraised
    exact (congrArg Rcv.errs hrcv).trans (((s.startNotes cold).startLoss_errs cold _).trans (s.startNotes_errs hraised cold))
  · rintro rfl
    have hkeeps : s.startKeeps true = [] := rfl
    rw [hkeeps] at hfab hcomp hmem
    obtain ⟨hrecs, hcells⟩ := (s.startNotes true).startLoss_nil true
    refine ⟨rfl, rfl, rfl, (congrArg Comp.recs hcomp).trans hrecs, (congrArg Memory.cells hmem).trans hcells,
      (congrArg Memory.extents hmem).trans ((s.startNotes true).startLoss_nil_extents true), rfl, congrArg Fab.mapped hfab⟩
  · rintro rfl
    have hkept : m.lasting = s.main.lasting :=
      hlasting.trans (((s.startNotes false).startLoss_lasting false _).trans (s.startNotes_lasting false))
    refine ⟨congrArg Prod.fst hkept, congrArg Prod.snd hkept, fun r hr => ?_⟩
    exact State.mem_startKeeps_warm ((s.startNotes false).startLoss_recs false _ r (hcomp ▸ hr))

end Sys2Proof.Machine
end

section
/-! What instructions of the vector classes come to: their operands, and the integer class (R56, R80-R84). -/

namespace Sys2Proof.Machine

/-! ### Operands (R80-R82) -/

section
variable (br : BRef) (w : WorkGroup) (la : Launch) (b : Bundle) (f : Fields) (cls func : Nat)

@[simp] theorem issueOf_br : (issueOf br w la b f cls func).br = br := rfl
@[simp] theorem issueOf_w : (issueOf br w la b f cls func).w = w := rfl
@[simp] theorem issueOf_la : (issueOf br w la b f cls func).la = la := rfl
@[simp] theorem issueOf_b : (issueOf br w la b f cls func).b = b.awake := rfl
@[simp] theorem issueOf_f : (issueOf br w la b f cls func).f = f := rfl
@[simp] theorem issueOf_mask : (issueOf br w la b f cls func).mask = b.effective f := rfl
@[simp] theorem issueOf_lanes : (issueOf br w la b f cls func).lanes = lanesOf (b.effective f) := rfl

end

/-- A used guard, or guard fields of zero, is legal in a class that may carry one (R79, R81). -/
theorem guardLegal_of_guardOk {f : Fields} {cls : Nat} (hcls : guarded cls = true) (h : GuardOk f) : guardLegal cls f = true := by
  have hcond : (f.ge || (!f.gn && f.gp == 0)) = true := by simpa [GuardOk] using h
  exact (if_pos hcls).trans hcond

/-- A number below 8 is a p register (R80). -/
theorem pReg_of_lt {x : BitVec 7} (h : x.toNat < 8) : pReg x = true := decide_eq_true h

/-- A number below the declared count is a v register (R58). -/
theorem Issue.vReg_of_lt {i : Issue} {x : BitVec 7} (h : x.toNat < i.la.spec.regs) : i.vReg x = true := decide_eq_true h

/-- Operand B's field is legal under each of its forms (R82). -/
theorem Issue.bLegal_of_formOk {i : Issue} {imm : Bool} (h : FormOk i.la.spec.regs i.f imm) : i.bLegal = true := by
  unfold Issue.bLegal Issue.form
  rcases h with ⟨hform, hb⟩ | ⟨hform, hb⟩ | ⟨-, hform, hb⟩ <;> rw [hform]
  · exact Issue.vReg_of_lt hb
  · exact uReg_of_lt hb
  · exact beq_iff_eq.2 hb

/-- Without an immediate form operand B is a register. -/
theorem form_ne_two_of_formOk {regs : Nat} {f : Fields} (h : FormOk regs f false) : fieldMod f 18 17 ≠ 2 := by
  rcases h with ⟨hform, -⟩ | ⟨hform, -⟩ | ⟨himm, -⟩
  · omega
  · omega
  · cases himm

/-- Operand B of a lane by its form (R82). -/
theorem Issue.bVal_eq_operandB (i : Issue) (fp : Bool) (l : Nat) :
    i.bVal fp l = operandB i.b i.f (if fp then fpImm i.f else intImm i.f) l := by
  unfold Issue.bVal Issue.form operandB
  by_cases hv : fieldMod i.f 18 17 = 0
  · simp only [hv, if_true]
  · by_cases hu : fieldMod i.f 18 17 = 1
    · simp only [hu, if_true, Nat.one_ne_zero, if_false]
    · simp only [hv, hu, if_false]

/-! ### Instructions of a thread class that name registers alone -/

/-- An instruction of threads that names no address and no core store, and finds nothing poisoned beside its registers. -/
def Ins.OfRegs (ins : Ins) : Prop :=
  ins.kind = .thread ∧ guarded ins.cls = true ∧
    ∀ m i, ins.store i = [] ∧ ins.addr m i = none ∧ ins.bad m i = fun _ => none

section
variable {s : State} {br : BRef} {w : WorkGroup} {la : Launch} {b : Bundle} {f : Fields} (h : Issues s.main br w la b)
  (hguard : GuardOk f) (hmask : b.effective f ≠ 0)
include h hguard hmask

/-- An instruction of registers whose fields are legal and whose registers are ready is performed. -/
theorem exec_of_regs {c : Instr} {ins : Ins} {m1 : Main} {b1 : Bundle} (hins : ins.OfRegs)
    (hexec : exec c s = onMain (ins.issue br f) s) (hlegal : ins.legal (issueOf br w la b f ins.cls ins.func) = true)
    (hready : RegsReady b (b.effective f) (ins.reads (issueOf br w la b f ins.cls ins.func))
      (ins.writes (issueOf br w la b f ins.cls ins.func)))
    (hrun : ins.run s.main (issueOf br w la b f ins.cls ins.func) = .done m1 b1) :
    exec c s = toMain s (m1.putBundle br b1) := by
  obtain ⟨hkind, hcls, hplain⟩ := hins
  obtain ⟨hstore, haddr, hbad⟩ := hplain s.main (issueOf br w la b f ins.cls ins.func)
  refine exec_of_done hexec h ?_ hrun
  exact Ins.passes_of_regsReady (fun _ => hmask) (by simp [hkind]) (guardLegal_of_guardOk hcls hguard) hlegal hready hstore haddr hbad

/-! ### The integer class (R83, R84) -/

/-- A two-operand integer operation (R84). -/
theorem exec_intIns {c : Instr} {func : Nat} {op : Word → Word → Word} (hexec : exec c s = onMain ((intIns func op).issue br f) s)
    (hdst : f.dst.toNat < la.spec.regs) (ha : f.a.toNat < la.spec.regs) (hform : FormOk la.spec.regs f true) (hc : f.c = 0)
    (himm : fieldMod f 18 17 ≠ 2 → fieldMod f 16 0 = 0)
    (hready : RegsReady b (b.effective f) (readsAB f) [(f.dst.toNat, 1)]) :
    exec c s = .next (bundleTo s br
      (wroteV b f (fun l => op (b.getV f.a.toNat l) (operandB b f ((f.md.setWidth 17).signExtend 32) l)))) := by
  refine exec_of_regs h hguard hmask (ins := intIns func op) ⟨rfl, rfl, fun _ _ => ⟨rfl, rfl, rfl⟩⟩ hexec ?_ hready ?_
  · have himm' : (issueOf br w la b f 1 func).form = 2 ∨ fieldMod f 16 0 = 0 := or_iff_not_imp_left.2 himm
    simpa [intIns, Issue.vReg, hdst, ha, hc, Issue.bLegal_of_formOk (i := issueOf br w la b f 1 func) hform] using himm'
  · simp only [intIns, Issue.bVal_eq_operandB]
    rfl

/-- A one-operand integer operation (R84). -/
theorem exec_intIns1 {c : Instr} {func : Nat} {op : Word → Word} (hexec : exec c s = onMain ((intIns1 func op).issue br f) s)
    (hdst : f.dst.toNat < la.spec.regs) (ha : f.a.toNat < la.spec.regs) (hb : f.b = 0) (hc : f.c = 0) (hmd : f.md = 0)
    (hready : RegsReady b (b.effective f) [(f.a.toNat, 1)] [(f.dst.toNat, 1)]) :
    exec c s = .next (bundleTo s br (wroteV b f (fun l => op (b.getV f.a.toNat l)))) := by
  refine exec_of_regs h hguard hmask (ins := intIns1 func op) ⟨rfl, rfl, fun _ _ => ⟨rfl, rfl, rfl⟩⟩ hexec ?_ hready rfl
  simp [intIns1, Issue.vReg, hdst, ha, hb, hc, hmd]

/-- IMAC (R84). -/
theorem exec_imac (ha : f.a.toNat < la.spec.regs) (hdst : f.dst.toNat < la.spec.regs) (hc : f.c.toNat < la.spec.regs)
    (hform : FormOk la.spec.regs f false) (hmod : fieldMod f 16 0 = 0)
    (hready : RegsReady b (b.effective f)
      ((f.a.toNat, 1) :: (f.c.toNat, 1) :: (if fieldMod f 18 17 = 0 then [(f.b.toNat, 1)] else [])) [(f.dst.toNat, 1)]) :
    exec (.imac br f) s = .next (bundleTo s br (wroteV b f (fun l =>
      b.getV f.a.toNat l * operandB b f ((f.md.setWidth 17).signExtend 32) l + b.getV f.c.toNat l))) := by
  refine exec_of_regs h hguard hmask (ins := imacIns) ⟨rfl, rfl, fun _ _ => ⟨rfl, rfl, rfl⟩⟩ rfl ?_ hready ?_
  · have hform2 : (issueOf br w la b f 1 5).form ≠ 2 := form_ne_two_of_formOk hform
    simpa [imacIns, Issue.vReg, hdst, ha, hc, hmod,
      Issue.bLegal_of_formOk (i := issueOf br w la b f 1 5) hform] using hform2
  · simp only [imacIns, Issue.bVal_eq_operandB]
    rfl

/-- ICMP of a code whose test is known (R83). -/
theorem exec_icmp {test : Word → Word → Bool} (htest : ∀ x y, icmpCode (fieldMod f 3 0) x y = some (test x y))
    (ha : f.a.toNat < la.spec.regs) (hdst : f.dst.toNat < 8) (hform : FormOk la.spec.regs f false) (hc : f.c = 0)
    (hmod : fieldMod f 16 4 = 0) (hready : RegsReady b (b.effective f) (readsAB f) []) :
    exec (.icmp br f) s = .next (bundleTo s br (wroteP b f (laneMask (fun l =>
      test (b.getV f.a.toNat l) (operandB b f ((f.md.setWidth 17).signExtend 32) l))))) := by
  refine exec_of_regs h hguard hmask (ins := icmpIns) ⟨rfl, rfl, fun _ _ => ⟨rfl, rfl, rfl⟩⟩ rfl ?_ hready ?_
  · have hform2 : (issueOf br w la b f 1 0x10).form ≠ 2 := form_ne_two_of_formOk hform
    simpa [icmpIns, Issue.vReg, pReg_of_lt hdst, ha, hc, hmod, htest,
      Issue.bLegal_of_formOk (i := issueOf br w la b f 1 0x10) hform] using hform2
  · have hcode (x y : Word) : (icmpCode (fieldMod (issueOf br w la b f 1 0x10).f 3 0) x y).getD false = test x y := by
      rw [show (issueOf br w la b f 1 0x10).f = f from rfl, htest, Option.getD_some]
    change Act.done s.main (((issueOf br w la b f 1 0x10).b.setP _ _ (laneMask fun l =>
      (icmpCode (fieldMod (issueOf br w la b f 1 0x10).f 3 0) _ ((issueOf br w la b f 1 0x10).bVal false l)).getD false)).advance) = _
    simp only [hcode, Issue.bVal_eq_operandB]
    rfl

/-- PICK (R84). -/
theorem exec_pick (ha : f.a.toNat < la.spec.regs) (hdst : f.dst.toNat < la.spec.regs) (hform : FormOk la.spec.regs f false)
    (hc : f.c = 0) (hmod : fieldMod f 16 7 = 0) (hlow : fieldMod f 3 0 = 0)
    (hready : RegsReady b (b.effective f) (readsAB f) [(f.dst.toNat, 1)]) :
    exec (.pick br f) s = .next (bundleTo s br (wroteV b f (fun l => if (b.getP (fieldMod f 6 4)).getLsbD l then
      b.getV f.a.toNat l else operandB b f ((f.md.setWidth 17).signExtend 32) l))) := by
  refine exec_of_regs h hguard hmask (ins := pickIns) ⟨rfl, rfl, fun _ _ => ⟨rfl, rfl, rfl⟩⟩ rfl ?_ hready ?_
  · have hform2 : (issueOf br w la b f 1 0x11).form ≠ 2 := form_ne_two_of_formOk hform
    simpa [pickIns, Issue.vReg, hdst, ha, hc, hmod, hlow,
      Issue.bLegal_of_formOk (i := issueOf br w la b f 1 0x11) hform] using hform2
  · simp only [pickIns, Issue.bVal_eq_operandB]
    rfl

/-- XLANE reads the lane that operand B names, whether or not that lane is active (R84). -/
theorem exec_xlane (ha : f.a.toNat < la.spec.regs) (hdst : f.dst.toNat < la.spec.regs) (hform : FormOk la.spec.regs f true)
    (hc : f.c = 0) (himm : fieldMod f 18 17 ≠ 2 → fieldMod f 16 0 = 0)
    (hready : RegsReady b (b.effective f) (if fieldMod f 18 17 = 0 then [(f.b.toNat, 1)] else []) [(f.dst.toNat, 1)])
    (hsource : ∀ l, l < 32 → (b.effective f).getLsbD l = true →
      b.poisonOf f.a.toNat 1 ((operandB b f ((f.md.setWidth 17).signExtend 32) l).toNat % 32) = none ∧
      b.pending f.a.toNat 1 ((operandB b f ((f.md.setWidth 17).signExtend 32) l).toNat % 32) = false) :
    exec (.xlane br f) s = .next (bundleTo s br (wroteV b f (fun l =>
      b.getV f.a.toNat ((operandB b f ((f.md.setWidth 17).signExtend 32) l).toNat % 32)))) := by
  let i := issueOf br w la b f 1 0x15
  have hlane (l : Nat) : i.xlane l = (operandB b f ((f.md.setWidth 17).signExtend 32) l).toNat % 32 :=
    congrArg (fun v : Word => v.toNat % 32) (i.bVal_eq_operandB false l)
  have hin : ∀ l ∈ i.lanes, b.poisonOf f.a.toNat 1 (i.xlane l) = none ∧ b.pending f.a.toNat 1 (i.xlane l) = false := by
    intro l hl
    obtain ⟨hlt, hbit⟩ := List.mem_filter.1 hl
    rw [hlane]
    exact hsource l (List.mem_range.1 hlt) hbit
  have hnone : (i.lanes.any fun l => b.pending f.a.toNat 1 (i.xlane l)) = false :=
    List.any_eq_false.2 fun l hl => by simp [hin l hl]
  obtain ⟨hpend, hpoison⟩ := hready.passes
  refine exec_of_done (ins := xlaneIns) rfl h ⟨fun _ => hmask, by simp [xlaneIns], guardLegal_of_guardOk rfl hguard, ?legal,
    hpend, b.awake.mmaTouches_nil, Main.xfersHeld_nil _ _, rfl, ?poison⟩ ?run
  case legal =>
    have himm' : i.form = 2 ∨ fieldMod f 16 0 = 0 := or_iff_not_imp_left.2 himm
    simpa [xlaneIns, i, Issue.vReg, hdst, ha, hc, Issue.bLegal_of_formOk (i := i) hform] using himm'
  case poison =>
    refine List.findSome?_eq_none_iff.2 fun l hl => ?_
    have hregs := List.findSome?_eq_none_iff.1 hpoison l hl
    have hbad : xlaneIns.bad s.main i l = none := (hin l hl).1
    simp only [Option.map_eq_none_iff] at hregs ⊢
    change (Option.orElse _ fun _ => xlaneIns.bad s.main i l) = none
    rw [hbad]
    exact hregs
  case run =>
    refine (if_neg fun hany => Bool.noConfusion (hnone.symm.trans hany)).trans ?_
    change Act.done s.main (i.b.setV f.dst.toNat i.mask (fun l => i.b.getV f.a.toNat (i.xlane l))).advance = _
    simp only [hlane]
    rfl

end

/-! ### What the operations give (R83, R84) -/

/-- The operation that each two-operand row performs (R84). -/
theorem exec_two_operand_row (br : BRef) (f : Fields) (s : State) :
    ∀ x ∈ ([(.iadd, fun a b => a + b), (.isub, fun a b => a - b), (.imul, fun a b => a * b),
        (.imulhs, fun a b => BitVec.ofInt 32 (a.toInt * b.toInt / 2 ^ 32)),
        (.imulhu, fun a b => BitVec.ofNat 32 (a.toNat * b.toNat / 2 ^ 32)),
        (.andv, fun a b => a &&& b), (.orv, fun a b => a ||| b), (.xorv, fun a b => a ^^^ b),
        (.shl, fun a b => a <<< (b.toNat % 32)), (.shr, fun a b => a >>> (b.toNat % 32)),
        (.sar, fun a b => a.sshiftRight (b.toNat % 32)),
        (.imins, fun a b => if a.toInt ≤ b.toInt then a else b), (.imaxs, fun a b => if a.toInt ≤ b.toInt then b else a),
        (.iminu, fun a b => if a.toNat ≤ b.toNat then a else b), (.imaxu, fun a b => if a.toNat ≤ b.toNat then b else a)] :
        List ((BRef → Fields → Instr) × (Word → Word → Word))),
      ∃ func, exec (x.1 br f) s = onMain ((intIns func x.2).issue br f) s := by
  have hmins : (fun a b : Word => if a.toInt ≤ b.toInt then a else b) = fun a b => if a.sle b then a else b := by
    simp [BitVec.sle]
  have hmaxs : (fun a b : Word => if a.toInt ≤ b.toInt then b else a) = fun a b => if a.sle b then b else a := by
    simp [BitVec.sle]
  have hminu : (fun a b : Word => if a.toNat ≤ b.toNat then a else b) = fun a b => if a.ule b then a else b := by
    simp [BitVec.ule]
  have hmaxu : (fun a b : Word => if a.toNat ≤ b.toNat then b else a) = fun a b => if a.ule b then b else a := by
    simp [BitVec.ule]
  rw [hmins, hmaxs, hminu, hmaxu]
  simp only [List.forall_mem_cons, List.not_mem_nil, false_implies, implies_true, and_true]
  exact ⟨⟨0x00, rfl⟩, ⟨0x01, rfl⟩, ⟨0x02, rfl⟩, ⟨0x03, rfl⟩, ⟨0x04, rfl⟩, ⟨0x06, rfl⟩, ⟨0x07, rfl⟩, ⟨0x08, rfl⟩, ⟨0x09, rfl⟩,
    ⟨0x0A, rfl⟩, ⟨0x0B, rfl⟩, ⟨0x0C, rfl⟩, ⟨0x0D, rfl⟩, ⟨0x0E, rfl⟩, ⟨0x0F, rfl⟩⟩

/-- Settles O2, from what a two-operand integer operation comes to and the operation of each row. -/
theorem integerResults : Obligations.IntegerResults := by
  intro s br w la b f h hguard hmask hdst ha hform hc himm hready x hx
  obtain ⟨func, hexec⟩ := exec_two_operand_row br f s x hx
  exact exec_intIns h hguard hmask hexec hdst ha hform hc himm hready

/-- The test of each code of ICMP and UCMP (R83). -/
theorem icmpCode_of_mem {k : Nat} (a c : BitVec k) :
    ∀ x ∈ ([(0, decide (a = c)), (1, decide (a ≠ c)), (2, decide (a.toInt < c.toInt)), (3, decide (a.toInt ≤ c.toInt)),
        (4, decide (c.toInt < a.toInt)), (5, decide (c.toInt ≤ a.toInt)), (6, decide (a.toNat < c.toNat)),
        (7, decide (a.toNat ≤ c.toNat)), (8, decide (c.toNat < a.toNat)), (9, decide (c.toNat ≤ a.toNat))] :
        List (Nat × Bool)), icmpCode x.1 a c = some x.2 := by
  simp only [List.forall_mem_cons, List.not_mem_nil, false_implies, implies_true, and_true]
  exact ⟨rfl, congrArg some (decide_not.symm), rfl, rfl, rfl, rfl, rfl, rfl, rfl, rfl⟩

/-- The bits of a word that are set, counted one by one (R84). -/
theorem popCount_eq_countP (a : Word) : popCount a = BitVec.ofNat 32 ((List.range 32).countP fun k => a.getLsbD k) := by
  rw [List.countP_eq_length_filter]
  rfl

/-- A number below 2^k has at most k bits. -/
theorem bitLen_le_iff {n k : Nat} : bitLen n ≤ k ↔ n < 2 ^ k := by
  unfold bitLen
  by_cases hn : n = 0
  · simp [hn]
  · rw [if_neg hn, Nat.succ_le_iff, Nat.log2_lt hn]

/-- How many of the first n numbers are at least c. -/
theorem countP_range_le (c n : Nat) : (List.range n).countP (fun k => decide (c ≤ k)) = n - c := by
  induction n with
  | zero => simp
  | succ n ih =>
    rw [List.range_succ, List.countP_append, ih, List.countP_singleton]
    by_cases hc : c ≤ n
    · simp [hc]; omega
    · simp [hc]; omega

/-- The leading zeros of a word are the places above its highest bit (R84). -/
theorem leadZeros_eq_countP (a : Word) :
    leadZeros a = BitVec.ofNat 32 ((List.range 32).countP fun k => decide (a.toNat < 2 ^ k)) := by
  simp only [leadZeros, ← bitLen_le_iff, countP_range_le]

/-- Settles O3, from what each of these instructions comes to. -/
theorem integerOthers : Obligations.IntegerOthers := by
  refine ⟨fun s br w la b f h hguard hmask ha => ⟨exec_imac h hguard hmask ha, ?icmp, exec_pick h hguard hmask ha,
    exec_xlane h hguard hmask ha⟩, ?single⟩
  case icmp =>
    intro hdst hform hc hmod hready x hx hcode
    refine exec_icmp h hguard hmask (fun y z => ?_) ha hdst hform hc hmod hready
    rw [hcode]
    exact icmpCode_of_mem y z (x.1, x.2 y z) (List.mem_map_of_mem (f := fun t => (t.1, t.2 y z)) hx)
  case single =>
    intro s br w la b f h hguard hmask hdst ha hb hc hmd hready
    refine ⟨exec_intIns1 h hguard hmask (func := 0x14) (op := fun x => x) rfl hdst ha hb hc hmd hready, ?bitcnt, ?clz⟩
    case bitcnt =>
      simp only [← popCount_eq_countP]
      exact exec_intIns1 h hguard hmask (func := 0x12) (op := popCount) rfl hdst ha hb hc hmd hready
    case clz =>
      simp only [← leadZeros_eq_countP]
      exact exec_intIns1 h hguard hmask (func := 0x13) (op := leadZeros) rfl hdst ha hb hc hmd hready

end Sys2Proof.Machine
end

section
/-! What instructions of the FP32 and conversion classes come to (R44, R83, R85-R88). -/

namespace Sys2Proof.Machine

/-! ### Bits and rounding modes (R46, R85) -/

/-- A bit of a word as the fields read it. -/
theorem bit_toNat {k : Nat} (x : BitVec k) (n : Nat) : bit x.toNat n = x.getLsbD n := by
  rw [bit, BitVec.getLsbD, Nat.testBit_eq_decide_div_mod_eq]
  rfl

/-- The rounding mode of a field of the vector classes: 0 to 3, in this order (R46). -/
def roundingOf : Nat → RMode
  | 1 => .rtz
  | 2 => .rup
  | 3 => .rdn
  | _ => .rne

/-- The codes up to 3 name the modes of the vector classes. -/
theorem RMode.ofCode_getD {k : Nat} (hk : k ≤ 3) : (RMode.ofCode k).getD .rne = roundingOf k := by
  interval_cases k <;> rfl

/-! ### Operands with their modifiers (R85) -/

section
variable (i : Issue) (l : Nat)

theorem Issue.f32_fpA : f32 (i.fpA l) = fpOperand i.f 13 10 (i.b.getV i.f.a.toNat l) := by
  simp only [Issue.fpA, Issue.form, fpModify, bit_toNat]
  exact apply_ite f32 _ _ _

theorem Issue.f32_fpB : f32 (i.fpB l) = fpOperand i.f 12 9 (operandB i.b i.f (fpImm i.f) l) := by
  simp only [Issue.fpB, Issue.form, fpModify, bit_toNat, Issue.bVal_eq_operandB, if_true]
  exact apply_ite f32 _ _ _

theorem Issue.fpC_eq : i.fpC l =
    if i.f.md.getLsbD 11 then i.b.getV i.f.c.toNat l ^^^ 0x80000000#32 else i.b.getV i.f.c.toNat l := by
  simp only [Issue.fpC, fpModify, bit_toNat, Bool.false_eq_true, if_false]

/-- The rounding mode that the fields name; the immediate form has none (R85). -/
theorem Issue.fpMode_eq (hmode : fieldMod i.f 18 17 ≠ 2 → fieldMod i.f 16 14 ≤ 3) : i.fpMode = fpModeOf i.f := by
  unfold Issue.fpMode Issue.form fpModeOf
  by_cases himm : fieldMod i.f 18 17 = 2
  · rw [if_pos himm, if_pos himm]
  · rw [if_neg himm, if_neg himm, RMode.ofCode_getD (hmode himm)]
    rfl

end

/-! ### Results with flags (R44, R118, R135) -/

/-- Results whose new flags TRAPEN does not promote are written, and their flags stick (R44, R135). -/
theorem writeFp_of_quiet {m : Main} {i : Issue} {op : Nat → FRes} (hquiet : Quiet i.la i.b (flagsOf i.mask op)) :
    writeFp m i op = .done m { (i.b.setV i.f.dst.toNat i.mask (fun l => (op l).1)) with
      vflags := i.b.vflags ||| flagsOf i.mask op, pc := i.b.pc + 8 } := by
  have hall : (i.lanes.map (fun l => (l, (op l).2))).foldl (fun a x => a ||| x.2) 0 = flagsOf i.mask op := List.foldl_map ..
  unfold writeFp doneFlags
  simp only [hall]
  exact if_pos hquiet

section
variable {s : State} {br : BRef} {w : WorkGroup} {la : Launch} {b : Bundle} {f : Fields} (h : Issues s.main br w la b)
  (hguard : GuardOk f) (hmask : b.effective f ≠ 0)
include h hguard hmask

/-- An instruction of registers that writes results with flags. -/
theorem exec_of_fp {c : Instr} {ins : Ins} {op : Nat → FRes} (hins : ins.OfRegs) (hexec : exec c s = onMain (ins.issue br f) s)
    (hlegal : ins.legal (issueOf br w la b f ins.cls ins.func) = true)
    (hready : RegsReady b (b.effective f) (ins.reads (issueOf br w la b f ins.cls ins.func))
      (ins.writes (issueOf br w la b f ins.cls ins.func)))
    (hrun : ins.run s.main (issueOf br w la b f ins.cls ins.func) =
      writeFp s.main (issueOf br w la b f ins.cls ins.func) op)
    (hquiet : Quiet la b (flagsOf (b.effective f) op)) : exec c s = .next (bundleTo s br (wroteF b f op)) :=
  exec_of_regs h hguard hmask hins hexec hlegal hready (hrun.trans (writeFp_of_quiet hquiet))

/-! ### The FP32 class (R83, R85, R86) -/

/-- An operation on A and B (R85). -/
theorem exec_fpIns {c : Instr} {func : Nat} {op : RMode → Num → Num → FRes}
    (hexec : exec c s = onMain ((fpIns func op).issue br f) s) (ha : f.a.toNat < la.spec.regs) (hdst : f.dst.toNat < la.spec.regs)
    (hform : FormOk la.spec.regs f true) (hc : f.c = 0)
    (hmod : fieldMod f 18 17 ≠ 2 → fieldMod f 16 14 ≤ 3 ∧ fieldMod f 11 11 = 0 ∧ fieldMod f 8 0 = 0)
    (hready : RegsReady b (b.effective f) (readsAB f) [(f.dst.toNat, 1)])
    (hquiet : Quiet la b (flagsOf (b.effective f) fun l => op (fpModeOf f) (fpOperand f 13 10 (b.getV f.a.toNat l))
      (fpOperand f 12 9 (operandB b f (fpImm f) l)))) :
    exec c s = .next (bundleTo s br (wroteF b f fun l => op (fpModeOf f) (fpOperand f 13 10 (b.getV f.a.toNat l))
      (fpOperand f 12 9 (operandB b f (fpImm f) l)))) := by
  refine exec_of_fp h hguard hmask (ins := fpIns func op) ⟨rfl, rfl, fun _ _ => ⟨rfl, rfl, rfl⟩⟩ hexec ?_ hready ?_ hquiet
  · have hmod' : (issueOf br w la b f 2 func).form = 2 ∨ ((fpModeOk f = true ∧ fieldMod f 11 11 = 0) ∧ fieldMod f 8 0 = 0) :=
      or_iff_not_imp_left.2 fun himm => by simpa [fpModeOk, and_assoc] using hmod himm
    simpa [fpIns, Issue.vReg, hdst, ha, hc, Issue.bLegal_of_formOk (i := issueOf br w la b f 2 func) hform] using hmod'
  · simp only [fpIns, Issue.f32_fpA, Issue.f32_fpB,
      Issue.fpMode_eq (issueOf br w la b f 2 func) fun himm => (hmod himm).1]
    rfl

/-- FMAC rounds once (R85). -/
theorem exec_fmac (ha : f.a.toNat < la.spec.regs) (hdst : f.dst.toNat < la.spec.regs) (hc : f.c.toNat < la.spec.regs)
    (hform : FormOk la.spec.regs f false) (hmode : fieldMod f 16 14 ≤ 3) (hmod : fieldMod f 8 0 = 0)
    (hready : RegsReady b (b.effective f)
      ((f.a.toNat, 1) :: (f.c.toNat, 1) :: (if fieldMod f 18 17 = 0 then [(f.b.toNat, 1)] else [])) [(f.dst.toNat, 1)])
    (hquiet : Quiet la b (flagsOf (b.effective f) fun l => fFma (fpModeOf f) (fpOperand f 13 10 (b.getV f.a.toNat l))
      (fpOperand f 12 9 (operandB b f (fpImm f) l))
      (f32 (if f.md.getLsbD 11 then b.getV f.c.toNat l ^^^ 0x80000000#32 else b.getV f.c.toNat l)))) :
    exec (.fmac br f) s = .next (bundleTo s br (wroteF b f fun l => fFma (fpModeOf f) (fpOperand f 13 10 (b.getV f.a.toNat l))
      (fpOperand f 12 9 (operandB b f (fpImm f) l))
      (f32 (if f.md.getLsbD 11 then b.getV f.c.toNat l ^^^ 0x80000000#32 else b.getV f.c.toNat l)))) := by
  refine exec_of_fp h hguard hmask (ins := fmacIns) ⟨rfl, rfl, fun _ _ => ⟨rfl, rfl, rfl⟩⟩ rfl ?_ hready ?_ hquiet
  · have hform2 : (issueOf br w la b f 2 3).form ≠ 2 := form_ne_two_of_formOk hform
    simpa [fmacIns, fpModeOk, Issue.vReg, hdst, ha, hc, hmod, hmode,
      Issue.bLegal_of_formOk (i := issueOf br w la b f 2 3) hform] using hform2
  · simp only [fmacIns, Issue.f32_fpA, Issue.f32_fpB, Issue.fpC_eq, Issue.fpMode_eq (issueOf br w la b f 2 3) fun _ => hmode]
    rfl

/-- FCMP of a code whose test is known; it sets no flag (R83). -/
theorem exec_fcmp {test : Num → Num → Bool} (htest : ∀ x y, fcmpCode (fieldMod f 3 0) x y = some (test x y))
    (ha : f.a.toNat < la.spec.regs) (hdst : f.dst.toNat < 8) (hform : FormOk la.spec.regs f false) (hc : f.c = 0)
    (hmode : fieldMod f 16 14 ≤ 3) (hmod : fieldMod f 11 11 = 0) (hlow : fieldMod f 8 4 = 0)
    (hready : RegsReady b (b.effective f) (readsAB f) []) :
    exec (.fcmp br f) s = .next (bundleTo s br (wroteP b f (laneMask (fun l =>
      test (fpOperand f 13 10 (b.getV f.a.toNat l)) (fpOperand f 12 9 (operandB b f (fpImm f) l)))))) := by
  refine exec_of_regs h hguard hmask (ins := fcmpIns) ⟨rfl, rfl, fun _ _ => ⟨rfl, rfl, rfl⟩⟩ rfl ?_ hready ?_
  · have hform2 : (issueOf br w la b f 2 8).form ≠ 2 := form_ne_two_of_formOk hform
    simpa [fcmpIns, fpModeOk, Issue.vReg, pReg_of_lt hdst, ha, hc, hmod, hmode, hlow, htest,
      Issue.bLegal_of_formOk (i := issueOf br w la b f 2 8) hform] using hform2
  · simp only [fcmpIns, issueOf_f, htest, Option.getD_some, Issue.f32_fpA, Issue.f32_fpB]
    rfl

/-- A one-operand operation of the FP32 class; `fixed` says that its rounding field is 0 (R85, R86). -/
theorem exec_fpIns1 {c : Instr} {func : Nat} {fixed : Bool} {op : RMode → Word → FRes}
    (hexec : exec c s = onMain ((fpIns1 func fixed op).issue br f) s) (hdst : f.dst.toNat < la.spec.regs)
    (ha : f.a.toNat < la.spec.regs) (hb : f.b = 0) (hc : f.c = 0) (hform : fieldMod f 18 17 = 0) (hmod : fieldMod f 12 11 = 0)
    (hlow : fieldMod f 9 0 = 0) (hmode : if fixed then fieldMod f 16 14 = 0 else fieldMod f 16 14 ≤ 3)
    (hready : RegsReady b (b.effective f) [(f.a.toNat, 1)] [(f.dst.toNat, 1)])
    (hquiet : Quiet la b (flagsOf (b.effective f) fun l => op (fpModeOf f)
      (fpModify (b.getV f.a.toNat l) (f.md.getLsbD 13) (f.md.getLsbD 10)))) :
    exec c s = .next (bundleTo s br (wroteF b f fun l => op (fpModeOf f)
      (fpModify (b.getV f.a.toNat l) (f.md.getLsbD 13) (f.md.getLsbD 10)))) := by
  have hle : fieldMod f 16 14 ≤ 3 := by
    cases fixed
    · exact hmode
    · exact le_of_eq_of_le hmode (Nat.zero_le 3)
  refine exec_of_fp h hguard hmask (ins := fpIns1 func fixed op) ⟨rfl, rfl, fun _ _ => ⟨rfl, rfl, rfl⟩⟩ hexec ?_ hready ?_ hquiet
  · have hfield : (if fixed then fieldMod f 16 14 == 0 else fpModeOk f) = true := by
      cases fixed
      · exact decide_eq_true hmode
      · exact beq_iff_eq.2 hmode
    simp [fpIns1, Issue.form, Issue.vReg, hdst, ha, hb, hc, hform, hmod, hlow, hfield]
  · simp only [fpIns1, Issue.fpA, Issue.form, bit_toNat, issueOf_f, hform, OfNat.zero_ne_ofNat, if_false,
      Issue.fpMode_eq (issueOf br w la b f 2 func) fun _ => hle]
    rfl

/-! ### Conversions (R87, R88) -/

/-- I2F and F2I (R87). -/
theorem exec_intFpIns {c : Instr} {func : Nat} {op : RMode → Bool → Word → FRes}
    (hexec : exec c s = onMain ((intFpIns func op).issue br f) s) (hdst : f.dst.toNat < la.spec.regs)
    (ha : f.a.toNat < la.spec.regs) (hb : f.b = 0) (hc : f.c = 0) (hmod : fieldMod f 18 5 = 0) (hlow : fieldMod f 3 2 = 0)
    (hready : RegsReady b (b.effective f) [(f.a.toNat, 1)] [(f.dst.toNat, 1)])
    (hquiet : Quiet la b (flagsOf (b.effective f) fun l => op (roundingOf (fieldMod f 1 0)) (f.md.getLsbD 4) (b.getV f.a.toNat l))) :
    exec c s = .next (bundleTo s br (wroteF b f fun l =>
      op (roundingOf (fieldMod f 1 0)) (f.md.getLsbD 4) (b.getV f.a.toNat l))) := by
  have hcode : fieldMod f 2 0 = fieldMod f 1 0 := by
    simp only [fieldMod, bits] at hlow ⊢
    omega
  have hle : fieldMod f 1 0 ≤ 3 := Nat.le_of_lt_succ (Nat.mod_lt _ (by decide))
  refine exec_of_fp h hguard hmask (ins := intFpIns func op) ⟨rfl, rfl, fun _ _ => ⟨rfl, rfl, rfl⟩⟩ hexec ?_ hready ?_ hquiet
  · simp [intFpIns, Issue.vReg, hdst, ha, hb, hc, hmod, hlow]
  · simp only [intFpIns, Issue.cvtMode, bit_toNat, issueOf_f, hcode, RMode.ofCode_getD hle]
    rfl

/-- CVT of one element into its slot (R88). -/
theorem exec_cvt {src dst : Elem} (hdst : f.dst.toNat < la.spec.regs) (ha : f.a.toNat < la.spec.regs) (hb : f.b = 0) (hc : f.c = 0)
    (hsrc : Elem.ofCode (fieldMod f 18 15) = some src) (hto : Elem.ofCode (fieldMod f 14 11) = some dst)
    (hslot : fieldMod f 3 1 < src.slots) (htoSlot : fieldMod f 6 4 < dst.slots) (hmode : fieldMod f 10 8 ≤ 3)
    (hlow : fieldMod f 0 0 = 0)
    (hready : RegsReady b (b.effective f) ((f.a.toNat, 1) :: (if dst = .fp32 then [] else [(f.dst.toNat, 1)])) [(f.dst.toNat, 1)])
    (hquiet : Quiet la b (flagsOf (b.effective f) fun l => cvtOne src dst (roundingOf (fieldMod f 10 8)) (f.md.getLsbD 7)
      (fieldMod f 6 4) (fieldMod f 3 1) (b.getV f.dst.toNat l) (b.getV f.a.toNat l))) :
    exec (.cvt br f) s = .next (bundleTo s br (wroteF b f fun l => cvtOne src dst (roundingOf (fieldMod f 10 8)) (f.md.getLsbD 7)
      (fieldMod f 6 4) (fieldMod f 3 1) (b.getV f.dst.toNat l) (b.getV f.a.toNat l))) := by
  have hcvtSrc : (issueOf br w la b f 3 0).cvtSrc = some src := hsrc
  have hcvtDst : (issueOf br w la b f 3 0).cvtDst = some dst := hto
  have hreads : cvtIns.reads (issueOf br w la b f 3 0) = (f.a.toNat, 1) :: (if dst = .fp32 then [] else [(f.dst.toNat, 1)]) := by
    by_cases h32 : dst = .fp32 <;> simp [cvtIns, Issue.cvtReadsDst, hcvtDst, h32]
  refine exec_of_fp h hguard hmask (ins := cvtIns) ⟨rfl, rfl, fun _ _ => ⟨rfl, rfl, rfl⟩⟩ rfl ?_ (hreads ▸ hready) ?_ hquiet
  · simp [cvtIns, Issue.vReg, hdst, ha, hb, hc, hcvtSrc, hcvtDst, hslot, htoSlot, hmode, hlow]
  · simp only [cvtIns, bit_toNat, issueOf_f, hcvtSrc, hcvtDst, Option.getD_some, RMode.ofCode_getD hmode]
    rfl

end

/-! ### What the rows give -/

/-- The test of each code of FCMP (R83). -/
theorem fcmpCode_of_mem (a c : Num) :
    ∀ x ∈ ([(0, fun u o => !u && o == .eq), (1, fun u o => u || o != .eq), (2, fun u o => !u && o == .lt),
        (3, fun u o => !u && o != .gt), (4, fun u o => !u && o == .gt), (5, fun u o => !u && o != .lt),
        (6, fun u _ => !u), (7, fun u _ => u)] : List (Nat × (Bool → Ordering → Bool))),
      fcmpCode x.1 a c = some (x.2 (a.isNaN || c.isNaN) (Num.cmp a c)) := by
  simp only [List.forall_mem_cons, List.not_mem_nil, false_implies, implies_true, and_true]
  exact ⟨rfl, rfl, rfl, rfl, rfl, rfl, rfl, rfl⟩

/-- The operation that each two-operand row of the FP32 class performs (R85). -/
theorem exec_fp_row (br : BRef) (f : Fields) (s : State) :
    ∀ x ∈ ([(.fadd, fAdd), (.fsub, fun r a b => fAdd r a b.neg), (.fmul, fMul), (.fdiv, fDiv),
        (.fmin, fun _ a b => fMin a b), (.fmax, fun _ a b => fMax a b)] :
        List ((BRef → Fields → Instr) × (RMode → Num → Num → FRes))),
      ∃ func, exec (x.1 br f) s = onMain ((fpIns func x.2).issue br f) s := by
  simp only [List.forall_mem_cons, List.not_mem_nil, false_implies, implies_true, and_true]
  exact ⟨⟨0x00, rfl⟩, ⟨0x01, rfl⟩, ⟨0x02, rfl⟩, ⟨0x04, rfl⟩, ⟨0x06, rfl⟩, ⟨0x07, rfl⟩⟩

/-- Settles O4, from what each instruction of the two classes comes to. -/
theorem fpResults : Obligations.FpResults := by
  refine ⟨fun s br w la b f h hguard hmask ha => ⟨?two, exec_fmac h hguard hmask ha, ?compare⟩,
    fun s br w la b f h hguard hmask hdst ha hb hc => ⟨fun hready => ⟨?single, ?integer⟩, ?convert⟩⟩
  case two =>
    intro hdst hform hc hmod hready x hx
    obtain ⟨func, hexec⟩ := exec_fp_row br f s x hx
    exact exec_fpIns h hguard hmask hexec ha hdst hform hc hmod hready
  case compare =>
    intro hdst hform hc hmode hmod hlow hready x hx hcode
    refine exec_fcmp h hguard hmask (test := fun y z => x.2 (y.isNaN || z.isNaN) (Num.cmp y z)) (fun y z => ?_) ha hdst hform hc
      hmode hmod hlow hready
    rw [hcode]
    exact fcmpCode_of_mem y z x hx
  case single =>
    intro hform hmod hlow
    refine ⟨fun hmode => ?_, fun hmode => ⟨?_, ?_⟩⟩
    · exact exec_fpIns1 h hguard hmask (fixed := false) (op := fun r x => fSqrt r (f32 x)) rfl hdst ha hb hc hform hmod hlow hmode
        hready
    · exact exec_fpIns1 h hguard hmask (fixed := true) (op := fun _ x => fPow2 x) rfl hdst ha hb hc hform hmod hlow hmode hready
    · exact exec_fpIns1 h hguard hmask (fixed := true) (op := fun _ x => fLog2 x) rfl hdst ha hb hc hform hmod hlow hmode hready
  case integer =>
    intro hmod hlow
    exact ⟨exec_intFpIns h hguard hmask (op := i2fOne) rfl hdst ha hb hc hmod hlow hready,
      exec_intFpIns h hguard hmask (op := f2iOne) rfl hdst ha hb hc hmod hlow hready⟩
  case convert =>
    intro src dst hsrc hto hslot htoSlot hmode hlow hready
    exact exec_cvt h hguard hmask hdst ha hb hc hsrc hto hslot htoSlot hmode hlow hready

end Sys2Proof.Machine
end

section
/-! What predicate and uniform instructions come to (R87, R89). -/

namespace Sys2Proof.Machine

/-! ### Immediates of the uniform class (R89) -/

/-- Fields put one after another, as a number. -/
theorem toNat_append_eq {n k : Nat} (x : BitVec n) (y : BitVec k) : (x ++ y).toNat = x.toNat * 2 ^ k + y.toNat := by
  rw [BitVec.toNat_append, ← Nat.shiftLeft_add_eq_or_of_lt y.isLt, Nat.shiftLeft_eq]

/-- The low 40 bits of the word are its last four fields (R89). -/
theorem fieldImm_eq_append (f : Fields) : fieldImm f = (f.a.setWidth 7 ++ f.b ++ f.c ++ f.md : BitVec 40) := by
  apply BitVec.eq_of_toNat_eq
  have hmd := f.md.isLt
  have hc := f.c.isLt
  have hb := f.b.isLt
  have ha := f.a.isLt
  simp only [fieldImm, toNat_append_eq, BitVec.toNat_ofNat, BitVec.setWidth_eq]
  omega

section
variable {s : State} {br : BRef} {w : WorkGroup} {la : Launch} {b : Bundle} {f : Fields} (h : Issues s.main br w la b)
include h

/-! ### Predicates (R87) -/

/-- An instruction of threads that writes one predicate and names no vector register. -/
theorem exec_of_pred {c : Instr} {ins : Ins} {v : Word} (hguard : GuardOk f) (hmask : b.effective f ≠ 0) (hins : ins.OfRegs)
    (hregs : ins.reads = noRegs ∧ ins.writes = noRegs) (hexec : exec c s = onMain (ins.issue br f) s)
    (hlegal : ins.legal (issueOf br w la b f ins.cls ins.func) = true)
    (hrun : ins.run s.main (issueOf br w la b f ins.cls ins.func) =
      .done s.main (b.awake.setP f.dst.toNat (b.effective f) v).advance) :
    exec c s = .next (bundleTo s br (wroteP b f v)) := by
  obtain ⟨hreads, hwrites⟩ := hregs
  refine exec_of_regs h hguard hmask hins hexec hlegal ?_ hrun
  rw [hreads, hwrites]
  simp [RegsReady, noRegs]

/-- PAND, POR and PXOR (R87). -/
theorem exec_predIns {c : Instr} {func : Nat} {op : Word → Word → Word} (hguard : GuardOk f) (hmask : b.effective f ≠ 0)
    (hexec : exec c s = onMain ((predIns func op).issue br f) s) (hdst : f.dst.toNat < 8) (hc : f.c = 0) (ha : f.a.toNat < 8)
    (hb : f.b.toNat < 8) (hmd : f.md = 0) :
    exec c s = .next (bundleTo s br (wroteP b f (op (b.getP f.a.toNat) (b.getP f.b.toNat)))) := by
  refine exec_of_pred h hguard hmask (ins := predIns func op) ⟨rfl, rfl, fun _ _ => ⟨rfl, rfl, rfl⟩⟩ ⟨rfl, rfl⟩ hexec ?_ rfl
  simp [predIns, pReg_of_lt hdst, pReg_of_lt ha, pReg_of_lt hb, hc, hmd]

theorem exec_pnot (hguard : GuardOk f) (hmask : b.effective f ≠ 0) (hdst : f.dst.toNat < 8) (hc : f.c = 0) (ha : f.a.toNat < 8)
    (hb : f.b = 0) (hmd : f.md = 0) : exec (.pnot br f) s = .next (bundleTo s br (wroteP b f (~~~(b.getP f.a.toNat)))) := by
  refine exec_of_pred h hguard hmask (ins := pnotIns) ⟨rfl, rfl, fun _ _ => ⟨rfl, rfl, rfl⟩⟩ ⟨rfl, rfl⟩ rfl ?_ rfl
  simp [pnotIns, pReg_of_lt hdst, pReg_of_lt ha, hb, hc, hmd]

theorem exec_pset (hguard : GuardOk f) (hmask : b.effective f ≠ 0) (hdst : f.dst.toNat < 8) (hc : f.c = 0) (ha : f.a = 0)
    (hb : f.b = 0) (hmod : fieldMod f 18 1 = 0) :
    exec (.pset br f) s = .next (bundleTo s br (wroteP b f (if f.md.getLsbD 0 then 0xFFFFFFFF#32 else 0))) := by
  refine exec_of_pred h hguard hmask (ins := psetIns) ⟨rfl, rfl, fun _ _ => ⟨rfl, rfl, rfl⟩⟩ ⟨rfl, rfl⟩ rfl ?_ rfl
  simp [psetIns, pReg_of_lt hdst, ha, hb, hc, hmod]

/-! ### Uniform registers (R89) -/

/-- A uniform instruction whose fields are legal writes its u register. -/
theorem exec_uniIns {c : Instr} {func : Nat} {legal : Issue → Bool} {val : Issue → DWord} {v : DWord} (hguard : NoGuard f)
    (hmask : b.mask ≠ 0) (hdst : f.dst.toNat < 64) (hexec : exec c s = onMain ((uniIns func legal val).issue br f) s)
    (hlegal : legal (issueOf br w la b f 4 func) = true) (hval : val (issueOf br w la b f 4 func) = v) :
    exec c s = .next (bundleTo s br (wroteU b f v)) := by
  subst hval
  refine exec_of_plain h hguard hmask (ins := uniIns func legal val) hexec (fun _ _ => ⟨rfl, rfl, rfl, rfl, rfl⟩) rfl ?_ rfl
  exact Bool.and_eq_true_iff.2 ⟨uReg_of_lt hdst, hlegal⟩

/-- ULANE reads a lane of a v register that carries no poison and that no operation in flight will write (R89, R118). -/
theorem exec_ulane (hguard : NoGuard f) (hmask : b.mask ≠ 0) (hdst : f.dst.toNat < 64) (ha : f.a.toNat < la.spec.regs)
    (hb : f.b = 0) (hc : f.c = 0) (hmod : fieldMod f 18 5 = 0) (hpoison : b.poisonOf f.a.toNat 1 (fieldMod f 4 0) = none)
    (hpend : b.pending f.a.toNat 1 (fieldMod f 4 0) = false) :
    exec (.ulane br f) s = .next (bundleTo s br (wroteU b f ((b.getV f.a.toNat (fieldMod f 4 0)).setWidth 64))) := by
  have hpoison' : b.awake.poisonOf f.a.toNat 1 (fieldMod f 4 0) = none := hpoison
  have hpend' : b.awake.pending f.a.toNat 1 (fieldMod f 4 0) = false := hpend
  refine exec_of_plain h hguard hmask (ins := ulaneIns) (m1 := s.main)
    (b1 := (b.awake.setU f.dst.toNat ((b.awake.getV f.a.toNat (fieldMod f 4 0)).setWidth 64)).advance) rfl
    (fun _ _ => ⟨rfl, rfl, rfl, rfl, rfl⟩) rfl ?_ ?_
  · simp [ulaneIns, Issue.vReg, uReg_of_lt hdst, ha, hb, hc, hmod]
  · simp only [ulaneIns, issueOf_b, issueOf_f, hpend', hpoison', Bool.false_eq_true, if_false]

end

/-! ### What the rows give -/

/-- The operation that each uniform row on two registers performs (R89). -/
theorem exec_uniform_row (br : BRef) (f : Fields) (s : State) (a c : DWord) :
    ∀ x ∈ ([(.uadd, a + c), (.usub, a - c), (.umul, a * c), (.uand, a &&& c), (.uor, a ||| c), (.uxor, a ^^^ c),
        (.ushl, a <<< (c.toNat % 64)), (.ushr, a >>> (c.toNat % 64)), (.usar, a.sshiftRight (c.toNat % 64))] :
        List ((BRef → Fields → Instr) × DWord)),
      ∃ func op, exec (x.1 br f) s = onMain ((uniIns2 func op).issue br f) s ∧ op a c = x.2 := by
  simp only [List.forall_mem_cons, List.not_mem_nil, false_implies, implies_true, and_true]
  exact ⟨⟨0x00, _, rfl, rfl⟩, ⟨0x01, _, rfl, rfl⟩, ⟨0x02, _, rfl, rfl⟩, ⟨0x03, _, rfl, rfl⟩, ⟨0x04, _, rfl, rfl⟩, ⟨0x05, _, rfl, rfl⟩,
    ⟨0x06, _, rfl, rfl⟩, ⟨0x07, _, rfl, rfl⟩, ⟨0x08, _, rfl, rfl⟩⟩

/-- Whether a code is reserved does not depend on what is compared (R83). -/
theorem icmpCode_isSome_eq {k code : Nat} (a a' c c' : BitVec k) :
    (icmpCode code a c).isSome = (icmpCode code a' c').isSome := by
  unfold icmpCode
  split <;> rfl

/-- Settles O5, from what each predicate and uniform instruction comes to. -/
theorem predicateAndUniformResults : Obligations.PredicateAndUniformResults := by
  refine ⟨fun s br w la b f h hguard hmask hdst hc => ⟨fun ha hb hmd => ⟨?_, ?_, ?_⟩,
      exec_pnot h hguard hmask hdst hc, exec_pset h hguard hmask hdst hc⟩,
    fun s br w la b f h hguard hmask hdst => ⟨?two, ?umov, ?uldi, ?uldhi, ?ucmp, ?uaddi,
      exec_ulane h hguard hmask hdst, ?uvote⟩⟩
  · exact exec_predIns h hguard hmask (op := (· &&& ·)) rfl hdst hc ha hb hmd
  · exact exec_predIns h hguard hmask (op := (· ||| ·)) rfl hdst hc ha hb hmd
  · exact exec_predIns h hguard hmask (op := (· ^^^ ·)) rfl hdst hc ha hb hmd
  case two =>
    intro ha hb hc hmd x hx
    obtain ⟨func, op, hexec, hop⟩ := exec_uniform_row br f s (b.getU f.a.toNat) (b.getU f.b.toNat) x hx
    refine exec_uniIns h hguard hmask hdst hexec ?_ hop
    simp [uReg_of_lt ha, uReg_of_lt hb, hc, hmd]
  case umov =>
    intro ha hb hc hmd
    refine exec_uniIns h hguard hmask hdst (func := 0x09) rfl ?_ rfl
    simp [uReg_of_lt ha, hb, hc, hmd]
  case uldi =>
    refine exec_uniIns h hguard hmask hdst (func := 0x0A) rfl rfl ?_
    rw [← fieldImm_eq_append]
    rfl
  case uldhi =>
    rw [← fieldImm_eq_append]
    intro hlow
    refine exec_uniIns h hguard hmask hdst (func := 0x0B) rfl ?_ ?_
    · exact beq_iff_eq.2 (Nat.div_eq_of_lt hlow)
    · simp only [issueOf_f, Nat.mod_eq_of_lt hlow]
      rfl
  case ucmp =>
    intro ha hb hc hmod x hx hcode
    have htest : icmpCode (fieldMod f 3 0) (b.getU f.a.toNat) (b.getU f.b.toNat) = some x.2 :=
      hcode ▸ icmpCode_of_mem (b.getU f.a.toNat) (b.getU f.b.toNat) x hx
    refine exec_uniIns h hguard hmask hdst (func := 0x0C) rfl ?_ ?_
    · have hsome : (icmpCode (fieldMod f 3 0) 0#64 0#64).isSome = true := by
        rw [icmpCode_isSome_eq _ (b.getU f.a.toNat) _ (b.getU f.b.toNat), htest, Option.isSome_some]
      simp [uReg_of_lt ha, uReg_of_lt hb, hc, hmod, hsome]
    · change (if (icmpCode (fieldMod f 3 0) (b.getU f.a.toNat) (b.getU f.b.toNat)).getD false then 1 else 0) = _
      rw [htest, Option.getD_some]
  case uaddi =>
    intro ha hb hc
    refine exec_uniIns h hguard hmask hdst (func := 0x0D) rfl ?_ rfl
    simp [uReg_of_lt ha, hb, hc]
  case uvote =>
    intro ha hb hc hmd
    refine exec_uniIns h hguard hmask hdst (func := 0x0F) rfl ?_ rfl
    simp [pReg_of_lt ha, hb, hc, hmd]

end Sys2Proof.Machine
end

section
/-! What control-flow instructions come to (R90, R91). -/

namespace Sys2Proof.Machine

/-! ### Branch targets (R90) -/

/-- OFFSET is the signed reading of the word's low 32 bits (R90). -/
theorem fieldOffset_eq (f : Fields) : fieldOffset f = ((f.b ++ f.c ++ f.md : BitVec 33).setWidth 32).toInt := by
  have hlow : (fieldImm f).setWidth 32 = (f.b ++ f.c ++ f.md : BitVec 33).setWidth 32 := by
    apply BitVec.eq_of_toNat_eq
    simp only [fieldImm_eq_append, BitVec.toNat_setWidth, toNat_append_eq, BitVec.setWidth_eq]
    omega
  rw [fieldOffset, hlow]

/-- Where a branch by OFFSET leads: words from the following instruction on (R90). -/
def branchTarget (b : Bundle) (f : Fields) : Int :=
  ((b.pc + 8 : Nat) : Int) + 8 * ((f.b ++ f.c ++ f.md : BitVec 33).setWidth 32).toInt

/-- A jump by its target. Stated of the functions themselves: applied to an instruction, the two sides would have the kernel
evaluate the target's comparisons with 2^32. -/
theorem Issue.jump_eq_elim :
    Issue.jump = fun i m b => i.branch.elim illegal (fun t => Act.done m { b with pc := t }) := by
  delta Issue.jump
  funext i m b
  cases i.branch <;> rfl

/-- A branch that has a target is taken (R90). -/
theorem Issue.jump_of_branch {i : Issue} {t : Nat} (m : Main) (b1 : Bundle) (h : i.branch = some t) :
    i.jump m b1 = .done m { b1 with pc := t } := by
  simp only [Issue.jump_eq_elim, h, Option.elim_some]

/-- A branch within the code is taken (R90). -/
theorem Issue.jump_of_inCode {i : Issue} {b : Bundle} {f : Fields} {len : Nat} (m : Main) (b1 : Bundle) (hpc : i.b.pc = b.pc)
    (hf : i.f = f) (hlen : i.la.spec.codeLen = len) (h : 0 ≤ branchTarget b f ∧ branchTarget b f < len) :
    i.jump m b1 = .done m { b1 with pc := (branchTarget b f).toNat } := by
  have htarget : branchTarget b f = (i.b.pc : Int) + 8 + 8 * fieldOffset i.f := by
    rw [fieldOffset_eq, branchTarget, hpc, hf]
    push_cast
    rfl
  rw [htarget, ← hlen] at h
  rw [htarget]
  exact Issue.jump_of_branch m b1 (if_pos h)

/-- BRU branches when its register being zero is what ZSEL asks for (R90). -/
theorem zero_beq_zsel {k : Nat} (x : BitVec k) (z : Bool) : ((x == 0) == z) = true ↔ (x = 0 ↔ z = true) := by
  cases z <;> simp

/-! ### The mask stack (R91) -/

/-- An entry that breaking threads leave when it is of an IF. -/
def MaskEntry.broken (t : Word) : MaskEntry → MaskEntry
  | .ifE x y z => .ifE (x &&& ~~~t) (y &&& ~~~t) z
  | .loopE x => .loopE x

/-- Breaking threads leave the IF entries above the innermost loop (R91). -/
theorem breakStack_of_ifs {t saved : Word} {r : List MaskEntry} {ifs : List MaskEntry} (h : ∀ e ∈ ifs, ∃ x y z, e = .ifE x y z) :
    breakStack t (ifs ++ .loopE saved :: r) = some (ifs.map (MaskEntry.broken t) ++ .loopE saved :: r) := by
  induction ifs with
  | nil => rfl
  | cons e ifs ih =>
    obtain ⟨x, y, z, rfl⟩ := h e List.mem_cons_self
    simp only [List.cons_append, breakStack, ih fun e he => h e (List.mem_cons_of_mem _ he)]
    rfl

/-! ### Instructions -/

section
variable {s : State} {br : BRef} {w : WorkGroup} {la : Launch} {b : Bundle} {f : Fields} (h : Issues s.main br w la b)
  (hguard : NoGuard f) (ha : f.a = 0)
include h hguard ha

omit h in
/-- A control-flow instruction whose fields are legal passes its checks. -/
theorem flowIns_passes {func : Nat} {dst : BitVec 7 → Bool} {zsel offset : Bool} {run : Main → Issue → Act} (hdst : dst f.dst = true)
    (hzsel : zsel = true ∨ f.b.getLsbD 6 = false)
    (hoffset : offset = true ∨ ((f.b ++ f.c ++ f.md : BitVec 33).setWidth 32).toInt = 0) :
    Passes (flowIns func dst zsel offset run) s.main (issueOf br w la b f 5 func) := by
  refine Ins.passes_of_regsReady (by simp [flowIns]) (by simp [flowIns]) (guardLegal_of_noGuard hguard _) ?_
    (by simp [RegsReady, flowIns, noRegs]) rfl rfl rfl
  have hz : (zsel || !f.b.getLsbD 6) = true := Bool.or_eq_true_iff.2 (hzsel.imp_right fun hz => by rw [hz]; rfl)
  have ho : (offset || ((f.b ++ f.c ++ f.md : BitVec 33).setWidth 32).toInt == 0) = true :=
    Bool.or_eq_true_iff.2 (hoffset.imp_right beq_iff_eq.2)
  simp only [flowIns, issueOf_f, noOffset, fieldZsel, fieldOffset_eq, ha, hdst, hz, ho, beq_self_eq_true, Bool.and_self]

/-- A control-flow instruction whose fields are legal. -/
theorem exec_of_flow {c : Instr} {func : Nat} {dst : BitVec 7 → Bool} {zsel offset : Bool} {run : Main → Issue → Act} {b1 : Bundle}
    (hexec : exec c s = onMain ((flowIns func dst zsel offset run).issue br f) s) (hdst : dst f.dst = true)
    (hzsel : zsel = true ∨ f.b.getLsbD 6 = false)
    (hoffset : offset = true ∨ ((f.b ++ f.c ++ f.md : BitVec 33).setWidth 32).toInt = 0)
    (hrun : run s.main (issueOf br w la b f 5 func) = .done s.main b1) : exec c s = .next (bundleTo s br b1) :=
  exec_of_done hexec h (flowIns_passes hguard ha hdst hzsel hoffset) hrun

/-! ### Branches, calls and returns (R90) -/

theorem exec_bra (hdst : f.dst = 0) (hz : f.b.getLsbD 6 = false)
    (hcode : 0 ≤ branchTarget b f ∧ branchTarget b f < la.spec.codeLen) :
    exec (.bra br f) s = .next (bundleTo s br { b with waiting := none, pc := (branchTarget b f).toNat }) :=
  exec_of_flow h hguard ha rfl (beq_iff_eq.2 hdst) (.inr hz) (.inl rfl) (Issue.jump_of_inCode _ _ rfl rfl rfl hcode)

/-- BRU whose register is as ZSEL asks. -/
theorem exec_bru_taken (hdst : f.dst.toNat < 64) (hzero : b.getU f.dst.toNat = 0 ↔ f.b.getLsbD 6 = true)
    (hcode : 0 ≤ branchTarget b f ∧ branchTarget b f < la.spec.codeLen) :
    exec (.bru br f) s = .next (bundleTo s br { b with waiting := none, pc := (branchTarget b f).toNat }) :=
  exec_of_flow h hguard ha rfl (uReg_of_lt hdst) (.inl rfl) (.inl rfl)
    ((if_pos ((zero_beq_zsel _ _).2 hzero)).trans (Issue.jump_of_inCode _ _ rfl rfl rfl hcode))

/-- BRU whose register is not as ZSEL asks. -/
theorem exec_bru_not_taken (hdst : f.dst.toNat < 64) (hzero : ¬(b.getU f.dst.toNat = 0 ↔ f.b.getLsbD 6 = true)) :
    exec (.bru br f) s = .next (bundleTo s br { b with waiting := none, pc := b.pc + 8 }) :=
  exec_of_flow h hguard ha rfl (uReg_of_lt hdst) (.inl rfl) (.inl rfl) (if_neg (mt (zero_beq_zsel _ _).1 hzero))

theorem exec_call (hdst : f.dst.toNat < 64) (hz : f.b.getLsbD 6 = false)
    (hcode : 0 ≤ branchTarget b f ∧ branchTarget b f < la.spec.codeLen) :
    exec (.call br f) s = .next (bundleTo s br { (b.setU f.dst.toNat (BitVec.ofNat 64 (b.pc + 8))) with
      waiting := none, pc := (branchTarget b f).toNat }) :=
  exec_of_flow h hguard ha rfl (uReg_of_lt hdst) (.inr hz) (.inl rfl) (Issue.jump_of_inCode _ _ rfl rfl rfl hcode)

theorem exec_ret (hdst : f.dst.toNat < 64) (hz : f.b.getLsbD 6 = false)
    (hoff : ((f.b ++ f.c ++ f.md : BitVec 33).setWidth 32).toInt = 0) (hword : (b.getU f.dst.toNat).toNat % 8 = 0)
    (hcode : (b.getU f.dst.toNat).toNat < la.spec.codeLen) :
    exec (.ret br f) s = .next (bundleTo s br { b with waiting := none, pc := (b.getU f.dst.toNat).toNat }) :=
  exec_of_flow h hguard ha rfl (uReg_of_lt hdst) (.inr hz) (.inr hoff) (if_pos ⟨hword, hcode⟩)

/-! ### IF, ELSE, ENDIF, LOOP, BRK and ENDLOOP (R91) -/

/-- IF with a thread that takes the branch. -/
theorem exec_if_some (hz : f.b.getLsbD 6 = false) (hdst : f.dst.toNat < 8) (hroom : b.stack.length < 32)
    (hsome : b.mask &&& b.getP f.dst.toNat ≠ 0) :
    exec (.ifd br f) s = .next (bundleTo s br { b with
      waiting := none, mask := b.mask &&& b.getP f.dst.toNat,
      stack := .ifE b.mask (b.mask &&& ~~~(b.getP f.dst.toNat)) false :: b.stack, pc := b.pc + 8 }) :=
  exec_of_flow h hguard ha rfl (pReg_of_lt hdst) (.inr hz) (.inl rfl) ((if_neg (Nat.not_le.2 hroom)).trans (if_pos hsome))

/-- IF that no thread takes goes to its ELSE. -/
theorem exec_if_none (hz : f.b.getLsbD 6 = false) (hdst : f.dst.toNat < 8) (hroom : b.stack.length < 32)
    (hnone : b.mask &&& b.getP f.dst.toNat = 0) (hcode : 0 ≤ branchTarget b f ∧ branchTarget b f < la.spec.codeLen) :
    exec (.ifd br f) s = .next (bundleTo s br { b with
      waiting := none, mask := b.mask &&& ~~~(b.getP f.dst.toNat),
      stack := .ifE b.mask (b.mask &&& ~~~(b.getP f.dst.toNat)) true :: b.stack, pc := (branchTarget b f).toNat }) :=
  exec_of_flow h hguard ha rfl (pReg_of_lt hdst) (.inr hz) (.inl rfl)
    ((if_neg (Nat.not_le.2 hroom)).trans ((if_neg (not_not.2 hnone)).trans (Issue.jump_of_inCode _ _ rfl rfl rfl hcode)))

variable {saved other : Word} {e : Bool} {r : List MaskEntry}

/-- ELSE with threads that the IF left over. -/
theorem exec_else_some (hz : f.b.getLsbD 6 = false) (hdst : f.dst = 0) (hstack : b.stack = .ifE saved other false :: r)
    (hsome : other ≠ 0) :
    exec (.elsed br f) s = .next (bundleTo s br { b with
      waiting := none, mask := other, stack := .ifE saved other true :: r, pc := b.pc + 8 }) := by
  have hstack' : b.awake.stack = .ifE saved other false :: r := hstack
  refine exec_of_flow h hguard ha rfl (beq_iff_eq.2 hdst) (.inr hz) (.inl rfl) ?_
  simp only [issueOf_b, hstack', if_neg hsome]
  rfl

/-- ELSE that no thread is left for goes to its ENDIF. -/
theorem exec_else_none (hz : f.b.getLsbD 6 = false) (hdst : f.dst = 0) (hstack : b.stack = .ifE saved other false :: r)
    (hnone : other = 0) (hcode : 0 ≤ branchTarget b f ∧ branchTarget b f < la.spec.codeLen) :
    exec (.elsed br f) s = .next (bundleTo s br { b with
      waiting := none, mask := 0, stack := .ifE saved other true :: r, pc := (branchTarget b f).toNat }) := by
  subst hnone
  have hstack' : b.awake.stack = .ifE saved 0 false :: r := hstack
  refine exec_of_flow h hguard ha rfl (beq_iff_eq.2 hdst) (.inr hz) (.inl rfl) ?_
  simp only [issueOf_b, hstack', if_true]
  exact Issue.jump_of_inCode _ _ rfl rfl rfl hcode

theorem exec_endif (hz : f.b.getLsbD 6 = false) (hdst : f.dst = 0)
    (hoff : ((f.b ++ f.c ++ f.md : BitVec 33).setWidth 32).toInt = 0) (hstack : b.stack = .ifE saved other e :: r) :
    exec (.endif br f) s = .next (bundleTo s br { b with waiting := none, mask := saved, stack := r, pc := b.pc + 8 }) := by
  have hstack' : b.awake.stack = .ifE saved other e :: r := hstack
  refine exec_of_flow h hguard ha rfl (beq_iff_eq.2 hdst) (.inr hz) (.inr hoff) ?_
  simp only [issueOf_b, hstack']
  rfl

theorem exec_loop (hz : f.b.getLsbD 6 = false) (hdst : f.dst = 0)
    (hoff : ((f.b ++ f.c ++ f.md : BitVec 33).setWidth 32).toInt = 0) (hroom : b.stack.length < 32) :
    exec (.loop br f) s = .next (bundleTo s br { b with waiting := none, stack := .loopE b.mask :: b.stack, pc := b.pc + 8 }) :=
  exec_of_flow h hguard ha rfl (beq_iff_eq.2 hdst) (.inr hz) (.inr hoff) (if_neg (Nat.not_le.2 hroom))

/-- BRK: the threads leave the loop and the IFs within it. -/
theorem exec_brk {ifs : List MaskEntry} (hz : f.b.getLsbD 6 = false) (hdst : f.dst.toNat < 8)
    (hoff : ((f.b ++ f.c ++ f.md : BitVec 33).setWidth 32).toInt = 0) (hstack : b.stack = ifs ++ .loopE saved :: r)
    (hifs : ∀ e ∈ ifs, ∃ x y z, e = .ifE x y z) :
    exec (.brk br f) s = .next (bundleTo s br { b with
      waiting := none, mask := b.mask &&& ~~~(b.mask &&& b.getP f.dst.toNat),
      stack := ifs.map (MaskEntry.broken (b.mask &&& b.getP f.dst.toNat)) ++ .loopE saved :: r, pc := b.pc + 8 }) := by
  have hbreak : breakStack (b.awake.mask &&& b.awake.getP f.dst.toNat) b.awake.stack =
      some (ifs.map (MaskEntry.broken (b.mask &&& b.getP f.dst.toNat)) ++ .loopE saved :: r) :=
    (congrArg (breakStack _) hstack).trans (breakStack_of_ifs hifs)
  refine exec_of_flow h hguard ha rfl (pReg_of_lt hdst) (.inr hz) (.inr hoff) ?_
  simp only [issueOf_b, issueOf_f, hbreak]
  rfl

/-- ENDLOOP with threads that stay in the loop. -/
theorem exec_endloop_again (hz : f.b.getLsbD 6 = false) (hdst : f.dst = 0) (hstack : b.stack = .loopE saved :: r)
    (hsome : b.mask ≠ 0) (hcode : 0 ≤ branchTarget b f ∧ branchTarget b f < la.spec.codeLen) :
    exec (.endloop br f) s = .next (bundleTo s br { b with waiting := none, pc := (branchTarget b f).toNat }) := by
  have hstack' : b.awake.stack = .loopE saved :: r := hstack
  have hsome' : b.awake.mask ≠ 0 := hsome
  refine exec_of_flow h hguard ha rfl (beq_iff_eq.2 hdst) (.inr hz) (.inl rfl) ?_
  simp only [issueOf_b, hstack']
  exact (if_pos hsome').trans (Issue.jump_of_inCode _ _ rfl rfl rfl hcode)

/-- ENDLOOP that every thread has left. -/
theorem exec_endloop_left (hz : f.b.getLsbD 6 = false) (hdst : f.dst = 0) (hstack : b.stack = .loopE saved :: r) (hnone : b.mask = 0) :
    exec (.endloop br f) s = .next (bundleTo s br { b with waiting := none, mask := saved, stack := r, pc := b.pc + 8 }) := by
  have hstack' : b.awake.stack = .loopE saved :: r := hstack
  have hnone' : b.awake.mask = 0 := hnone
  refine exec_of_flow h hguard ha rfl (beq_iff_eq.2 hdst) (.inr hz) (.inl rfl) ?_
  simp only [issueOf_b, hstack']
  exact if_neg (not_not.2 hnone')

/-! ### EXIT (R91) -/

/-- EXIT as the bundle issues it: its active threads have left every mask. -/
theorem exitIns_issue (hdst : f.dst = 0) (hz : f.b.getLsbD 6 = false)
    (hoff : ((f.b ++ f.c ++ f.md : BitVec 33).setWidth 32).toInt = 0) :
    exitIns.issue br f s.main = .next (s.main.putBundle br b.awake.exit) :=
  Ins.issue_done h (flowIns_passes hguard ha (beq_iff_eq.2 hdst) (.inr hz) (.inr hoff)) rfl

omit hguard ha in
/-- After an EXIT the bundle that ended is accounted for, and its work group with it (R100, R125). -/
theorem afterExit_of_exited : afterExit br (.next (s.main.putBundle br b.awake.exit)) = .next
    (if b.awake.exit.ended then ((s.main.putBundle br b.awake.exit).bundleEnded
        { w with bundles := modWhere w.bundles (fun x => x.idx == br.idx) (fun _ => b.awake.exit) } b.awake.exit).wgEnded w.id
      else s.main.putBundle br b.awake.exit) := by
  obtain ⟨hw, hb, -⟩ := h
  have hgroup : (s.main.putBundle br b.awake.exit).wgOf br.wg =
      some { w with bundles := modWhere w.bundles (fun x => x.idx == br.idx) (fun _ => b.awake.exit) } := by
    rw [Main.wgOf_putBundle, hw]
    simp [Main.wgOf_id hw]
  have hbundle : (s.main.putBundle br b.awake.exit).bundleOf br = some b.awake.exit := by
    rw [Main.bundleOf_putBundle (b1 := b.awake.exit) hb rfl]
    simp
  simp only [afterExit, hgroup, hbundle]
  exact (apply_ite Host.Outcome.next _ _ _).symm

/-- EXIT: the bundle afterwards, and its work group when that was the last of it. -/
theorem exec_exit (hdst : f.dst = 0) (hb : f.b = 0) (hc : f.c = 0) (hmd : f.md = 0) :
    exec (.exit br f) s = toMain s (if b.awake.exit.ended then ((s.main.putBundle br b.awake.exit).bundleEnded
        { w with bundles := modWhere w.bundles (fun x => x.idx == br.idx) (fun _ => b.awake.exit) } b.awake.exit).wgEnded w.id
      else s.main.putBundle br b.awake.exit) := by
  have hz : f.b.getLsbD 6 = false := by simp [hb]
  have hoff : ((f.b ++ f.c ++ f.md : BitVec 33).setWidth 32).toInt = 0 := by
    rw [hb, hc, hmd]
    rfl
  exact exec_eq_toMain (f := fun m => afterExit br (exitIns.issue br f m)) rfl
    ((congrArg (afterExit br) (exitIns_issue h hguard ha hdst hz hoff)).trans (afterExit_of_exited h))

end

/-- Settles O6, from what each control-flow instruction comes to. -/
theorem controlFlowResults : Obligations.ControlFlowResults := by
  refine ⟨fun s br w la b f h hguard ha => ⟨exec_bra h hguard ha, exec_bru_taken h hguard ha, exec_bru_not_taken h hguard ha,
      exec_call h hguard ha, exec_ret h hguard ha⟩,
    fun s br w la b f h hguard ha hz => ⟨fun hdst hroom => ⟨exec_if_some h hguard ha hz hdst hroom,
        exec_if_none h hguard ha hz hdst hroom⟩,
      fun saved other r hdst hstack => ⟨exec_else_some h hguard ha hz hdst hstack, exec_else_none h hguard ha hz hdst hstack⟩,
      fun saved other e r hdst hoff hstack => exec_endif h hguard ha hz hdst hoff hstack,
      exec_loop h hguard ha hz,
      fun ifs saved r hdst hoff hstack hifs => exec_brk h hguard ha hz hdst hoff hstack hifs,
      fun saved r hdst hstack => ⟨exec_endloop_again h hguard ha hz hdst hstack,
        exec_endloop_left h hguard ha hz hdst hstack⟩⟩,
    fun s br w la b f h hguard ha hdst hb hc hmd => ?exit⟩
  case exit =>
    have hexit := exec_exit h hguard ha hdst hb hc hmd
    refine ⟨fun hlive => ?_, fun hlive => ?_⟩
    · have hended : b.awake.exit.ended = false := beq_eq_false_iff_ne.2 hlive
      rw [hexit, hended]
      rfl
    · have hended : b.awake.exit.ended = true := beq_iff_eq.2 hlive
      rw [hexit, hended]
      rfl

end Sys2Proof.Machine
end

section
/-! What barriers, fences and waits of a bundle come to (R100-R103, R224-R226, R240). -/

namespace Sys2Proof.Machine

/-! ### Order and scope (R99, R224) -/

/-- An order of 2 or 3 carries a release (R99). -/
theorem Issue.releases_iff {i : Issue} : i.releases = true ↔ 2 ≤ i.order := by
  have hlt : i.order < 4 := Nat.mod_lt _ (by decide)
  unfold Issue.releases
  generalize i.order = o at hlt
  interval_cases o <;> decide

/-- An order of 1 or 3 carries an acquire (R99). -/
theorem Issue.acquires_iff {i : Issue} (h : i.order ≠ 0) : i.acquires = true ↔ i.order ≠ 2 := by
  have hlt : i.order < 4 := Nat.mod_lt _ (by decide)
  unfold Issue.acquires
  generalize i.order = o at hlt h
  interval_cases o
  · exact absurd rfl h
  all_goals decide

/-- A release has nothing to wait for when the stores and the acknowledgements that its scope covers have come (R224). -/
theorem releaseWait_none {i : Issue} {scope : Nat}
    (hstores : 1 ≤ scope → (i.w.xfers.any fun x => x.bundle == i.b.idx && x.store) = false)
    (hacks : 4 ≤ scope → i.b.rstOut = 0) : releaseWait i scope = none := by
  have hnoStore : ¬ (1 ≤ scope ∧ (i.w.xfers.any fun x => x.bundle == i.b.idx && x.store) = true) := fun ⟨hscope, hany⟩ =>
    Bool.noConfusion ((hstores hscope).symm.trans hany)
  have hnoAck : ¬ (4 ≤ scope ∧ i.b.rstOut ≠ 0) := fun ⟨hscope, hout⟩ => hout (hacks hscope)
  exact (if_neg hnoStore).trans (if_neg hnoAck)

/-- Outside checked mode nothing is compared (R240). -/
theorem Main.mismatch_of_unchecked {m : Main} {i : Issue} {scope : Nat} {rrs : List (Nat × Option RelRec)}
    (h : i.la.spec.checked = false) : m.mismatch i scope rrs = none := by
  simp [Main.mismatch, h]

/-- Records that all agree with an acquire do not trap (R240). -/
theorem Main.mismatch_of_agree {m : Main} {i : Issue} {scope : Nat} {rrs : List (Nat × Option RelRec)}
    (h : ∀ x ∈ rrs, agrees x.2 (m.posOf i.w.core scope) = true) : m.mismatch i scope rrs = none := by
  have hnone : rrs.find? (fun x => !agrees x.2 (m.posOf i.w.core scope)) = none := by
    simpa using h
  unfold Main.mismatch
  rw [hnone]
  exact ite_self _

/-- What an acquire remembers does not depend on the program counter. -/
theorem Bundle.advance_acquired (b : Bundle) (m : Main) (core scope : Nat) :
    (b.acquired m core scope).advance = b.advance.acquired m core scope := by
  unfold Bundle.acquired
  split <;> rfl

/-- The bundle after a fence: a release of more than its thread is remembered (R239). -/
def Issue.fenced (i : Issue) : Bundle :=
  { i.b with relFence := if 2 ≤ i.order ∧ i.scope ≠ 0 then some i.scope else i.b.relFence, pc := i.b.pc + 8 }

/-- A FENCE that has nothing to wait for and meets no record that disagrees (R101, R224, R240). -/
theorem fenceIns_run {m : Main} {i : Issue} (horder : i.order ≠ 0) (hwait : 2 ≤ i.order → releaseWait i i.scope = none)
    (hsame : i.order ≠ 2 → i.scope ≠ 0 → m.mismatch i i.scope (i.b.kept.map fun r => (0xFF, r)) = none) :
    fenceIns.run m i = if i.order = 2 then .done m i.fenced
      else .done (m.acquire i.w.core i.scope) (i.fenced.acquired (m.acquire i.w.core i.scope) i.w.core i.scope) := by
  have hwait' : (if i.releases then releaseWait i i.scope else none) = none := by
    split
    case isTrue hrel => exact hwait (Issue.releases_iff.1 hrel)
    case isFalse => rfl
  have hsame' : (if i.acquires && i.scope != 0 then m.mismatch i i.scope (i.b.kept.map fun r => (0xFF, r)) else none) = none := by
    split
    case isTrue hacq =>
      obtain ⟨hacquires, hwide⟩ := Bool.and_eq_true_iff.1 hacq
      exact hsame ((Issue.acquires_iff horder).1 hacquires) (bne_iff_ne.1 hwide)
    case isFalse => rfl
  have hfenced : (if i.releases && i.scope != 0 then { i.b with relFence := some i.scope } else i.b).advance = i.fenced := by
    unfold Issue.fenced
    by_cases hrel : 2 ≤ i.order ∧ i.scope ≠ 0
    · rw [if_pos hrel, if_pos (by rwa [Bool.and_eq_true_iff, Issue.releases_iff, bne_iff_ne])]
      rfl
    · rw [if_neg hrel, if_neg (by rwa [Bool.and_eq_true_iff, Issue.releases_iff, bne_iff_ne])]
      rfl
  change (match (if i.releases then releaseWait i i.scope else none) with | some x => _ | none => _) = _
  rw [hwait']
  change (match (if i.acquires && i.scope != 0 then m.mismatch i i.scope (i.b.kept.map fun r => (0xFF, r)) else none) with
    | some _ => _ | none => _) = _
  rw [hsame']
  change (if i.acquires = true then _ else _) = _
  by_cases hacq : i.order = 2
  · rw [if_pos hacq, if_neg (mt (Issue.acquires_iff horder).1 (not_not.2 hacq))]
    exact congrArg (Act.done m) hfenced
  · rw [if_neg hacq, if_pos ((Issue.acquires_iff horder).2 hacq)]
    exact congrArg (Act.done _) ((Bundle.advance_acquired _ _ _ _).trans (congrArg
      (fun x : Bundle => x.acquired (m.acquire i.w.core i.scope) i.w.core i.scope) hfenced))

section
variable {s : State} {br : BRef} {w : WorkGroup} {la : Launch} {b : Bundle} {f : Fields}

/-! ### Barriers and fences (R100, R101) -/

section
variable (h : Issues s.main br w la b) (hguard : NoGuard f)
include hguard

/-- An instruction of the bundle that names no register passes by its fields alone. -/
theorem Ins.Plain.passes_bundle {ins : Ins} {m : Main} {i : Issue} (hplain : ins.Plain) (hkind : ins.kind = .bundle) (hf : i.f = f)
    (hlegal : ins.legal i = true) : Passes ins m i := by
  obtain ⟨hreads, hwrites, hstore, haddr, hbad⟩ := hplain m i
  refine Ins.passes_of_regsReady (by simp [hkind]) (by simp [hkind]) (hf ▸ guardLegal_of_noGuard hguard _) hlegal ?_ hstore haddr
    hbad
  simp [RegsReady, hreads, hwrites]

variable (hdst : f.dst = 0) (ha : f.a = 0) (hb : f.b = 0) (hc : f.c = 0)
include h hdst ha hb hc

/-- The block after a bundle has arrived at an id: it waits, and all leave when it was the last (R100). -/
def Main.arrived (m : Main) (br : BRef) (w : WorkGroup) (b : Bundle) (id : Nat) (core : Bool) : Main :=
  (m.putBundle br { b with waiting := some (.barrier id core) }).modWg w.id
    (fun w => { w with barriers := modNth w.barriers id (fun x => maskSet x b.idx) }.leaveBarrier id)

theorem exec_barb (hmod : fieldMod f 18 4 = 0) :
    exec (.barb br f) s = toMain s ((s.main.arrived br w b (fieldMod f 3 0) false).putBundle br
      (((s.main.arrived br w b (fieldMod f 3 0) false).bundleOf br).getD b.awake)) := by
  refine exec_of_done (ins := barbIns) rfl h ?_ rfl
  refine Ins.Plain.passes_bundle hguard (fun _ _ => ⟨rfl, rfl, rfl, rfl, rfl⟩) rfl rfl ?_
  simp [barbIns, barLegal, hdst, ha, hb, hc, hmod]

/-- BARC of a bundle without transfers in flight. -/
theorem exec_barc (hmod : fieldMod f 18 4 = 0) (hxfers : (w.xfers.any fun y => y.bundle == b.idx) = false) :
    exec (.barc br f) s = toMain s ((s.main.arrived br w b (fieldMod f 3 0) true).putBundle br
      (((s.main.arrived br w b (fieldMod f 3 0) true).bundleOf br).getD b.awake)) := by
  refine exec_of_done (ins := barcIns) rfl h ?_ (if_neg fun hany => Bool.noConfusion (hxfers.symm.trans hany))
  refine Ins.Plain.passes_bundle hguard (fun _ _ => ⟨rfl, rfl, rfl, rfl, rfl⟩) rfl rfl ?_
  simp [barcIns, barLegal, hdst, ha, hb, hc, hmod]

/-- A FENCE that has nothing to wait for and meets no record that disagrees (R101, R224, R240). -/
theorem exec_fence (hmod : fieldMod f 18 16 = 0) (hlow : fieldMod f 10 0 = 0) (horder : fieldMod f 15 14 ≠ 0)
    (hscope : fieldMod f 13 11 ≤ 5)
    (hstores : 2 ≤ fieldMod f 15 14 → 1 ≤ fieldMod f 13 11 → (w.xfers.any fun y => y.bundle == b.idx && y.store) = false)
    (hacks : 2 ≤ fieldMod f 15 14 → 4 ≤ fieldMod f 13 11 → b.rstOut = 0)
    (hagree : la.spec.checked = true → fieldMod f 15 14 ≠ 2 → fieldMod f 13 11 ≠ 0 →
      ∀ r ∈ b.kept, agrees r (s.main.posOf w.core (fieldMod f 13 11)) = true) :
    (fieldMod f 15 14 = 2 → exec (.fence br f) s = .next (bundleTo s br (issueOf br w la b f 0xA 2).fenced)) ∧
    (fieldMod f 15 14 ≠ 2 → exec (.fence br f) s = toMain s ((s.main.acquire w.core (fieldMod f 13 11)).putBundle br
      ((issueOf br w la b f 0xA 2).fenced.acquired (s.main.acquire w.core (fieldMod f 13 11)) w.core (fieldMod f 13 11)))) := by
  have hpass : Passes fenceIns s.main (issueOf br w la b f 0xA 2) := by
    refine Ins.Plain.passes_bundle hguard (fun _ _ => ⟨rfl, rfl, rfl, rfl, rfl⟩) rfl rfl ?_
    simp [fenceIns, syncMod, Issue.scope, Issue.order, hdst, ha, hb, hc, hmod, hlow, horder, hscope]
  have hsame : fieldMod f 15 14 ≠ 2 → fieldMod f 13 11 ≠ 0 →
      s.main.mismatch (issueOf br w la b f 0xA 2) (fieldMod f 13 11) (b.kept.map fun r => (0xFF, r)) = none := by
    intro hacq hwide
    by_cases hchecked : la.spec.checked = true
    · refine Main.mismatch_of_agree fun x hx => ?_
      obtain ⟨r, hr, rfl⟩ := List.mem_map.1 hx
      exact hagree hchecked hacq hwide r hr
    · exact Main.mismatch_of_unchecked (eq_false_of_ne_true hchecked)
  have hrun := fenceIns_run (m := s.main) (i := issueOf br w la b f 0xA 2) horder
    (fun hrel => releaseWait_none (hstores hrel) (hacks hrel)) hsame
  exact ⟨fun horder2 => exec_of_done (ins := fenceIns) rfl h hpass (hrun.trans (if_pos horder2)),
    fun horder2 => exec_of_done (ins := fenceIns) rfl h hpass (hrun.trans (if_neg horder2))⟩

end

/-! ### Waits on counters and fences (R102, R103) -/

section
variable (hfree : la.spec.checked = false)
include hfree

/-- Outside checked mode a reached counter ends an LCWAIT, with its acquire (R102, R225). -/
theorem Main.satisfyLc_of_unchecked (m : Main) (c : Counter) : m.satisfyLc w la b f c =
    .done (m.acquire w.core (fieldMod f 13 11)) ((b.endLcwait f true c.value).acquired (m.acquire w.core (fieldMod f 13 11)) w.core
      (fieldMod f 13 11)) := by
  simp [Main.satisfyLc, Main.lcMismatch, hfree]

/-- LCWAIT on a counter that has reached the value. -/
theorem exec_lcwait_reached {c : Counter} (h : Issues s.main br w la b)
    (hp : Passes lcwaitIns s.main (issueOf br w la b f 0xA 3)) (hlc : s.main.lcOf la b f = some c)
    (hreached : (b.getU f.b.toNat).toNat ≤ c.value.toNat) :
    exec (.lcwait br f) s = toMain s ((s.main.acquire w.core (fieldMod f 13 11)).putBundle br
      ((b.endLcwait f true c.value).acquired (s.main.acquire w.core (fieldMod f 13 11)) w.core (fieldMod f 13 11))) := by
  have hlc' : s.main.lcOf la b.awake f = some c := hlc
  have hholds : b.awake.lcHolds f c = true := decide_eq_true hreached
  refine exec_of_done (ins := lcwaitIns) rfl h hp ?_
  simp only [lcwaitIns, issueOf_la, issueOf_b, issueOf_f, issueOf_w, hlc', hholds, if_true,
    Main.satisfyLc_of_unchecked hfree]
  rfl

omit hfree in
/-- LCWAIT on a counter below the value waits, until its timeout if it has one. -/
theorem exec_lcwait_below {c : Counter} (h : Issues s.main br w la b)
    (hp : Passes lcwaitIns s.main (issueOf br w la b f 0xA 3)) (hlc : s.main.lcOf la b f = some c)
    (hbelow : c.value.toNat < (b.getU f.b.toNat).toNat) :
    exec (.lcwait br f) s = .next (bundleTo s br { b with waiting := some (.counter f
      (if (b.getU f.a.toNat).toNat / 2 ^ 32 = 0 then none
        else some (s.main.time + (b.getU f.a.toNat).toNat / 2 ^ 32 * 1000))) }) := by
  have hlc' : s.main.lcOf la b.awake f = some c := hlc
  have hholds : b.awake.lcHolds f c = false := decide_eq_false (Nat.not_le.2 hbelow)
  refine exec_of_wait (ins := lcwaitIns) rfl h hp ?_
  simp only [lcwaitIns, issueOf_la, issueOf_b, issueOf_f, hlc', hholds, Bool.false_eq_true, if_false]
  rfl

section
variable {d : Option Nat} {c : Counter} (hw : s.main.wgOf br.wg = some w) (hrunning : w.state = .running)
  (hb : s.main.bundleOf br = some b) (hla : s.main.launchOf w.launch = some la) (hwaits : b.waiting = some (.counter f d))
  (hlc : s.main.lcOf la b f = some c)
include hw hrunning hb hla hwaits

omit hfree in
/-- The bundle that waits in LCWAIT, found with its work group and launch. -/
theorem Main.lcWaiter_of_waiting : s.main.lcWaiter br = some (w, la, b, f, d) := by
  simp only [Main.lcWaiter, hw, hb, hla, hwaits, hrunning, if_true]

include hlc

/-- LCWAIT_SATISFIED (R102). -/
theorem exec_lcwaitSatisfied_reached (hreached : (b.getU f.b.toNat).toNat ≤ c.value.toNat) :
    exec (.lcwaitSatisfied br) s = toMain s ((s.main.acquire w.core (fieldMod f 13 11)).putBundle br
      ((b.endLcwait f true c.value).acquired (s.main.acquire w.core (fieldMod f 13 11)) w.core (fieldMod f 13 11))) := by
  have hholds : b.lcHolds f c = true := decide_eq_true hreached
  refine exec_eq_toMain (f := Main.lcSatisfied br) rfl ?_
  simp only [Main.lcSatisfied, Main.lcWaiter_of_waiting hw hrunning hb hla hwaits, hlc, hholds, if_true,
    Main.satisfyLc_of_unchecked hfree, Main.applyAct]

omit hfree in
/-- LCWAIT_TIMEOUT of a counter that is still below the value: the clock has come to the end of the wait (R102). -/
theorem exec_lcwaitTimeout_below {t : Nat} (ht : d = some t) (hbelow : c.value.toNat < (b.getU f.b.toNat).toNat) :
    exec (.lcwaitTimeout br) s = toMain s ((s.main.until t).putBundle br (b.endLcwait f false c.value)) := by
  have hholds : b.lcHolds f c = false := decide_eq_false (Nat.not_le.2 hbelow)
  have hlc' : (s.main.until t).lcOf la b f = some c := hlc
  refine exec_eq_toMain (f := Main.lcTimeout br) rfl ?_
  simp only [Main.lcTimeout, Main.lcWaiter_of_waiting hw hrunning hb hla hwaits, ht, hlc', hholds, Bool.false_eq_true, if_false]

end

/-- FWAIT at a fence, outside checked mode (R103, R398). -/
theorem Main.fwaitAt_of_unchecked (m : Main) (x : Fence) : m.fwaitAt w la b f x =
    if x.live = false then .done m (b.endFwait f .fenceAbandoned x.value)
    else if fenceReached x.value (b.getU f.b.toNat) then .done (m.acquire w.core (fieldMod f 13 11))
      ((b.endFwait f .ok x.value).acquired (m.acquire w.core (fieldMod f 13 11)) w.core (fieldMod f 13 11))
    else .wait m (.fence f) := by
  simp [Main.fwaitAt, hfree]

/-- FWAIT comes to what its fence says. -/
theorem fwaitIns_run {x : Fence} (hx : s.main.fwaitFence la b f = some x) :
    fwaitIns.run s.main (issueOf br w la b f 0xA 4) =
      if x.live = false then .done s.main (b.awake.endFwait f .fenceAbandoned x.value)
      else if fenceReached x.value (b.getU f.b.toNat) then .done (s.main.acquire w.core (fieldMod f 13 11))
        ((b.awake.endFwait f .ok x.value).acquired (s.main.acquire w.core (fieldMod f 13 11)) w.core (fieldMod f 13 11))
      else .wait s.main (.fence f) := by
  have hx' : s.main.fwaitFence la b.awake f = some x := hx
  simp only [fwaitIns, issueOf_la, issueOf_b, issueOf_f, issueOf_w, hx', Main.fwaitAt_of_unchecked hfree]
  rfl

/-- FWAIT: a fence reached, abandoned, or not reached yet (R103, R398). -/
theorem exec_fwait (h : Issues s.main br w la b) (hp : Passes fwaitIns s.main (issueOf br w la b f 0xA 4)) {x : Fence}
    (hx : s.main.fwaitFence la b f = some x) :
    (x.live = true → fenceReached x.value (b.getU f.b.toNat) = true →
      exec (.fwait br f) s = toMain s ((s.main.acquire w.core (fieldMod f 13 11)).putBundle br
        ((b.awake.endFwait f .ok x.value).acquired (s.main.acquire w.core (fieldMod f 13 11)) w.core (fieldMod f 13 11)))) ∧
    (x.live = false → exec (.fwait br f) s = .next (bundleTo s br (b.awake.endFwait f .fenceAbandoned x.value))) ∧
    (x.live = true → fenceReached x.value (b.getU f.b.toNat) = false →
      exec (.fwait br f) s = .next (bundleTo s br { b with waiting := some (.fence f) })) := by
  have hrun := fwaitIns_run (br := br) (w := w) hfree hx
  refine ⟨fun hlive hreached => ?_, fun hlive => ?_, fun hlive hreached => ?_⟩
  · rw [hlive, hreached, if_neg Bool.noConfusion, if_pos rfl] at hrun
    exact exec_of_done (ins := fwaitIns) rfl h hp hrun
  · rw [hlive, if_pos rfl] at hrun
    exact exec_of_done (ins := fwaitIns) rfl h hp hrun
  · rw [hlive, hreached, if_neg Bool.noConfusion, if_neg Bool.noConfusion] at hrun
    exact exec_of_wait (ins := fwaitIns) rfl h hp hrun

end
end

/-- Settles O10, from what barriers, fences and waits come to. -/
theorem barriersAndWaits : Obligations.BarriersAndWaits := by
  refine ⟨fun s br w la b f h hguard hdst ha hb hc => ⟨?barrier, fun hmod hlow horder hscope hstores hacks hagree =>
      exec_fence h hguard hdst ha hb hc hmod hlow horder hscope hstores hacks hagree⟩,
    fun s br w la b f hfree => ⟨fun h hp c hlc => ⟨exec_lcwait_reached hfree h hp hlc, exec_lcwait_below h hp hlc⟩,
      fun d c hw hrunning hbundle hla hwaits hlc => ⟨exec_lcwaitSatisfied_reached hfree hw hrunning hbundle hla hwaits hlc,
        fun t ht => exec_lcwaitTimeout_below hw hrunning hbundle hla hwaits hlc ht⟩,
      fun h hp x => exec_fwait hfree h hp⟩⟩
  case barrier =>
    intro hmod
    simp only [List.forall_mem_cons, List.not_mem_nil, false_implies, implies_true, and_true]
    exact ⟨fun _ => exec_barb h hguard hdst ha hb hc hmod, fun hxfers => exec_barc h hguard hdst ha hb hc hmod (hxfers trivial)⟩

end Sys2Proof.Machine
end

section
/-! What the issue of engine descriptors comes to (R114, R140). -/

namespace Sys2Proof.Machine

/-! ### The queue of an engine (R114) -/

/-- The instruction that issues to a kind of engine. -/
def engineIns (sampler : Bool) : Ins := if sampler then sissueIns else gissueIns

/-- The engine that an issue names. -/
def Main.engineOf (m : Main) (w : WorkGroup) (f : Fields) (sampler : Bool) : Nat :=
  if sampler then 64 + w.core / 9 else m.gatherPick (w.core / 9) (fieldMod f 1 0)

/-- How many descriptors an engine holds. -/
def engineLimit (sampler : Bool) : Nat := if sampler then 32 else 64

/-- The core-store ranges that an issue's descriptor names, in the core's store. -/
def Main.descriptorRanges (m : Main) (i : Issue) (sampler : Bool) : List (Nat × Nat) :=
  (dsRanges sampler (m.descriptor i).1).map (fun r => (i.w.base + r.1, r.2))

/-- The block after a descriptor has joined its engine's queue and its launch has counted it. -/
def Main.descriptorQueued (m : Main) (i : Issue) (sampler : Bool) (e : Nat) : Main :=
  let m1 := (m.descriptor i).2.settle i.w i.b.idx (m.descriptorRanges i sampler)
  let q : EngDesc := { bytes := (m.descriptor i).1, core := i.w.core, launch := i.la.id, wg := i.w.id, ctx := i.la.ctx,
                       span := i.la.span, base := i.w.base, seed := i.la.spec.seed, checked := i.la.spec.checked }
  let m2 : Main := { m1 with eng := modNth m1.eng e (fun g => { g with queue := g.queue ++ [q] }) }
  m2.modLaunch i.la.id (fun l => { l with engines := l.engines + 1 })

section
variable {m : Main} {i : Issue} {sampler : Bool} {e limit : Nat} {g : Engine} (hg : (m.descriptor i).2.eng[e]? = some g)
include hg

theorem Main.engineIssue_full (hfull : limit ≤ g.queue.length) : m.engineIssue i sampler e limit = .wait m (.engine sampler i.f) := by
  simp only [Main.engineIssue, hg, if_pos hfull]

variable (hroom : g.queue.length < limit)
include hroom

theorem Main.engineIssue_touched (htouches : i.b.mmaTouches (m.descriptorRanges i sampler) = true) :
    m.engineIssue i sampler e limit = .wait m .tmma := by
  unfold Main.descriptorRanges at htouches
  simp only [Main.engineIssue, hg, if_neg (Nat.not_le.2 hroom), htouches, if_true]

theorem Main.engineIssue_queued (htouches : i.b.mmaTouches (m.descriptorRanges i sampler) = false)
    (hheld : (m.descriptor i).2.xfersHeld i (m.descriptorRanges i sampler) = false) :
    m.engineIssue i sampler e limit = .done (m.descriptorQueued i sampler e) i.b.advance := by
  unfold Main.descriptorRanges at htouches hheld
  simp only [Main.engineIssue, hg, if_neg (Nat.not_le.2 hroom), htouches, hheld, Bool.false_eq_true, if_false]
  rfl

end

/-! ### GISSUE, SISSUE and ENGINE_QUEUE_SPACE -/

section
variable {s : State} {br : BRef} {w : WorkGroup} {la : Launch} {b : Bundle} {f : Fields} {sampler : Bool}

/-- The instruction at issue, by the kind of engine. -/
theorem engineIns_passes (hp : Passes (engineIns sampler) s.main (issueOf br w la b f 0xC (if sampler then 1 else 0))) :
    Passes (engineIns sampler) s.main (issueOf br w la b f (engineIns sampler).cls (engineIns sampler).func) := by
  cases sampler <;> exact hp

theorem engineIns_run : (engineIns sampler).run s.main (issueOf br w la b f (engineIns sampler).cls (engineIns sampler).func) =
    s.main.engineIssue (issueOf br w la b f 0xC (if sampler then 1 else 0)) sampler (s.main.engineOf w f sampler)
      (engineLimit sampler) := by
  cases sampler <;> rfl

/-- An issue that waited for space is executed as it would have been, once its engine has space (R114). -/
theorem exec_engineQueueSpace {g : Engine} (h : Issues s.main br w la b) (hwaits : b.waiting = some (.engine sampler f))
    (hg : s.main.eng[s.main.engineOf w f sampler]? = some g) (hroom : g.queue.length < engineLimit sampler) :
    exec (.engineQueueSpace br) s = onMain ((engineIns sampler).issue br f) s := by
  obtain ⟨hw, hb, -⟩ := h
  have hissue : Main.engineSpace br s.main = (engineIns sampler).issue br f s.main := by
    unfold Main.engineOf at hg
    unfold engineLimit at hroom
    simp only [Main.engineSpace, hw, hb, hwaits, hg, if_neg (Nat.not_le.2 hroom)]
    rfl
  change onMain (Main.engineSpace br) s = _
  simp only [onMain, hissue]

end

/-- The instruction of each issuing row. -/
theorem exec_engine_row (br : BRef) (f : Fields) (s : State) :
    ∀ x ∈ ([(.gissue, false), (.sissue, true)] : List ((BRef → Fields → Instr) × Bool)),
      exec (x.1 br f) s = onMain ((engineIns x.2).issue br f) s := by
  simp only [List.forall_mem_cons, List.not_mem_nil, false_implies, implies_true, and_true]
  exact ⟨rfl, rfl⟩

/-- Settles O13, from what an engine's queue makes of an issue. -/
theorem engineIssueResults : Obligations.EngineIssueResults := by
  intro s br w la b f h x hx ins i e limit d rs hp g hg hg0
  have hexec := exec_engine_row br f s x hx
  have hpass := engineIns_passes hp
  refine ⟨fun hfull => ?full, fun hroom htouches => ?touched, fun hroom htouches hheld => ?queued⟩
  case full => exact exec_of_wait hexec h hpass (engineIns_run.trans (Main.engineIssue_full hg hfull))
  case touched => exact exec_of_wait hexec h hpass (engineIns_run.trans (Main.engineIssue_touched hg hroom htouches))
  case queued =>
    have hrun := engineIns_run.trans (Main.engineIssue_queued hg hroom htouches hheld)
    exact ⟨exec_of_done hexec h hpass hrun,
      fun hwaits => exec_of_done (exec_engineQueueSpace h hwaits hg0 hroom) h hpass hrun⟩

end Sys2Proof.Machine
end

section
/-! What accesses to core store and to span memory come to (R93-R95, R199, R205, R208, R215). -/

namespace Sys2Proof.Machine

/-! ### Orders of lanes and bundles that loads write (R93, R95) -/

/-- Accesses of which no two meet are performed in lane order (R95). -/
theorem Main.laneOrder_of_apart {α : Type} {m : Main} {range : α → Nat × Nat} {l : List α} (h : anyOverlap (l.map range) = false) :
    m.laneOrder range l = (l, m) := by
  simp [Main.laneOrder, h]

/-- Registers of a lane written leave the program counter. -/
@[simp] theorem Bundle.setVs_pc (b : Bundle) (reg lane : Nat) (ws : List Word) : (b.setVs reg lane ws).pc = b.pc := by
  induction ws generalizing b reg with
  | nil => rfl
  | cons x ws ih => exact (ih _ _).trans rfl

/-- So do the registers of several lanes. -/
theorem Bundle.foldl_setVs_pc {α : Type} (reg : Nat) (lane : α → Nat) (ws : α → List Word) (l : List α) (b : Bundle) :
    (l.foldl (fun b x => b.setVs reg (lane x) (ws x)) b).pc = b.pc :=
  List.foldlRecOn (motive := fun x : Bundle => x.pc = b.pc) l _ rfl fun x hx _ _ => (x.setVs_pc _ _ _).trans hx

/-! ### Plain loads and stores (R94) -/

section
variable {m : Main} {i : Issue} (hfree : m.laneBlocked i 11 = false) (horder : i.order = 0)

/-- What the lanes of a load are served, in order, and the block afterwards. -/
def Main.loadLanes (m : Main) (i : Issue) : List (Nat × Served) × Main :=
  i.lanes.foldl (fun (a : List (Nat × Served) × Main) l =>
    (a.1 ++ [(l, (a.2.laneLoad i l).1)], (a.2.laneLoad i l).2)) ([], m)

/-- The bundle after what its lanes were served has been written. -/
def Issue.loaded (i : Issue) (served : List (Nat × Served)) : Bundle :=
  served.foldl (fun b x => b.setVs i.f.dst.toNat x.1 (loadWords x.2.data)) i.b

/-- Without an order nothing is released. -/
theorem Issue.releases_of_plain (horder : i.order = 0) : i.releases = false := by
  rw [Issue.releases, horder]
  rfl

/-- Without an order nothing is acquired. -/
theorem Issue.acquires_of_plain (horder : i.order = 0) : i.acquires = false := by
  rw [Issue.acquires, horder]
  rfl

include hfree horder

theorem ldIns_run : ldIns.run m i = .done (m.loadLanes i).2
    { i.loaded (m.loadLanes i).1 with
      kept := keptRecords ((m.loadLanes i).1.map (fun x => (m.laneLpa i 11 x.1 / 128, x.2.rr))), pc := i.b.pc + 8 } := by
  have hpc : (i.loaded (m.loadLanes i).1).pc = i.b.pc :=
    Bundle.foldl_setVs_pc i.f.dst.toNat (fun x : Nat × Served => x.1) (fun x => loadWords x.2.data) (m.loadLanes i).1 i.b
  rw [← hpc]
  simp only [ldIns, hfree, Issue.acquires_of_plain horder, Bool.false_eq_true, if_false]
  rfl

theorem stIns_run (hchecked : i.la.spec.checked = false)
    (hapart : anyOverlap (i.lanes.map (fun l => (m.laneLpa i 11 l, i.memSize))) = false) :
    stIns.run m i = .done (i.lanes.foldl (fun m l => m.laneStore i none l) m) i.b.afterWrite.advance := by
  have hrecord : m.writeRecord i none = none := by simp [Main.writeRecord, hchecked]
  simp only [stIns, hfree, Issue.releases_of_plain horder, Bool.false_eq_true, if_false, hrecord, Main.laneOrder_of_apart hapart]

end

/-! ### Core store (R93) -/

/-- Each lane of a CSLD loads what core store holds at its address (R93). -/
theorem csldIns_run (m : Main) (i : Issue) :
    csldIns.run m i = .done (m.settle i.w i.b.idx i.csRanges)
      { (i.lanes.foldl (fun b l => b.setVs i.f.dst.toNat l
          (loadWords ((m.settle i.w i.b.idx i.csRanges).csRead i.w.core (i.csRange l).1 i.memSize))) i.b) with
        pc := i.b.pc + 8 } := by
  rw [← Bundle.foldl_setVs_pc i.f.dst.toNat (fun l => l)
    (fun l => loadWords ((m.settle i.w i.b.idx i.csRanges).csRead i.w.core (i.csRange l).1 i.memSize)) i.lanes i.b]
  rfl

section
variable {s : State} {br : BRef} {w : WorkGroup} {la : Launch} {b : Bundle} {f : Fields} (h : Issues s.main br w la b)

/-! ### Core store (R93) -/

section
include h

/-- CSLD (R93). -/
theorem exec_csld (hp : Passes csldIns s.main (issueOf br w la b f 6 0)) :
    let i := issueOf br w la b f 6 0
    let m1 := s.main.settle w b.idx i.csRanges
    exec (.csld br f) s = toMain s (m1.putBundle br
      { (i.lanes.foldl (fun b l => b.setVs f.dst.toNat l (loadWords (m1.csRead w.core (i.csRange l).1 i.memSize))) b.awake) with
        pc := b.pc + 8 }) :=
  exec_of_done (ins := csldIns) rfl h hp (csldIns_run ..)

/-- CSST of lanes of which no two meet (R93, R95). -/
theorem exec_csst (hp : Passes csstIns s.main (issueOf br w la b f 6 1))
    (hapart : anyOverlap ((lanesOf (b.effective f)).map (issueOf br w la b f 6 1).csRange) = false) :
    let i := issueOf br w la b f 6 1
    let m1 := s.main.settle w b.idx i.csRanges
    exec (.csst br f) s = toMain s ((m1.csWrite w.core (i.lanes.map (fun l => ((i.csRange l).1,
      b.laneBytes f.dst.toNat l i.memSize)))).putBundle br { b.awake with pc := b.pc + 8 }) := by
  refine exec_of_done (ins := csstIns) rfl h hp ?_
  simp only [csstIns, issueOf_lanes, Main.laneOrder_of_apart hapart]
  rfl

end

/-! ### Lines that wait (R199, R208, R215) -/

/-- The accesses of lanes whose lines wait take their places at the homes while the core's port is open (R208). -/
theorem Main.lineWait_of_open {m : Main} {i : Issue} (n : Nat) (hopen : m.portClosed i.w.core = false) :
    m.lineWait i n = .wait (m.takeTurns i.who (m.laneLines i n)) .line := by
  simp only [Main.lineWait, hopen, Bool.false_eq_true, if_false]

include h

/-- An access whose lines wait leaves the bundle waiting with its places. -/
theorem exec_of_lines {c : Instr} {ins : Ins} {n : Nat} (hexec : exec c s = onMain (ins.issue br f) s)
    (hp : Passes ins s.main (issueOf br w la b f ins.cls ins.func))
    (hrun : ins.run s.main (issueOf br w la b f ins.cls ins.func) = s.main.lineWait (issueOf br w la b f ins.cls ins.func) n)
    (hopen : s.main.portClosed w.core = false) :
    exec c s = toMain s ((s.main.takeTurns (.bundle br.wg br.idx)
      (s.main.laneLines (issueOf br w la b f ins.cls ins.func) n)).putBundle br { b with waiting := some .line }) :=
  exec_of_wait hexec h hp (hrun.trans (Main.lineWait_of_open n hopen))

/-! ### LD, ST and PREF (R94) -/

/-- A plain LD whose lines are free (R94). -/
theorem exec_ld (hp : Passes ldIns s.main (issueOf br w la b f 7 0))
    (hfree : s.main.laneBlocked (issueOf br w la b f 7 0) 11 = false) (horder : fieldMod f 15 14 = 0) :
    let i := issueOf br w la b f 7 0
    exec (.ld br f) s = toMain s ((s.main.loadLanes i).2.putBundle br
      { i.loaded (s.main.loadLanes i).1 with
        kept := keptRecords ((s.main.loadLanes i).1.map (fun x => (s.main.laneLpa i 11 x.1 / 128, x.2.rr))), pc := b.pc + 8 }) :=
  exec_of_done (ins := ldIns) rfl h hp (ldIns_run hfree horder)

/-- A plain ST outside checked mode, on free lines of which no two lanes' bytes meet (R94, R95). -/
theorem exec_st (hp : Passes stIns s.main (issueOf br w la b f 7 1))
    (hfree : s.main.laneBlocked (issueOf br w la b f 7 1) 11 = false) (horder : fieldMod f 15 14 = 0)
    (hchecked : la.spec.checked = false)
    (hapart : anyOverlap ((lanesOf (b.effective f)).map (fun l =>
      (s.main.laneLpa (issueOf br w la b f 7 1) 11 l, (issueOf br w la b f 7 1).memSize))) = false) :
    exec (.st br f) s = toMain s (((lanesOf (b.effective f)).foldl
      (fun m l => m.laneStore (issueOf br w la b f 7 1) none l) s.main).putBundle br b.awake.afterWrite.advance) :=
  exec_of_done (ins := stIns) rfl h hp (stIns_run hfree horder hchecked hapart)

theorem exec_pref (hp : Passes prefIns s.main (issueOf br w la b f 7 2)) :
    exec (.pref br f) s = toMain s (((lanesOf (b.effective f)).foldl
      (fun m l => m.lanePref (issueOf br w la b f 7 2) l) s.main).putBundle br b.awake.advance) :=
  exec_of_done (ins := prefIns) rfl h hp rfl

end

/-- Settles O7, from what each access comes to. -/
theorem memoryAccessResults : Obligations.MemoryAccessResults := by
  refine ⟨fun s br w la b f h => ⟨exec_csld h, exec_csst h⟩,
    fun s br w la b f h => ⟨fun hp hblocked hopen => ?ldWaits, fun hp hblocked hopen => ?stWaits, exec_ld h, exec_st h, exec_pref h⟩⟩
  case ldWaits => exact exec_of_lines (ins := ldIns) (n := 11) h rfl hp (if_pos hblocked) hopen
  case stWaits => exact exec_of_lines (ins := stIns) (n := 11) h rfl hp (if_pos hblocked) hopen

end Sys2Proof.Machine
end

section
/-! What the atomics of span memory come to (R96, R208, R209). -/

namespace Sys2Proof.Machine

/-! ### The operations (R96) -/

section
variable {k : Nat} (m x new : BitVec k)

theorem toInt_apply_smin : (AtomOp.smin.apply m x new).toInt = min m.toInt x.toInt := by
  simp only [AtomOp.apply, pickBy, BitVec.sle, decide_eq_true_eq, min_def]
  exact apply_ite BitVec.toInt _ _ _

theorem toInt_apply_smax : (AtomOp.smax.apply m x new).toInt = max m.toInt x.toInt := by
  simp only [AtomOp.apply, pickBy, BitVec.sle, decide_eq_true_eq, max_def]
  exact apply_ite BitVec.toInt _ _ _

theorem toNat_apply_umin : (AtomOp.umin.apply m x new).toNat = min m.toNat x.toNat := by
  simp only [AtomOp.apply, pickBy, BitVec.ule, decide_eq_true_eq, min_def]
  exact apply_ite BitVec.toNat _ _ _

theorem toNat_apply_umax : (AtomOp.umax.apply m x new).toNat = max m.toNat x.toNat := by
  simp only [AtomOp.apply, pickBy, BitVec.ule, decide_eq_true_eq, max_def]
  exact apply_ite BitVec.toNat _ _ _

/-- A floating-point addition works on the low 32 bits (R96). -/
theorem setWidth_apply_fadd (hk : 32 ≤ k) :
    (AtomOp.fadd.apply m x new).setWidth 32 = (fAdd .rne (f32 (m.setWidth 32)) (f32 (x.setWidth 32))).1 := by
  rw [AtomOp.apply, BitVec.setWidth_setWidth_of_le _ hk, BitVec.setWidth_eq]

end

/-! ### An atomic of a bundle (R96, R209) -/

/-- The results of the lanes' operations at the homes, in order, and the block afterwards. -/
def Main.atomLanes (m : Main) (i : Issue) (op : AtomOp) : List (Nat × AtomRes) × Main :=
  i.lanes.foldl (fun (a : List (Nat × AtomRes) × Main) l =>
    (a.1 ++ [(l, (a.2.laneAtomic i op none l).1)], (a.2.laneAtomic i op none l).2)) ([], m)

/-- The records that an atomic finds with its lines. -/
def Main.atomRecords (m : Main) (i : Issue) : List (Option RelRec) :=
  keptRecords (i.lanes.map (fun l => (m.laneLpa i 10 l / 128, m.lineRecord (m.laneLpa i 10 l / 128))))

/-- An atomic without order outside checked mode, on free lines of which no two lanes' bytes meet (R96, R209). -/
theorem atomIns_run {m : Main} {i : Issue} {op : AtomOp} (hfree : m.laneBlocked i 10 = false) (horder : i.order = 0)
    (hchecked : i.la.spec.checked = false)
    (hapart : anyOverlap (i.lanes.map (fun l => (m.laneLpa i 10 l, i.memSize))) = false) :
    (atomIns op).run m i =
      let r := m.atomLanes i op
      let out := r.2.atomResults i r.1
      .done out.2 { out.1 with relFence := none, pc := out.1.pc + 8, kept := m.atomRecords i } := by
  have hrecord : m.writeRecord i none = none := by simp [Main.writeRecord, hchecked]
  simp only [atomIns, hfree, Issue.releases_of_plain horder, Issue.acquires_of_plain horder, Bool.false_eq_true, if_false, hrecord,
    Main.laneOrder_of_apart hapart, List.map_map]
  rfl

/-- The instruction of each atomic row (R96). -/
theorem exec_atomic_row (br : BRef) (f : Fields) (s : State) :
    ∀ x ∈ ([(.atomicAdd, .add), (.atomicSmin, .smin), (.atomicSmax, .smax), (.atomicUmin, .umin), (.atomicUmax, .umax),
        (.atomicAnd, .and), (.atomicOr, .or), (.atomicXor, .xor), (.atomicExch, .exch), (.atomicCas, .cas),
        (.atomicFadd, .fadd)] : List ((BRef → Fields → Instr) × AtomOp)),
      exec (x.1 br f) s = onMain ((atomIns x.2).issue br f) s := by
  simp only [List.forall_mem_cons, List.not_mem_nil, false_implies, implies_true, and_true]
  exact ⟨rfl, rfl, rfl, rfl, rfl, rfl, rfl, rfl, rfl, rfl, rfl⟩

/-- Settles O8, from the operations and from what an atomic comes to. -/
theorem atomicResults : Obligations.AtomicResults := by
  refine ⟨fun k hk m x new => ⟨rfl, toInt_apply_smin m x new, toInt_apply_smax m x new, toNat_apply_umin m x new,
    toNat_apply_umax m x new, rfl, rfl, rfl, rfl, rfl, setWidth_apply_fadd m x new (by omega)⟩, ?_⟩
  intro s br w la b f h horder hchecked x hx i lanes hp
  have hexec := exec_atomic_row br f s x hx
  refine ⟨fun hblocked hopen => exec_of_lines (ins := atomIns x.2) (n := 10) h hexec hp (if_pos hblocked) hopen, fun hfree hapart => ?_⟩
  exact exec_of_done (ins := atomIns x.2) hexec h hp (atomIns_run hfree horder hchecked hapart)

end Sys2Proof.Machine
end

section
/-! What remote loads, stores and atomics come to (R97, R98, R286, R287). -/

namespace Sys2Proof.Machine

/-! ### Requests that leave (R98, R287) -/

/-- A mask with a lane has lanes. -/
theorem lanesOf_ne_nil {mask : Word} (h : mask ≠ 0) : lanesOf mask ≠ [] := by
  intro hnil
  refine h (BitVec.eq_of_getLsbD_eq fun l hl => ?_)
  have hnone := List.filter_eq_nil_iff.1 hnil l (List.mem_range.2 hl)
  simpa using hnone

/-- The block after the requests of n lanes have left, of a bundle put back as `b1`. -/
def Main.requestsSent (m : Main) (br : BRef) (launch : Nat) (b1 : Bundle) (writes : Bool) (n : Nat) (lanes : List Nat)
    (req : Main → Nat → WaitReq) : Main :=
  lanes.foldl (fun m l => m.issueReq (req m l))
    (if writes then (m.putBundle br b1).modLaunch launch (fun l => { l with rsts := l.rsts + n }) else m.putBundle br b1)

section
variable {m : Main} {i : Issue} {ret : Option (Nat × Nat)} {writes : Bool} {req : Main → Nat → WaitReq} {b1 : Bundle}
  (hapart : anyOverlap (i.lanes.map fun l => (i.remRank l * 2 ^ 52 + i.remAddr l, i.remSize)) = false)
include hapart

/-- The first n lanes send their requests and the others are left (R287). -/
theorem Main.remIssue_sends {n : Nat} (hn : (if i.remOrd then min i.lanes.length (64 - i.b.ordOut) else i.lanes.length) = n)
    (hpos : n ≠ 0) (hb1 : i.leaves (i.lanes.take n) (i.lanes.drop n) ret writes = b1) :
    m.remIssue i ret writes req = .done (m.requestsSent i.br i.la.id b1 writes n (i.lanes.take n) req)
      (((m.requestsSent i.br i.la.id b1 writes n (i.lanes.take n) req).bundleOf i.br).getD b1) := by
  simp only [Main.remIssue, Main.laneOrder_of_apart hapart, hn, if_neg hpos, hb1]
  rfl

/-- Where there is room for the requests of all lanes, all leave (R98, R287). -/
theorem Main.remIssue_all (hroom : i.remOrd = true → i.b.ordOut + i.lanes.length ≤ 64) (hlanes : i.lanes ≠ [])
    (hb1 : i.leaves i.lanes [] ret writes = b1) :
    m.remIssue i ret writes req = .done (m.requestsSent i.br i.la.id b1 writes i.lanes.length i.lanes req)
      (((m.requestsSent i.br i.la.id b1 writes i.lanes.length i.lanes req).bundleOf i.br).getD b1) := by
  have hn : (if i.remOrd then min i.lanes.length (64 - i.b.ordOut) else i.lanes.length) = i.lanes.length := by
    split
    case isTrue hord =>
      have hle := hroom hord
      exact Nat.min_eq_left (by omega)
    case isFalse => rfl
  have hall := Main.remIssue_sends (m := m) (ret := ret) (writes := writes) (req := req) (b1 := b1) hapart hn
    (mt List.length_eq_zero_iff.1 hlanes) (by rwa [List.take_length, List.drop_length])
  rwa [List.take_length] at hall

end

/-- With 64 ordered requests outstanding none leaves (R287). -/
theorem Main.remIssue_full {m : Main} {i : Issue} {ret : Option (Nat × Nat)} {writes : Bool} {req : Main → Nat → WaitReq}
    (hord : i.remOrd = true) (hfull : i.b.ordOut = 64) : m.remIssue i ret writes req = .wait m .ordered := by
  unfold Main.remIssue
  simp only [hord, hfull, if_true, Nat.sub_self, Nat.min_zero]

/-- The registers that await the answers of some lanes. -/
def pendingOf (ret : Option (Nat × Nat)) (lanes : List Nat) : List PendReg :=
  match ret with
  | some (r, k) => lanes.map (fun l => ⟨r, k, l⟩)
  | none => []

/-- The bundle whose every lane has sent its request goes on (R98). -/
theorem Issue.leaves_all {i : Issue} (hsent : i.b.sent = 0) (lanes : List Nat) (ret : Option (Nat × Nat)) (writes : Bool) :
    i.leaves lanes [] ret writes = { i.b with
      pend := i.b.pend ++ pendingOf ret lanes, ordOut := i.b.ordOut + (if i.remOrd then lanes.length else 0),
      rstOut := i.b.rstOut + (if writes then lanes.length else 0), relFence := if writes then none else i.b.relFence,
      pc := i.b.pc + 8 } := by
  cases writes <;> simp only [Issue.leaves, List.isEmpty_nil, if_true, ← hsent] <;> rfl

/-- The bundle of which some lanes have sent their stores and others are left waits for the rest (R287). -/
theorem Issue.leaves_some {i : Issue} (hsent : i.b.sent = 0) (lanes : List Nat) {left : List Nat} (hleft : left ≠ []) :
    i.leaves lanes left none true = { i.b with
      waiting := some .ordered, sent := lanes.foldl (fun x l => x ||| 1#32 <<< l) 0,
      ordOut := i.b.ordOut + (if i.remOrd then lanes.length else 0), rstOut := i.b.rstOut + lanes.length } := by
  have hmore : left.isEmpty = false := by simpa using hleft
  simp only [Issue.leaves, hmore, Bool.false_eq_true, if_false, if_true, List.append_nil, hsent]

section
variable {s : State} {br : BRef} {w : WorkGroup} {la : Launch} {b : Bundle} {f : Fields} (h : Issues s.main br w la b)
include h

/-- An instruction of the class of which all lanes send their requests. -/
theorem exec_of_requests {c : Instr} {ins : Ins} {ret : Option (Nat × Nat)} {writes : Bool} {req : Main → Nat → WaitReq}
    (hkind : ins.kind = .thread) (hexec : exec c s = onMain (ins.issue br f) s)
    (hp : Passes ins s.main (issueOf br w la b f ins.cls ins.func))
    (hrun : ins.run s.main (issueOf br w la b f ins.cls ins.func) =
      s.main.remIssue (issueOf br w la b f ins.cls ins.func) ret writes req)
    (hroom : f.md.getLsbD 18 = true → b.ordOut + (lanesOf (b.effective f)).length ≤ 64)
    (hapart : anyOverlap ((issueOf br w la b f ins.cls ins.func).lanes.map fun l =>
      ((issueOf br w la b f ins.cls ins.func).remRank l * 2 ^ 52 + (issueOf br w la b f ins.cls ins.func).remAddr l,
        (issueOf br w la b f ins.cls ins.func).remSize)) = false) :
    let lanes := lanesOf (b.effective f)
    let b1 : Bundle := { b with
      waiting := none, pend := b.pend ++ pendingOf ret lanes,
      ordOut := b.ordOut + (if f.md.getLsbD 18 then lanes.length else 0),
      rstOut := b.rstOut + (if writes then lanes.length else 0), relFence := if writes then none else b.relFence, pc := b.pc + 8 }
    let m1 := s.main.requestsSent br la.id b1 writes lanes.length lanes req
    exec c s = toMain s (m1.putBundle br ((m1.bundleOf br).getD b1)) := by
  have hord : (issueOf br w la b f ins.cls ins.func).remOrd = f.md.getLsbD 18 := bit_toNat _ _
  obtain ⟨hmask, -⟩ := id hp
  obtain ⟨-, -, -, -, -, -, -, -, hsent, -⟩ := id h
  have hleaves := Issue.leaves_all (i := issueOf br w la b f ins.cls ins.func) hsent (lanesOf (b.effective f)) ret writes
  rw [hord] at hleaves
  exact exec_of_done hexec h hp (hrun.trans (Main.remIssue_all hapart (fun ho => hroom (hord.symm.trans ho))
    (lanesOf_ne_nil (hmask hkind)) hleaves))

end

/-- The instruction of each row of a remote atomic (R97). -/
theorem exec_ratom_row (br : BRef) (f : Fields) (s : State) :
    ∀ x ∈ ([(.ratomAdd, .add), (.ratomSmin, .smin), (.ratomSmax, .smax), (.ratomUmin, .umin), (.ratomUmax, .umax),
        (.ratomAnd, .and), (.ratomOr, .or), (.ratomXor, .xor), (.ratomExch, .exch), (.ratomCas, .cas),
        (.ratomFadd, .fadd)] : List ((BRef → Fields → Instr) × AtomOp)),
      exec (x.1 br f) s = onMain ((ratomIns x.2).issue br f) s := by
  simp only [List.forall_mem_cons, List.not_mem_nil, false_implies, implies_true, and_true]
  exact ⟨rfl, rfl, rfl, rfl, rfl, rfl, rfl, rfl, rfl, rfl, rfl⟩

/-- The operand bytes that a remote atomic carries: CAS's new value after x (R97). -/
theorem Issue.atomOperands_append (i : Issue) (op : AtomOp) (reg n l : Nat) :
    (i.atomOperands op reg n l).1 ++ (i.atomOperands op reg n l).2 =
      i.b.laneBytes reg l n ++ (if op = .cas then i.b.laneBytes (reg + sizeRegs n) l n else []) := by
  simp [Issue.atomOperands, AtomOp.pair]

/-- The request of a lane, from the bundle's registers and the fields (R97). -/
theorem Main.remReq_issueOf (m : Main) (br : BRef) (w : WorkGroup) (la : Launch) (b : Bundle) (f : Fields) (cls func op l : Nat)
    (data : List Byte) (lc : Nat) (rr : Option RelRec) (who : Requester) :
    m.remReq (issueOf br w la b f cls func) op l data lc rr who =
      { issuer := w.core, slot := m.slotOf la.ctx, span := la.span, rank := (issueOf br w la b f cls func).remRank l, op := op,
        addr := (issueOf br w la b f cls func).remAddr l, len := 2 ^ fieldMod f 3 1, data := data, poison := false,
        ord := f.md.getLsbD 18, lc := lc, rr := rr, who := who } := by
  simp only [Main.remReq, Issue.remOrd, bit_toNat]
  rfl

/-- MOD[0] asks for the old value (R97). -/
theorem ratomRet_issueOf (br : BRef) (w : WorkGroup) (la : Launch) (b : Bundle) (f : Fields) (cls func : Nat) :
    (issueOf br w la b f cls func).ratomRet = f.md.getLsbD 0 := bit_toNat _ _

/-- Registers are pending where the old value is asked for. -/
theorem append_pendingOf_ite (l : List PendReg) (r : Bool) (x : Nat × Nat) (lanes : List Nat) :
    l ++ pendingOf (if r then some x else none) lanes = if r then l ++ lanes.map (fun j => ⟨x.1, x.2, j⟩) else l := by
  cases r
  · exact List.append_nil l
  · rfl

/-- Of more than 64 ordered stores the first leave, and the bundle waits at the others (R287). -/
theorem exec_rst_some {s : State} {br : BRef} {w : WorkGroup} {la : Launch} {b : Bundle} {f : Fields} (h : Issues s.main br w la b)
    {k : Nat} (hord : f.md.getLsbD 18 = true) (hpos : 0 < k) (hlt : k < (lanesOf (b.effective f)).length) (hfull : b.ordOut + k = 64)
    (hp : Passes rstIns s.main (issueOf br w la b f 9 1))
    (hapart : anyOverlap ((lanesOf (b.effective f)).map fun l => ((issueOf br w la b f 9 1).remRank l * 2 ^ 52 +
      (issueOf br w la b f 9 1).remAddr l, (issueOf br w la b f 9 1).remSize)) = false) :
    let sent := (lanesOf (b.effective f)).take k
    let b2 : Bundle := { b with
      waiting := some .ordered, sent := sent.foldl (fun x l => x ||| 1#32 <<< l) 0, ordOut := 64, rstOut := b.rstOut + k }
    let m2 := s.main.requestsSent br la.id b2 true k sent fun m l => m.remReq (issueOf br w la b f 9 1) 0x30 l
      (b.laneBytes f.dst.toNat l (2 ^ fieldMod f 3 1)) (fieldMod f 17 4) (s.main.writeRecord (issueOf br w la b f 9 1) none)
      (.rst br la.id)
    exec (.rst br f) s = toMain s (m2.putBundle br ((m2.bundleOf br).getD b2)) := by
  intro sent b2 m2
  have hord' : (issueOf br w la b f 9 1).remOrd = true := (bit_toNat _ _).trans hord
  have hlen : sent.length = k := List.length_take_of_le hlt.le
  have hout : (issueOf br w la b f 9 1).b.ordOut = b.ordOut := rfl
  have hn : (if (issueOf br w la b f 9 1).remOrd then
      min (issueOf br w la b f 9 1).lanes.length (64 - (issueOf br w la b f 9 1).b.ordOut)
    else (issueOf br w la b f 9 1).lanes.length) = k := by
    rw [if_pos hord', hout, issueOf_lanes]
    omega
  obtain ⟨-, -, -, -, -, -, -, -, hsent, -⟩ := id h
  have hleaves : (issueOf br w la b f 9 1).leaves sent ((lanesOf (b.effective f)).drop k) none true = b2 := by
    rw [Issue.leaves_some (i := issueOf br w la b f 9 1) hsent sent (by simpa using hlt), hord', hlen, if_pos rfl, hout, hfull]
    rfl
  exact exec_of_done (ins := rstIns) rfl h hp (Main.remIssue_sends hapart hn hpos.ne' hleaves)

/-- Settles O9, from the requests that leave for the lanes. -/
theorem remoteResults : Obligations.RemoteResults := by
  intro s br w la b f h lanes n ord room i pend req go apart
  refine ⟨?rld, ?rst, ?ratom, ?some, ?none⟩
  case rld =>
    intro hroom hp hapart
    have hsends := exec_of_requests h (c := .rld br f) (ins := rldIns) rfl rfl hp rfl hroom hapart
    simp only [Main.remReq_issueOf] at hsends
    exact hsends
  case rst =>
    intro hroom hp hapart
    have hsends := exec_of_requests h (c := .rst br f) (ins := rstIns) rfl rfl hp rfl hroom hapart
    simp only [Main.remReq_issueOf, pendingOf, List.append_nil] at hsends
    exact hsends
  case ratom =>
    intro x hx func hroom hp hapart ret
    have hsends := exec_of_requests h (ins := ratomIns x.2) rfl (exec_ratom_row br f s x hx) hp rfl hroom hapart
    simp only [Main.remReq_issueOf, Issue.atomOperands_append, ratomRet_issueOf, append_pendingOf_ite] at hsends
    exact hsends
  case some =>
    intro k hord hpos hlt hfull hp hapart
    have hsends := exec_rst_some h hord hpos hlt hfull hp hapart
    simp only [Main.remReq_issueOf] at hsends
    exact hsends
  case none =>
    intro hord hfull
    have hord' (func : Nat) : (issueOf br w la b f 9 func).remOrd = true := (bit_toNat _ _).trans hord
    exact ⟨fun hp => exec_of_wait (ins := rldIns) rfl h hp (Main.remIssue_full (hord' 0) hfull),
      fun hp => exec_of_wait (ins := rstIns) rfl h hp (Main.remIssue_full (hord' 1) hfull)⟩

end Sys2Proof.Machine
end

section
/-! What requests at the homes of lines come to (R96, R191, R205-R209, R212). -/

namespace Sys2Proof.Machine

/-! ### A request arrives (R206, R208) -/

section
variable {m : Main} {r : HomeReq} (hbacked : m.mem.backed (r.line * 128) = true)
include hbacked

/-- A request that nothing holds back is served (R209). -/
theorem Main.atHome_served (hgo : m.mustWait r.line = false) : m.atHome r = .next (m.serveHome r) := by
  simp [Main.atHome, hbacked, hgo]

/-- A request for a line that is held back waits in its turn where there is room (R208). -/
theorem Main.atHome_waits (hwait : m.mustWait r.line = true)
    (hroom : (m.coh.waiting.filter (fun x => homeOf x.line == homeOf r.line)).length < 1024) :
    m.atHome r = .next (m.waitHome r) := by
  simp [Main.atHome, hbacked, hwait, hroom]

end

/-- A line that is held back, or that another request waits for, has a request wait (R208). -/
theorem Main.mustWait_of_held {m : Main} {line : Nat}
    (h : m.lineBlocked line = true ∨ ∃ x ∈ m.coh.waiting, x.line = line) : m.mustWait line = true := by
  unfold Main.mustWait Main.lineHeldFor
  rcases h with hblocked | ⟨x, hx, hline⟩
  · rw [hblocked, Bool.true_or]
  · have hsome : (m.coh.waiting.find? fun r => r.line == line).isSome = true :=
      List.find?_isSome.2 ⟨x, hx, beq_iff_eq.2 hline⟩
    obtain ⟨y, hy⟩ := Option.isSome_iff_exists.1 hsome
    rw [hy]
    exact Bool.or_true _

/-- While a request waits its line's entry is BUSY (R206). -/
theorem Main.busy_of_waitHome {m : Main} {r : HomeReq} {e : DirEntry} (he : e ∈ (m.waitHome r).coh.dir) (hline : e.line = r.line) :
    e.busy = true := by
  obtain ⟨x, -, rfl⟩ := List.mem_map.1 he
  by_cases hx : (x.line == r.line) = true
  · simp [hx]
  · simp [hx] at hline
    simp [hline] at hx

/-! ### Requests of caching agents (R205, R209) -/

section
variable {s : State} {agent line : Nat} {ecc : Ecc} (hagent : agent < 320) (hlive : agent ∉ s.main.coh.dead)
include hagent hlive

/-- The miss of a live agent on a line that it may hold goes to the line's home. -/
theorem exec_readShared_of_miss {ctx : Option Nat} {m : Main} (hnone : s.main.coh.copyOf agent line = none)
    (hown : isL2 agent = true → s.main.inOwnExtent agent line = true) (hm : s.main.atHome (.rd agent line ecc ctx) = .next m) :
    exec (.readShared agent line ecc ctx) s = toMain s m := by
  refine exec_eq_toMain (f := Main.readMiss agent line ecc ctx) rfl ?_
  have hl2 : (isL2 agent && !s.main.inOwnExtent agent line) = false := by
    cases hk : isL2 agent
    · rfl
    · rw [hown hk]
      rfl
  simp [Main.readMiss, Nat.not_le.2 hagent, hlive, hnone, hl2, hm]

/-- The store miss, or the upgrade, of a live L1 goes to the line's home. -/
theorem exec_rdx_of_miss {m : Main} (hl1 : isL2 agent = false) (hshared : ∀ c, s.main.coh.copyOf agent line = some c → c.st = .s)
    (hm : s.main.atHome (.rdx agent line ecc) = .next m) : exec (.rdx agent line ecc) s = toMain s m := by
  refine exec_eq_toMain (f := Main.ownMiss agent line ecc) rfl ?_
  cases hcopy : s.main.coh.copyOf agent line with
  | none => simp [Main.ownMiss, Nat.not_le.2 hagent, hlive, hl1, hcopy, hm]
  | some c => simp [Main.ownMiss, Nat.not_le.2 hagent, hlive, hl1, hcopy, hshared c hcopy, hm]

end

/-- A read grants E to an L1 that finds the line unlisted, and S otherwise (R205). -/
theorem Main.homeRD_e_iff (m : Main) (agent line : Nat) :
    (m.homeRD agent line).1 = .e ↔ m.coh.entryOf line = none ∧ isL2 agent = false := by
  have hcoh : (m.countServe line).coh = m.coh := by
    unfold Main.countServe
    split <;> rfl
  simp only [Main.homeRD, hcoh]
  cases m.coh.entryOf line with
  | none => cases isL2 agent <;> simp
  | some e => cases hst : e.st <;> simp [hst]

/-! ### Writes and atomics of uncached agents (R96, R209, R212) -/

/-- Bytes within a line that an uncached agent writes go to the line's home. -/
theorem exec_iwp_of_within {s : State} {line off : Nat} {bytes : List Byte} {m : Main} (hsome : bytes ≠ [])
    (hlen : off + bytes.length ≤ 128) (hm : s.main.atHome (.iw line off bytes false) = .next m) :
    exec (.iwp line off bytes) s = toMain s m := by
  refine exec_eq_toMain (f := Main.writeUncached line off bytes false) rfl ?_
  simpa [Main.writeUncached, hsome, Nat.not_lt.2 hlen] using hm

/-- A whole line that an uncached agent writes goes to its home. -/
theorem exec_iwf_of_whole {s : State} {line : Nat} {bytes : List Byte} {m : Main} (hlen : bytes.length = 128)
    (hm : s.main.atHome (.iw line 0 bytes false) = .next m) : exec (.iwf line bytes) s = toMain s m := by
  refine exec_eq_toMain (f := Main.writeUncached line 0 bytes true) rfl ?_
  have hsome : bytes ≠ [] := by
    rintro rfl
    cases hlen
  simpa [Main.writeUncached, hsome, hlen] using hm

/-- A write of a whole line drops what copies hold; of a part of it, what owners hold is written back first (R209). -/
theorem homeWrite_whole_line {m : Main} {line : Nat} {bytes : List Byte} (hlen : bytes.length = 128) :
    m.homeWrite line 0 bytes false = ((m.bump 1 4 (homeOf line) 1).discardLine line).memWrite line bytes false :=
  if_pos ⟨rfl, hlen⟩

theorem homeWrite_part_line {m : Main} {line off : Nat} {bytes : List Byte} (hlen : bytes.length ≠ 128) :
    m.homeWrite line off bytes false =
      let m1 := (m.bump 1 4 (homeOf line) 1).recallLine line
      m1.memWrite line (putAt (m1.mem.line line) off bytes) (m1.mem.bad line) := by
  refine (if_neg fun h => hlen h.2).trans ?_
  simp only [Main.homeIWP, Main.clearLine, Bool.or_false]

/-- An atomic of 4 or 8 bytes at its own alignment goes to its line's home (R96). -/
theorem exec_homeAtomic_of_aligned {s : State} {lpa size : Nat} {op : AtomOp} {x new : BitVec 64} {m : Main}
    (hsize : size = 4 ∨ size = 8) (halign : lpa % size = 0) (hfadd : op = .fadd → size = 4)
    (hm : s.main.atHome (.atom lpa op size x new) = .next m) : exec (.homeAtomic lpa op size x new) s = toMain s m := by
  refine exec_eq_toMain (f := Main.atomUncached lpa op size x new) rfl ((if_neg ?_).trans hm)
  rcases hsize with rfl | rfl
  · simp [halign]
  · have hop : op ≠ .fadd := fun h => absurd (hfadd h) (by decide)
    simp [halign, hop]

/-- Settles O30, from what a request comes to when it arrives and from what its home does when it serves it. -/
theorem homeRequests : Obligations.HomeRequests := by
  refine ⟨fun s line ecc hbacked hheld hroom => ?waits, fun s line ecc hbacked hblocked hwaiting => ?served⟩
  case waits =>
    have hwait := Main.mustWait_of_held hheld
    refine ⟨fun agent ctx hagent hlive hnone hown => ?_, ?_, fun r => ⟨rfl, rfl, fun e => Main.busy_of_waitHome⟩⟩
    · exact exec_readShared_of_miss hagent hlive hnone hown (Main.atHome_waits (r := .rd agent line ecc ctx) hbacked hwait hroom)
    · exact exec_eq_toMain (f := Main.readUncached line ecc) rfl
        (Main.atHome_waits (r := .ur line ecc) hbacked hwait hroom)
  case served =>
    have hgo := Main.mustWait_of_free hblocked hwaiting
    intro m0
    refine ⟨fun agent hagent hlive => ⟨fun ctx hnone hown => ⟨?_, Main.homeRD_e_iff _ agent line⟩, fun hl1 hshared => ?_⟩, ?_,
      fun bytes hlen => ?whole, fun off bytes hsome hlen hpart => ?part, fun lpa op size x new hline hsize halign hfadd => ?atomic⟩
    · exact exec_readShared_of_miss hagent hlive hnone hown (Main.atHome_served (r := .rd agent line ecc ctx) hbacked hgo)
    · exact exec_rdx_of_miss hagent hlive hl1 hshared (Main.atHome_served (r := .rdx agent line ecc) hbacked hgo)
    · exact exec_eq_toMain (f := Main.readUncached line ecc) rfl (Main.atHome_served (r := .ur line ecc) hbacked hgo)
    case whole =>
      have hserved := Main.atHome_served (r := .iw line 0 bytes false) hbacked hgo
      have hiwf := exec_iwf_of_whole hlen hserved
      have hsome : bytes ≠ [] := by
        rintro rfl
        cases hlen
      exact ⟨hiwf.trans (congrArg (toMain s) (homeWrite_whole_line hlen)),
        (exec_iwp_of_within hsome (by omega) hserved).trans hiwf.symm⟩
    case part =>
      exact (exec_iwp_of_within hsome hlen (Main.atHome_served (r := .iw line off bytes false) hbacked hgo)).trans
        (congrArg (toMain s) (homeWrite_part_line hpart))
    case atomic =>
      subst hline
      exact exec_homeAtomic_of_aligned hsize halign hfadd
        (Main.atHome_served (r := .atom lpa op size x new) hbacked hgo)

end Sys2Proof.Machine
end
